-- ==== Sys2Proof/Word.lean ====
section
/-!
DEFINITION. The word types of the part and their plainest arithmetic. Bit vectors stand where the spec counts bits
(registers, fields, Reel); plain numbers stand where it counts things.
-/
namespace Sys2Proof

/-- A byte of a frame, of an argument, of a buffer or of the store. -/
abbrev Byte := BitVec 8
/-- A register word of the map (25.1: 16-bit words). -/
abbrev Reg16 := BitVec 16
/-- A Spool working register (Table 7-4). -/
abbrev Reg32 := BitVec 32
/-- A Reel value: 48 bits of 1/24 MHz ticks (R14, R435). -/
abbrev Tick := BitVec 48
/-- The tenants T0 to T3 (0.5.3). -/
abbrev Tenant := Fin 4
/-- Port numbers: 0 SPI-A, 1 SPI-B, 2 I2C, 3 UART (Table 4-2). -/
abbrev Port := Fin 4
/-- Byte strings of frames, arguments, keys and messages. -/
abbrev Bytes := List Byte

/-- A reflection vector, as real and imaginary part (11.6, 21.2). -/
structure Gamma where
  re : Rat
  im : Rat
  deriving DecidableEq, Repr

end Sys2Proof
end

