-- ==== Sys2Proof/Syntax.lean ====
section
/-!
DEFINITION. The commands and happenings that drive the part: one constructor per row of the table of operations and
events. A Keel command carries its tenant, its SEQ and its raw argument bytes; a register access carries the REG
command it is; a Spool instruction carries its context and the fields of its word; a happening carries the Reel tick
at which it comes and what the world outside decides in it.
-/
namespace Sys2Proof

/-- A Keel command as a frame brings it: the tenant that sent it, the frame's SEQ and the argument bytes that follow
OPCODE (Tables 4-5, 4-7; 6.1). -/
structure Cmd where
  t    : Tenant
  seq  : BitVec 16
  args : Bytes
  deriving DecidableEq, Repr

/-- One Survey sample: supplies in mV and die temperature in 0.1 °C (R548, R549). -/
structure Sample where
  vin : Nat
  vpa : Nat
  vio : Nat
  vhu : Nat
  temp : Int
  deriving DecidableEq, Repr

/-- How a calibration went: at the first attempt or its repeat (`ok`), or failed twice (R261). -/
inductive Cal where
  | ok | failed
  deriving DecidableEq, Repr

/-- A backscatter reply as it reaches the receiver: its bits as bytes, the first in bit 7, and their count; the Reel tick at which its
preamble began; whether its bits can be told (they cannot where two tags answered at once); its measured rate in Hz; RSSI (signed
dBm) and phase (R245, R292). -/
structure Reply where
  bytes   : Bytes
  bits    : Nat
  begun   : BitVec 48
  decoded : Bool
  rateHz  : Nat
  rssi    : BitVec 8
  phase   : BitVec 8
  deriving DecidableEq, Repr

/-- A received link frame as the PHY hands it on: lane (SF code 0–4, 5 S-mode), the Reel tick at which its SFD was found, PSDU
with its FCS, RSSI, EVM in 0.1 % and the kept aerial (R401). -/
structure RxFrame where
  lane  : Fin 6
  sfd   : BitVec 48
  psdu  : Bytes
  rssi  : BitVec 8
  evm   : Nat
  lkb   : Bool
  deriving DecidableEq, Repr

/-- The four synthesizer and radio core names used by happenings: the reader core or the link core. -/
inductive CoreId where
  | reader | link
  deriving DecidableEq, Repr

/-- How a host's transaction reaches a port: the level of SCK at the falling edge of NCS (SPI, R98), the seven bits of the
address byte (I2C, R46), and whether the frame is the first of its read transaction (Table 4-3). A port looks only at
what its bus has. -/
structure Bus where
  sckHigh : Bool
  addr    : BitVec 7
  first   : Bool
  deriving DecidableEq, Repr

/-- Which port-wake edge woke the part (R69). -/
inductive Edge where
  | spaNcs | spbNcs | uaRxd | i2cStart
  deriving DecidableEq, Repr

/-- The resources of Table 22-2 that a Mend finding can name. -/
inductive MendRes where
  | row (bank : Fin 16) (row : BitVec 8)
  | lane (n : Fin 8)
  | adc (n : Fin 3)
  | lna (n : Fin 2)
  | syn (c : CoreId)
  | keySlot (k : Fin 48)
  deriving DecidableEq, Repr

/-- What a start finds: failed attempts at the root before one that succeeds (4 or more: none succeeds), helper copies and Mend
map copies whose CRC is good, faults of the self-test, whether the DRBG's first entropy passes its tests, slots whose stored
record cannot be read or whose two counter records are both bad, and pages of tenant areas found with a double-bit error
(R460, R461, R488, R517, R529, R567, R576, R638). -/
structure StartFinds where
  rootFails : Nat
  helper    : BitVec 3
  mapCopies : BitVec 3
  faults    : List MendRes
  entropyOk : Bool
  badRecs   : List (Fin 48)
  badUses   : List (Fin 48)
  badFrames : List (Fin 48)
  badPages  : List (Tenant × Nat)
  deriving DecidableEq, Repr

/-- The table of operations and events, one constructor per row. -/
inductive Instr where
  -- Keel commands (chapter 6)
  | sysInfo (c : Cmd)
  | sysSleep (c : Cmd)
  | sysReset (c : Cmd) (vhu : Nat) (f : StartFinds)
  | sysPatch (c : Cmd)
  | regRead (c : Cmd)
  | regWrite (c : Cmd)
  | tenBind (c : Cmd)
  | tenLock (c : Cmd)
  | tenShare (c : Cmd)
  | rdrInventory (c : Cmd)
  | rdrStop (c : Cmd)
  | rdrAccess (c : Cmd)
  | rdrSniff (c : Cmd)
  | rdrBaseline (c : Cmd) (bursts : List Gamma)
  | rdrRunSpool (c : Cmd)
  | rdrReset (c : Cmd)
  | tagEnable (c : Cmd)
  | tagDisable (c : Cmd)
  | tagPublish (c : Cmd)
  | secTam1 (c : Cmd)
  | secFarzOpen (c : Cmd)
  | secFarzSend (c : Cmd)
  | secClose (c : Cmd)
  | lnkNode (c : Cmd)
  | lnkSend (c : Cmd)
  | lnkListen (c : Cmd)
  | lnkCancel (c : Cmd)
  | lnkRunSpool (c : Cmd)
  | lnkReset (c : Cmd)
  | nbrList (c : Cmd)
  | nbrForget (c : Cmd)
  | radioStatus (c : Cmd)
  | coexConfig (c : Cmd)
  | radioHoptable (c : Cmd)
  | tmrRead (c : Cmd)
  | tmrCmp (c : Cmd)
  | tmrDc (c : Cmd)
  | tmrGo (c : Cmd)
  | tmrCap (c : Cmd)
  | tmrOut (c : Cmd)
  | keyDerive (c : Cmd)
  | keyUnwrap (c : Cmd)
  | keyErase (c : Cmd)
  | keyInvalidate (c : Cmd)
  | keyInfo (c : Cmd)
  | keyTamper (c : Cmd) (pinHigh : Bool)
  | rngGet (c : Cmd)
  | cryptoAes (c : Cmd)
  | cryptoCcm (c : Cmd)
  | cryptoCmac (c : Cmd)
  | cryptoReset (c : Cmd)
  | mbxBind (c : Cmd)
  | mbxLock (c : Cmd)
  | mbxWrite (c : Cmd)
  | mbxRead (c : Cmd)
  | semTake (c : Cmd)
  | semGive (c : Cmd)
  | cvuSet (c : Cmd)
  | cvuRun (c : Cmd)
  | nvmRead (c : Cmd)
  | nvmWrite (c : Cmd)
  | nvmBallast (c : Cmd)
  | nvmStatus (c : Cmd)
  | ledgerConfig (c : Cmd)
  | ledgerOwner (c : Cmd)
  | ledgerRead (c : Cmd)
  | ledgerAck (c : Cmd)
  | ledgerStatus (c : Cmd)
  | clockSet (c : Cmd)
  | measSnapshot (c : Cmd) (smp : Sample)
  | measSweep (c : Cmd)
  | measSubscribe (c : Cmd)
  | measPartners (c : Cmd)
  | mendStatus (c : Cmd)
  | mendWindow (c : Cmd)
  | spoolLoad (c : Cmd)
  | spoolStart (c : Cmd)
  | spoolStop (c : Cmd)
  | spoolStatus (c : Cmd)
  | spoolReset (c : Cmd)
  -- register accesses with an effect of their own: the REG command that makes them
  | cmpRegisterWrite (c : Cmd)
  | reelGoWrite (c : Cmd)
  | dcCfgWrite (c : Cmd)
  | dcRldWrite (c : Cmd)
  | dcSleptClear (c : Cmd)
  | capOvrClear (c : Cmd)
  | toutCtlActWrite (c : Cmd)
  | capV2Read (c : Cmd)
  | dcCnt0Read (c : Cmd)
  | kslotLinkRead (c : Cmd)
  | gdlCollClear (c : Cmd)
  | port3DivWrite (c : Cmd)
  | coexCfgWrite (c : Cmd)
  | splDataAccess (c : Cmd) (write : Bool)
  -- V1 register mode (4.8)
  | v1Transaction (sdi : Bytes)
  | v1Start
  | v1Stop
  | v1Single
  | v1FifoRead
  | v1IrqflgClear (mask : Byte)
  | v1RegionWrite (v : Byte)
  | v1LinkWrite (v : Byte)
  | v1PowerWrite (v : Byte)
  | v1DwellExpiry (now : Tick)
  -- Spool instructions (chapter 8): x is the context
  | spAdd (x : Tenant) (d a b : Fin 16)
  | spSub (x : Tenant) (d a b : Fin 16)
  | spAnd (x : Tenant) (d a b : Fin 16)
  | spOr (x : Tenant) (d a b : Fin 16)
  | spXor (x : Tenant) (d a b : Fin 16)
  | spShl (x : Tenant) (d a b : Fin 16)
  | spShr (x : Tenant) (d a b : Fin 16)
  | spAsr (x : Tenant) (d a b : Fin 16)
  | spMul (x : Tenant) (d a b : Fin 16)
  | spCmp (x : Tenant) (a b : Fin 16)
  | spAddi (x : Tenant) (d a : Fin 16) (imm : BitVec 18)
  | spAndi (x : Tenant) (d a : Fin 16) (imm : BitVec 18)
  | spOri (x : Tenant) (d a : Fin 16) (imm : BitVec 18)
  | spXori (x : Tenant) (d a : Fin 16) (imm : BitVec 18)
  | spCmpi (x : Tenant) (a : Fin 16) (imm : BitVec 18)
  | spLui (x : Tenant) (d : Fin 16) (imm : BitVec 18)
  | spJ (x : Tenant) (cond : Fin 8) (target : BitVec 10)
  | spCall (x : Tenant) (cond : Fin 8) (target : BitVec 10)
  | spRet (x : Tenant) (cond : Fin 8)
  | spJr (x : Tenant) (a : Fin 16)
  | spDjnz (x : Tenant) (d : Fin 16) (imm : BitVec 18)
  | spWaitt (x : Tenant) (d a b : Fin 16) (off : BitVec 14)
  | spWaitd (x : Tenant) (a : Fin 16) (imm : BitVec 18)
  | spWaite (x : Tenant) (d a b : Fin 16) (src : BitVec 4)
  | spGett (x : Tenant) (d a b : Fin 16) (part : BitVec 2)
  | spHop (x : Tenant) (d a : Fin 16) (noWait : Bool)
  | spPwr (x : Tenant) (d a : Fin 16) (noWait : Bool)
  | spAsel (x : Tenant) (d a : Fin 16) (noWait : Bool)
  | spTxcw (x : Tenant) (d : Fin 16) (on noWait : Bool)
  | spTxsym (x : Tenant) (d a b : Fin 16) (src : Fin 3) (pre qry noWait : Bool)
  | spRxwin (x : Tenant) (d a b : Fin 16) (count : BitVec 10) (pclen crc noWait : Bool)
  | spRssi (x : Tenant) (d : Fin 16) (noWait : Bool)
  | spSniff (x : Tenant) (d : Fin 16) (noWait : Bool)
  | spRfoff (x : Tenant) (d : Fin 16) (noWait : Bool)
  | spLch (x : Tenant) (d a : Fin 16) (txi noWait : Bool)
  | spLtx (x : Tenant) (d a : Fin 16) (sf : Fin 5) (smode ack fcs noWait : Bool)
  | spLrx (x : Tenant) (d a b : Fin 16) (lanes : BitVec 6) (noWait : Bool)
  | spLcca (x : Tenant) (d : Fin 16) (txi noWait : Bool)
  | spLoff (x : Tenant) (d : Fin 16) (noWait : Bool)
  | spLd (x : Tenant) (d a : Fin 16) (imm : BitVec 18)
  | spSt (x : Tenant) (d a : Fin 16) (imm : BitVec 18)
  | spBufAlloc (x : Tenant) (d : Fin 16)
  | spBufFree (x : Tenant) (d a : Fin 16)
  | spBufRdw (x : Tenant) (d a b : Fin 16)
  | spBufWrw (x : Tenant) (d a b : Fin 16)
  | spBufLen (x : Tenant) (d a : Fin 16)
  | spBufSetlen (x : Tenant) (d a b : Fin 16)
  | spKsel (x : Tenant) (d a b : Fin 16)
  | spAesb (x : Tenant) (d a b : Fin 16) (decrypt : Bool)
  | spCrc (x : Tenant) (d a b : Fin 16) (preset : Fin 5) (mode : Fin 3)
  | spRng (x : Tenant) (d a b : Fin 16)
  | spPost (x : Tenant) (d a b : Fin 16) (n : Fin 9) (hand : Bool)
  | spEvt (x : Tenant) (d a : Fin 16) (kind : Fin 3)
  | spTout (x : Tenant) (d : Fin 16) (act : Fin 5)
  | spYield (x : Tenant) (d a b : Fin 16)
  | spHalt (x : Tenant) (d a b : Fin 16)
  | spMread (x : Tenant) (d a b : Fin 16)
  | spIllegal (x : Tenant) (word : BitVec 32)
  -- completions of Spool's waiting instructions
  | waittRelease (x : Tenant) (now : Tick)
  | waitdRelease (x : Tenant) (now : Tick)
  | waiteRelease (x : Tenant) (now : Tick)
  | hopComplete (x : Tenant) (now : Tick) (cal : Cal)
  | txcwComplete (x : Tenant) (now : Tick) (pafb : Int) (pacur : Nat)
  | txsymComplete (x : Tenant) (now : Tick)
  | rxwinComplete (x : Tenant) (now : Tick) (reply : Option Reply)
  | sniffComplete (x : Option Tenant) (now : Tick) (g : Gamma)
  | rfoffComplete (x : Tenant) (now : Tick)
  | lchComplete (x : Tenant) (now : Tick) (cal : Cal)
  | ltxComplete (x : Tenant) (now : Tick)
  | lrxComplete (x : Tenant) (now : Tick) (frame : Option RxFrame)
  | lccaComplete (x : Tenant) (now : Tick) (dbm : Int)
  | loffComplete (x : Tenant) (now : Tick)
  | kselComplete (x : Tenant) (now : Tick)
  | aesbComplete (x : Tenant) (now : Tick)
  | rngComplete (x : Tenant) (now : Tick)
  -- arbitration, faults
  | airGrant (now : Tick)
  | noWaitAirDenied (x : Tenant) (now : Tick)
  | budgetWatchdog (x : Tenant)
  -- ports
  | hostFrame (p : Port) (bus : Bus) (data : List Bool) (lag : Nat)
  | spiInvalidTransaction (p : Port) (first : Byte)
  | frameAbort (p : Port)
  | uartGapTimeout
  | uartFramingError
  | outgoingFrameDelivered (p : Port) (bus : Bus)
  | uartHdxReply (n : Nat)
  | spiPortResetSequence (p : Port)
  | i2cStuckBus
  | uartBreak
  | vioReturn
  | presenceTimeout (p : Port) (now : Tick)
  -- power, reset, wake
  | powerOnReset
  | nreset (ns : Nat)
  | resetRelease (spaSdo addr1 addr0 test : Bool) (f : StartFinds)
  | startComplete
  | keelWatchdogExpiry (f : StartFinds)
  | xo24Timeout
  | xo32Timeout
  | xo32Stop
  | wakePin
  | portWakeEdge (e : Edge) (addr : BitVec 7)
  | wakeComplete (aonCycles : Nat)
  | regulatorTimeout
  | sleepEntry (now : Tick) (vhu : Nat)
  | pwrfail (now : Tick) (ns : Nat) (vhu : Nat) (headerLanded : Bool)
  | holdEntry
  | pwrfailClear
  -- radio
  | deepCalibration (core : CoreId) (now : Tick) (temp : Int)
  | coexGntChange (now : Tick) (ns : Nat) (level : Bool)
  | coexLeadElapsed (now : Tick)
  | coexWaitExpiry (now : Tick)
  | roundEnd (x : Tenant) (now : Tick)
  | inventoryDurExpiry (x : Tenant) (now : Tick)
  | fccBudgetWaitEnd (x : Tenant) (now : Tick)
  | etsiReturnWaitEnd (x : Tenant) (now : Tick)
  | sniffBurstDue (now : Tick)
  | paIlimTrip (now : Tick)
  | compensationRecompute (smp : Sample)
  | linkCompensation (smp : Sample)
  | cancellerConverged (tapL : Bool) (jammerDbm : Int) (suppHalfDb : BitVec 8)
  | tapLSaturation
  | rxGainStep (now : Tick) (levelDbm : Int)
  | adcClip (now : Tick)
  -- lantern tag and interrogator security
  | fieldQualified (now : Tick) (levelDbm : BitVec 8)
  | fieldDrop (now : Tick)
  | tagSelect (target action : BitVec 3) (bank : BitVec 2) (ptr : Nat) (mask : List Bool)
  | tagQuery (sel sess : BitVec 2) (targetB : Bool) (dr : Bool) (m : BitVec 2) (trext : Bool) (trcal : Nat)
  | tagAck (rn16 : BitVec 16)
  | tagRead (handle : BitVec 16) (bank : BitVec 2) (ptr : Nat) (count : Nat)
  | fz1Received (handle : BitVec 16) (msg : Bytes) (now : Tick)
  | fz3Received (handle : BitVec 16) (msg : Bytes) (now : Tick)
  | tam1Received (handle : BitVec 16) (msg : Bytes)
  | sessionMessage (handle : BitVec 16) (msg : Bytes)
  | readoutRead (off : BitVec 16) (len : BitVec 8)
  | readoutInfo (now : Tick)
  | readoutClose
  | authBackoffExpiry (now : Tick)
  | fz2Reply (x : Tenant) (msg : Bytes) (rateHz : Nat) (now : Tick)
  | fz3Reply (x : Tenant) (msg : Bytes) (rateHz : Nat) (now : Tick)
  | sessionReply (x : Tenant) (msg : Bytes) (rateHz : Nat) (now : Tick)
  | tam1Response (x : Tenant) (msg : Bytes) (rateHz : Nat) (now : Tick)
  | tagReplyTimeout (x : Tenant) (now : Tick)
  | sessionIdleTimeout (x : Tenant) (now : Tick)
  | sessionDwellHop (x : Tenant) (now : Tick) (cal : Cal)
  -- link PHY and MAC
  | laneDetection (found : List (Fin 6 × Nat)) (now : Tick)
  | diversityDecision (here there : Nat)
  | sfdTimeout (now : Tick)
  | phrReceived (len hcs : Byte) (asksAck : Bool)
  | linkFrameReceived (f : RxFrame) (now : Tick)
  | ackTransmit (now : Tick)
  | beaconDue (now : Tick)
  | sendTimeDue (now : Tick)
  | csmaBackoffEnd (now : Tick)
  | ccaResult (now : Tick) (dbm : Int)
  | linkTxEnd (now : Tick)
  | ackReceived (now : Tick) (f : RxFrame)
  | ackWindowExpiry (now : Tick)
  | nbrAgeing (now : Tick)
  | listenDurExpiry (x : Tenant) (now : Tick)
  -- Reel
  | compareFire (k : Fin 12) (now : Tick)
  | compareWakeLead (aonCycles : Nat)
  | dcFire (n : Tenant) (now : Tick)
  | captureEdge (n : Tenant) (rising : Bool) (now : Tick)
  | toutPulseEnd (n : Tenant) (now : Tick)
  -- Bridle
  | tamperAssertion (now : Tick)
  | drbgReseed (passed : Bool)
  | entropyRetry (passed : Bool)
  | blockReply (block : Fin 4) (x : Tenant) (epoch : BitVec 16)
  -- store
  | storeCommit (vhu : Nat) (badWrites : Nat)
  | ballastRecheck (now : Tick) (vhu : Nat) (badWrites : Nat)
  | wearMoveStep
  | coldSectorMove (sector : Nat)
  -- ledger
  | intervalBoundary (now : Tick)
  | ledgerSealLanded
  -- Survey
  | surveySample (now : Tick) (smp : Sample)
  | scheduledSweep (now : Tick)
  | sweepTimeout (now : Tick)
  | sweepComplete (now : Tick)
  | telemetrySnapshot (now : Tick) (smp : Sample)
  -- Mend
  | daylightWindowOpen (now : Tick)
  | mendStep (now : Tick) (found : Option MendRes)
  | daylightWindowEnd
  | sramCorrection (bank : Fin 16) (row : BitVec 8) (now : Tick)
  | uncorrectableSramError (bank : Fin 16) (row : BitVec 8) (vhu : Nat) (f : StartFinds)
  | synthCheckCalibration (core : CoreId) (passed : Bool)
  | mendResourceSwitch (r : MendRes)
  -- the rest
  | unassignedOpcode (c : Cmd) (op : BitVec 16)
  | xo32Ready
  | vioLoss
  | partialDelivery (p : Port) (bus : Bus) (n : Nat)
  | sweepPointDone (now : Tick) (g : Option Gamma)
  deriving DecidableEq, Repr

end Sys2Proof
end

