-- ==== Sys2Proof/Decode.lean ====
section
/-!
DEFINITION. The words of the table. No row of the table of operations and events gives a bit, so no word spells a
command.
-/
namespace Sys2Proof

/-- The command that a word spells by the table's bits: none, since no row has any. Log entry 62 DESIGN CHOICE. -/
def decodeTableWord (_nbits _w : Nat) : Option Instr := none

end Sys2Proof
end

