-- ==== Sys2Proof/Config.lean ====
section
/-!
DEFINITION. What one part fixes and the spec leaves open: the root that its PUF yields, the bits its entropy source
gives, the verdict on a patch signature, and the values that the spec does not state. None has a body: a claim that
holds of this model holds whatever they are.
-/
namespace Sys2Proof.Config

/-- The 256-bit device root L0 that the PUF SRAM yields (16.1), byte by byte. Log entry 10 DESIGN CHOICE. -/
opaque deviceRoot : Fin 32 → Byte
/-- Conditioned entropy (16.9): the n-th byte the source gives. Log entry 10 DESIGN CHOICE. -/
opaque entropy : Nat → Byte
/-- The enrolled factory correction table of 11.1: plane (false reader, true link), temperature index, supply index.
Log entry 10 DESIGN CHOICE. -/
opaque factoryTable : Bool → Fin 16 → Fin 4 → Int
/-- A value that the spec leaves open, drawn with a number of its own. Log entry 9 DESIGN CHOICE. -/
opaque freeNat : Nat → Nat
/-- A choice that the spec leaves open, drawn with a number of its own. Log entry 9 DESIGN CHOICE. -/
opaque freeBool : Nat → Bool
/-- The level of FEMEN while the part is awake, by the state of the link core: the spec says only that it enables an external module.
Log entry 67 DESIGN CHOICE. -/
opaque femen : Nat → Bool
/-- The Kelvoem public key in ROM that patch images are verified against (R171), as the coordinates of its point on P-256.
Log entry 10 DESIGN CHOICE. -/
opaque patchKey : Nat × Nat
/-- Whether a value that lies halfway between two whole numbers goes to the upper one. Log entry 24 DESIGN CHOICE. -/
opaque halfUp : Rat → Bool
/-- What a built-in program of Keel shows at a tick: its ROM address, its call stack depth, N, C and Z, and whether it runs between two
waits. The spec does not print the ROM. Log entry 84 DESIGN CHOICE. -/
opaque romView : Nat → BitVec 10 × Fin 9 × BitVec 3 × Bool

end Sys2Proof.Config
end

