-- ==== Sys2Proof/Machine/State.lean ====
section
/-!
DEFINITION. The state of the part as plain data: every register, queue, buffer, counter, mode and pin that the spec
gives it, block by block, the commands that wait to be taken, and the machine right after power-on reset.
-/
namespace Sys2Proof.Machine

/-- Sparse bytes: (address, byte) pairs at strictly rising addresses, none equal to what an unlisted address reads. -/
abbrev Memory := List Host.Cell

-- ------------------------------------------------------------------ power, clocks, reset (chapters 2 and 3)

/-- Device power states (Tables 3-4, 3-12): `reset` while power-on reset or NRESET is in force, `start` until the
ports are live, `stuck` the endless START of R581, `run` STANDBY and ACTIVE together, `drill` the drill of 3.8 from RF off to
HOLD, `factory` factory test (R47). -/
inductive Power where
  | reset | start | stuck | run | limp | sleep | waking | drill | hold | lockout | factory
  deriving DecidableEq, Repr

/-- Why the part wakes: the causes of EV_WAKE, the port where a port did it, and Keel's own scheduled work (R68, R71). -/
inductive WakeCause where
  | wakePin | field | reelCmp | port (t : Tenant) | tamper | pwrfailClear | keel
  deriving DecidableEq, Repr

/-- Power, straps, clocks and wake bookkeeping. `xo32Gone` tells that XO32 was given up until the next power-on reset or NRESET
(R75), `started` that the ports have been live since the last start began. -/
structure PowerSt where
  mode          : Power
  cause         : BitVec 3
  commitSkipped : Bool
  strapV1       : Bool
  strapAddr     : BitVec 2
  votes         : Vector Bool 4
  pwrfail       : Bool
  vpaLow        : Bool
  vioLost       : Bool
  xo24Ok        : Bool
  xo32Ok        : Bool
  aonRc         : Bool
  coreRc        : Bool
  untrusted     : Bool
  boosts        : Nat
  wakeFails     : Nat
  wakeRun       : Nat
  wake          : Option WakeCause
  startedAt     : Tick
  xo32Gone      : Bool
  started       : Bool
  deriving DecidableEq, Repr

-- ------------------------------------------------------------------ the test access port (2.7)

/-- The states of the TAP controller. PRESUMED (log entry 69): they are those of IEEE 1149.1, which 2.7 names. -/
inductive TapState where
  | testLogicReset | runTestIdle
  | selectDr | captureDr | shiftDr | exit1Dr | pauseDr | exit2Dr | updateDr
  | selectIr | captureIr | shiftIr | exit1Ir | pauseIr | exit2Ir | updateIr
  deriving DecidableEq, Repr

/-- The test access port, master M6 (R55): its controller, whether the IDCODE register stands between TDI and TDO, that
register as it shifts, and the level of TDO while it drives (none: high impedance, Table 2-2). -/
structure TapSt where
  st     : TapState
  idSel  : Bool
  dr     : BitVec 32
  tdo    : Option Bool
  deriving DecidableEq, Repr

-- ------------------------------------------------------------------ ports and tenants (chapters 4 and 5)

/-- An outgoing frame that waits for delivery: a response, an event, or the EV_EVENT_LOST whose count is still
running (R162). -/
inductive Out where
  | resp (seq : BitVec 16) (op : BitVec 16) (status : Byte) (results : Bytes) (orphan : Bool)
  | evt (seq : BitVec 16) (code : BitVec 16) (stamp : Tick) (data : Bytes)
  | lost (seq : BitVec 16) (stamp : Tick)
  deriving DecidableEq, Repr

/-- A command that a tenant's frame brought: opcode, SEQ, arguments, and whether a port reset came since (R124). -/
structure Job where
  op     : BitVec 16
  seq    : BitVec 16
  args   : Bytes
  orphan : Bool
  port   : Port
  deriving DecidableEq, Repr

/-- One host port (chapter 4). `moved` marks the ATTACHED = 0 that TEN.BIND left (R140); `sent` is the last frame clocked
out whole; `txPart` counts bytes of a partial delivery (R120); `polled` tells that a half-duplex UART took a frame and may
answer (R109). `ring` holds the bytes of the frame that is arriving, from its SYNC on, and `untaken` the sizes of the
accepted frames that Keel has not yet taken from the receive ring, oldest first (R118). `mode3` is the SPI mode of the last
transaction (R98), `line` the bits that the part put on its output line last, in the order of time, `acks` the acknowledge
bits of the last I2C write transaction (R104), and `burst` the tick at which a half-duplex reply in progress ends (R107). -/
structure PortSt where
  cfg      : Reg16
  attached : Bool
  moved    : Bool
  presFrom : Tick
  badframe : Nat
  abort    : Nat
  rxdrop   : Nat
  resets   : Nat
  polled   : Bool
  txPart   : Nat
  sent     : Bytes
  ring     : Bytes
  untaken  : List Nat
  mode3    : Bool
  line     : List Bool
  acks     : List Bool
  burst    : Option Tick
  deriving DecidableEq, Repr

/-- One tenant's queues (5.4, 5.5). `refusal` is the refusal slot: SEQ, opcode and orphan mark (R155, R598);
`lostRun` the running count of the queued EV_EVENT_LOST; `front` the response to a TEN.BIND that moved the tenant, with the
port on which it leaves ahead of every other frame (R139). -/
structure TenantSt where
  cmdQ    : List Job
  exec    : Option Job
  outQ    : List Out
  refusal : Option (BitVec 16 × BitVec 16 × Bool)
  evSeq   : BitVec 16
  evLost  : Nat
  lostRun : Nat
  refused : Nat
  share   : Nat
  front   : Option (Port × Out)
  deriving DecidableEq, Repr

/-- A tenant's profile: its copy of the RADIO, RDR and LNK settings and its hop table (R150, 6.8). -/
structure Profile where
  coex   : Reg16
  fwd    : Reg16
  back   : Reg16
  q      : Reg16
  pa     : Reg16
  pacpl  : Reg16
  sniff  : Reg16
  feed   : Reg16
  rlband : Reg16
  phycfg : Reg16
  txpwr  : Reg16
  cca    : Reg16
  hopDwell : Nat
  hop    : List Nat
  deriving DecidableEq, Repr

/-- V1 register mode on SPI-A (Table 4-10). `fifo` holds the entries' bytes, oldest first, the first perhaps partly
read; `out` is what the last read transaction returned. -/
structure V1St where
  irqen  : Byte
  irqflg : Byte
  region : Byte
  power  : Byte
  q      : Byte
  sess   : Byte
  link   : Byte
  asel   : Byte
  dwell  : Byte
  err    : Byte
  fifo   : List Bytes
  dwellFrom : Tick
  out    : Bytes
  deriving DecidableEq, Repr

-- ------------------------------------------------------------------ buffers (23.4)

/-- What a buffer's contents are known to be: a good tag reply with its RSSI, phase, or a frame that passed its FCS
(R257). -/
inductive BufMark where
  | plain
  | reply (rssi phase : Byte)
  | frame (f : RxFrame)
  deriving DecidableEq, Repr

/-- A frame buffer of 256 bytes (23.4); unlisted bytes are 0 (R215). -/
structure Buf where
  used  : Bool
  len   : Nat
  bytes : Memory
  mark  : BufMark
  deriving DecidableEq, Repr

-- ------------------------------------------------------------------ Spool (chapters 7 and 8)

/-- The Spool instructions that wait (W in Table 8-4), and `airR`, `airL`: an air instruction that waits for its core's air before
it acts (R214). -/
inductive WaitOp where
  | waitt | waitd | waite | hop | txcw | txsym | rxwin | sniff | rfoff | lch | ltx | lrx | lcca | loff
  | ksel | aesb | rng | airR | airL
  deriving DecidableEq, Repr

/-- The W instruction a context waits in: operand values, FN, the issue cursor, the tick it completes at the
earliest, whether its air request still waits for the grant (R214, R230), and its core's epoch at the request (R587). -/
structure Pend where
  op     : WaitOp
  d      : Fin 16
  a      : Reg32
  b      : Reg32
  fn     : BitVec 14
  issued : Tick
  until_ : Tick
  noAir  : Bool
  epoch  : BitVec 16
  deriving DecidableEq, Repr

/-- Context run states, EMPTY and IDLE told apart by the image (Table 7-2). -/
inductive CtxRun where
  | idle | running | waiting | faulted
  deriving DecidableEq, Repr

/-- What runs in a context: the tenant's own program by one of three commands, or a built-in program of Keel. -/
inductive Starter where
  | spoolStart | rdrRunSpool | lnkRunSpool | builtin
  deriving DecidableEq, Repr

/-- The key selected by KSEL (R252), and whether its slot was erased since (R481). -/
structure KeySel where
  slot : Fin 48
  gone : Bool
  deriving DecidableEq, Repr

/-- One Spool context (Table 7-4). `load` holds the bytes of an open load, `code` and `data` the two RAMs by byte,
`lostR`/`lostL` an air loss not yet reported (R267), `tunedR`/`tunedL` the run's own HOP or LCH (R231), `latch` the
WAITE latches (R239), `start` the starting command whose response is still due (R208) and `early` the events of the program that wait for that
response (R160), `wipe` that a SPOOL.RESET waits for the frame in the air to zero the data RAM (R220), `began` when the run
began. -/
structure Ctx where
  run     : CtxRun
  starter : Starter
  tseq    : BitVec 16
  codeLen : Nat
  entries : List Nat
  load    : Option Bytes
  code    : Memory
  data    : Memory
  regs    : Vector Reg32 16
  z       : Bool
  c       : Bool
  n       : Bool
  stack   : List (BitVec 10)
  pc      : Nat
  cursor  : Tick
  fresh   : Bool
  held    : List (Fin 32)
  power   : BitVec 16
  cyc     : Nat
  wdog    : Nat
  latch   : BitVec 4
  shadow  : BitVec 16
  ksel    : Option KeySel
  pend    : Option Pend
  fault   : Nat
  rssi    : Byte
  phase   : Byte
  lostR   : Bool
  lostL   : Bool
  tunedR  : Bool
  tunedL  : Bool
  ackTx   : Option Tick
  start   : Option (BitVec 16)
  issues  : Nat
  stopping : Option Byte
  early   : List (Tick × BitVec 16 × Bytes)
  wipe    : Bool
  began   : Tick
  epoch   : BitVec 16
  deriving DecidableEq, Repr

-- ------------------------------------------------------------------ radio (chapters 9 to 11)

/-- Core states of Table 9-2. -/
inductive CoreSt where
  | sleep | standby | synth | rx | tx
  deriving DecidableEq, Repr

/-- Whose air request it is: a tenant's Spool context, a piece of Keel's link MAC or a Keel activity, or the lantern tag
(R153, R271). A sweep is a tenant's, or Keel's own (R553). -/
inductive Who where
  | ctx (t : Tenant)
  | send (t : Tenant) (seq : BitVec 16)
  | beacon
  | ack
  | listen
  | sniff (t : Tenant)
  | baseline (t : Tenant)
  | sweep (t : Option Tenant)
  | mend
  | session (t : Tenant)
  | lantern
  deriving DecidableEq, Repr

/-- A request for air (9.3): core, requester, class, channel, moment, COEX deadline rule (R279), the no-wait bit. -/
structure AirReq where
  core   : CoreId
  who    : Who
  cls    : Nat
  freq   : Nat
  since  : Tick
  gnt    : Bool
  wait   : Nat
  noWait : Bool
  deriving DecidableEq, Repr

/-- Air held: the request granted, the grant tick (R270), the commit point of its frame or slot (R275, R276), and the tick at which
a slot of a tenant's own program is over if nothing continues it (R283). -/
structure Hold where
  req    : AirReq
  granted : Tick
  commit : Option Tick
  ends   : Option Tick
  deriving DecidableEq, Repr

/-- The arbiter, the two synthesizers and the coexistence wires. `charged` is the airtime of the current window
(R269, R270); `lastServed` the tenant last granted in each class; `deepDue`/`deepSkips` the deep calibration's due
mark and the channel changes since (R262, R263); `reqRose` when COEX_REQ rose (R278). `rMove` and `lMove` are a core's move to
another state at a tick to come (Table 9-2), `calR` and `calL` that a calibration for Keel's own activity runs whose result is not
known yet (R261), `lkbDue` that diversity returns at the next preamble search (R283). -/
structure RadioSt where
  rState    : CoreSt
  lState    : CoreSt
  rMove     : Option (Tick × CoreSt)
  lMove     : Option (Tick × CoreSt)
  calR      : Bool
  calL      : Bool
  rFreq     : Nat
  lFreq     : Nat
  rHold     : Option Hold
  lHold     : Option Hold
  waiters   : List AirReq
  window    : Nat
  charged   : Vector Nat 4
  lastServed : Vector (Option Tenant) 6
  calFailR  : Nat
  calFailL  : Nat
  calRunR   : Nat
  calRunL   : Nat
  deepAtR   : Tick
  deepAtL   : Tick
  deepTempR : Int
  deepTempL : Int
  deepDueR  : Bool
  deepDueL  : Bool
  deepSkipsR : Nat
  deepSkipsL : Nat
  gnt       : Bool
  reqRose   : Option Tick
  leadDone  : Bool
  pri       : Bool
  denied    : Nat
  withdrawn : Nat
  lkbGiven  : Bool
  lkbDue    : Bool
  deriving DecidableEq, Repr

/-- A link set (10.2): Tari in ticks, data-1 in quarter ticks, MOD, the depth in per cent and the pulse width in ticks of the
forward link, BLF in kHz, DR (64/3 or 8), the M code and TRext of the backlink, and the Q settings. -/
structure LinkSet where
  tari  : Nat
  data1 : Nat
  mod   : Nat
  depth : Nat
  pw    : Rat
  blf   : Nat
  dr64  : Bool
  m     : Nat
  trext : Bool
  qinit : Nat
  qmin  : Nat
  qmax  : Nat
  adapt : Bool
  deriving DecidableEq, Repr

/-- A forward-link frame on the air: the link set in force, whether it starts with a preamble or a frame-sync (R243), and its
bits. -/
structure AirFrame where
  set  : LinkSet
  pre  : Bool
  bits : List Bool
  deriving DecidableEq, Repr

/-- A frame on its way that opens a slot at its commit point: whose it is, whether it is a Query, the Q that it sets, and whether
the slots count anew from it (R244, R295). -/
structure Opening where
  at_   : Tick
  who   : Tenant
  query : Bool
  q     : Nat
  anew  : Bool
  deriving DecidableEq, Repr

/-- Where a built-in reader program stands: tuning (HOP), carrier ramp, canceller convergence (R329), a frame on its way
or in the air, a reply awaited, a round that is over, or its region's rule waited for with the air released (R307, R308). -/
inductive Stage where
  | tune | ramp | settle | send | window | over | regionWait (till : Tick)
  deriving DecidableEq, Repr

/-- The forward-link frame that a built-in round sends or sent last. -/
inductive Sent where
  | select | query | rep | adjust | ack | nak
  deriving DecidableEq, Repr

/-- The arguments of an RDR.INVENTORY (Table 6-5), as RDR.ACCESS, AUTO and SEC take them again (R301, R342, R362). -/
structure InvArgs where
  region : Nat
  pset   : BitVec 16
  dur    : Nat
  asel   : BitVec 4
  sess   : Byte
  sbank  : Nat
  sptr   : Nat
  slen   : Nat
  smask  : Bytes
  deriving DecidableEq, Repr

/-- An inventory in progress (10.4). `running` a round has had its Query; `resume` the round was suspended (R268);
`withdrawn` it ends for want of COEX_GNT (R283); `visitFrom` when its channel was reached; `round` to `empty` describe
the round, `q` its Q in force; `qfp` is Qfp in hundredths (R297); `reply` a reply began in the round (R298); `ending` the
status that ends the inventory at the end of the round. -/
structure Inv where
  args    : InvArgs
  tseq    : BitVec 16
  v1      : Bool
  single  : Bool
  stage   : Stage
  sent    : Sent
  running : Bool
  resume  : Bool
  withdrawn : Bool
  from_   : Option Tick
  freq    : Nat
  aerial  : Fin 4
  visitFrom : Tick
  rounds  : Nat
  tagsAll : Nat
  round   : BitVec 16
  slots   : Nat
  sinceQ  : Nat
  tags    : Nat
  coll    : Nat
  empty   : Nat
  q       : Nat
  qfp     : Nat
  targetB : Bool
  reply   : Bool
  ending  : Option Byte
  deriving DecidableEq, Repr

/-- Steps of an access or of an interrogator exchange (R302, R303, R362): the frame that is sent or answered next. -/
inductive AccStep where
  | select | query | ack | reqRn | passRn (second : Bool) | pass (second : Bool) | writeRn | op | tid (short : Bool)
  | exchange | fz3
  deriving DecidableEq, Repr

/-- What is done once a tag is singulated. -/
inductive AccKind where
  | access (op : Nat) (apwd : BitVec 32) (bank wptr wcnt : Nat) (data : List (BitVec 16))
  | tam1 (key : Fin 48) (keyId : Byte)
  | farz (key : Fin 48)
  deriving DecidableEq, Repr

/-- A running RDR.ACCESS, SEC.TAM1 or SEC.FARZ_OPEN of a tenant. `attempt` counts from 0 (R302); `rn` is the RN16 last
received, `handle` the handle of Req_RN, `tid` the TID context read (R348), `done` the words read or written, `ending` the status
that ends it after the frame in the air (R588). -/
structure Acc where
  kind    : AccKind
  args    : InvArgs
  tseq    : BitVec 16
  asel    : Fin 4
  epc     : Bytes
  stage   : Stage
  step    : AccStep
  freq    : Nat
  attempt : Nat
  rn      : BitVec 16
  handle  : BitVec 16
  tid     : Bytes
  done    : List (BitVec 16)
  ending  : Option Byte
  deriving DecidableEq, Repr

/-- Presence sniff (11.6). -/
structure Sniff where
  owner : Tenant
  tseq  : BitVec 16
  ivl   : Nat
  asel  : Fin 4
  thr   : Nat
  auto  : Bool
  armed : Bool
  below : Nat
  waiting : Bool
  due   : Tick
  deriving DecidableEq, Repr

/-- The reader: shared RDR status, rounds, aerials, canceller, gain, sniff, external PA, dwell records (chapters 10, 11).
`carrier` tells whether the carrier is on and since when; `ownReply` tells of a round of a
tenant's own program whether a reply has begun in it (R298); `onTime` the carrier-on spans per channel of the last 20 s
(R307); `leftAt` when each channel was left (R308); `cycle` what is left of each tenant's FCC permutation, `etsiNext` and
`tabNext` the places of its next ETSI and own-table channel; `onAir` the last forward-link frame sent; `opening` the frame on its way
that opens a slot; `aerialWas` the aerial selected until a tick to come (R337), `aerialBack`
the one that stands again when a burst or a sweep point has released its air. `warm` names the taps (L or R), aerials and channel groups
with a converged state that serves as a warm start (11.3). `paen` are the ticks between which PAEN is high
(R324), `pabias` the bias in mV until then; `drive` is the RDTX drive of the last carrier or burst in 0.05 dB units (R320, R323,
R344), `loop` that it is regulated from PAFB (R322). -/
structure ReaderSt where
  roundCnt  : BitVec 16
  running   : Bool
  owner     : Tenant
  aerial    : Fin 4
  qNow      : Nat
  emptyRun  : Nat
  ownReply  : Option Bool
  decErr    : Nat
  carrier   : Option Tick
  pset      : BitVec 16
  compTemp  : Int
  comp      : Int
  compNext  : Int × Int
  pafbLo    : Bool
  pafbHi    : Bool
  dpd       : Vector Nat 3
  trips     : Nat
  paGain    : Int
  paen      : Option (Tick × Option Tick)
  pabias    : Nat
  drive     : Int
  loop      : Bool
  convR     : Bool
  satR      : Bool
  convL     : Bool
  noconc    : BitVec 4
  suppR     : Byte
  clcSat    : Nat
  clips     : Nat
  gain      : Nat
  gainAt    : Tick
  gainDue   : Int
  sniff     : Option Sniff
  skip      : Nat
  base      : Vector (Option Gamma) 4
  lastInv   : Vector (Option InvArgs) 4
  inv       : Vector (Option Inv) 4
  acc       : Vector (Option Acc) 4
  cycle     : Vector (List Nat) 4
  etsiNext  : Vector (Fin 4) 4
  tabNext   : Vector Nat 4
  onTime    : List (Nat × Tick × Tick)
  leftAt    : List (Nat × Tick)
  onAir     : Option AirFrame
  opening   : Option Opening
  aerialWas : Option (Tick × Fin 4)
  aerialBack : Option (Fin 4)
  warm      : List (Bool × Fin 4 × Fin 3)
  deriving DecidableEq, Repr

-- ------------------------------------------------------------------ security and the lantern tag (chapter 12)

/-- A session context of the crypto engine (R349): Ktag from the exchange's start, Kenc and Kmac once both challenges are known. -/
structure SecCtx where
  ktag  : Bytes
  kenc  : Bytes
  kmac  : Bytes
  rch   : Bytes
  tch   : Bytes
  deriving DecidableEq, Repr

/-- One tenant's interrogator session (R191). `keyGone` tells that its KEY slot was erased (R482); `sendQ` the
SEC.FARZ_SENDs that wait, `busy` the one whose message awaits its reply, with what is left of it to send, since `sentAt`;
`region` and `visitFrom` are what its dwell rule is judged by (R364). -/
structure SecSess where
  opened : Bool
  sid    : Byte
  tseq   : BitVec 16
  key    : Fin 48
  keyGone : Bool
  handle : BitVec 16
  ctx    : Option SecCtx
  ctrTx  : Nat
  ctrRx  : Nat
  msgs   : Nat
  sendQ  : List (BitVec 16 × Bytes)
  busy   : Option (BitVec 16 × Bytes)
  idleFrom : Tick
  sentAt : Tick
  region : Nat
  visitFrom : Tick
  challenge : Bytes
  deriving DecidableEq, Repr

/-- What the lantern tag backscattered last: an RN16, PC and EPC with their CRC-16, words of a Read, an error code, or the
message of an in-process reply. -/
inductive TagOut where
  | none
  | rn16 (v : BitVec 16)
  | epc (b : Bytes)
  | words (b : Bytes)
  | error (code : Byte)
  | msg (b : Bytes)
  deriving DecidableEq, Repr

/-- The lantern tag (12.7). `keyGone` tells that its KEY slot was erased since FZ1 (R482); `owed` that an EV_FIELD waits for
the wake to end; `inv` are its inventoried flags per session (true = B); `blfSet` the TRcal, DR, M and TRext of its reply;
`pubNext` are the TAG.PUBLISH writes that take effect at the next crew message (R189). -/
structure LanternSt where
  enabled  : Bool
  owner    : Tenant
  key      : Fin 48
  keyGone  : Bool
  flags    : Byte
  epc      : Bytes
  field    : Bool
  owed     : Bool
  fd       : Bool
  level    : Byte
  sl       : Bool
  inv      : BitVec 4
  rn16     : Option (BitVec 16)
  handle   : Option (BitVec 16)
  blfSet   : Nat × Bool × BitVec 2 × Bool
  ctx      : Option SecCtx
  fz2Handle : Option (BitVec 16)
  session  : Bool
  ctrTx    : Nat
  ctrRx    : Nat
  msgs     : Nat
  part     : Bytes
  request  : Bytes
  area     : Memory
  pubNext  : List (Nat × Bytes)
  failRun  : Nat
  failTotal : Nat
  backoff  : Option Tick
  replyOut : TagOut
  deriving DecidableEq, Repr

-- ------------------------------------------------------------------ link (chapters 13 and 14)

/-- A LNK.SEND, or a beacon of Keel's own (14.3). `time` is the TIME of a first attempt that has one, `nb` and `be` the CSMA
counters, `tries` and `tstart` what EV_LNK_TX_DONE tells, `ending` the status of a send that a cancel or a reset ends after
the attempt in the air, `buf` the frame buffer it holds. -/
structure Send where
  owner  : Option Tenant
  tseq   : BitVec 16
  dst    : BitVec 16
  mseq   : BitVec 8
  psdu   : Bytes
  lane   : Fin 6
  ar     : Bool
  time   : Option Tick
  tries  : Nat
  nb     : Nat
  be     : Nat
  tstart : Tick
  power  : Byte
  ending : Option Byte
  buf    : Option (Fin 32)
  late   : Bool
  deriving DecidableEq, Repr

/-- The link receiver's AGC (R397): off outside RX; running on an aerial; running on the second aerial of a diversity measurement; frozen
on an aerial's gain until the frame ends. -/
inductive Agc where
  | off
  | running (lkb : Bool)
  | second (lkb : Bool)
  | frozen (lkb : Bool)
  deriving DecidableEq, Repr

/-- The decision-feedback equaliser (R398): off, training on the preamble and the SFD, or directed by its decisions, per symbol in
S-mode. -/
inductive Equaliser where
  | off
  | training
  | directed (perSymbol : Bool)
  deriving DecidableEq, Repr

/-- A link frame on its way to the air (13.2, 13.8): its lane and chip rate, the aerial, the power in 0.5 dB units and the tick of its
first chip. -/
structure LinkTx where
  lane  : Fin 6
  slow  : Bool
  lkb   : Bool
  power : Byte
  first : Tick
  deriving DecidableEq, Repr

/-- MAC transmit states (Table 14-4); a send that waits for its TIME or for the air leaves the MAC idle. -/
inductive MacStep where
  | idle | backoff | cca | tx | ackWait
  deriving DecidableEq, Repr

/-- A neighbour entry (Table 6-9), with the advertised interval (R425), replay records (R413) and the last frame
delivered for the duplicate check (R420). -/
structure Nbr where
  addr   : BitVec 16
  cap    : BitVec 32
  rssi   : Byte
  lqi    : Nat
  missed : Nat
  smode  : Bool
  last   : Tick
  bivl   : Nat
  fcnts  : List (Nat × Nat)
  deriving DecidableEq, Repr

/-- A tenant's LNK.LISTEN (R422). -/
structure Listen where
  tseq   : BitVec 16
  dur    : Nat
  from_  : Option Tick
  frames : Nat
  ending : Option Byte
  deriving DecidableEq, Repr

/-- Link PHY and MAC (chapters 13, 14). `trsw` is the span for which TRSW is high: the start of the link PA ramp, the end of the frame and the
end of the ramp-down (R54). `sends` are the sends in order; while the MAC is not idle the head is the one it works
on, `timer` the start of its backoff or CCA, the last chip of its frame or the end of its ACK window. `ackDue` is the ACK that
the MAC owes: the tick of its first chip, its PSDU, its lane and its aerial; `ackEnd` the last chip of one in the air.
`beaconAt` is the start of the beacon interval and the beacon's tick; `dup` the last delivered frame per source. -/
structure LinkSt where
  configured : Bool
  holder   : Option Tenant
  addr     : BitVec 16
  freq     : Nat
  rate     : Nat
  region   : Nat
  beacon   : Nat
  cap      : BitVec 28
  maccfg   : Reg16
  pan      : Reg16
  searchLkb : Bool
  demod    : Bool
  afterSfd : Bool
  lane     : Fin 6
  keptLkb  : Bool
  measuring : Bool
  detAt    : Tick
  agc      : Agc
  eq       : Equaliser
  lanesHealthy : Nat
  uses     : BitVec 6
  lastRssi : Byte
  lastLqi  : Nat
  lastEvm  : Nat
  errFalse : Nat
  errHdr   : Nat
  compTemp : Int
  comp     : Int
  compNext : Int × Int
  mseq     : BitVec 8
  step     : MacStep
  sends    : List Send
  timer    : Tick
  trsw     : Option (Tick × Tick × Tick)
  ackDue   : Option (Tick × Bytes × Fin 6 × Bool)
  ackEnd   : Option Tick
  sentPsdu : Bytes
  onAir    : Option LinkTx
  rxHost   : Tenant
  listens  : Vector (Option Listen) 4
  nbrs     : List Nbr
  nbrFull  : Bool
  isolated : Bool
  noackRun : Nat
  beaconAt : Option (Tick × Tick)
  dup      : List (BitVec 16 × BitVec 8 × Option Nat × Tick)
  duty     : List (Tick × Nat)
  secMic   : Nat
  secReplay : Nat
  macFormat : Nat
  macNokey : Nat
  txNoack  : Nat
  txCaf    : Nat
  rxdrop   : Nat
  deriving DecidableEq, Repr

-- ------------------------------------------------------------------ Reel (chapter 15)

/-- Compare channel states (15.4). -/
inductive CmpSt where
  | disabled | held | armed | fired
  deriving DecidableEq, Repr

/-- A compare channel. -/
structure Compare where
  val  : Tick
  act  : BitVec 6
  hold : Bool
  st   : CmpSt
  late : Bool
  deriving DecidableEq, Repr

/-- Down-counter states (DCn_STAT.STATE). -/
inductive DcSt where
  | held | running | gated
  deriving DecidableEq, Repr

/-- A down counter: `phase` counts ticks of the current prescale period, `cnt1Latch` what reading CNT0 latched, `due`
a clock that found the count at 0 and has yet to fire (R448). -/
structure DownCnt where
  cfg   : Reg16
  rld   : BitVec 24
  cnt   : BitVec 24
  cnt1Latch : Byte
  st    : DcSt
  phase : Nat
  due   : Bool
  slept : Bool
  miss  : Nat
  deriving DecidableEq, Repr

/-- A capture channel. -/
structure Capture where
  val  : Tick
  full : Bool
  ovr  : Bool
  arm  : Bool
  edge : BitVec 2
  level : Bool
  deriving DecidableEq, Repr

/-- A timer output; `pulseEnd` while a pulse runs (R458); `actAt` and `rank` the last action and its precedence (R459); `acts` the actions
of ticks to come, in their order (R443, R450, R458). -/
structure TimerOut where
  level : Bool
  pw    : BitVec 5
  pulseEnd : Option Tick
  actAt : Tick
  rank  : Nat
  acts  : List (Tick × Nat)
  deriving DecidableEq, Repr

/-- Reel: the count, the keeper it was loaded into at sleep, Keel's day counter (19.5) with the tick of its last day's beginning, and
the timers. -/
structure ReelSt where
  cnt    : Tick
  keeper : Tick
  day    : Nat
  dayFrom : Tick
  cmps   : Vector Compare 12
  dcs    : Vector DownCnt 4
  caps   : Vector Capture 4
  touts  : Vector TimerOut 4
  deriving DecidableEq, Repr

-- ------------------------------------------------------------------ Bridle (chapter 16)

/-- Classes of keys (Table 16-3). -/
inductive KeyClass where
  | enc | dec | wrap | derive_
  deriving DecidableEq, Repr

/-- Where a slot's value comes from: its recipe, or its blob, the imported key wrapped anew under the tenant root with the GEN that the
slot had then (16.3, R472). No slot holds a key in clear. -/
inductive KeySrc where
  | recipe (label ctx : Bytes)
  | blob (gen : BitVec 16) (wrapped : Bytes)
  deriving DecidableEq, Repr

/-- A key in a slot (16.3). PARENT 48 stands for the tenant root, code 0xFE. -/
structure Key where
  cls    : KeyClass
  aes256 : Bool
  expire : Bool
  imported : Bool
  clear  : Bool
  level  : Nat
  parent : Nat
  pgen   : BitVec 16
  life   : Nat
  uses   : Nat
  src    : KeySrc
  deriving DecidableEq, Repr

/-- A two-record reserved counter (19.5): where it stands, the limit that its newest landed record allows, and whether
a reservation is queued. -/
structure Reserved where
  now    : Nat
  limit  : Nat
  queued : Bool
  deriving DecidableEq, Repr

/-- A slot: its key if it holds one, its GEN, and its bookkeeping. `bad` marks a stored record that cannot be read
(R638); `stored` is the record whose commit landed last (R472, R476). -/
structure Slot where
  key     : Option Key
  gen     : BitVec 16
  unsaved : Bool
  cached  : Bool
  usesLatch : Reg16
  useRes  : Reserved
  frame   : Reserved
  bad     : Bool
  stored  : Option Key
  deriving DecidableEq, Repr

/-- An engine request in flight, for the epochs of R587: which context asked, the epoch it carries, and whether its
tenant reset the block since (R487). `rng` marks an RNG of engine class 1, and `out` holds the bytes it was given ahead of a
lower class (R486). -/
structure EngineReq where
  who   : Tenant
  epoch : BitVec 16
  stale : Bool
  rng   : Bool
  out   : Option Bytes
  deriving DecidableEq, Repr

/-- Bridle: root state, tenant roots and their generation records as landed last (R475), slots, TAMPER and the DRBG (key and V
as SP 800-90A holds them). `helper` tells which helper copies were good at the last start, `copies` which are good in the
store (R463). -/
structure BridleSt where
  rootOk   : Bool
  armed    : Bool
  seen     : Bool
  latched  : Bool
  drbgOk   : Bool
  entLost  : Bool
  entRun   : Nat
  entPass  : Nat
  entFail  : Nat
  helper   : BitVec 3
  copies   : BitVec 3
  retries  : Nat
  roots    : Vector (BitVec 16) 4
  dead     : Vector Bool 4
  rootsLanded : Vector (BitVec 16) 4
  deadLanded : Vector Bool 4
  rootUses : Vector Nat 4
  slots    : Vector Slot 48
  drbgKey  : Bytes
  drbgV    : Bytes
  drbgCnt  : Nat
  engine   : List EngineReq
  deriving DecidableEq, Repr

-- ------------------------------------------------------------------ Gondola and CVU (chapters 17 and 18)

/-- A message in a slot (Table 17-2). -/
structure Msg where
  snd   : Nat
  mseq  : BitVec 8
  words : List Reg32
  hand  : Option (Fin 32)
  deriving DecidableEq, Repr

/-- A channel: its ends, its slot, sequence and collision state. -/
structure Chan where
  bound : Option (Nat × Nat)
  msg   : Option Msg
  last  : BitVec 8
  next  : BitVec 8
  coll  : Bool
  ccnt  : Nat
  deriving DecidableEq, Repr

/-- A semaphore (17.5). -/
structure Sem where
  holder : Option Tenant
  broken : Bool
  deriving DecidableEq, Repr

/-- A CVU parameter set (18.2). -/
structure CvuPar where
  preset : Nat
  width  : Nat
  poly   : BitVec 32
  init   : BitVec 32
  xorout : BitVec 32
  reflIn : Bool
  reflOut : Bool
  deriving DecidableEq, Repr

structure GondolaSt where
  chans  : Vector Chan 16
  locked : Bool
  sems   : Vector Sem 8
  deriving DecidableEq, Repr

-- ------------------------------------------------------------------ store (chapter 19)

/-- A traffic ledger configuration: interval minutes, dedupe seconds, classes (MASK, VALUE). -/
structure LedgerCfg where
  ivl    : Nat
  dedupe : Nat
  cls    : List (BitVec 32 × BitVec 32)
  deriving DecidableEq, Repr

/-- A ledger record (Table 20-2) without its MAC, which is computed at read time (R539). -/
structure Record where
  seq    : Nat
  flags  : BitVec 16
  start  : Int
  stop   : Int
  counts : List Nat
  bytes  : Nat
  deriving DecidableEq, Repr

/-- An event-log entry (R566). -/
structure LogEntry where
  reel : Tick
  code : BitVec 16
  data : Bytes
  deriving DecidableEq, Repr

/-- A Keel patch in a slot (Table 5-5). -/
structure Patch where
  level : Nat
  image : Bytes
  deriving DecidableEq, Repr

/-- What a queued commit writes (19.2); a commit of the Mend map tells whether WEAR takes the running counts (R575). -/
inductive CommitKind where
  | nvmWrite (t : Tenant) (job : Job) (off : Nat) (data : Bytes)
  | patch (t : Tenant) (job : Job) (slot : Nat) (p : Patch)
  | keyErase (t : Tenant) (job : Job) (k : Fin 48)
  | keyInval (t : Tenant) (job : Job) (k : Fin 48)
  | rootInval (t : Tenant) (job : Job)
  | keyRec (k : Fin 48)
  | useRes (k : Fin 48) (value : Nat)
  | frameRes (k : Fin 48) (value : Nat)
  | tamperGens
  | ballast (c vmin : Nat)
  | owner (t : Tenant)
  | ledgerCfg (cfg : LedgerCfg) (next : Option LedgerCfg)
  | window (start len : Nat)
  | record (r : Record)
  | checkpoint (r : Record)
  | logPage (entries : List LogEntry)
  | map (wear : Bool)
  deriving DecidableEq, Repr

/-- A commit in the queue and its page writes (R522). -/
structure Commit where
  kind  : CommitKind
  pages : Nat
  deriving DecidableEq, Repr

/-- Provisioning values whose commits have landed (R635). -/
structure Provision where
  balC   : Nat
  vmin   : Nat
  owner  : Tenant
  cfg    : LedgerCfg
  nextCfg : Option LedgerCfg
  winStart : Nat
  winLen : Nat
  deriving DecidableEq, Repr

/-- A wear move (R531): the logical sector, the spare it goes to, and the copy steps done. -/
structure Move where
  logical : Nat
  target  : Nat
  steps   : Nat
  deriving DecidableEq, Repr

/-- Store and Ballast: the tenant areas, patch slots, provisioning, commit queue, wear, sector map, event log. `wear` counts
page commits per physical sector, `written` tells the day it was written last (R532); `sectors` gives the physical sector of logical sector 3 + i; `log` has the newest entry
first, and `logDone` of the entries in `logBuf`, the page buffer, are in a commit queued already (R636); `sinceMap` entries landed since the last commit of the Mend map (R568). -/
structure StoreSt where
  areas   : Vector Memory 4
  badPages : List (Tenant × Nat)
  patches : Vector (Option Patch) 8
  level   : Nat
  prov    : Provision
  balC    : Nat
  vmin    : Nat
  vhu     : Nat
  eavail  : Nat
  queue   : List Commit
  deferred : List Commit
  defer   : Nat
  commits : Nat
  degraded : Bool
  replay  : Bool
  journal : Option (Tenant × Nat × Bytes)
  wear    : List Nat
  written : List Nat
  sectors : List Nat
  retired : List Nat
  moving  : Option Move
  log     : List LogEntry
  logBuf  : List LogEntry
  logDone : Nat
  sinceMap : Nat
  logLost : Nat
  deriving DecidableEq, Repr

-- ------------------------------------------------------------------ ledger (chapter 20)

/-- The open interval. Times in ms; `opened` the Reel tick it opened at, `startMs` START on its scale. -/
structure Interval where
  opened  : Tick
  startMs : Int
  endsAt  : Tick
  flags   : BitVec 16
  counts  : List Nat
  dirty   : Bool
  deriving DecidableEq, Repr

/-- The ledger. `wall` gives the wall time in ms at a Reel tick once set; `lastSeq` is the SEQ given last, `lastLanded`
the newest whose commit landed; `held` the held intervals, oldest first; `toTell` the landed seals whose event is due;
`dedupe` the table, key and last refresh, the least recently refreshed first. -/
structure LedgerSt where
  owner   : Tenant
  cfg     : LedgerCfg
  nextCfg : Option LedgerCfg
  wall    : Option (Tick × Int)
  cur     : Option Interval
  lastSeq : Nat
  lastLanded : Nat
  held    : List Record
  toTell  : List (Nat × BitVec 16)
  lost    : Nat
  evict   : Nat
  ckpt    : Option Record
  restart : Bool
  newCfg  : Bool
  dedupe  : List (Bytes × Tick)
  deriving DecidableEq, Repr

-- ------------------------------------------------------------------ Survey and Mend (chapters 21 and 22)

/-- A sweep in progress (21.2): the points measured, the next point, the first grant, the profile in force (R553, R554). -/
structure Sweep where
  owner  : Option Tenant
  tseq   : BitVec 16
  target : Fin 6
  length : Bool
  next   : Nat
  points : List (Nat × Gamma)
  from_  : Option Tick
  rest   : List (Fin 6)
  prof   : Profile
  deriving DecidableEq, Repr

/-- Per target: last and reported class, reference RL and length (R559, R560). -/
structure Target where
  rl     : Nat
  len    : Nat
  cls    : Nat
  seen   : Nat
  refRl  : Option (Nat × Nat)
  deriving DecidableEq, Repr

structure SurveySt where
  smp     : Sample
  hot     : Bool
  target  : Fin 6
  sweep   : Option Sweep
  targets : Vector Target 6
  period  : Nat
  subs    : Vector Nat 4
  paCur   : Nat
  paRefs  : Vector (List Nat) 4
  tagCap  : BitVec 32
  used    : BitVec 4
  deriving DecidableEq, Repr

/-- The Mend map as its newest good copies hold it (Table 22-4); bit c of `copies` tells that copy c is good. -/
structure MendMap where
  rowmap  : List (Nat × Nat)
  disrow  : List (Nat × Nat)
  lanes   : BitVec 8
  adc     : BitVec 3
  lna     : BitVec 2
  syn     : BitVec 2
  keyram  : BitVec 48
  lost    : BitVec 11
  seq     : BitVec 16
  sectors : List Nat
  retired : List Nat
  wear    : List Nat
  copies  : BitVec 3
  deriving DecidableEq, Repr

/-- Mend: the map's contents (Table 22-4), the losses, the daily test. `scrub` notes rows that SECDED corrected once and
when (R579); `owed` repairs that wait for an idle resource (R582); `winOpen` that the daylight window is open with its test not
complete, `openedAt` when one opened last; `startChanges` the spare counts that the start self-test changed, and whether by a
loss (R569). -/
structure MendSt where
  rowmap  : List (Nat × Nat)
  disrow  : List (Nat × Nat)
  lanes   : BitVec 8
  adc     : BitVec 3
  lna     : BitVec 2
  syn     : BitVec 2
  keyram  : BitVec 48
  ship    : Nat
  lost    : BitVec 11
  mapSeq  : BitVec 16
  mapOk   : BitVec 3
  running : Bool
  overdue : Bool
  step    : Nat
  days    : Nat
  winStart : Nat
  winLen  : Nat
  scrub   : List (Nat × Nat × Tick)
  owed    : List MendRes
  checkR  : Bool
  checkL  : Bool
  startChanges : List (Nat × Bool)
  winOpen  : Bool
  openedAt : Option Tick
  saved    : MendMap
  deriving DecidableEq, Repr

/-- Block epochs and the counters of chapter 23. -/
structure EpochSt where
  rdr   : BitVec 16
  lnk   : BitVec 16
  cry   : BitVec 16
  stale : Nat
  rxdrop : Nat
  deriving DecidableEq, Repr

-- ------------------------------------------------------------------ the whole

/-- The state of the part. `pending` are the commands that wait, first in, first out; `binding` maps ports to tenants;
`bufRound` are the positions that the shared pool has served on a tick of Reel, each with whether for a Spool context (R593);
`loaded` is the profile that each tenant's activities run under (R150, R201, R620); `divNew` are the PORT3_DIV values, each with the SEQ of its
write, that take effect when the responses to their writes have left (R106), the oldest first; `turn` is the tenant that Keel
serves next in its rotation (R156); `free` numbers the free
values the model has drawn: it is the model's own and no state of the part. -/
structure State where
  pending : List Instr
  power   : PowerSt
  ports   : Vector PortSt 4
  binding : Vector (Fin 4) 4
  bindLock : Bool
  shareLock : Bool
  div     : BitVec 9
  divNew  : List (BitVec 9 × BitVec 16)
  tens    : Vector TenantSt 4
  prof    : Vector Profile 4
  loaded  : Vector Profile 4
  v1      : V1St
  bufs    : Vector Buf 32
  bufPtr  : Fin 6
  bufRound : Tick × List (Fin 6 × Bool)
  ctxs    : Vector Ctx 4
  radio   : RadioSt
  rdr     : ReaderSt
  tag     : LanternSt
  sess    : Vector SecSess 4
  link    : LinkSt
  reel    : ReelSt
  bri     : BridleSt
  gdl     : GondolaSt
  cvu     : Vector CvuPar 4
  cvuLink : Nat
  cvuRdr  : Nat
  store   : StoreSt
  ldg     : LedgerSt
  svy     : SurveySt
  mend    : MendSt
  epoch   : EpochSt
  serial  : BitVec 64
  turn    : Tenant
  tap     : TapSt
  free    : Nat
  deriving DecidableEq, Repr

/-- No step of this model faults: every row of the table has an effect in every state, if only that of not coming
about. -/
inductive Fault where
  /-- Raised by nobody; it stands for the outcome the host's interface has room for. Safe. -/
  | none
  deriving DecidableEq, Repr

/-- Why a command has no meaning in the model. -/
inductive Refusal where
  /-- The named row has no meaning yet. Raised by a row that has not been reached, and by no meaning. Safe. -/
  | notModelled (mnemonic : String)
  deriving DecidableEq, Repr

-- ------------------------------------------------------------------ reset values

def PowerSt.reset : PowerSt :=
  { mode := .reset, cause := 1, commitSkipped := false, strapV1 := false, strapAddr := 0,
    votes := Vector.replicate 4 false, pwrfail := false, vpaLow := false, vioLost := false, xo24Ok := false,
    xo32Ok := false, aonRc := true, coreRc := false, untrusted := false, boosts := 0, wakeFails := 0, wakeRun := 0,
    wake := none, startedAt := 0, xo32Gone := false, started := false }

/-- Power-on reset holds the TAP in Test-Logic-Reset (2.7), where IDCODE is selected. The register between TDI and TDO has no
stated value before its first capture: log entry 69 DESIGN CHOICE. -/
def TapSt.reset : TapSt := { st := .testLogicReset, idSel := true, dr := 0, tdo := none }

def PortSt.reset : PortSt :=
  { cfg := 0, attached := false, moved := false, presFrom := 0, badframe := 0, abort := 0, rxdrop := 0, resets := 0,
    polled := false, txPart := 0, sent := [], ring := [], untaken := [], mode3 := false, line := [], acks := [],
    burst := none }

def TenantSt.reset : TenantSt :=
  { cmdQ := [], exec := none, outQ := [], refusal := none, evSeq := 0, evLost := 0, lostRun := 0, refused := 0,
    share := 25, front := none }

def Profile.reset : Profile :=
  { coex := 0x03E8, fwd := 0x6544, back := 0x00DA, q := 0x4F08, pa := 0x5400, pacpl := 0x0078, sniff := 0x0404,
    feed := 0x8400, rlband := 0x3E58, phycfg := 0x000E, txpwr := 0x001C, cca := 0x00AB, hopDwell := 0, hop := [] }

def V1St.reset : V1St :=
  { irqen := 0, irqflg := 0, region := 0, power := 0x50, q := 0x14, sess := 0, link := 0, asel := 0,
    dwell := 0x0A, err := 0, fifo := [], dwellFrom := 0, out := [] }

def Buf.reset : Buf := { used := false, len := 0, bytes := [], mark := .plain }

def Ctx.reset : Ctx :=
  { run := .idle, starter := .spoolStart, tseq := 0, codeLen := 0, entries := [], load := none, code := [], data := [],
    regs := Vector.replicate 16 0, z := false, c := false, n := false, stack := [], pc := 0, cursor := 0, fresh := false,
    held := [], power := 0, cyc := 0, wdog := 0, latch := 0, shadow := 0, ksel := none, pend := none, fault := 0,
    rssi := 0, phase := 0, lostR := false, lostL := false, tunedR := false, tunedL := false, ackTx := none,
    start := none, issues := 0, stopping := none, early := [], wipe := false, began := 0, epoch := 0 }

def RadioSt.reset : RadioSt :=
  { rState := .standby, lState := .standby, rMove := none, lMove := none, calR := false, calL := false, rFreq := 0, lFreq := 0, rHold := none, lHold := none, waiters := [],
    window := 0, charged := Vector.replicate 4 0, lastServed := Vector.replicate 6 none, calFailR := 0, calFailL := 0,
    calRunR := 0, calRunL := 0, deepAtR := 0, deepAtL := 0, deepTempR := 0, deepTempL := 0, deepDueR := false,
    deepDueL := false, deepSkipsR := 0, deepSkipsL := 0, gnt := false, reqRose := none, leadDone := false, pri := false,
    denied := 0, withdrawn := 0, lkbGiven := false, lkbDue := false }

def ReaderSt.reset : ReaderSt :=
  { roundCnt := 0, running := false, owner := 0, aerial := 0, qNow := 0, emptyRun := 0, ownReply := none, decErr := 0, carrier := none,
    pset := 0, compTemp := 0, comp := 0, compNext := (0, 0), pafbLo := false, pafbHi := false,
    dpd := Vector.replicate 3 0, trips := 0, paGain := 80, paen := none, pabias := 0, drive := 0, loop := false, convR := false, satR := false,
    convL := false, noconc := 0, suppR := 0, clcSat := 0, clips := 0, gain := 0, gainAt := 0, gainDue := 0,
    sniff := none, skip := 0, base := Vector.replicate 4 none, lastInv := Vector.replicate 4 none,
    inv := Vector.replicate 4 none, acc := Vector.replicate 4 none, cycle := Vector.replicate 4 [],
    etsiNext := Vector.replicate 4 0, tabNext := Vector.replicate 4 0, onTime := [],
    leftAt := [], onAir := none, opening := none, aerialWas := none, aerialBack := none, warm := [] }

def SecSess.reset : SecSess :=
  { opened := false, sid := 0, tseq := 0, key := 0, keyGone := false, handle := 0, ctx := none, ctrTx := 0, ctrRx := 0, msgs := 0,
    sendQ := [], busy := none, idleFrom := 0, sentAt := 0, region := 0, visitFrom := 0, challenge := [] }

def LanternSt.reset : LanternSt :=
  { enabled := false, owner := 0, key := 0, keyGone := false, flags := 0, epc := [], field := false, owed := false, fd := false, level := 0,
    sl := false, inv := 0, rn16 := none, handle := none, blfSet := (0, false, 0, false), ctx := none,
    fz2Handle := none, session := false, ctrTx := 0, ctrRx := 0, msgs := 0, part := [], request := [], area := [],
    pubNext := [], failRun := 0, failTotal := 0, backoff := none, replyOut := .none }

def LinkSt.reset : LinkSt :=
  { configured := false, holder := none, addr := 0xFFFE, freq := 0, rate := 0, region := 0, beacon := 30, cap := 0,
    maccfg := 0x3F02, pan := 0, searchLkb := false, demod := false, afterSfd := false, lane := 0, keptLkb := false,
    measuring := false, detAt := 0, agc := .off, eq := .off, lanesHealthy := 8, uses := 0x3F, lastRssi := 0, lastLqi := 0, lastEvm := 0, errFalse := 0, errHdr := 0,
    compTemp := 0, comp := 0, compNext := (0, 0), mseq := 0, step := .idle, sends := [], timer := 0, trsw := none, ackDue := none,
    ackEnd := none, sentPsdu := [], onAir := none, rxHost := 0, listens := Vector.replicate 4 none, nbrs := [], nbrFull := false, isolated := false, noackRun := 0,
    beaconAt := none, dup := [], duty := [], secMic := 0, secReplay := 0, macFormat := 0, macNokey := 0, txNoack := 0,
    txCaf := 0, rxdrop := 0 }

def Compare.reset : Compare := { val := 0, act := 0x20, hold := false, st := .disabled, late := false }
def DownCnt.reset : DownCnt :=
  { cfg := 0, rld := 0, cnt := 0, cnt1Latch := 0, st := .held, phase := 0, due := false, slept := false, miss := 0 }
def Capture.reset : Capture :=
  { val := 0, full := false, ovr := false, arm := false, edge := 0, level := false }
def TimerOut.reset : TimerOut := { level := false, pw := 0, pulseEnd := none, actAt := 0, rank := 0, acts := [] }

def ReelSt.reset : ReelSt :=
  { cnt := 0, keeper := 0, day := 0, dayFrom := 0, cmps := Vector.replicate 12 .reset, dcs := Vector.replicate 4 .reset,
    caps := Vector.replicate 4 .reset, touts := Vector.replicate 4 .reset }

def Reserved.reset (block : Nat) : Reserved := { now := 0, limit := block, queued := false }

/-- A slot as shipped: free, GEN 0 (R475, R480). -/
def Slot.reset : Slot :=
  { key := none, gen := 0, unsaved := false, cached := false, usesLatch := 0, useRes := .reset 256,
    frame := .reset 1024, bad := false, stored := none }

def BridleSt.reset : BridleSt :=
  { rootOk := false, armed := false, seen := false, latched := false, drbgOk := false, entLost := false, entRun := 0,
    entPass := 0, entFail := 0, helper := 0, copies := 7, retries := 0, roots := Vector.replicate 4 0,
    dead := Vector.replicate 4 false, rootsLanded := Vector.replicate 4 0, deadLanded := Vector.replicate 4 false,
    rootUses := Vector.replicate 4 0, slots := Vector.replicate 48 .reset,
    drbgKey := [], drbgV := [], drbgCnt := 0, engine := [] }

def Chan.reset : Chan := { bound := none, msg := none, last := 0, next := 0, coll := false, ccnt := 0 }
def Sem.reset : Sem := { holder := none, broken := false }
def GondolaSt.reset : GondolaSt :=
  { chans := Vector.replicate 16 .reset, locked := false, sems := Vector.replicate 8 .reset }

/-- Preset 2 of Table 18-3, the CVU2 context after a start (R511). -/
def CvuPar.reset : CvuPar :=
  { preset := 2, width := 16, poly := 0x1021, init := 0xFFFF, xorout := 0xFFFF, reflIn := false, reflOut := false }

/-- The ledger as configured at shipping (20.1). -/
def LedgerCfg.shipped : LedgerCfg := { ivl := 15, dedupe := 30, cls := [(0, 0)] }

/-- Provisioning as shipped: C 0 (R523), T0 owns the ledger (R21), the window of 22.3. -/
def Provision.shipped : Provision :=
  { balC := 0, vmin := 0, owner := 0, cfg := .shipped, nextCfg := none, winStart := 720,
    winLen := 120 }

/-- The store of a new part: tenant areas empty, every sector unworn, logical sector 3 + i in physical 3 + i (R516).
Log entry 4 DESIGN CHOICE. -/
def StoreSt.reset : StoreSt :=
  { areas := Vector.replicate 4 [], badPages := [], patches := Vector.replicate 8 none, level := 0, prov := .shipped,
    balC := 0, vmin := 0, vhu := 0, eavail := 0, queue := [], deferred := [], defer := 0, commits := 0,
    degraded := false, replay := false, journal := none, wear := List.replicate 136 0, written := List.replicate 136 0,
    sectors := (List.range 125).map (· + 3), retired := [], moving := none, log := [], logBuf := [], logDone := 0,
    sinceMap := 0, logLost := 0 }

def LedgerSt.reset : LedgerSt :=
  { owner := 0, cfg := .shipped, nextCfg := none, wall := none, cur := none, lastSeq := 0, lastLanded := 0, held := [],
    toTell := [],
    lost := 0, evict := 0, ckpt := none, restart := false, newCfg := false, dedupe := [] }

def Target.reset : Target := { rl := 0xFFFF, len := 0xFFFF, cls := 0, seen := 0, refRl := none }
def SurveySt.reset : SurveySt :=
  { smp := { vin := 0, vpa := 0, vio := 0, vhu := 0, temp := 0 }, hot := false, target := 0, sweep := none,
    targets := Vector.replicate 6 .reset, period := 60, subs := Vector.replicate 4 0, paCur := 0xFFFF,
    paRefs := Vector.replicate 4 [], tagCap := 0, used := 0 }

/-- The map of a new part without repairs. -/
def MendMap.reset : MendMap :=
  { rowmap := [], disrow := [], lanes := 0, adc := 0, lna := 0, syn := 0, keyram := 0, lost := 0, seq := 0,
    sectors := (List.range 125).map (· + 3), retired := [], wear := List.replicate 136 0, copies := 7 }

/-- A map without repairs: every spare unused, nothing lost (R578 allows it). -/
def MendSt.reset : MendSt :=
  { rowmap := [], disrow := [], lanes := 0, adc := 0, lna := 0, syn := 0, keyram := 0, ship := 0, lost := 0, mapSeq := 0,
    mapOk := 0, running := false, overdue := false, step := 0, days := 0, winStart := 720, winLen := 120, scrub := [],
    owed := [], checkR := false, checkL := false, startChanges := [], winOpen := false, openedAt := none, saved := .reset }

def EpochSt.reset : EpochSt := { rdr := 0, lnk := 0, cry := 0, stale := 0, rxdrop := 0 }

/-- The part held in power-on reset, before reset release: every register at the Reset value of its card, the store as a
new part's, and no command waiting. Log entry 8 DESIGN CHOICE. -/
def State.reset : State :=
  { pending := [], power := .reset, ports := Vector.replicate 4 .reset, binding := Vector.ofFn id, bindLock := false,
    shareLock := false, div := 417, divNew := [], tens := Vector.replicate 4 .reset,
    prof := Vector.replicate 4 .reset, loaded := Vector.replicate 4 .reset, v1 := .reset, bufs := Vector.replicate 32 .reset, bufPtr := 0,
    bufRound := (0, []),
    ctxs := Vector.replicate 4 .reset, radio := .reset, rdr := .reset, tag := .reset, sess := Vector.replicate 4 .reset,
    link := .reset, reel := .reset, bri := .reset, gdl := .reset, cvu := Vector.replicate 4 .reset, cvuLink := 0,
    cvuRdr := 0, store := .reset, ldg := .reset, svy := .reset, mend := .reset, epoch := .reset, serial := 0, turn := 0,
    tap := .reset, free := 0 }

end Sys2Proof.Machine
end

