-- ==== Sys2Proof/Machine/Flags.lean ====
section
/-!
DEFINITION. The status codes of Table 6-22, the event codes of Table 6-23 and the flag rules of the Spool ALU (R228).
-/
namespace Sys2Proof.Machine

/-! Status codes (Table 6-22). -/
abbrev stOk : Byte := 0x00
abbrev stBusy : Byte := 0x01
abbrev stBadOpcode : Byte := 0x03
abbrev stBadArg : Byte := 0x04
abbrev stDenied : Byte := 0x05
abbrev stNoBuffer : Byte := 0x06
abbrev stAirtime : Byte := 0x07
abbrev stCoexDenied : Byte := 0x08
abbrev stCancelled : Byte := 0x09
abbrev stLateCancel : Byte := 0x0A
abbrev stAbortedReset : Byte := 0x0B
abbrev stNoRoot : Byte := 0x0C
abbrev stKeyOrphan : Byte := 0x0D
abbrev stKeyUsage : Byte := 0x0E
abbrev stKeyExhausted : Byte := 0x0F
abbrev stBallastLow : Byte := 0x10
abbrev stNvmFail : Byte := 0x11
abbrev stCalFail : Byte := 0x12
abbrev stDegraded : Byte := 0x13
abbrev stTimeout : Byte := 0x14
abbrev stNoAck : Byte := 0x15
abbrev stAuthFail : Byte := 0x16
abbrev stSpoolFault : Byte := 0x17
abbrev stLocked : Byte := 0x18
abbrev stV1Mode : Byte := 0x19
abbrev stLimp : Byte := 0x1A

/-! Event codes (Table 6-23). -/
abbrev evReset : BitVec 16 := 0x0100
abbrev evWake : BitVec 16 := 0x0101
abbrev evWakeFault : BitVec 16 := 0x0102
abbrev evPwrfail : BitVec 16 := 0x0103
abbrev evPatch : BitVec 16 := 0x0104
abbrev evEventLost : BitVec 16 := 0x0105
abbrev evPortDetach : BitVec 16 := 0x0200
abbrev evPortAttach : BitVec 16 := 0x0201
abbrev evTag : BitVec 16 := 0x1000
abbrev evRoundEnd : BitVec 16 := 0x1001
abbrev evInvDone : BitVec 16 := 0x1002
abbrev evAccess : BitVec 16 := 0x1003
abbrev evPresence : BitVec 16 := 0x1004
abbrev evField : BitVec 16 := 0x1100
abbrev evTagSession : BitVec 16 := 0x1101
abbrev evAuth : BitVec 16 := 0x1200
abbrev evSession : BitVec 16 := 0x1201
abbrev evSecData : BitVec 16 := 0x1202
abbrev evLnkRx : BitVec 16 := 0x2000
abbrev evLnkTxDone : BitVec 16 := 0x2001
abbrev evIsolated : BitVec 16 := 0x2002
abbrev evListenEnd : BitVec 16 := 0x2003
abbrev evNbrNew : BitVec 16 := 0x2100
abbrev evNbrLost : BitVec 16 := 0x2101
abbrev evTmr : BitVec 16 := 0x3000
abbrev evCap : BitVec 16 := 0x3001
abbrev evTamper : BitVec 16 := 0x4000
abbrev evMbx : BitVec 16 := 0x5000
abbrev evLedgerSealed : BitVec 16 := 0x7400
abbrev evLedgerOverrun : BitVec 16 := 0x7401
abbrev evTelemetry : BitVec 16 := 0x8000
abbrev evMeas : BitVec 16 := 0x8001
abbrev evAerialFault : BitVec 16 := 0x8002
abbrev evMend : BitVec 16 := 0x8800
abbrev evSpool : BitVec 16 := 0x9000
abbrev evSpoolFault : BitVec 16 := 0x9001
abbrev evSpoolEnd : BitVec 16 := 0x9002

/-- An ALU result with the carry it leaves: `none` keeps C (R228). -/
structure AluOut where
  val   : Reg32
  carry : Option Bool
  deriving DecidableEq, Repr

/-- ADD, ADDI: carry out of bit 31 (R228). -/
def aluAdd (a b : Reg32) : AluOut := { val := a + b, carry := some (decide (2 ^ 32 ≤ a.toNat + b.toNat)) }
/-- SUB, CMP, CMPI: borrow, the first operand below the second (R228). -/
def aluSub (a b : Reg32) : AluOut := { val := a - b, carry := some (decide (a.toNat < b.toNat)) }
/-- AND and ANDI: C unchanged. -/
def aluAnd (a b : Reg32) : AluOut := { val := a &&& b, carry := none }
/-- OR and ORI: C unchanged. -/
def aluOr (a b : Reg32) : AluOut := { val := a ||| b, carry := none }
/-- XOR and XORI: C unchanged. -/
def aluXor (a b : Reg32) : AluOut := { val := a ^^^ b, carry := none }
/-- The shift count B[4:0] (Table 8-4). -/
def shiftCount (b : Reg32) : Nat := b.toNat % 32
/-- SHL: C is the last bit shifted out, 0 for a shift of 0 (R228). -/
def aluShl (a b : Reg32) : AluOut :=
  let n := shiftCount b
  { val := a <<< n, carry := some (n != 0 && a.getLsbD (32 - n)) }
/-- SHR: zero fill; C the last bit shifted out. -/
def aluShr (a b : Reg32) : AluOut :=
  let n := shiftCount b
  { val := a >>> n, carry := some (n != 0 && a.getLsbD (n - 1)) }
/-- ASR: sign fill; C the last bit shifted out. -/
def aluAsr (a b : Reg32) : AluOut :=
  let n := shiftCount b
  { val := a.sshiftRight n, carry := some (n != 0 && a.getLsbD (n - 1)) }
/-- MUL: low 32 bits; C unchanged. -/
def aluMul (a b : Reg32) : AluOut := { val := a * b, carry := none }
/-- LUI: IMM in bits 31:14; C unchanged. -/
def aluLui (imm : BitVec 18) : AluOut := { val := imm.setWidth 32 <<< (14 : Nat), carry := none }

/-- Z, N and C after an ALU instruction (R228). -/
def setAluFlags (o : AluOut) (k : Ctx) : Ctx :=
  { k with z := decide (o.val = 0), n := o.val.msb, c := o.carry.getD k.c }

/-- The conditions of Table 8-3. -/
def condHolds (cond : Fin 8) (k : Ctx) : Bool :=
  match cond with
  | 0 => true
  | 1 => k.z
  | 2 => !k.z
  | 3 => k.c
  | 4 => !k.c
  | 5 => k.n
  | 6 => !k.n
  | 7 => !k.c && !k.z

end Sys2Proof.Machine
end

