-- ==== Sys2Proof/Machine/Ops.lean ====
section
/-!
DEFINITION. The operations that every block shares: bytes and fields, sparse memory, saturating counts, Reel time, the
tenants' command and event queues, frame buffers, and free values.
-/
namespace Sys2Proof.Machine

-- ------------------------------------------------------------------ bytes

/-- Least significant byte first (R11). -/
def leNat : Bytes → Nat
  | [] => 0
  | b :: r => b.toNat + 256 * leNat r

/-- The field of n bytes at offset `off`, least significant byte first. -/
def fld (b : Bytes) (off n : Nat) : Nat := leNat ((b.drop off).take n)

/-- A number as n bytes, least significant first (R11). -/
def leBytes : Nat → Nat → Bytes
  | 0, _ => []
  | n + 1, v => BitVec.ofNat 8 v :: leBytes n (v / 256)

/-- A number as n bytes, most significant first. -/
def beBytes (n v : Nat) : Bytes := (leBytes n v).reverse

/-- A signed number in two's complement over n bytes (6.1). -/
def leInt (n : Nat) (v : Int) : Bytes := leBytes n (v % (256 ^ n : Nat)).toNat

/-- A signed byte. -/
def sByte (b : Nat) : Int := if b < 128 then b else (b : Int) - 256
/-- A signed 16-bit word. -/
def sWord (w : Nat) : Int := if w < 32768 then w else (w : Int) - 65536

/-- Add 1 to a count that saturates at `top`. -/
def satInc (top v : Nat) : Nat := if v < top then v + 1 else top

/-- A truth value as a register bit at place `i`. -/
def bitAt (i : Nat) (b : Bool) : Nat := if b then 2 ^ i else 0

/-- Bits hi:lo of a word (Table 0-4). -/
def bits (w : BitVec n) (hi lo : Nat) : Nat := w.toNat / 2 ^ lo % 2 ^ (hi - lo + 1)

/-- Bit i of a word. -/
def bit (w : BitVec n) (i : Nat) : Bool := w.getLsbD i

-- ------------------------------------------------------------------ vectors

/-- Replace entry i by what f makes of it. -/
def vmod {α : Type} {n : Nat} (v : Vector α n) (i : Fin n) (f : α → α) : Vector α n := v.set i.val (f v[i]) i.isLt

-- ------------------------------------------------------------------ sparse memory

/-- The byte at an address: 0 where none is listed. Log entry 4 DESIGN CHOICE. -/
def memGet : Memory → Nat → Byte
  | [], _ => 0
  | (k, v) :: r, a => if k = a then v else memGet r a

/-- Write one byte, keeping addresses rising and listing no 0. -/
def memPut : Memory → Nat → Byte → Memory
  | [], a, v => if v = 0 then [] else [(a, v)]
  | (k, w) :: r, a, v =>
    if a < k then (if v = 0 then (k, w) :: r else (a, v) :: (k, w) :: r)
    else if a = k then (if v = 0 then r else (a, v) :: r)
    else (k, w) :: memPut r a v

/-- Write a run of bytes from an address on. -/
def memPutAll (m : Memory) (a : Nat) : Bytes → Memory
  | [] => m
  | b :: r => memPutAll (memPut m a b) (a + 1) r

/-- Read n bytes from an address on. -/
def memGetAll (m : Memory) (a n : Nat) : Bytes := (List.range n).map fun i => memGet m (a + i)

/-- Every listed address lies above `lo`, they rise strictly, and no listed byte is 0. -/
def memWfFrom : Option Nat → Memory → Bool
  | _, [] => true
  | lo, (k, v) :: r => (match lo with | none => true | some l => decide (l < k)) && decide (v ≠ 0) && memWfFrom (some k) r

/-- The canonical form of a memory. Log entry 4 DESIGN CHOICE. -/
def Memory.wf (m : Memory) : Bool := memWfFrom none m

/-- The 32-bit word of four bytes, least significant first. -/
def memWord (m : Memory) (w : Nat) : Reg32 := BitVec.ofNat 32 (leNat (memGetAll m (4 * w) 4))

/-- Store a 32-bit word, least significant byte first. -/
def memPutWord (m : Memory) (w : Nat) (v : Reg32) : Memory := memPutAll m (4 * w) (leBytes 4 v.toNat)

-- ------------------------------------------------------------------ updating one entry of the state

def modPort (p : Port) (f : PortSt → PortSt) (s : State) : State := { s with ports := vmod s.ports p f }
def modTen (t : Tenant) (f : TenantSt → TenantSt) (s : State) : State := { s with tens := vmod s.tens t f }
def modProf (t : Tenant) (f : Profile → Profile) (s : State) : State := { s with prof := vmod s.prof t f }
def modCtx (x : Tenant) (f : Ctx → Ctx) (s : State) : State := { s with ctxs := vmod s.ctxs x f }
def modSess (t : Tenant) (f : SecSess → SecSess) (s : State) : State := { s with sess := vmod s.sess t f }
def modBuf (h : Fin 32) (f : Buf → Buf) (s : State) : State := { s with bufs := vmod s.bufs h f }
def modSlot (k : Fin 48) (f : Slot → Slot) (s : State) : State :=
  { s with bri := { s.bri with slots := vmod s.bri.slots k f } }
def modChan (g : Fin 16) (f : Chan → Chan) (s : State) : State :=
  { s with gdl := { s.gdl with chans := vmod s.gdl.chans g f } }
def modSem (i : Fin 8) (f : Sem → Sem) (s : State) : State :=
  { s with gdl := { s.gdl with sems := vmod s.gdl.sems i f } }
def modCmp (k : Fin 12) (f : Compare → Compare) (s : State) : State :=
  { s with reel := { s.reel with cmps := vmod s.reel.cmps k f } }
def modDc (n : Tenant) (f : DownCnt → DownCnt) (s : State) : State :=
  { s with reel := { s.reel with dcs := vmod s.reel.dcs n f } }
def modCap (n : Tenant) (f : Capture → Capture) (s : State) : State :=
  { s with reel := { s.reel with caps := vmod s.reel.caps n f } }
def modTout (n : Tenant) (f : TimerOut → TimerOut) (s : State) : State :=
  { s with reel := { s.reel with touts := vmod s.reel.touts n f } }
/-- The reader half of a profile, with what both cores use of it. Log entry 59 DEDUCED. -/
def loadReader (p q : Profile) : Profile := { p with phycfg := q.phycfg, txpwr := q.txpwr, cca := q.cca }
/-- The link half of a profile. Log entry 59 DEDUCED. -/
def loadLink (p q : Profile) : Profile := { q with coex := p.coex, phycfg := p.phycfg, txpwr := p.txpwr, cca := p.cca }
/-- A tenant's profile as it stands is the one that its activities run under from now (R150). Log entry 59 DEDUCED. -/
def takeProfile (t : Tenant) (s : State) : State := { s with loaded := s.loaded.set t.val s.prof[t] t.isLt }
/-- A core's half of it. Log entry 59 DEDUCED. -/
def takeHalf (c : CoreId) (t : Tenant) (s : State) : State :=
  { s with loaded := vmod s.loaded t (match c with | .reader => loadReader s.prof[t] | .link => loadLink s.prof[t]) }
def setPower (f : PowerSt → PowerSt) (s : State) : State := { s with power := f s.power }
def setRadio (f : RadioSt → RadioSt) (s : State) : State := { s with radio := f s.radio }
def setRdr (f : ReaderSt → ReaderSt) (s : State) : State := { s with rdr := f s.rdr }
def setLink (f : LinkSt → LinkSt) (s : State) : State := { s with link := f s.link }
def setTag (f : LanternSt → LanternSt) (s : State) : State := { s with tag := f s.tag }
def setBri (f : BridleSt → BridleSt) (s : State) : State := { s with bri := f s.bri }
def setStore (f : StoreSt → StoreSt) (s : State) : State := { s with store := f s.store }
def setLdg (f : LedgerSt → LedgerSt) (s : State) : State := { s with ldg := f s.ldg }
def setSvy (f : SurveySt → SurveySt) (s : State) : State := { s with svy := f s.svy }
def setMend (f : MendSt → MendSt) (s : State) : State := { s with mend := f s.mend }
def setEpoch (f : EpochSt → EpochSt) (s : State) : State := { s with epoch := f s.epoch }
def setV1 (f : V1St → V1St) (s : State) : State := { s with v1 := f s.v1 }
def setInv (x : Tenant) (i : Option Inv) (s : State) : State :=
  { s with rdr := { s.rdr with inv := s.rdr.inv.set x.val i x.isLt } }
def setAcc (x : Tenant) (a : Option Acc) (s : State) : State :=
  { s with rdr := { s.rdr with acc := s.rdr.acc.set x.val a x.isLt } }

/-- The tenants in order. -/
def tenants : List Tenant := [0, 1, 2, 3]

/-- Do something for each tenant in turn. -/
def forTenants (f : Tenant → State → State) (s : State) : State := f 3 (f 2 (f 1 (f 0 s)))

-- ------------------------------------------------------------------ free values

/-- Draw a free number: nothing is known of it. Log entry 9 DESIGN CHOICE. -/
def drawNat (s : State) : Nat × State := (Config.freeNat s.free, { s with free := s.free + 1 })
/-- Draw a free choice. Log entry 9 DESIGN CHOICE. -/
def drawBool (s : State) : Bool × State := (Config.freeBool s.free, { s with free := s.free + 1 })

/-- A Survey sample that Keel takes at a moment for which no row of the table brings one: its values are free (R319, R548).
Log entry 85 DESIGN CHOICE. -/
def freshSample (s : State) : Sample × State :=
  let v := fun i => Config.freeNat (s.free + i)
  ({ vin := v 0, vpa := v 1, vio := v 2, vhu := v 3, temp := (v 4 : Int) - 1000 }, { s with free := s.free + 5 })

/-- A reply with an older epoch is discarded and counted (R82, R587). -/
def countStale : State → State := setEpoch fun e => { e with stale := satInc 0xFFFF e.stale }

/-- A context's request to a core was made before the block's last reset (R587). -/
def requestStale (x : Tenant) (c : CoreId) (s : State) : Bool :=
  match s.ctxs[x].pend with
  | some p => p.epoch != (match c with | .reader => s.epoch.rdr | .link => s.epoch.lnk)
  | none => false

-- ------------------------------------------------------------------ power and time

/-- Host ports are live in STANDBY, ACTIVE and LIMP (Table 3-4). -/
def live (s : State) : Bool := s.power.mode == .run || s.power.mode == .limp
/-- XO24 or the RC counts Reel: from readiness at a start, while awake, and in LIMP (R435, R84).
Log entry 3 DESIGN CHOICE. -/
def reelCounts (s : State) : Bool := s.power.mode == .start || s.power.mode == .run || s.power.mode == .limp || s.power.mode == .drill
/-- LIMP (R84). -/
def inLimp (s : State) : Bool := s.power.mode == .limp

/-- The half-range rule: `now` has reached `t` (R441). -/
def reached (now t : Tick) : Bool := decide ((now - t).toNat < 2 ^ 47)
/-- Ticks from `a` to `b`, mod 2^48. -/
def ticksBetween (a b : Tick) : Nat := (b - a).toNat

/-- A running prescaled down counter after n more ticks: it stops short at the clock that fires, and keeps the ticks left
over (R448). -/
def dcRun (n : Nat) (d : DownCnt) : DownCnt :=
  if d.st == .running && !d.due && !bit d.cfg 10 then
    let pre := 2 ^ bits d.cfg 3 0
    let total := d.phase + n
    let clocks := total / pre
    if clocks ≤ d.cnt.toNat then { d with cnt := d.cnt - BitVec.ofNat 24 clocks, phase := total % pre }
    else { d with cnt := 0, due := true, phase := total - (d.cnt.toNat + 1) * pre }
  else if d.st == .running && d.due && !bit d.cfg 10 then { d with phase := d.phase + n }
  else d

/-- The fair-sharing window of a tick: windows begin at multiples of 2,400,000 (R270). -/
def windowOf (t : Tick) : Nat := t.toNat / 2400000

/-- The presence timers count in STANDBY and ACTIVE only (4.7): in every other state their start moves along. -/
def presenceShift (n : Nat) (s : State) : Vector PortSt 4 :=
  if s.power.mode == .run then s.ports
  else s.ports.map fun (q : PortSt) => { q with presFrom := q.presFrom + BitVec.ofNat 48 n }

/-- A Query advances the round counter (R244, R295), and its aerial counts as used (R553). Log entry 27 DEDUCED. -/
def countQuery (s : State) : State :=
  setSvy (fun v => { v with used := v.used ||| BitVec.ofNat 4 (2 ^ s.rdr.aerial.val) })
    (setRdr (fun r => { r with roundCnt := r.roundCnt + 1 }) s)

/-- The round of a tenant's own program, or one that an access opened, ends: the next Query or the end of its air comes (R298).
Log entry 27 DEDUCED. -/
def ownRoundEnd (s : State) : State :=
  match s.rdr.ownReply with
  | none => s
  | some b =>
    setRdr (fun r => { r with ownReply := none, running := false,
                              emptyRun := if b then 0 else satInc 0xFFFF r.emptyRun }) s

/-- The reader's air is held at class 2, a slot inside a running round (R213, Table 9-3). -/
def readerAsSlot : State → State :=
  setRadio fun r => { r with rHold := r.rHold.map fun h => { h with req := { h.req with cls := 2 } } }

/-- Reel now. -/
def nowOf (s : State) : Tick := s.reel.cnt
/-- A tick as the 6 bytes of a stamp (R14). -/
def tickBytes (t : Tick) : Bytes := leBytes 6 t.toNat

-- ------------------------------------------------------------------ tenants, ports and their queues

/-- The port of a tenant: the binding is one-to-one (R136). -/
def portOf (s : State) (t : Tenant) : Port :=
  if s.binding[0] = t then 0 else if s.binding[1] = t then 1 else if s.binding[2] = t then 2 else 3

/-- An outgoing entry that is an event. -/
def Out.isEvent : Out → Bool
  | .resp .. => false
  | _ => true

/-- An event entry of the 63 ordinary ones. Log entry 57 DEDUCED. -/
def Out.isOrdinary : Out → Bool
  | .evt .. => true
  | _ => false

/-- The reserved EV_EVENT_LOST entry. -/
def Out.isLost : Out → Bool
  | .lost .. => true
  | _ => false

/-- Queue an event for a tenant's queues at tick `now`: 63 ordinary entries, then drops that TENn_EVLOST counts, the
first of them queueing EV_EVENT_LOST; SEQ counts every event generated (R161 to R163). Log entry 57 DEDUCED. -/
def pushEvent (now : Tick) (code : BitVec 16) (data : Bytes) (q : TenantSt) : TenantSt :=
  if (q.outQ.filter Out.isOrdinary).length < 63 then
    { q with outQ := q.outQ ++ [.evt q.evSeq code now data], evSeq := q.evSeq + 1 }
  else if q.outQ.any Out.isLost then
    { q with evSeq := q.evSeq + 1, evLost := satInc 0xFFFF q.evLost, lostRun := satInc 0xFFFF q.lostRun }
  else
    { q with outQ := q.outQ ++ [.lost (q.evSeq + 1) now], evSeq := q.evSeq + 2, evLost := satInc 0xFFFF q.evLost,
             lostRun := 1 }

/-- Raise an event to one tenant, stamped with Reel (R14, R202). -/
def raise (t : Tenant) (code : BitVec 16) (data : Bytes) (s : State) : State :=
  modTen t (pushEvent s.reel.cnt code data) s

/-- Raise an event to every tenant. -/
def raiseAll (code : BitVec 16) (data : Bytes) (s : State) : State := forTenants (fun t => raise t code data) s

/-- Append the response to a tenant's job: results go only with ST_OK (R177). -/
def pushResponse (job : Job) (status : Byte) (results : Bytes) (q : TenantSt) : TenantSt :=
  { q with outQ := q.outQ ++ [.resp job.seq job.op status (if status = stOk then results else []) job.orphan] }

/-- Complete the command a tenant is executing with a status and results (R156, R159). -/
def reply (t : Tenant) (status : Byte) (results : Bytes) (s : State) : State :=
  match s.tens[t].exec with
  | none => s
  | some job => modTen t (fun q => { pushResponse job status results q with exec := none }) s

/-- Complete with a status and no results. -/
def refuse (t : Tenant) (status : Byte) (s : State) : State := reply t status [] s

/-- Commands outstanding: queued, executing, and responses not delivered (R154). -/
def outstanding (q : TenantSt) : Nat :=
  q.cmdQ.length + (if q.exec.isSome then 1 else 0) + (q.outQ.filter fun o => !o.isEvent).length +
    (if q.front.isSome then 1 else 0)

/-- A tenant's frame is heard: its ports are live, and SPI-A does not speak V1 for it (R63, R130). -/
def tenantHeard (t : Tenant) (s : State) : Bool := live s && !(t == 0 && s.power.strapV1)

/-- A tenant has a command that Keel could take up. -/
def hasReady (s : State) (u : Tenant) : Bool := s.tens[u].exec.isNone && !s.tens[u].cmdQ.isEmpty

/-- Keel's rotation has come to a tenant: no tenant between the one it serves next and this one has a command ready (R156). -/
def isTurn (s : State) (t : Tenant) : Bool :=
  tenants.all fun u => !(decide ((u - s.turn).val < (t - s.turn).val) && hasReady s u)

/-- The command of a frame as Keel queues it. -/
def jobOf (op : BitVec 16) (c : Cmd) (s : State) : Job :=
  { op := op, seq := c.seq, args := c.args, orphan := false, port := portOf s c.t }

/-- Keel goes on to serve a tenant; the one after it comes next (R156). -/
def serve (t : Tenant) (f : TenantSt → TenantSt) (s : State) : State := { modTen t f s with turn := t + 1 }

/-- Take a command up in its tenant's turn: its tenant's queue head if the queue holds commands, or the command itself if none
waits, none executes and fewer than 8 are outstanding (R154, R156). Log entry 1 DESIGN CHOICE. -/
def takeUp (op : BitVec 16) (c : Cmd) (s : State) : Option State :=
  if tenantHeard c.t s && isTurn s c.t then
    let q := s.tens[c.t]
    match q.exec, q.cmdQ with
    | none, [] =>
      if outstanding q < 8 then some (serve c.t (fun q => { q with exec := some (jobOf op c s) }) s) else none
    | none, j :: rest =>
      if j.op = op ∧ j.seq = c.seq ∧ j.args = c.args then
        some (serve c.t (fun q => { q with exec := some j, cmdQ := rest }) s)
      else none
    | some _, _ => none
  else none

/-- A command frame is queued, or refused while 8 commands are outstanding (R154, R155). -/
def queueJob (j : Job) (q : TenantSt) : TenantSt :=
  if outstanding q < 8 then { q with cmdQ := q.cmdQ ++ [j] }
  else { q with
    refused := satInc 0xFFFF q.refused
    refusal := if q.refusal.isNone then some (j.seq, j.op, false) else q.refusal }

/-- A command that its row brings and Keel cannot take up: with nothing of its tenant's waiting or executing it is a frame that has
just been accepted, which is queued for its turn or refused as a ninth (R154 to R156); otherwise it is not the command that
comes next, and nothing comes about. Log entry 1 DESIGN CHOICE. -/
def notTaken (op : BitVec 16) (c : Cmd) (s : State) : State :=
  if tenantHeard c.t s && s.tens[c.t].exec.isNone && s.tens[c.t].cmdQ.isEmpty then modTen c.t (queueJob (jobOf op c s)) s
  else s

/-- Run a Keel command, if it can be taken up. Log entries 1 DESIGN CHOICE, 5 DEDUCED, 61 DESIGN CHOICE. -/
def keelRun (op : BitVec 16) (c : Cmd) (body : State → State) (s : State) : State :=
  match takeUp op c s with
  | none => notTaken op c s
  | some s1 => body s1

/-- T0's provisioning (R145). -/
def isT0 (c : Cmd) : Bool := c.t == 0

/-- The event entry that a tenant still has undelivered, of a given code and leading data (R450, R500). -/
def undelivered (q : TenantSt) (code : BitVec 16) (head : Bytes) : Bool :=
  q.outQ.any fun o => match o with
    | .evt _ c _ d => c == code && d.take head.length == head
    | _ => false

-- ------------------------------------------------------------------ event log (19.1, R566, R636)

/-- Log an entry in the RAM page buffer; the fourth entry queues the page's commit, with the entries that no earlier commit
of the page holds. The newest comes first. -/
def logEntry (code : BitVec 16) (data : Bytes) (s : State) : State :=
  let e : LogEntry := { reel := s.reel.cnt, code := code, data := ((data ++ List.replicate 8 0).take 8) }
  let b := e :: s.store.logBuf
  if b.length < 4 then setStore (fun w => { w with logBuf := b }) s
  else setStore (fun w => { w with
    logBuf := []
    logDone := 0
    queue := w.queue ++ [{ kind := .logPage (b.take (4 - w.logDone)), pages := 1 }] }) s

/-- Queue the commit of a page buffer that is not full yet (R636). -/
def logPartial (s : State) : State :=
  let w := s.store
  if w.logBuf.length ≤ w.logDone then s
  else setStore (fun w => { w with
    logDone := w.logBuf.length
    queue := w.queue ++ [{ kind := .logPage (w.logBuf.take (w.logBuf.length - w.logDone)), pages := 1 }] }) s

-- ------------------------------------------------------------------ frame buffers (7.5, 23.4)

/-- Buffers 0 to 7 are the tenants' reserves, two each; 8 to 11 link RX; 12 to 15 reader RX; 16 to 31 shared. -/
def reserveOf (pos : Fin 6) : List (Fin 32) :=
  match pos with
  | 0 => [0, 1] | 1 => [2, 3] | 2 => [4, 5] | 3 => [6, 7] | 4 => [8, 9, 10, 11] | 5 => [12, 13, 14, 15]

def sharedBufs : List (Fin 32) := [16, 17, 18, 19, 20, 21, 22, 23, 24, 25, 26, 27, 28, 29, 30, 31]

/-- A requester's first free buffer: its reserve first, then the shared pool (23.4). Log entry 58 DESIGN CHOICE. -/
def findBuf (pos : Fin 6) (s : State) : Option (Fin 32) :=
  (reserveOf pos ++ sharedBufs).find? fun h => !s.bufs[h].used

/-- Take a buffer, zeroed and of length 0 (R215). Log entry 58 DESIGN CHOICE. -/
def takeBuf (h : Fin 32) (s : State) : State :=
  modBuf h (fun _ => { used := true, len := 0, bytes := [], mark := .plain }) s

/-- A request of a position is served with a buffer; `prog` tells a Spool context's from a command's. What the shared pool serves on
one tick of Reel, the model's core cycle, is noted (R593). Log entry 58 DESIGN CHOICE. -/
def serveBuf (pos : Fin 6) (prog : Bool) (h : Fin 32) (s : State) : State :=
  let mine := if s.bufRound.1 = s.reel.cnt then s.bufRound.2 else []
  let s := takeBuf h s
  if 16 ≤ h.val then { s with bufRound := (s.reel.cnt, mine ++ [(pos, prog)]) } else s

/-- A request that finds no buffer. Where the shared pool has served another requester in this core cycle it was contended, and the
pointer goes to one past the last position served (R593); Keel's commands do not contend with each other, nor do the Spool contexts,
which share an issue slot. Log entry 58 DESIGN CHOICE. -/
def missBuf (pos : Fin 6) (prog : Bool) (s : State) : State :=
  let rival := fun (e : Fin 6 × Bool) => decide (3 < pos.val ∨ 3 < e.1.val) && e.1 != pos || decide (pos.val ≤ 3 ∧ e.1.val ≤ 3) && e.2 != prog
  match s.bufRound.2.getLast? with
  | some last => if s.bufRound.1 = s.reel.cnt ∧ s.bufRound.2.any rival then { s with bufPtr := last.1 + 1 } else s
  | none => s

/-- Return a buffer to the pool. -/
def freeBuf (h : Fin 32) (s : State) : State := modBuf h (fun _ => .reset) s

/-- The position a tenant draws from (R593). Log entry 58 DESIGN CHOICE. -/
def posOf (t : Tenant) : Fin 6 := ⟨t.val, by omega⟩

end Sys2Proof.Machine
end

