-- ==== Sys2Proof/Machine/Crypto.lean ====
section
/-!
DEFINITION. The engine's arithmetic (16.8): AES-128 and AES-256 in ECB, CBC, CTR, CCM and CMAC, AES-KW unwrapping, the
derivation function of R464, the CTR_DRBG of 16.9. PRESUMED: the algorithms are those of the standards the spec names
(FIPS 197, SP 800-38A/B/C/F, SP 800-108, SP 800-90A), which it does not spell out.
-/
namespace Sys2Proof.Machine

/-- The AES substitution box, entry i in byte i of one number. -/
def sboxTable : Nat :=
  0x16bb54b00f2d99416842e6bf0d89a18cdf2855cee9871e9b948ed9691198f8e19e1dc186b95735610ef6034866b53e708a8bbd4b1f74dde8c6b4a61c2e2578ba08ae7a65eaf4566ca94ed58d6d37c8e779e4959162acd3c25c2406490a3a32e0db0b5ede14b8ee4688902a22dc4f816073195d643d7ea7c41744975fec130ccdd2f3ff1021dab6bcf5389d928f40a351a89f3c507f02f94585334d43fbaaefd0cf584c4a39becb6a5bb1fc20ed00d153842fe329b3d63b52a05a6e1b1a2c830975b227ebe28012079a059618c323c7041531d871f1e5a534ccf73f362693fdb7c072a49cafa2d4adf04759fa7dc982ca76abd7fe2b670130c56f6bf27b777c63
/-- Its inverse. -/
def invSboxTable : Nat :=
  0x7d0c2155631469e126d677ba7e042b17619953833cbbebc8b0f52aae4d3be0a0ef9cc9939f7ae52d0d4ab519a97f51605fec8027591012b131c7078833a8dd1ff45acd78fec0db9a2079d2c64b3e56fc1bbe18aa0e62b76f89c5291d711af1476edf751ce837f9e28535ade72274ac9673e6b4f0cecff297eadc674f4111913a6b8a130103bdafc1020f3fca8f1e2cd00645b3b80558e4f70ad3bc8c00abd890849d8da75746155edab9edfd5048706c92b6655dcc5ca4d41698688664f6f87225d18b6d49a25b76b224d92866a12e084ec3fa420b954cee3d23c2a632947b54cbe9dec444438e3487ff2f9b8239e37cfbd7f3819ea340bf38a53630d56a0952

def sbox (b : Byte) : Byte := BitVec.ofNat 8 (sboxTable >>> (8 * b.toNat))
def invSbox (b : Byte) : Byte := BitVec.ofNat 8 (invSboxTable >>> (8 * b.toNat))

/-- Bytewise exclusive or, as long as the shorter. -/
def xorBytes (a b : Bytes) : Bytes := List.zipWith (· ^^^ ·) a b

/-- Multiply by x in the AES field. -/
def xtime (b : Byte) : Byte := if b.msb then (b <<< (1 : Nat)) ^^^ 0x1B else b <<< (1 : Nat)

/-- Multiply by a small constant, its low four bits given. -/
def gmul (c : Nat) (b : Byte) : Byte :=
  let b2 := xtime b
  let b4 := xtime b2
  let b8 := xtime b4
  (if c % 2 = 1 then b else 0) ^^^ (if c / 2 % 2 = 1 then b2 else 0) ^^^ (if c / 4 % 2 = 1 then b4 else 0) ^^^
  (if c / 8 % 2 = 1 then b8 else 0)

/-- The round constant byte. -/
def rcon : Nat → Byte
  | 0 => 1
  | n + 1 => xtime (rcon n)

/-- Byte i of a string, 0 beyond its end. -/
def at_ (b : Bytes) (i : Nat) : Byte := b.getD i 0

/-- Schedule words, newest first: `i` is the index of the next word, `nk` the words of the key. -/
def expandWords (nk : Nat) : Nat → Nat → List Bytes → List Bytes
  | 0, _, ws => ws
  | n + 1, i, ws =>
    let prev := ws.headD []
    let t :=
      if i % nk = 0 then
        match (prev.drop 1 ++ prev.take 1).map sbox with
        | a :: r => (a ^^^ rcon (i / nk - 1)) :: r
        | [] => []
      else if 6 < nk ∧ i % nk = 4 then prev.map sbox
      else prev
    expandWords nk n (i + 1) (xorBytes t (ws.getD (nk - 1) []) :: ws)

/-- A string in pieces of n bytes, `fuel` of them at most. -/
def chunks (n : Nat) : Nat → Bytes → List Bytes
  | 0, _ => []
  | f + 1, b => if b.isEmpty then [] else b.take n :: chunks n f (b.drop n)

/-- 16-byte blocks of a string. -/
def blocks16 (b : Bytes) : List Bytes := chunks 16 (b.length / 16 + 1) b

/-- The round keys of a 16- or 32-byte key, first round first. -/
def roundKeys (key : Bytes) : List Bytes :=
  let nk := if key.length = 32 then 8 else 4
  let first := ((List.range nk).map fun i => (key.drop (4 * i)).take 4).reverse
  let words := (expandWords nk (4 * (nk + 7) - nk) nk first).reverse
  (List.range (nk + 7)).map fun r => ((words.drop (4 * r)).take 4).flatten

def shiftRows (b : Bytes) : Bytes := (List.range 16).map fun i => at_ b ((i + 4 * (i % 4)) % 16)
def invShiftRows (b : Bytes) : Bytes := (List.range 16).map fun i => at_ b ((i + 16 - 4 * (i % 4)) % 16)

/-- A circulant column mix with the four coefficients. -/
def mixWith (c0 c1 c2 c3 : Nat) (b : Bytes) : Bytes :=
  (List.range 16).map fun i =>
    let col := i / 4 * 4
    let k := fun j => at_ b (col + (i + j) % 4)
    gmul c0 (k 0) ^^^ gmul c1 (k 1) ^^^ gmul c2 (k 2) ^^^ gmul c3 (k 3)

/-- Encrypt one block. -/
def aesEnc (key blk : Bytes) : Bytes :=
  match roundKeys key with
  | [] => blk
  | k0 :: ks =>
    let s := (ks.dropLast).foldl (fun s k => xorBytes (mixWith 2 3 1 1 (shiftRows (s.map sbox))) k) (xorBytes blk k0)
    xorBytes (shiftRows (s.map sbox)) (ks.getLastD [])

/-- Decrypt one block. -/
def aesDec (key blk : Bytes) : Bytes :=
  match (roundKeys key).reverse with
  | [] => blk
  | k0 :: ks =>
    let s := (ks.dropLast).foldl
      (fun s k => mixWith 14 11 13 9 (xorBytes ((invShiftRows s).map invSbox) k)) (xorBytes blk k0)
    xorBytes ((invShiftRows s).map invSbox) (ks.getLastD [])

/-- ECB over whole blocks. -/
def ecb (dec : Bool) (key data : Bytes) : Bytes :=
  ((blocks16 data).map fun b => if dec then aesDec key b else aesEnc key b).flatten

/-- CBC encryption. -/
def cbcEnc (key iv data : Bytes) : Bytes :=
  ((blocks16 data).foldl (fun (p : Bytes × Bytes) b =>
    let c := aesEnc key (xorBytes b p.1)
    (c, p.2 ++ c)) (iv, [])).2

/-- CBC decryption. -/
def cbcDec (key iv data : Bytes) : Bytes :=
  ((blocks16 data).foldl (fun (p : Bytes × Bytes) b => (b, p.2 ++ xorBytes (aesDec key b) p.1)) (iv, [])).2

/-- A big-endian number. -/
def beNat (b : Bytes) : Nat := leNat b.reverse

/-- CTR (R634): the counter block steps by one, mod 2^128, from block to block. -/
def ctrMode (key iv data : Bytes) : Bytes :=
  ((blocks16 data).foldl (fun (p : Nat × Bytes) b =>
    ((p.1 + 1) % 2 ^ 128, p.2 ++ xorBytes b (aesEnc key (beBytes 16 p.1)))) (beNat iv, [])).2

/-- Double a block in the field of CMAC. -/
def cmacDbl (b : Bytes) : Bytes :=
  let n := beNat b
  let d := beBytes 16 (n * 2)
  if n < 2 ^ 127 then d else xorBytes d (beBytes 16 0x87)

/-- CMAC, 16 bytes. -/
def cmac (key data : Bytes) : Bytes :=
  let k1 := cmacDbl (aesEnc key (List.replicate 16 0))
  let n := data.length
  let whole := n != 0 && n % 16 == 0
  let cut := if whole then n - 16 else n / 16 * 16
  let last := data.drop cut
  let last := if whole then xorBytes last k1
    else xorBytes (last ++ [0x80] ++ List.replicate (15 - last.length) 0) (cmacDbl k1)
  let x := (blocks16 (data.take cut)).foldl (fun x b => aesEnc key (xorBytes x b)) (List.replicate 16 0)
  aesEnc key (xorBytes x last)

/-- KDF(parent, label, context, L) of R464 for L of 128 or 256. -/
def kdf (parent label ctx : Bytes) (l : Nat) : Bytes :=
  let k := fun i => cmac parent ([BitVec.ofNat 8 i] ++ label ++ [0] ++ ctx ++ beBytes 2 l)
  ((k 1) ++ (if 128 < l then k 2 else [])).take (l / 8)

/-- The labels of the derivations, in ASCII. -/
def lblTenant : Bytes := [0x54, 0x45, 0x4E, 0x41, 0x4E, 0x54]
def lblDevice : Bytes := [0x44, 0x45, 0x56, 0x49, 0x43, 0x45]
def lblBlob : Bytes := [0x42, 0x4C, 0x4F, 0x42]
def lblTag : Bytes := [0x54, 0x41, 0x47]
def lblFzenc : Bytes := [0x46, 0x5A, 0x45, 0x4E, 0x43]
def lblFzmac : Bytes := [0x46, 0x5A, 0x4D, 0x41, 0x43]
def lblDedupe : Bytes := [0x44, 0x45, 0x44, 0x55, 0x50, 0x45]
def lblLedger : Bytes := [0x4C, 0x45, 0x44, 0x47, 0x45, 0x52]

/-- The CBC-MAC of CCM, before it is encrypted: nonce, tag length, associated data, payload. -/
def ccmMac (key nonce aad data : Bytes) (tlen : Nat) : Bytes :=
  let q := 15 - nonce.length
  let m := if tlen = 0 then 0 else (tlen - 2) / 2
  let flags := (if aad.isEmpty then 0 else 64) + 8 * m + (q - 1)
  let b0 := [BitVec.ofNat 8 flags] ++ nonce ++ beBytes q data.length
  let pad := fun (b : Bytes) => b ++ List.replicate ((16 - b.length % 16) % 16) 0
  let a := if aad.isEmpty then [] else pad (beBytes 2 aad.length ++ aad)
  let x := (blocks16 (b0 ++ a ++ pad data)).foldl (fun x b => aesEnc key (xorBytes x b)) (List.replicate 16 0)
  x.take tlen

/-- The counter block i of CCM. -/
def ccmCtr (nonce : Bytes) (i : Nat) : Bytes :=
  let q := 15 - nonce.length
  [BitVec.ofNat 8 (q - 1)] ++ nonce ++ beBytes q i

/-- CCM encryption: ciphertext and tag. -/
def ccmEnc (key nonce aad data : Bytes) (tlen : Nat) : Bytes :=
  ctrMode key (ccmCtr nonce 1) data ++ xorBytes (ccmMac key nonce aad data tlen) (aesEnc key (ccmCtr nonce 0))

/-- CCM decryption of ciphertext and tag: the plaintext if the tag verifies. -/
def ccmDec (key nonce aad data : Bytes) (tlen : Nat) : Option Bytes :=
  if data.length < tlen then none
  else
    let p := ctrMode key (ccmCtr nonce 1) (data.take (data.length - tlen))
    let t := xorBytes (ccmMac key nonce aad p tlen) (aesEnc key (ccmCtr nonce 0))
    if t = data.drop (data.length - tlen) then some p else none

/-- One unwrapping step of AES-KW (RFC 3394), with t counted down; registers R1 to Rn. -/
def kwSteps (key : Bytes) (n : Nat) : Nat → Bytes → List Bytes → Bytes × List Bytes
  | 0, a, r => (a, r)
  | t + 1, a, r =>
    let i := t % n
    let b := aesDec key (xorBytes a (beBytes 8 (t + 1)) ++ r.getD i [])
    kwSteps key n t (b.take 8) (r.set i (b.drop 8))

/-- The wrapping steps of AES-KW (RFC 3394): so many left of the 6n, t counted up. -/
def kwWrapSteps (key : Bytes) (n : Nat) : Nat → Bytes → List Bytes → Bytes × List Bytes
  | 0, a, r => (a, r)
  | k + 1, a, r =>
    let t := 6 * n - k
    let i := (t - 1) % n
    let b := aesEnc key (a ++ r.getD i [])
    kwWrapSteps key n k (xorBytes (b.take 8) (beBytes 8 t)) (r.set i (b.drop 8))

/-- AES-KW wrapping of a key of whole 8-byte words. -/
def kwWrap (key data : Bytes) : Bytes :=
  let r := chunks 8 8 data
  let out := kwWrapSteps key r.length (6 * r.length) (List.replicate 8 0xA6) r
  out.1 ++ out.2.flatten

/-- AES-KW unwrapping: the key if the integrity check passes. -/
def kwUnwrap (key blob : Bytes) : Option Bytes :=
  let r := chunks 8 8 (blob.drop 8)
  let n := r.length
  let out := kwSteps key n (6 * n) (blob.take 8) r
  if out.1 = List.replicate 8 0xA6 then some out.2.flatten else none

/-- The state of the CTR_DRBG: key and V. -/
structure Drbg where
  key : Bytes
  v   : Bytes
  deriving DecidableEq, Repr

/-- n blocks of keystream from V + 1 on. -/
def drbgBlocks (key : Bytes) : Nat → Nat → Bytes
  | 0, _ => []
  | n + 1, v => aesEnc key (beBytes 16 ((v + 1) % 2 ^ 128)) ++ drbgBlocks key n ((v + 1) % 2 ^ 128)

/-- The update of CTR_DRBG with 48 bytes of provided data. -/
def drbgUpdate (d : Drbg) (data : Bytes) : Drbg :=
  let t := xorBytes (drbgBlocks d.key 3 (beNat d.v)) data
  { key := t.take 32, v := t.drop 32 }

/-- Instantiate from 48 bytes of entropy and the personalisation string (R488). -/
def drbgInit (entropy pers : Bytes) : Drbg :=
  drbgUpdate { key := List.replicate 32 0, v := List.replicate 16 0 }
    (xorBytes entropy ((pers ++ List.replicate 48 0).take 48))

/-- Generate n bytes. -/
def drbgGenerate (d : Drbg) (n : Nat) : Bytes × Drbg :=
  let k := (n + 15) / 16
  let out := drbgBlocks d.key k (beNat d.v)
  (out.take n, drbgUpdate { d with v := beBytes 16 (beNat d.v + k) } (List.replicate 48 0))

end Sys2Proof.Machine
end

