-- ==== Sys2Proof/Machine/Arbiter.lean ====
section
/-!
DEFINITION. The airtime arbiter and the coexistence wires (chapter 9): conflicts, preemption, grants in class order,
release and charging, the carrier and its dwell records, COEX_REQ and COEX_PRI.
-/
namespace Sys2Proof.Machine

def holdOf (c : CoreId) (s : State) : Option Hold :=
  match c with
  | .reader => s.radio.rHold
  | .link => s.radio.lHold

def setHold (c : CoreId) (h : Option Hold) : State → State :=
  match c with
  | .reader => setRadio fun r => { r with rHold := h }
  | .link => setRadio fun r => { r with lHold := h }

/-- A core's state, which a move to come changes at its tick. -/
def coreAt (now : Tick) (x : CoreSt) (m : Option (Tick × CoreSt)) : CoreSt :=
  match m with
  | some (t, y) => if reached now t then y else x
  | none => x

def coreState (c : CoreId) (s : State) : CoreSt :=
  match c with
  | .reader => coreAt s.reel.cnt s.radio.rState s.radio.rMove
  | .link => coreAt s.reel.cnt s.radio.lState s.radio.lMove

/-- The link receiver searches on: the AGC runs on the search aerial and the equaliser is off (R397, R398); diversity that a
withdrawn grant had cost is back, if the grant is (R283). -/
def searchAgain (s : State) : State :=
  setLink (fun l => { l with demod := false, afterSfd := false, measuring := false, agc := .running l.searchLkb, eq := .off })
    (setRadio (fun r => { r with lkbGiven := r.lkbGiven && !r.lkbDue, lkbDue := false }) s)

/-- A core changes state. The link receiver works in RX only; tap L converges again after its next entry into RX (R332). -/
def setCore (c : CoreId) (x : CoreSt) (s : State) : State :=
  match c with
  | .reader => setRadio (fun r => { r with rState := x, rMove := none }) s
  | .link =>
    let was := coreAt s.reel.cnt s.radio.lState s.radio.lMove
    let s := setRadio (fun r => { r with lState := x, lMove := none }) s
    if x == .rx then (if was == .rx then s else searchAgain s)
    else
      setRdr (fun r => { r with convL := false })
        (setLink (fun l => { l with demod := false, afterSfd := false, measuring := false, agc := .off, eq := .off }) s)

/-- A core goes on to another state at a tick to come (Table 9-2). -/
def setCoreAt (c : CoreId) (t : Tick) (x : CoreSt) : State → State :=
  match c with
  | .reader => setRadio fun r => { r with rMove := some (t, x) }
  | .link => setRadio fun r => { r with lMove := some (t, x) }

/-- The number of a core state. -/
def coreIndex : CoreSt → Nat
  | .sleep => 0
  | .standby => 1
  | .synth => 2
  | .rx => 3
  | .tx => 4

/-- TRSW is high from the start of the link PA ramp to the end of its ramp-down (R54). -/
def trswHigh (s : State) : Bool :=
  match s.link.trsw with
  | some (a, _, b) => reached s.reel.cnt a && !reached s.reel.cnt b
  | none => false

def otherCore : CoreId → CoreId
  | .reader => .link
  | .link => .reader

-- MEND_LOST bits (Table 22-5)
def lostReaderRx (s : State) : Bool := bit s.mend.lost 2
def lostLinkRx (s : State) : Bool := bit s.mend.lost 5
def singleSyn (s : State) : Bool := bit s.mend.lost 6
def noSyn (s : State) : Bool := bit s.mend.lost 7

/-- The distance of two FREQ codes; 12 MHz are 480 codes of 25 kHz (6.1, R28). -/
def codeGap (a b : Nat) : Nat := if a ≤ b then b - a else a - b

/-- A number mod 4. -/
def mod4 (n : Nat) : Fin 4 := ⟨n % 4, Nat.mod_lt _ (by decide)⟩

/-- The aerial on which a requester's reader activity runs: a burst's, a sweep's, an inventory's or an access's own, or the one
selected. Log entry 87 DEDUCED. -/
def aerialOf (w : Who) (s : State) : Fin 4 :=
  match w with
  | .sweep _ => if s.svy.target.val < 4 then mod4 s.svy.target.val else s.rdr.aerial
  | .sniff _ => (match s.rdr.sniff with | some n => n.asel | none => s.rdr.aerial)
  | .ctx t =>
    match s.rdr.inv[t], s.rdr.acc[t] with
    | some i, _ => i.aerial
    | none, some a => a.asel
    | none, none => s.rdr.aerial
  | _ => s.rdr.aerial

/-- Reader and link may hold air at once: 12 MHz apart, two synthesizers, no NOCONC on the reader's aerial (R28, R27, R333). The
limit of +20 dBm at RDTX holds of every carrier (R61, R321). -/
def concOk (a : Fin 4) (rFreq lFreq : Nat) (s : State) : Bool :=
  decide (480 ≤ codeGap rFreq lFreq) && !singleSyn s && !bit s.rdr.noconc a.val

/-- Two requests conflict: same core, or different cores that may not run at once (9.3); the lantern tag's hold
conflicts with the reader only (R271). -/
def airConflict (a b : AirReq) (s : State) : Bool :=
  if a.core = b.core then true
  else if a.who = .lantern ∨ b.who = .lantern then false
  else match a.core with
    | .reader => !concOk (aerialOf a.who s) a.freq b.freq s
    | .link => !concOk (aerialOf b.who s) b.freq a.freq s

/-- The holder's frame or slot has passed its commit point (R275, R276) and is not over. -/
def committed (now : Tick) (h : Hold) : Bool :=
  match h.commit with
  | some t => reached now t && !(match h.ends with | some o => reached now o | none => false)
  | none => false

/-- Whether a requester is Keel's sweep or a tenant's. -/
def Who.isSweep : Who → Bool
  | .sweep _ => true
  | _ => false

/-- A request may take a holder's air at once: higher class before the commit point (R265); any request takes a sweep
point (R592). -/
def mayPreempt (now : Tick) (r : AirReq) (h : Hold) : Bool :=
  h.req.who.isSweep || (decide (r.cls < h.req.cls) && !committed now h)

/-- A request that re-tunes or re-classes its own hold. -/
def ownHold (r : AirReq) (h : Hold) : Bool := r.who == h.req.who && r.core == h.req.core

/-- The request can have air now as far as a holder is concerned. -/
def passes (now : Tick) (r : AirReq) (h : Option Hold) (s : State) : Bool :=
  match h with
  | none => true
  | some h => ownHold r h || !airConflict r h.req s || mayPreempt now r h

/-- COEX_REQ: an activity that needs the grant holds or waits for air (R277). -/
def coexReq (s : State) : Bool :=
  s.radio.pri ||
  (match s.radio.rHold with | some h => h.req.gnt | none => false) ||
  (match s.radio.lHold with | some h => h.req.gnt | none => false) || s.radio.waiters.any (·.gnt)

/-- COEX_PRI: a class-1 activity that needs the grant, or the SFD of a frame that asks this node for an ACK, and never
without COEX_REQ (R281). -/
def coexPri (s : State) : Bool :=
  let one := fun (r : AirReq) => r.gnt && r.cls == 1
  ((match s.radio.rHold with | some h => one h.req | none => false) ||
   (match s.radio.lHold with | some h => one h.req | none => false) || s.radio.waiters.any one || s.radio.pri) &&
  coexReq s

/-- Note when COEX_REQ rises, so that the 50 µs lead counts from there (R278). -/
def coexTrack (s : State) : State :=
  if coexReq s then
    match s.radio.reqRose with
    | some _ => s
    | none => setRadio (fun r => { r with reqRose := some s.reel.cnt, leadDone := false }) s
  else setRadio (fun r => { r with reqRose := none, leadDone := false }) s

/-- The first tick at which RF that needs the grant may begin: 1,200 ticks after COEX_REQ rose (R278).
Log entry 20 DEDUCED. -/
def leadTick (s : State) (t : Tick) : Tick :=
  match s.radio.reqRose with
  | some r => if reached t (r + 1200) then t else r + 1200
  | none => t

/-- The tenant a request is charged to (R153); a link listen is charged to each tenant whose listen it serves (R422). -/
def chargedTo : Who → Option Tenant
  | .ctx t | .send t _ | .session t | .baseline t | .sweep (some t) => some t
  | _ => none

/-- Charge a tenant for the ticks since a grant (R270). The spec does not say to which window the ticks of a hold belong that spans
several: all of them count at the release, in the window then current. Log entry 75 DESIGN CHOICE. -/
def chargeTenant (t : Tenant) (from_ : Tick) (s : State) : State :=
  setRadio (fun r => { r with charged := vmod r.charged t (· + ticksBetween from_ s.reel.cnt) }) s

/-- The later of two ticks. -/
def laterTick (a b : Tick) : Tick := if reached a b then a else b

/-- Charge one tenant's listen since it began or the receiver got its air (R422). -/
def chargeListen (h : Hold) (t : Tenant) (s : State) : State :=
  match s.link.listens[t] with
  | some l => (match l.from_ with
    | some f => chargeTenant t (laterTick f h.granted) s
    | none => s)
  | none => s

/-- Charge the ticks from the grant to now (R270, R422). -/
def charge (h : Hold) (s : State) : State :=
  match h.req.who, chargedTo h.req.who with
  | .listen, _ => forTenants (chargeListen h) s
  | _, some t => chargeTenant t h.granted s
  | _, none => s

/-- The carrier comes on. -/
def carrierOn (now : Tick) (s : State) : State :=
  setCore .reader .tx (setRdr (fun r => { r with carrier := some now }) s)

/-- PAEN falls at a tick (R324). -/
def paenFall (t : Tick) (p : Option (Tick × Option Tick)) : Option (Tick × Option Tick) := p.map fun e => (e.1, some (e.2.getD t))

/-- PAEN is high now. -/
def paenHigh (s : State) : Bool :=
  match s.rdr.paen with
  | some (a, none) => reached s.reel.cnt a
  | some (a, some b) => reached s.reel.cnt a && !reached s.reel.cnt b
  | none => false

/-- The bias at PABIAS in mV: from before PAEN rises until PAEN falls (R324). -/
def paBias (s : State) : Nat :=
  match s.rdr.paen with
  | some (_, none) => s.rdr.pabias
  | some (_, some b) => if reached s.reel.cnt b then 0 else s.rdr.pabias
  | none => 0

/-- The carrier goes off: its span enters the record of R307, PAEN and PABIAS fall 5 µs after it (R324), and the canceller is no
longer converged. A ramp that had only begun ends likewise. -/
def carrierOff (now : Tick) (s : State) : State :=
  let down := fun (s : State) => setRdr (fun r => { r with paen := paenFall (now + 120) r.paen, loop := false })
    (if coreState .reader s == .tx then setCore .reader .synth s else s)
  match s.rdr.carrier with
  | none => down s
  | some t =>
    let keep := s.rdr.onTime.filter fun e => decide (ticksBetween e.2.2 now < 480000000)
    down (setRdr (fun r => { r with carrier := none, onTime := keep ++ [(s.radio.rFreq, t, now)], convR := false,
                                    convL := false }) s)

/-- The reader leaves its channel: the moment counts for the ETSI return gap (R308). -/
def leaveChannel (now : Tick) (s : State) : State :=
  let young := s.rdr.leftAt.filter fun e => e.1 != s.radio.rFreq && decide (ticksBetween e.2 now < 2400000)
  setRdr (fun r => { r with leftAt := (s.radio.rFreq, now) :: young }) s

/-- The ticks that a link PA ramp-down takes: no more than a turnaround to RX (Table 9-2). Log entry 36 DESIGN CHOICE. -/
def linkRampDown (s : State) : Nat × State :=
  let (n, s) := drawNat s
  (n % 577, s)

/-- A link frame's PA ramp begins at a tick and its last chip ends at another: TRSW is high until the ramp-down is over (R54). -/
def trswSpan (a b : Tick) (s : State) : State :=
  let (n, s) := linkRampDown s
  setLink (fun l => { l with trsw := some (a, b, b + BitVec.ofNat 48 n) }) s

/-- The link PA ramps down now, if it was up: TRSW falls at the end of the ramp-down (R54). -/
def trswEnd (s : State) : State :=
  match s.link.trsw with
  | none => s
  | some (a, e, _) =>
    if !reached s.reel.cnt a then setLink (fun l => { l with trsw := none }) s
    else if reached s.reel.cnt e then s
    else
      let (n, s) := linkRampDown s
      setLink (fun l => { l with trsw := some (a, s.reel.cnt, s.reel.cnt + BitVec.ofNat 48 n) }) s

/-- A burst's or a sweep point's aerial is selected for it (R337, R551). Log entry 87 DEDUCED. -/
def aerialFor (r : AirReq) (s : State) : State :=
  match r.core, r.who with
  | .reader, .sniff _ | .reader, .sweep _ =>
    let a := aerialOf r.who s
    setRdr (fun d => { d with aerialBack := some (d.aerialBack.getD d.aerial), aerial := a }) s
  | _, _ => s

/-- The aerial selected before a burst or a sweep point stands again. Log entry 87 DEDUCED. -/
def aerialRestore : State → State :=
  setRdr fun d => { d with aerial := d.aerialBack.getD d.aerial, aerialBack := none }

/-- A core goes to STANDBY, its carrier or PA ramped down first (Table 9-2); a frame on its way is not sent. -/
def coreDown (c : CoreId) (s : State) : State :=
  match c with
  | .reader =>
    let s := aerialRestore (setRadio (fun r => { r with calR := false }) (setRdr (fun r => { r with opening := none }) s))
    if coreState .reader s == .standby || coreState .reader s == .sleep then s
    else setCore .reader .standby (leaveChannel s.reel.cnt (carrierOff s.reel.cnt (ownRoundEnd s)))
  | .link =>
    setCore .link .standby (trswEnd (setRadio (fun r => { r with calL := false }) s))

/-- Release a core's air: charge it, let the core down, and judge COEX_REQ anew (R264, R270, R277). -/
def releaseAir (c : CoreId) (s : State) : State :=
  match holdOf c s with
  | none => s
  | some h =>
    if h.req.who = .lantern then s
    else coexTrack (coreDown c (setHold c none (charge h s)))

/-- Drop every waiting request of a requester. -/
def dropWaiters (w : Who) (s : State) : State :=
  coexTrack (setRadio (fun r => { r with waiters := r.waiters.filter fun q => q.who != w }) s)

/-- Whether a context runs a built-in program. -/
def isBuiltin (k : Ctx) : Bool := k.starter == .builtin

/-- EV_SESSION with STATE 0 (Table 6-23). -/
def evSessionClosed (t : Tenant) (tseq : BitVec 16) (sid : Byte) (reason : Nat) : State → State :=
  raise t evSession (leBytes 2 tseq.toNat ++ [sid, 0, BitVec.ofNat 8 reason])

/-- The records of an open interrogator session go: its context is erased and EV_SESSION carries the reason (R349,
R357). -/
def sessionGone (t : Tenant) (reason : Nat) (s : State) : State :=
  let q := s.sess[t]
  if q.opened then
    evSessionClosed t q.tseq q.sid reason
      (modSess t (fun q => { q with opened := false, ctx := none, sendQ := [], busy := none }) s)
  else s

/-- A built-in program waits for the air of its channel, with the request that stands for it. -/
def builtinWaits (t : Tenant) (s : State) : State :=
  let s := modCtx t (fun k => { k with run := .waiting, pend := some { op := .hop, d := 0, a := 0, b := 0, fn := 0,
                                                                       issued := s.reel.cnt, until_ := s.reel.cnt,
                                                                       noAir := true, epoch := s.epoch.rdr } }) s
  match s.rdr.inv[t], s.rdr.acc[t] with
  | some i, _ => setInv t (some { i with stage := .tune, resume := i.running }) s
  | none, some a => setAcc t (some { a with stage := .tune, step := .select }) s
  | none, none => s

/-- The core that an instruction's wait is for, if it is an air instruction. -/
def opCore : WaitOp → Option CoreId
  | .hop | .txcw | .txsym | .rxwin | .sniff | .rfoff | .airR => some .reader
  | .lch | .ltx | .lrx | .lcca | .loff | .airL => some .link
  | _ => none

/-- A core's air is lost to a context: the instruction in progress on that core completes with ST_AIRTIME, or the next one does
(R267), and the request that stood for it is withdrawn. -/
def ctxLost (t : Tenant) (c : CoreId) (s : State) : State :=
  let now := s.reel.cnt
  let mark := fun (k : Ctx) => match c with
    | .reader => { k with lostR := true, tunedR := false }
    | .link => { k with lostL := true, tunedL := false }
  let s := setRadio (fun r => { r with waiters := r.waiters.filter fun q => !(q.who == .ctx t && q.core == c) }) s
  modCtx t (fun k =>
    match (mark k).pend with
    | some p =>
      if opCore p.op = some c ∧ p.noAir then
        if p.op == .airR || p.op == .airL then { mark k with run := .running, pend := none }
        else { mark k with pend := some { p with noAir := false, until_ := now } }
      else mark k
    | none => mark k) s

/-- What a holder that lost its air does next (R267, R268): a built-in program, a send, a beacon, a listen, a burst and a
sweep point ask again; a tenant's program learns it as ST_AIRTIME; a session closes with REASON 1 (R365). -/
def afterLoss (h : Hold) (s : State) : State :=
  let again := { h.req with since := s.reel.cnt, noWait := false }
  let requeue := setRadio fun r => { r with waiters := r.waiters ++ [again] }
  match h.req.who with
  | .ctx t =>
    if isBuiltin s.ctxs[t] then builtinWaits t (requeue s)
    else ctxLost t h.req.core s
  | .send _ _ | .beacon => setLink (fun l => { l with step := .idle }) (requeue s)
  | .listen | .sniff _ | .sweep _ | .mend => requeue s
  | .session t => sessionGone t 1 s
  | .ack | .lantern | .baseline _ => s

/-- Take a holder's air away. -/
def loseAir (c : CoreId) (s : State) : State :=
  match holdOf c s with
  | none => s
  | some h => coexTrack (afterLoss h (coreDown c (setHold c none (charge h s))))

/-- Preempt the holder of a core if the request conflicts with it. -/
def preemptFor (r : AirReq) (c : CoreId) (s : State) : State :=
  match holdOf c s with
  | none => s
  | some h => if ownHold r h || !airConflict r h.req s then s else loseAir c s

/-- The first entry that passes the test goes to the front. -/
def toFront {α : Type} (p : α → Bool) (l : List α) : List α :=
  match l.find? p with
  | none => l
  | some x => x :: l.eraseP p

/-- A send has its air: its attempt begins with nb 0 and BE 3 in BACKOFF (Table 14-4); the first attempt of one with a TIME waits for
its ramp (R193). -/
def sendBegins (p : Send → Bool) (now : Tick) : State → State :=
  setLink fun l =>
    match toFront p l.sends with
    | [] => { l with sends := [] }
    | e :: r => { l with step := if e.time.isSome then .idle else .backoff, timer := now, sends := { e with nb := 0, be := 3 } :: r }

/-- The deep calibration of a core is due: 60 s or 10 °C since the last one (9.1). -/
def deepDue (c : CoreId) (s : State) : Bool :=
  let r := s.radio
  match c with
  | .reader =>
    r.deepDueR || decide (1440000000 ≤ ticksBetween r.deepAtR s.reel.cnt) ||
      decide (100 ≤ (s.svy.smp.temp - r.deepTempR).natAbs)
  | .link =>
    r.deepDueL || decide (1440000000 ≤ ticksBetween r.deepAtL s.reel.cnt) ||
      decide (100 ≤ (s.svy.smp.temp - r.deepTempL).natAbs)

/-- A deep calibration has run at a die temperature. -/
def deepRan (c : CoreId) (temp : Int) (s : State) : State :=
  setRadio (fun r => match c with
    | .reader => { r with deepAtR := s.reel.cnt, deepTempR := temp, deepDueR := false, deepSkipsR := 0 }
    | .link => { r with deepAtL := s.reel.cnt, deepTempL := temp, deepDueL := false, deepSkipsL := 0 }) s

/-- The channel changes of a core across which its deep calibration has stayed due. -/
def deepSkips (c : CoreId) (s : State) : Nat :=
  match c with
  | .reader => s.radio.deepSkipsR
  | .link => s.radio.deepSkipsL

/-- A channel change of a core: a deep calibration that has stayed due across more than 2 of them runs in its place, but
not for the hop of an open session (R263). -/
def deepAtChange (c : CoreId) (session : Bool) (s : State) : State :=
  if !deepDue c s then s
  else if 2 < deepSkips c s ∧ !session then deepRan c s.svy.smp.temp s
  else setRadio (fun r => match c with
    | .reader => { r with deepDueR := true, deepSkipsR := r.deepSkipsR + 1 }
    | .link => { r with deepDueL := true, deepSkipsL := r.deepSkipsL + 1 }) s

/-- How a calibration ends: a good one brings the core to SYNTH; one that failed twice counts, sends the core to STANDBY and
releases its air, and the third such change in a row calls for Mend's check (R261, R583). -/
def calEnd (c : CoreId) (cal : Cal) (s : State) : State :=
  match cal with
  | .ok => setRadio (fun r => match c with
      | .reader => { r with calRunR := 0 }
      | .link => { r with calRunL := 0 }) s
  | .failed =>
    let s := setRadio (fun r => match c with
      | .reader => { r with calFailR := satInc 255 r.calFailR, calRunR := r.calRunR + 1 }
      | .link => { r with calFailL := satInc 255 r.calFailL, calRunL := r.calRunL + 1 }) s
    let s := setMend (fun m => match c with
      | .reader => { m with checkR := m.checkR || decide (3 ≤ s.radio.calRunR) }
      | .link => { m with checkL := m.checkL || decide (3 ≤ s.radio.calRunL) }) s
    releaseAir c s

/-- The result of the calibration that a grant to Keel's own activity began, if it is not known yet: which it is the spec leaves to
the part, so it is free. Tells whether it failed (R261). Log entry 83 DESIGN CHOICE. -/
def calResult (c : CoreId) (s : State) : Bool × State :=
  let open_ := match c with | .reader => s.radio.calR | .link => s.radio.calL
  if open_ then
    let (bad, s) := drawBool s
    let s := setRadio (fun r => match c with
      | .reader => { r with calR := false }
      | .link => { r with calL := false }) s
    (bad, calEnd c (if bad then .failed else .ok) s)
  else (false, s)

/-- The requests whose calibration no row of the table completes: Keel's own, and that of an instruction which is no HOP or LCH. -/
def keelTunes (w : Who) (s : State) : Bool :=
  match w with
  | .lantern | .session _ | .baseline _ => false
  | .ctx t => (match s.ctxs[t].pend with | some p => p.op == .airR || p.op == .airL | none => false)
  | _ => true

/-- A core that calibrates goes on to another state within the bound of its calibration and of the path that follows (R260, R263,
Table 9-2); at which tick is free. Log entry 83 DESIGN CHOICE. -/
def coreGoes (c : CoreId) (now : Tick) (x : CoreSt) (s : State) : State :=
  let (n, s) := drawNat s
  let s := setCoreAt c (now + BitVec.ofNat 48 (n % (if 2 < deepSkips c s then 5088 else 2208) + 1)) x s
  if c == .link && x == .rx then searchAgain s else s

/-- A grant with a channel calibrates the core: the core reads SYNTH, and its move to RX (a listen) or TX (a burst, a sweep point)
follows the calibration (R260, R263, R264, Table 9-2). Log entry 83 DESIGN CHOICE. -/
def coreTune (r : AirReq) (now : Tick) (s : State) : State :=
  let c := r.core
  let tuned := match c with | .reader => s.radio.rFreq == r.freq | .link => s.radio.lFreq == r.freq
  let s := if keelTunes r.who s && !(tuned && coreState c s != .standby) then
      setRadio (fun q => match c with | .reader => { q with calR := true } | .link => { q with calL := true })
        (deepAtChange c false s)
    else s
  let s := if coreState c s == .standby && r.who != .lantern then setCore c .synth s else s
  match r.who with
  | .listen => coreGoes c now .rx s
  | .sniff _ | .sweep _ => coreGoes c now .tx s
  | _ => s

/-- The request's channel is the core's, unless the requester tunes it by an instruction of its own. -/
def coreFreq (r : AirReq) : State → State :=
  match r.who, r.core with
  | .ctx _, _ | .lantern, _ => id
  | _, .reader => setRadio fun q => { q with rFreq := r.freq }
  | _, .link => setRadio fun q => { q with lFreq := r.freq }

/-- The ready correction takes effect, at the action tick of a TXSYM, TXCW or HOP (R320); the external PA's path does not use the
table (R322). -/
def compApply (ext : Bool) : State → State :=
  setRdr fun r => if ext then r else { r with compTemp := r.compNext.1, comp := r.compNext.2 }

/-- A link frame takes the ready correction, at its action tick (R403). -/
def linkCompApply : State → State := setLink fun l => { l with compTemp := l.compNext.1, comp := l.compNext.2 }

/-- A tenant's profile as loaded has the external PA. -/
def extPa (p : Profile) : Bool := bit p.pa 15

/-- The power ceiling at RDTX in 0.25 dB units for a VPA in mV (R61), rounded down (R317). -/
def ceilUnits (vpa : Nat) : Int := if 4750 ≤ vpa then 80 else 80 - ((16 * (4750 - vpa) + 999) / 1000 : Nat)

/-- The RDTX drive in 0.05 dB units that a power in 0.25 dB units takes: with the correction of 11.1, or through the external PA as its
learned gain implies, under the ceiling of R61 (R320, R321, R323, R344). -/
def driveOf (ext : Bool) (power : Int) (s : State) : Int :=
  if ext then min (5 * ceilUnits s.svy.smp.vpa) (5 * (power - s.rdr.paGain)) else 5 * power + s.rdr.comp

/-- With the external PA its bias is set and PAEN rises 20 µs before RDTX drives at a tick, or now if that is later (R324).
Log entry 26 DEDUCED. -/
def paUp (p : Profile) (at_ : Tick) (s : State) : State :=
  if extPa p then
    setRdr (fun r => { r with paen := some (laterTick (at_ - 480) s.reel.cnt, none), pabias := bits p.pa 7 0 * 10 }) s
  else s

/-- The level of a presence burst: −3 dBm in 0.25 dB units (11.6). -/
def burstPower : Int := -12

/-- A presence burst drives RDTX from a tick on for 40 µs at −3 dBm: with the external PA that level is at the reference plane, and the
drive is open loop from the learned gain (R344). Log entry 26 DEDUCED. -/
def burstDrive (p : Profile) (at_ : Tick) (s : State) : State :=
  let s := paUp p at_ s
  setRdr (fun r => { r with drive := driveOf (extPa p) burstPower s, loop := false
                            paen := paenFall (at_ + 960 + 120) r.paen }) s

/-- The tick at which the reader core goes to TX for the burst or point that was granted. -/
def readerMoveAt (s : State) : Tick :=
  match s.radio.rMove with
  | some (t, _) => t
  | none => s.reel.cnt

/-- A sweep point emits CW at −10 dBm or less at RDTX (R551): at how much less is free. Log entry 54 DESIGN CHOICE. -/
def pointDrive (c : CoreId) (s : State) : State :=
  match c with
  | .reader =>
    let (n, s) := drawNat s
    setRdr (fun r => { r with drive := -200 - (n : Int), loop := false }) s
  | .link => s

/-- A waiting context goes on from the grant tick: a HOP, LCH, LTX, LRX or LCCA acts 3 ticks after it, and an instruction that waited
for its core's air before it could act issues anew (R214). Log entry 82 DESIGN CHOICE. -/
def ctxGranted (t : Tenant) (now : Tick) (s : State) : State :=
  match s.ctxs[t].pend with
  | none => s
  | some p =>
    if !p.noAir then s
    else if p.op == .airR || p.op == .airL then
      modCtx t (fun k => { k with run := .running, pend := none, cursor := now }) s
    else
      let act := if p.op == WaitOp.ltx then leadTick s (now + 3) else now + 3
      let s := modCtx t (fun k => { k with cursor := now, pend := some { p with noAir := false, until_ := act } }) s
      match p.op, s.radio.lHold with
      | .hop, _ => if isBuiltin s.ctxs[t] then s else compApply (extPa s.loaded[t]) s
      | .ltx, some h =>
        let s := linkCompApply (setLink (fun l => { l with onAir := l.onAir.map fun f => { f with first := act + 432 } }) s)
        trswSpan act (act + p.b.setWidth 48)
          (setCore .link .tx (setHold .link (some { h with commit := some (act + 240), ends := none }) s))
      | .lrx, _ | .lcca, _ => setCore .link .rx s
      | _, _ => s

/-- An access or exchange holds the air at class 2 from its grant (R301). -/
def accGranted (t : Tenant) (s : State) : State := if s.rdr.acc[t].isSome then readerAsSlot s else s

/-- A built-in program's activity has won the arbiter: the tenant's profile is loaded (R150), and an inventory's DUR runs from its
first grant (R313). -/
def builtinGranted (t : Tenant) (now : Tick) (s : State) : State :=
  let s := accGranted t (takeProfile t s)
  match s.rdr.inv[t] with
  | some i => if i.from_ = none then setInv t (some { i with from_ := some now }) s else s
  | none => s

/-- What a grant brings to the requester: a waiting context goes on from the grant tick (R214); a listen opens; a send
begins its backoff with nb 0, BE 3 (Table 14-4). -/
def onGrant (r : AirReq) (now : Tick) (s : State) : State :=
  match r.who with
  | .ctx t => if isBuiltin s.ctxs[t] then builtinGranted t now (ctxGranted t now s) else ctxGranted t now (takeHalf r.core t s)
  | .send t q => sendBegins (fun e => e.owner == some t && e.tseq == q) now (takeProfile t s)
  | .beacon => sendBegins (fun e => e.owner.isNone) now s
  | .listen => (fun s => takeHalf .link s.link.rxHost s) <| setLink (fun l => { l with
      listens := l.listens.map fun o => o.map fun x => if x.from_ = none then { x with from_ := some now } else x }) s
  | .sweep o =>
    let p := s.prof[o.getD 0]
    pointDrive r.core (setSvy (fun v => { v with
      sweep := v.sweep.map fun w => if w.from_ = none then { w with from_ := some now, prof := p } else w }) s)
  | .sniff t =>
    burstDrive s.prof[t] (readerMoveAt s)
      (setRdr (fun d => { d with sniff := d.sniff.map fun n => { n with waiting := false } }) (takeProfile t s))
  | _ => s

/-- The order of two tenants of one class (R269): airtime charged per weight, weight 0 last (R152), then the lowest tenant after the
one last granted in the class. -/
def tenantBefore (cls : Nat) (t u : Tenant) (s : State) : Bool :=
  let wt := s.tens[t].share
  let wu := s.tens[u].share
  if wt = 0 ∨ wu = 0 then
    if wt = 0 ∧ wu = 0 then false else decide (wt ≠ 0)
  else
    let x := s.radio.charged[t] * wu
    let y := s.radio.charged[u] * wt
    if x ≠ y then decide (x < y)
    else
      let base := match s.radio.lastServed[(cls - 1) % 6]'(Nat.mod_lt _ (by decide)) with
        | some l => l.val + 1
        | none => 0
      decide ((t.val + 4 - base % 4) % 4 < (u.val + 4 - base % 4) % 4)

/-- The tenant by which a request takes its place: the one charged; for the listens that the one receiver serves together, the first
of their tenants in the order (R269, R422). Log entry 20 DEDUCED. -/
def orderTenant (r : AirReq) (s : State) : Option Tenant :=
  match r.who with
  | .listen =>
    let l := tenants.filter fun t => s.link.listens[t].isSome
    l.find? fun t => l.all fun u => u == t || !tenantBefore r.cls u t s
  | w => chargedTo w

/-- A tenant of weight 0 is not served while one of weight above 0 has a request pending in that class (R152). -/
def yields (r : AirReq) (s : State) : Bool :=
  match orderTenant r s with
  | none => false
  | some t => s.tens[t].share == 0 && s.radio.waiters.any fun w => w.cls == r.cls &&
      (match orderTenant w s with | some u => s.tens[u].share != 0 | none => false)

/-- The core that a sweep's target belongs to. -/
def sweepCore (w : Sweep) : CoreId := if w.target.val < 4 then .reader else .link

/-- A sweep point is skipped: within 12 MHz of the other core's channel, or breaking R28 or R333 (R552). -/
def pointSkipped (w : Sweep) (k : Nat) (s : State) : Bool :=
  let c := sweepCore w
  match holdOf (otherCore c) s with
  | none => false
  | some h =>
    if h.req.who = .lantern then false
    else match c with
      | .reader => !concOk (mod4 w.target.val) (100 * k) h.req.freq s
      | .link => !concOk (aerialOf h.req.who s) h.req.freq (100 * k) s

/-- The next point of a sweep that is not skipped. -/
def sweepPoint (w : Sweep) (s : State) : Option Nat :=
  (List.range 49).find? fun k => decide (w.next ≤ k) && !pointSkipped w k s

/-- A point that waits for air and is to be skipped now gives way to the next one: a sweep does not wait for it (R552). -/
def sweepSkip (s : State) : State :=
  match s.svy.sweep with
  | none => s
  | some w =>
    if s.radio.waiters.any (fun q => q.who.isSweep) && pointSkipped w w.next s then
      match sweepPoint w s with
      | none =>
        setRadio (fun r => { r with waiters := r.waiters.filter fun q => !q.who.isSweep })
          (setSvy (fun v => { v with sweep := some { w with next := 49 } }) s)
      | some k =>
        setRadio (fun r => { r with waiters := r.waiters.map fun q => if q.who.isSweep then { q with freq := 100 * k, since := s.reel.cnt } else q })
          (setSvy (fun v => { v with sweep := some { w with next := k } }) s)
    else s

/-- Grant a request: conflicting holders that it preempts lose their air, the core is held, and the class notes the tenant
served (R265, R269). A grant that only re-tunes a hold keeps its grant tick (R270). Log entry 37 DEDUCED. -/
def grantAir (r : AirReq) (now : Tick) (s : State) : State :=
  let s := preemptFor r (otherCore r.core) (preemptFor r r.core s)
  let from_ := match holdOf r.core s with
    | some h => if ownHold r h then h.granted else now
    | none => now
  let s := setHold r.core (some { req := r, granted := from_, commit := none, ends := none }) s
  let s := setRadio (fun q => { q with
    waiters := q.waiters.filter fun w => !(w.who == r.who && w.core == r.core)
    lastServed := match orderTenant r s with
      | some t => q.lastServed.set ((r.cls - 1) % 6) (some t) (Nat.mod_lt _ (by decide))
      | none => q.lastServed }) s
  sweepSkip (onGrant r now (coexTrack (coreFreq r (coreTune r now (aerialFor r s)))))

/-- The order of waiting requests (R269): class, Keel's own before the tenants', then the order of the tenants; `lt` compares two
requests. -/
def beforeInOrder (a b : AirReq) (s : State) : Bool :=
  if a.cls ≠ b.cls then decide (a.cls < b.cls)
  else match orderTenant a s, orderTenant b s with
    | none, none => false
    | none, some _ => true
    | some _, none => false
    | some t, some u => tenantBefore a.cls t u s

/-- Insert a request into the order, behind equals. -/
def insertReq (s : State) (r : AirReq) : List AirReq → List AirReq
  | [] => [r]
  | x :: xs => if beforeInOrder r x s then r :: x :: xs else x :: insertReq s r xs

/-- The waiting requests in the order of R269. -/
def orderedWaiters (s : State) : List AirReq := s.radio.waiters.foldl (fun l r => insertReq s r l) []

/-- COEX_GNT is there for a request that needs it (R278). Log entry 20 DEDUCED. -/
def coexOk (r : AirReq) (s : State) : Bool := !r.gnt || s.radio.gnt

/-- The first waiting request that conflicts with no holder it cannot preempt and with no waiting request before it
(R269). Log entry 20 DEDUCED. -/
def firstGrantable (now : Tick) (s : State) (earlier : List AirReq) : List AirReq → Option AirReq
  | [] => none
  | r :: rest =>
    if passes now r s.radio.rHold s && passes now r s.radio.lHold s && coexOk r s && !yields r s &&
       !earlier.any (fun e => airConflict e r s) then some r
    else firstGrantable now s (earlier ++ [r]) rest

/-- Ask for air: granted at once when no holder stands in the way (R265) and no tenant of weight above 0 comes first (R152),
otherwise the request waits. Log entry 20 DEDUCED. -/
def requestAir (r : AirReq) (s : State) : State :=
  let now := s.reel.cnt
  if passes now r s.radio.rHold s && passes now r s.radio.lHold s && coexOk r s && !yields r s then grantAir r now s
  else coexTrack (setRadio (fun q => { q with waiters := q.waiters ++ [r] }) s)

/-- A request is granted and holds its core. -/
def holds (w : Who) (c : CoreId) (s : State) : Bool :=
  match holdOf c s with
  | some h => h.req.who == w
  | none => false

/-- WAIT of a tenant's COEX_CFG in µs (R279, R620). -/
def coexWait (t : Tenant) (s : State) : Nat := bits s.prof[t].coex 13 0
/-- LKB_SHARED of a tenant's profile (9.6). -/
def lkbShared (t : Tenant) (s : State) : Bool := bit s.prof[t].coex 15
/-- The tenant whose profile Keel's own link work uses: the node holder, or T0 (9.6). -/
def linkHost (s : State) : Tenant := s.link.holder.getD 0

/-- Set the commit point of a held core's frame or slot (R275). Log entry 20 DEDUCED. -/
def setCommit (c : CoreId) (t : Option Tick) (s : State) : State :=
  match holdOf c s with
  | none => s
  | some h => setHold c (some { h with commit := t, ends := none }) s

/-- A slot is over at a tick unless something continues it before (R283). Log entry 81 DEDUCED. -/
def setOver (c : CoreId) (t : Option Tick) (s : State) : State :=
  match holdOf c s with
  | none => s
  | some h => setHold c (some { h with ends := t }) s

/-- The holder of a core is past its commit point now. -/
def pastCommit (c : CoreId) (s : State) : Bool :=
  match holdOf c s with
  | none => false
  | some h => committed s.reel.cnt h

end Sys2Proof.Machine
end

