-- ==== Sys2Proof/Machine/Clock.lean ====
section
/-!
DEFINITION. What comes about by itself as Reel advances: the commit point of a frame that opens a slot, and the start of a link send
at its TIME (R193); with it the link's time on air and its duty cycle (13.3, 14.7), and the frame on its way to an aerial.
-/
namespace Sys2Proof.Machine

-- ------------------------------------------------------------------ time on air (13.1, 13.3)

/-- Chips per bit of an SF code: 8, 16, 32, 64, 128. -/
def sfChips (sf : Nat) : Nat := 8 * 2 ^ sf

/-- Ticks of a chip: 24 at 1,000 kchip/s, 120 at 200 kchip/s. -/
def chipTicks (slow : Bool) : Nat := if slow then 120 else 24

/-- Ticks that a frame lasts on air on a lane, 5 being S-mode (13.3). -/
def airTicks (lane : Fin 6) (slow : Bool) (len : Nat) : Nat :=
  if lane = 5 then (192 + 32 * len) * 24 else (64 + 8 * len) * sfChips lane.val * chipTicks slow

/-- Chips are slow, 200 kchip/s: by LNK_PHYCFG.CRATE, or by the node configuration. -/
def slowChips (p : Profile) (s : State) : Bool :=
  match bits p.phycfg 5 4 with
  | 1 => false
  | 2 => true
  | _ => s.link.rate == 1

/-- The node runs at 200 kchip/s. -/
def linkSlow (s : State) : Bool := s.link.rate == 1
/-- Ticks that a frame lasts on the node's channel. -/
def frameTicks (lane : Fin 6) (len : Nat) (s : State) : Nat := airTicks lane (linkSlow s) len

-- ------------------------------------------------------------------ duty cycle (14.7)

/-- The sub-bands of Table 14-6 in kHz, with their duty limits in tenths of a per cent. -/
def subBands : List (Nat × Nat × Nat) :=
  [(863000, 865000, 1), (865000, 868000, 10), (868000, 868600, 10), (868700, 869200, 1), (869400, 869650, 100),
   (869700, 870000, 10)]

/-- The centre of a FREQ code in kHz (6.1). -/
def codeKhz (f : Nat) : Nat := 840000 + 25 * f

/-- The sub-band that a channel's centre lies in. -/
def subBandOf (f : Nat) : Option (Nat × Nat × Nat) := subBands.find? fun b => decide (b.1 ≤ codeKhz f ∧ codeKhz f ≤ b.2.1)

/-- Record link transmission in the node's sub-band over the sliding hour on REGION 1 (R431). -/
def dutyAdd (start : Tick) (n : Nat) (s : State) : State :=
  if s.link.region = 1 ∧ subBandOf s.radio.lFreq = subBandOf s.link.freq then
    setLink (fun l => { l with
      duty := l.duty.filter (fun e => decide (ticksBetween e.1 s.reel.cnt < 86400000000)) ++ [(start, n)] }) s
  else s

/-- The hourly budget in ticks on REGION 1 (R431, Table 14-6). -/
def dutyBudget (s : State) : Nat :=
  match subBandOf s.link.freq with
  | some b => 86400000 * b.2.2
  | none => 0

/-- Ticks of transmission in the sliding hour. -/
def dutyUsed (s : State) : Nat := (s.link.duty.map fun e => e.2 - (ticksBetween e.1 s.reel.cnt - 86400000000)).sum

/-- A data frame or beacon would leave less than 2 % of the budget (R431). -/
def dutyShort (n : Nat) (s : State) : Bool :=
  s.link.region == 1 && decide (98 * dutyBudget s < 100 * (dutyUsed s + n))

-- ------------------------------------------------------------------ the link transmitter (13.5, 13.8)

/-- Diversity is in service under a profile: wanted, and neither an LNA nor LKB is lost to it (R396). -/
def diversityFor (p : Profile) (s : State) : Bool := bit p.phycfg 1 && !bit s.mend.lost 4 && !s.radio.lkbGiven

/-- The search aerial under a profile is LKB (R394, R396). -/
def searchesLkb (p : Profile) (s : State) : Bool := s.link.searchLkb && diversityFor p s

/-- The aerial that a profile transmits on is LKB (R405). -/
def txLkb (p : Profile) (s : State) : Bool :=
  match bits p.phycfg 3 2 with
  | 0 => false
  | 1 => true
  | _ => searchesLkb p s

/-- The request that stands for a send. -/
def sendWho (e : Send) : Who := match e.owner with | some t => .send t e.tseq | none => .beacon

/-- The profile that a send runs under: its tenant's, or for a beacon the node holder's (R404, 9.6). -/
def sendProfile (e : Send) (s : State) : Profile :=
  match e.owner with
  | some t => s.loaded[t]
  | none => s.prof[linkHost s]

/-- The active send goes on air with its first chip at a tick; its ramp begins 432 ticks before (R54, R248), its commit point is 192
ticks before (R275). Log entry 36 DESIGN CHOICE. -/
def transmit (e : Send) (first : Tick) (s : State) : State :=
  let s := setCommit .link (some (first - 192)) (linkCompApply (setCore .link .tx s))
  let last := first + BitVec.ofNat 48 (frameTicks e.lane e.psdu.length s)
  let f : LinkTx := { lane := e.lane, slow := linkSlow s, lkb := txLkb (sendProfile e s) s, power := e.power, first := first }
  trswSpan (laterTick (first - 432) s.reel.cnt) last
    (setLink (fun l => { l with step := .tx, sentPsdu := e.psdu, onAir := some f, timer := last }) s)

/-- The request of a send for the link air, at class 3 (R418). -/
def sendReq (e : Send) (s : State) : AirReq :=
  { core := .link, who := sendWho e, cls := 3, freq := s.link.freq, since := s.reel.cnt, gnt := true,
    wait := coexWait (e.owner.getD (linkHost s)) s, noWait := false }

-- ------------------------------------------------------------------ sends with a TIME (R193)

/-- The send has asked for its air and has it or waits for it. -/
def sendAsked (e : Send) (s : State) : Bool :=
  holds (sendWho e) .link s || s.radio.waiters.any fun r => r.who == sendWho e

/-- What a send with a TIME does next by itself, and when: 50 µs and the ramp before TIME it asks for the air, so that the lead of R278
is over when its ramp begins, 432 ticks before its first chip. Log entry 35 DEDUCED. -/
def timedNext (e : Send) (s : State) : Option (Tick × Bool) :=
  match e.time with
  | none => none
  | some t =>
    let busy := s.link.step != .idle && s.link.sends.head?.map sendWho == some (sendWho e)
    if e.late || busy || s.power.mode != .run || !reached (t - 432) s.reel.cnt then none
    else if sendAsked e s then some (t - 432, true)
    else some (laterTick (t - 1632) s.reel.cnt, false)

/-- The first of these among the sends. -/
def nextStop (s : State) : Option (Send × Tick × Bool) :=
  s.link.sends.foldl (fun w e =>
    match timedNext e s, w with
    | some (t, go), none => some (e, t, go)
    | some (t, go), some (_, u, _) => if reached t u then w else some (e, t, go)
    | none, w => w) none

/-- Mark a send that cannot go on air at its TIME any more: it gives its air back, and SEND_TIME_DUE ends it. -/
def sendMissed (e : Send) (s : State) : State :=
  let s := setLink (fun l => { l with sends := l.sends.map fun x => if sendWho x = sendWho e then { x with late := true } else x }) s
  let s := dropWaiters (sendWho e) s
  if holds (sendWho e) .link s then releaseAir .link s else s

/-- The ramp of a send begins, if it holds the air, the grant and its lead are there, its channel is calibrated and the duty cycle
allows it (R193, R261, R278, R431). Log entry 35 DEDUCED. -/
def sendGo (e : Send) (s : State) : State :=
  let short := dutyShort (frameTicks e.lane e.psdu.length s) s
  if holds (sendWho e) .link s && s.radio.gnt && leadTick s s.reel.cnt == s.reel.cnt && !short then
    let (failed, s) := calResult .link s
    if failed then sendMissed e s else transmit e (s.reel.cnt + 432) s
  else sendMissed e s

-- ------------------------------------------------------------------ Reel (15.1)

/-- A frame that opens a slot passes its commit point: the slot counts from here on, and a Query starts a round (R244, R295,
R296). Log entry 21 DEDUCED. -/
def openSlot (o : Opening) (s : State) : State :=
  match s.rdr.inv[o.who] with
  | some i =>
    if o.query then
      let s := readerAsSlot (countQuery s)
      let s := setRdr (fun r => { r with running := true, owner := o.who, qNow := o.q }) s
      setInv o.who (some { i with running := true, round := s.rdr.roundCnt, slots := 1, sinceQ := 1, tags := 0, coll := 0,
                                  empty := 0, q := o.q, reply := false }) s
    else
      setInv o.who (some { i with slots := i.slots + 1, sinceQ := if o.anew then 1 else i.sinceQ + 1, q := o.q })
        (setRdr (fun r => { r with qNow := o.q }) s)
  | none =>
    setRdr (fun r => { r with running := true, owner := o.who, ownReply := some false }) (countQuery (ownRoundEnd s))

/-- What comes about by itself as Reel advances: the commit point of a frame that opens a slot. -/
def openDue (s : State) : State :=
  match s.rdr.opening with
  | some o => if reached s.reel.cnt o.at_ then openSlot o (setRdr (fun r => { r with opening := none }) s) else s
  | none => s

/-- Ticks of a minute. -/
abbrev minTicks : Nat := 1440000000

/-- Ticks of a day. -/
abbrev dayLen : Nat := 1440 * minTicks

/-- Keel's day counter has counted on by `now`: it counts days of Reel (R529, R532). Log entry 45 DESIGN CHOICE. -/
def dayRun (now : Tick) (r : ReelSt) : ReelSt :=
  let n := ticksBetween r.dayFrom now / dayLen
  if n = 0 then r else { r with day := r.day + n, dayFrom := r.dayFrom + BitVec.ofNat 48 (n * dayLen) }

/-- Reel reads `now`: the down counters count on, and a new fair-sharing window begins where one does. -/
def clockTo (now : Tick) (s : State) : State :=
  let n := ticksBetween s.reel.cnt now
  let w := windowOf now
  { s with
    ports := presenceShift n s
    reel := dayRun now { s.reel with cnt := now, dcs := s.reel.dcs.map (dcRun n) }
    radio := if w = s.radio.window then s.radio
             else { s.radio with window := w, charged := Vector.replicate 4 0 } }

/-- Let Reel come to `now` past what comes about by itself on the way, at most so many times. -/
def runTo (now : Tick) : Nat → State → State
  | 0, s => openDue (clockTo now s)
  | n + 1, s =>
    match nextStop s with
    | some (e, t, go) =>
      if reached now t then
        let s := openDue (clockTo t s)
        runTo now n (if go then sendGo e s else requestAir (sendReq e s) s)
      else openDue (clockTo now s)
    | none => openDue (clockTo now s)

/-- Let Reel come to `now`: it never goes back (R436).
Log entries 2 DESIGN CHOICE, 3 DESIGN CHOICE, 61 DESIGN CHOICE. -/
def advanceTo (now : Tick) (s : State) : State :=
  if reelCounts s && reached now s.reel.cnt then runTo now (2 * s.link.sends.length) s else s

/-- One tick of idling: Reel counts on where it counts. Log entry 2 DESIGN CHOICE. -/
def idleTick (s : State) : State := advanceTo (s.reel.cnt + 1) s

/-- AIR_GRANT (R269): at `now`, the first grantable waiting request gets its air; with none nothing comes about. -/
def execAirGrant (now : Tick) (s : State) : Host.Outcome State Fault Refusal :=
  let s := advanceTo now s
  match firstGrantable s.reel.cnt s [] (orderedWaiters s) with
  | some r => .next (grantAir r s.reel.cnt s)
  | none => .next s

end Sys2Proof.Machine
end

