-- ==== Sys2Proof/Machine/Operands.lean ====
section
/-!
DEFINITION. The operand forms of Spool words (Tables 8-2, 8-4): the encodings of the three formats, the extension of
immediates, and which words are assigned (R226).
-/
namespace Sys2Proof.Machine

/-- Format A (Table 8-2). -/
def wordA (op : BitVec 6) (d a b : Fin 16) (fn : BitVec 14) : BitVec 32 :=
  op ++ BitVec.ofNat 4 d.val ++ BitVec.ofNat 4 a.val ++ BitVec.ofNat 4 b.val ++ fn

/-- Format I. -/
def wordI (op : BitVec 6) (d a : Fin 16) (imm : BitVec 18) : BitVec 32 :=
  op ++ BitVec.ofNat 4 d.val ++ BitVec.ofNat 4 a.val ++ imm

/-- Format J. -/
def wordJ (op : BitVec 6) (cond : Fin 8) (target : BitVec 10) : BitVec 32 :=
  op ++ BitVec.ofNat 4 cond.val ++ (0 : BitVec 12) ++ target

/-- Immediates sign-extend, but for ANDI, ORI, XORI and LUI (8.1). -/
def immS (imm : BitVec 18) : Reg32 := imm.signExtend 32
def immZ (imm : BitVec 18) : Reg32 := imm.setWidth 32

/-- FN[13], the no-wait bit of air instructions (R232). -/
def fnNoWait (b : Bool) : BitVec 14 := if b then 0x2000 else 0

/-- One flag bit of FN. -/
def fnBit (i : Nat) (b : Bool) : BitVec 14 := if b then BitVec.ofNat 14 (2 ^ i) else 0

/-- Register field rules of a format A word: which of D, A, B must be 0, and which FN values are assigned. -/
structure FormA where
  d0 : Bool
  a0 : Bool
  b0 : Bool
  fn : BitVec 14 → Bool

/-- FN with only the given bits. -/
def fnMask (mask : Nat) (fn : BitVec 14) : Bool := fn &&& ~~~(BitVec.ofNat 14 mask) == 0

/-- The assigned format A words by opcode (Tables 8-4 to 8-8). Log entry 16 DEDUCED. -/
def formA (op : Nat) (fn : BitVec 14) : Option FormA :=
  let plain : FormA := { d0 := false, a0 := false, b0 := false, fn := fun f => f == 0 }
  if op ≤ 0x08 then some plain
  else match op with
  | 0x09 => some { plain with d0 := true }
  | 0x13 => some { plain with d0 := true, b0 := true }
  | 0x18 => some { plain with fn := fun _ => true }
  | 0x1A => some { plain with fn := fnMask 0xF }
  | 0x1B => some { plain with fn := fnMask 0x3 }
  | 0x20 | 0x21 | 0x22 => some { plain with b0 := true, fn := fnMask 0x2000 }
  | 0x23 => some { plain with a0 := true, b0 := true, fn := fnMask 0x2001 }
  | 0x24 => some { plain with fn := fun f => fnMask 0x200F f && f &&& 3 != 3 }
  | 0x25 => some { plain with fn := fun f => fnMask 0x2FFF f && !(bit f 10 && f &&& 0x3FF != 0) }
  | 0x26 | 0x27 | 0x28 | 0x30 => some { plain with a0 := true, b0 := true, fn := fnMask 0x2000 }
  | 0x2C => some { plain with b0 := true, fn := fnMask 0x3000 }
  | 0x2D =>
    some { plain with b0 := true, fn := fun f => fnMask 0x2387 f && decide (f.toNat % 8 ≤ 4) && !(bit f 7 && f &&& 7 != 0) }
  | 0x2E => some { plain with fn := fnMask 0x203F }
  | 0x2F => some { plain with a0 := true, b0 := true, fn := fnMask 0x3000 }
  | 0x36 => match fn.toNat with
    | 0 => some { plain with a0 := true, b0 := true, fn := fun _ => true }
    | 1 | 4 => some { plain with b0 := true, fn := fun _ => true }
    | 2 | 3 | 5 => some { plain with fn := fun _ => true }
    | _ => none
  | 0x38 | 0x3B => some plain
  | 0x39 => some { plain with fn := fnMask 0x1 }
  | 0x3A =>
    some { plain with fn := fun f => fnMask 0x1F f && decide (1 ≤ f.toNat % 8 ∧ f.toNat % 8 ≤ 4 ∧ f.toNat / 8 ≤ 2) }
  | 0x3C => some { plain with fn := fun f => fnMask 0x1F f && decide (f.toNat % 16 ≤ 8) }
  | 0x3D => some { plain with b0 := true, fn := fun f => fnMask 0x3 f && f &&& 3 != 3 }
  | 0x3E => some { plain with a0 := true, b0 := true, fn := fun f => decide (1 ≤ f.toNat ∧ f.toNat ≤ 4) }
  | 0x3F => some { plain with fn := fun f => decide (f.toNat ≤ 2) }
  | _ => none

/-- Whether a word is assigned (R226). Log entry 16 DEDUCED. -/
def spoolLegal (w : BitVec 32) : Bool :=
  let op := bits w 31 26
  let d := bits w 25 22
  let a := bits w 21 18
  let b := bits w 17 14
  if op = 0x0E ∨ op = 0x19 then d == 0
  else if op = 0x0F ∨ op = 0x14 then a == 0
  else if (0x0A ≤ op ∧ op ≤ 0x0D) ∨ op = 0x34 ∨ op = 0x35 then true
  else if op = 0x10 ∨ op = 0x11 then decide (d ≤ 7) && bits w 21 10 == 0
  else if op = 0x12 then decide (d ≤ 7) && bits w 21 10 == 0 && bits w 9 0 == 0
  else
    let fn := w.setWidth 14
    match formA op fn with
    | none => false
    | some f => f.fn fn && !(f.d0 && d != 0) && !(f.a0 && a != 0) && !(f.b0 && b != 0)

end Sys2Proof.Machine
end

