-- ==== Sys2Proof/Machine/SpoolCore.lean ====
section
/-!
DEFINITION. What every Spool instruction shares (chapter 7): issue and retirement, the time cursor, the starting command's
response, faults, the end of a program, waiting, and the failures of air instructions (R231).
-/
namespace Sys2Proof.Machine

/-- Read a working register: w0 reads 0 (Table 7-4). -/
def rd (k : Ctx) (r : Fin 16) : Reg32 := if r = 0 then 0 else k.regs[r]

/-- Write a working register: a write to w0 is discarded (R227). -/
def wr (r : Fin 16) (v : Reg32) (k : Ctx) : Ctx :=
  if r = 0 then k else { k with regs := k.regs.set r.val v r.isLt }

/-- Reel ticks of one Spool cycle: 2, or 6 in LIMP (R210, R639). -/
def cycleTicks (s : State) : Nat := if inLimp s then 6 else 2

/-- Queue events that a program raised earlier, each under the tick at which it was raised. -/
def pushAll (l : List (Tick × BitVec 16 × Bytes)) (q : TenantSt) : TenantSt :=
  l.foldl (fun q e => pushEvent e.1 e.2.1 e.2.2 q) q

/-- Complete the starting command that waits for its program's first moments (R208); the events that the program has raised since
leave behind that response (R160). Log entry 6 DEDUCED. -/
def finishStart (x : Tenant) (status : Byte) (s : State) : State :=
  match s.ctxs[x].start with
  | none => s
  | some _ =>
    modTen x (pushAll s.ctxs[x].early)
      (reply x status [] (modCtx x (fun k => { k with start := none, early := [] }) s))

/-- A program raises an event to its tenant: it waits while the starting command's response is still due (R160). -/
def raiseFrom (x : Tenant) (code : BitVec 16) (data : Bytes) (s : State) : State :=
  if s.ctxs[x].start.isSome then modCtx x (fun k => { k with early := k.early ++ [(s.reel.cnt, code, data)] }) s
  else raise x code data s

/-- Return every buffer a context holds (R215). -/
def dropBufs (x : Tenant) (s : State) : State :=
  modCtx x (fun k => { k with held := [] }) (s.ctxs[x].held.foldl (fun s h => freeBuf h s) s)

/-- Release every core a context holds, and its waiting requests (R212). -/
def dropAir (x : Tenant) (s : State) : State :=
  let s := dropWaiters (.ctx x) s
  let s := if holds (.ctx x) .reader s then releaseAir .reader s else s
  if holds (.ctx x) .link s then releaseAir .link s else s

/-- A program runs in the context. -/
def inRun (k : Ctx) : Bool := k.run == .running || k.run == .waiting

/-- What a built-in program shows now (R204). Log entry 84 DESIGN CHOICE. -/
def romNow (s : State) : BitVec 10 × Fin 9 × BitVec 3 × Bool := Config.romView s.reel.cnt.toNat

/-- Spool cycles in a span of Reel ticks. -/
def cyclesIn (a b : Tick) (s : State) : Nat := (ticksBetween a b + (cycleTicks s - 1)) / cycleTicks s

/-- Spool cycles since the run started, those of a wait in progress included (SPL_CYC). -/
def cycNow (k : Ctx) (s : State) : Nat :=
  min 0xFFFFFFFF
    (if inRun k && isBuiltin k then cyclesIn k.began s.reel.cnt s
     else match k.pend with
       | some p => if k.run == .waiting && reached s.reel.cnt p.issued then k.cyc + cyclesIn p.issued s.reel.cnt s else k.cyc
       | none => k.cyc)

/-- The word address of the next instruction, or of the faulting one (SPL_PC). -/
def pcNow (k : Ctx) (s : State) : Nat := if inRun k && isBuiltin k then (romNow s).1.toNat else k.pc

/-- A run is over: its pending requests to Bridle are stale (R220, R587), a SPOOL.RESET that waited for it zeroes the data RAM, and a
built-in program's cycles stand as they were. -/
def runOver (x : Tenant) (s : State) : State :=
  let s := setBri (fun b => { b with engine := b.engine.map fun e => if e.who = x then { e with stale := true } else e }) s
  modCtx x (fun k => { k with
    pend := none, stopping := none, wipe := false, data := if k.wipe then [] else k.data
    pc := pcNow k s, cyc := if isBuiltin k then cycNow k s else k.cyc }) s

/-- A fault stops the context at the faulting instruction and queues EV_SPOOL_FAULT; its cores go to STANDBY, its buffers
to the pool; the starting command still waiting gets ST_SPOOL_FAULT (R208, R216, R218). A fall-through past word 1,023 is told
with PC 1,024. Log entry 72 DESIGN CHOICE. -/
def spoolFault (x : Tenant) (code : Nat) (s : State) : State :=
  let s := runOver x (dropBufs x (dropAir x s))
  let s := modCtx x (fun k => { k with run := .faulted, fault := code }) s
  let s := finishStart x stSpoolFault s
  let k := s.ctxs[x]
  raise x evSpoolFault (leBytes 2 k.tseq.toNat ++ [BitVec.ofNat 8 code] ++ leBytes 2 k.pc) s

/-- A program ends: buffers and air go back, the context is idle, and an own program's end is told in EV_SPOOL_END with
its status, that of a stop which waited for it if there was one, and w1 (7.6). -/
def endProgram (x : Tenant) (status : Byte) (s : State) : State :=
  let status := s.ctxs[x].stopping.getD status
  let s := runOver x (dropBufs x (dropAir x s))
  let s := modCtx x (fun k => { k with run := .idle, ksel := none }) s
  let s := finishStart x stOk s
  let k := s.ctxs[x]
  if isBuiltin k then s
  else raise x evSpoolEnd (leBytes 2 k.tseq.toNat ++ [status] ++ leBytes 4 (rd k 1).toNat) s

/-- The instruction takes its cycles: the cursor, the cycle count and the watchdog move on, the PC goes where told (R210,
R217, R229), and after 16 instructions the starting command completes (R208). Log entries 6 DEDUCED, 17 DEDUCED. -/
def retireTo (x : Tenant) (pc cycles : Nat) (s : State) : State :=
  let n := cycles * cycleTicks s
  let s := modCtx x (fun k => { k with pc := pc, cursor := k.cursor + BitVec.ofNat 48 n,
                                       cyc := min 0xFFFFFFFF (k.cyc + cycles), wdog := k.wdog + cycles,
                                       issues := k.issues + 1 }) s
  if s.ctxs[x].issues < 16 then s else finishStart x stOk s

/-- Retire to the next instruction. -/
def retire (x : Tenant) (cycles : Nat) (s : State) : State := retireTo x (s.ctxs[x].pc + 1) cycles s

/-- The moment of issue: at the first issue of a run the cursor takes Reel (R210); Reel has come at least to the cursor. -/
def issueMoment (x : Tenant) (s : State) : State :=
  let s := if s.ctxs[x].fresh then modCtx x (fun k => { k with fresh := false, cursor := s.reel.cnt }) s else s
  advanceTo s.ctxs[x].cursor s

/-- A core that the context holds has a frame or slot past its commit point (R181). -/
def progCommitted (x : Tenant) (s : State) : Bool :=
  (holds (.ctx x) .reader s && pastCommit .reader s) || (holds (.ctx x) .link s && pastCommit .link s)

/-- Issue an instruction word in a context: only a running context issues; a program that is to stop issues no more once its frame or
slot is over (R181, R219); a fetch at or above CODELEN faults with code 5 (R205); an own program issues the word that stands at its
PC. Log entry 1 DESIGN CHOICE. -/
def issue (x : Tenant) (word : BitVec 32) (body : State → State) (s : State) : State :=
  let k := s.ctxs[x]
  if k.run == .running && live s then
    if isBuiltin k then body (issueMoment x s)
    else if k.stopping.isSome && !progCommitted x s then endProgram x stCancelled s
    else if k.codeLen ≤ k.pc then spoolFault x 5 (issueMoment x s)
    else if memWord k.code k.pc = word then body (issueMoment x s)
    else s
  else s

/-- An ALU instruction: its result to D, its flags, its cycles (R228, R229). -/
def aluStep (x : Tenant) (d : Fin 16) (cycles : Nat) (f : Ctx → AluOut) (s : State) : State :=
  retire x cycles (modCtx x (fun k => wr d (f k).val (setAluFlags (f k) k)) s)

/-- A compare: flags only. -/
def cmpStep (x : Tenant) (f : Ctx → AluOut) (s : State) : State :=
  retire x 1 (modCtx x (fun k => setAluFlags (f k) k) s)

/-- A jump target must lie in the slot and in the code (R205, R235). -/
def targetOk (k : Ctx) (t : Nat) : Bool := decide (t < 1024) && (isBuiltin k || decide (t < k.codeLen))

/-- Take a jump, or fault with code 5 if its target is out of slot. -/
def jumpTo (x : Tenant) (t : Nat) (s : State) : State :=
  if targetOk s.ctxs[x] t then retireTo x t 2 s else spoolFault x 5 s

/-- The epoch of the block that an instruction asks (R587). -/
def opEpoch (op : WaitOp) (s : State) : BitVec 16 :=
  match opCore op with
  | some .reader => s.epoch.rdr
  | some .link => s.epoch.lnk
  | none => s.epoch.cry

/-- Enter WAITING on a W instruction (R230); the starting command completes (R208). -/
def enterWait (x : Tenant) (p : Pend) (s : State) : State :=
  let p := { p with epoch := opEpoch p.op s }
  finishStart x stOk (modCtx x (fun k => { k with run := .waiting, pend := some p, issues := k.issues + 1 }) s)

/-- A W instruction completes at `now`: the context runs on behind it, the cursor at the completion tick, the watchdog
cleared (R210, R217, R230). It counts the Spool cycles up to its next issue slot, one at least (R203; DEDUCED).
Log entry 17 DEDUCED. -/
def endWait (x : Tenant) (now : Tick) (f : Ctx → Ctx) (s : State) : State :=
  let n := cycleTicks s
  modCtx x (fun k =>
    let spent := match k.pend with
      | some p => let t := ticksBetween p.issued now; if t < 2 ^ 47 then max 1 ((t + (n - 1)) / n) else 1
      | none => 1
    f { k with run := .running, pend := none, pc := k.pc + 1, cursor := now, wdog := 0,
               cyc := min 0xFFFFFFFF (k.cyc + spent) }) s

/-- The flags and D of an air instruction that failed (R231): N 1, Z 1, C 0, the status code in D. -/
def airFailCtx (d : Fin 16) (status : Byte) (k : Ctx) : Ctx :=
  wr d (status.setWidth 32) { k with n := true, z := true, c := false }

/-- A W instruction that is over as it begins: WAITING is entered and left at the issue tick, to which the cursor moves (R208, R210,
R217, R230); it counts one Spool cycle. Log entries 17 DEDUCED, 18 DEDUCED. -/
def wAtOnce (x : Tenant) (f : Ctx → Ctx) (s : State) : State :=
  finishStart x stOk (modCtx x (fun k => f { k with
    pc := k.pc + 1, cursor := s.reel.cnt, cyc := min 0xFFFFFFFF (k.cyc + 1), wdog := 0, issues := k.issues + 1 }) s)

/-- An instruction completes at its issue: one marked W as a wait that is over at once, any other in one cycle. -/
def atOnce (w : Bool) (x : Tenant) (f : Ctx → Ctx) (s : State) : State :=
  if w then wAtOnce x f s else retire x 1 (modCtx x f s)

/-- An air instruction that fails at its issue completes at once (R231); `w` tells that it is marked W. -/
def airFail (w : Bool) (x : Tenant) (d : Fin 16) (status : Byte) (s : State) : State :=
  atOnce w x (airFailCtx d status) s

/-- A W instruction completes at once with C set and nothing done; D stays. Log entry 18 DEDUCED. -/
def airNothing (x : Tenant) (s : State) : State :=
  wAtOnce x (fun k => { k with n := false, z := false, c := true }) s

/-- D and the flags of an air instruction that completes on air: N, Z and C clear (R231). Log entry 18 DEDUCED. -/
def airOkCtx (d : Fin 16) (v : Reg32) (k : Ctx) : Ctx := wr d v { k with n := false, z := false, c := false }

/-- The same for an instruction that does not write C. -/
def airOkNz (d : Fin 16) (v : Reg32) (k : Ctx) : Ctx := wr d v { k with n := false, z := false }

/-- The program stops at the end of the frame or slot it is in, if a stop waits for it (R181, R219, R220).
Log entry 19 DEDUCED. -/
def stopIfDue (x : Tenant) (s : State) : State :=
  match s.ctxs[x].stopping with
  | some st => if progCommitted x s then s else endProgram x st s
  | none => s

/-- Reserved values in RDR_FWD (10.10). -/
def fwdBad (p : Profile) : Bool :=
  decide (bits p.fwd 15 14 = 3 ∨ bits p.fwd 13 12 = 3 ∨ 20 < bits p.fwd 11 7 ∨ 4 < bits p.fwd 6 4 ∨ 8 < bits p.fwd 3 0)

/-- Reserved values in RDR_BACK (10.10). -/
def backBad (p : Profile) : Bool := decide (5 < bits p.back 5 3)

/-- Reserved values among the reader settings of a profile that a reader activity checks, or QMIN above QMAX (R290). -/
def readerProfileBad (p : Profile) : Bool := fwdBad p || backBad p || decide (bits p.q 11 8 < bits p.q 7 4)

/-- Reserved values in RDR_PA (11.9). -/
def paBad (p : Profile) : Bool := decide (bits p.pa 13 8 = 0 ∨ 40 < bits p.pa 13 8 ∨ 250 < bits p.pa 7 0)

/-- Reserved values of RDR_PA and RDR_SNIFF (R346; every RDR_PACPL value is assigned). -/
def paSniffBad (p : Profile) : Bool := paBad p || decide (4800 < bits p.sniff 12 0)

/-- Reserved values of RDR_FEED and RDR_RLBAND (R557). -/
def feedBad (p : Profile) : Bool :=
  let vf := bits p.feed 15 8
  let lo := bits p.rlband 14 8
  let hi := bits p.rlband 6 0
  decide (vf < 110 ∨ 200 < vf ∨ 120 < hi ∨ hi < lo)

/-- Reserved values of LNK_PHYCFG and LNK_TXPWR (R404). -/
def linkProfileBad (p : Profile) : Bool :=
  let pw := sByte (bits p.txpwr 7 0)
  decide (bits p.phycfg 5 4 = 3 ∨ bits p.phycfg 3 2 = 2 ∨ pw < -40 ∨ 28 < pw)

/-- Why an air instruction of a context cannot go on air at its issue, in the order LIMP, lost resources, air lost, reserved values of
the profile that the instruction uses (`bad`, R231). Log entry 18 DEDUCED. -/
def airBlock (x : Tenant) (core : CoreId) (bad : Profile → Bool) (s : State) : Option Byte :=
  let lost := match core with | .reader => s.ctxs[x].lostR | .link => s.ctxs[x].lostL
  if inLimp s then some stLimp
  else if noSyn s || (core == .reader && s.power.vpaLow) then some stDegraded
  else if lost then some stAirtime
  else if bad s.loaded[x] then some stBadArg
  else none

/-- The air loss has been told. -/
def clearLost (core : CoreId) (k : Ctx) : Ctx :=
  match core with
  | .reader => { k with lostR := false }
  | .link => { k with lostL := false }

/-- An air instruction whose action would lie in the past acts 3 ticks after the issue tick: the cursor moves there (7.4). -/
def airCursor (x : Tenant) (s : State) : State :=
  if reached (s.ctxs[x].cursor + 3) s.reel.cnt then s
  else modCtx x (fun k => { k with cursor := s.reel.cnt }) s

/-- A reader instruction of a context that holds the reader air asks for a slot in a running round: the hold is of class 2 from then
on (R213). -/
def airClass (x : Tenant) (core : CoreId) (s : State) : State :=
  if core == .reader && holds (.ctx x) .reader s then readerAsSlot s else s

/-- Issue an air instruction: what blocks it ends it with its status, otherwise the body goes on. -/
def airIssue (w : Bool) (x : Tenant) (core : CoreId) (d : Fin 16) (bad : Profile → Bool) (body : State → State) (s : State) :
    State :=
  match airBlock x core bad s with
  | some st => modCtx x (clearLost core) (airFail w x d st s)
  | none =>
    if holds (.ctx x) core s then
      let (failed, s) := calResult core s
      if failed then airFail w x d stCalFail s else body (airClass x core (airCursor x s))
    else body (airCursor x s)

/-- The context holds the core, in SYNTH or above, on a channel its own HOP or LCH set in this run (R231). -/
def tuned (x : Tenant) (core : CoreId) (s : State) : Bool :=
  holds (.ctx x) core s && !(coreState core s == .standby || coreState core s == .sleep) &&
  (match core with | .reader => s.ctxs[x].tunedR | .link => s.ctxs[x].tunedL)

/-- The wait of a W instruction that issues now and completes `lead` ticks after its action tick, 3 ticks after the
cursor (R211). -/
def airPend (x : Tenant) (op : WaitOp) (d : Fin 16) (a b : Reg32) (fn : BitVec 14) (lead : Nat) (s : State) : Pend :=
  let c := s.ctxs[x].cursor
  { op := op, d := d, a := a, b := b, fn := fn, issued := c, until_ := c + 3 + BitVec.ofNat 48 lead, noAir := false, epoch := 0 }

/-- The waiting instruction of a context, if it is this one and its air is there. -/
def pendIs (x : Tenant) (op : WaitOp) (s : State) : Option Pend :=
  match s.ctxs[x].run, s.ctxs[x].pend with
  | .waiting, some p => if p.op == op && !p.noAir then some p else none
  | _, _ => none

/-- An air instruction completes at `now`: if its core's air was lost it completes with ST_AIRTIME (R267), otherwise as
told, with N clear (R231). -/
def airDone (x : Tenant) (core : CoreId) (now : Tick) (d : Fin 16) (f : Ctx → Ctx) (s : State) : State :=
  let k := s.ctxs[x]
  let lost := match core with | .reader => k.lostR | .link => k.lostL
  if lost then endWait x now (fun k => airFailCtx d stAirtime (clearLost core k)) s
  else endWait x now (fun k => f { k with n := false }) s

/-- Ask for a core's air for a context (R213, R233); the reader's request is class 2 while the context holds the reader
and class 4 otherwise. -/
def ctxRequest (x : Tenant) (core : CoreId) (cls freq : Nat) (noWait : Bool) (s : State) : AirReq :=
  { core := core, who := .ctx x, cls := cls, freq := freq, since := s.reel.cnt,
    gnt := (match core with | .reader => true | .link => cls != 5 || lkbShared x s),
    wait := coexWait x s, noWait := noWait }

/-- The class of a reader request (R213). -/
def readerClass (x : Tenant) (s : State) : Nat := if holds (.ctx x) .reader s then 2 else 4

/-- An air instruction that finds its core's air not held asks for it and waits for the grant, after which it acts (R212, R214): a
reader request is of class 4, a new round; for LOFF, whose class no rule gives, class 5 is taken. Log entry 82 DESIGN CHOICE. -/
def airFirst (x : Tenant) (core : CoreId) (d : Fin 16) (fn : BitVec 14) (body : State → State) (s : State) : State :=
  if holds (.ctx x) core s then body s
  else
    let c := s.ctxs[x].cursor
    let p : Pend := { op := match core with | .reader => .airR | .link => .airL, d := d, a := 0, b := 0, fn := fn, issued := c,
                      until_ := c + 3, noAir := true, epoch := 0 }
    let r := match core with
      | .reader => ctxRequest x .reader 4 s.radio.rFreq (bit fn 13) s
      | .link => ctxRequest x .link 5 s.radio.lFreq (bit fn 13) s
    requestAir r (enterWait x p s)

/-- End a program under the commit point (R219, R220): what has passed it is sent whole before the program ends.
Log entry 19 DEDUCED. -/
def stopProgram (x : Tenant) (status : Byte) (s : State) : State :=
  if progCommitted x s then modCtx x (fun k => { k with stopping := some (k.stopping.getD status) }) s
  else endProgram x status s

/-- BUDGET_WATCHDOG (R217): at 1,000,000 cycles without YIELD or wait a running context faults with code 6. -/
def execBudgetWatchdog (x : Tenant) (s : State) : Host.Outcome State Fault Refusal :=
  if s.ctxs[x].run == .running && decide (1000000 ≤ s.ctxs[x].wdog) then .next (spoolFault x 6 s) else .next s

/-- ILLEGAL_INSTRUCTION (R226): issue of an unassigned word faults with code 1; the lowest code wins, but a fetch past the
code is code 5 (R205, R216). -/
def execSpIllegal (x : Tenant) (word : BitVec 32) (s : State) : Host.Outcome State Fault Refusal :=
  if spoolLegal word then .next s else .next (issue x word (spoolFault x 1) s)

/-- NO_WAIT_AIR_DENIED (R214): at the action tick a no-wait instruction whose request still waits faults with code 4. -/
def execNoWaitAirDenied (x : Tenant) (now : Tick) (s : State) : Host.Outcome State Fault Refusal :=
  let s := advanceTo now s
  match s.ctxs[x].run, s.ctxs[x].pend with
  | .waiting, some p =>
    if p.noAir && bit p.fn 13 && reached s.reel.cnt p.until_ then .next (spoolFault x 4 s) else .next s
  | _, _ => .next s

end Sys2Proof.Machine
end

