-- ==== Sys2Proof/Machine/Services.lean ====
section
/-!
DEFINITION. What several blocks ask of Keel and of each other: queued commits, Mend's losses and levels, the DRBG, key
values and their judgement, key charges, and the ends of accesses and security sessions.
-/
namespace Sys2Proof.Machine

-- ------------------------------------------------------------------ waking (3.3)

/-- A wake cause in SLEEP starts a wake (R69), its XO24 at normal drive; in any other state it does nothing here. -/
def startWake (c : WakeCause) (s : State) : State :=
  if s.power.mode == .sleep then setPower (fun p => { p with mode := .waking, wake := some c, boosts := 0 }) s else s

-- ------------------------------------------------------------------ store queue (19.2)

/-- Queue a commit behind those that wait. -/
def queueCommit (k : CommitKind) (pages : Nat) : State → State :=
  setStore fun w => { w with queue := w.queue ++ [{ kind := k, pages := pages }] }

/-- Queue a commit ahead of those that wait (R484). -/
def queueFirst (k : CommitKind) (pages : Nat) : State → State :=
  setStore fun w => { w with queue := { kind := k, pages := pages } :: w.queue }

/-- Page writes queued, deferred commits included (NVM_STAT.QUEUE). -/
def queuedPages (w : StoreSt) : Nat := (w.queue.map (·.pages)).sum + (w.deferred.map (·.pages)).sum

-- ------------------------------------------------------------------ Mend's books (22.1, 22.6)

/-- The number of ones of a word. -/
def popcount (w : BitVec n) : Nat := ((List.range n).filter fun i => w.getLsbD i).length

/-- Spare rows of a bank in use. -/
def bankUsed (m : MendSt) (b : Nat) : Nat := (m.rowmap.filter fun e => e.1 == b).length

/-- Spares left of a resource code; code 6 counts working slots, code 7 reads 1 or 0 (MEND_SPAREr). -/
def sparesLeft (s : State) (code : Nat) : Nat :=
  let m := s.mend
  match code with
  | 0 => 64 - m.rowmap.length
  | 1 => 2 - popcount m.lanes
  | 2 => 1 - popcount m.adc
  | 3 => 8 - s.store.retired.length
  | 4 => 1 - popcount m.lna
  | 5 => 1 - popcount m.syn
  | 6 => 48 - popcount m.keyram
  | 7 => if s.bri.entLost then 0 else 1
  | _ => 0

/-- Spares in use (MEND_LEVEL.USED). -/
def sparesUsed (s : State) : Nat :=
  let m := s.mend
  m.rowmap.length + min 2 (popcount m.lanes) + min 1 (popcount m.adc) + min 8 s.store.retired.length +
  min 1 (popcount m.lna) + min 1 (popcount m.syn)

/-- MEND_LEVEL. -/
def mendLevel (s : State) : Nat := bitAt 15 (s.mend.lost != 0) + sparesUsed s % 128

/-- Tell a repair or a loss to every tenant (R584). -/
def mendEvent (code : Nat) (degraded : Bool) (s : State) : State :=
  raiseAll evMend [BitVec.ofNat 8 code, BitVec.ofNat 8 (sparesLeft s code), if degraded then 1 else 0] s

/-- Set a bit of MEND_LOST, tell it and log it (R584). -/
def mendLoss (code bitNo : Nat) (s : State) : State :=
  let s := setMend (fun m => { m with lost := m.lost ||| BitVec.ofNat 11 (2 ^ bitNo) }) s
  logEntry evMend [BitVec.ofNat 8 code, BitVec.ofNat 8 (sparesLeft s code), 1] (mendEvent code true s)

/-- Log an authentication failure: role 0 interrogator, 1 lantern tag (R566). -/
def logAuthFail (role : Byte) (t : Tenant) : State → State := logEntry 0xF002 [role, BitVec.ofNat 8 t.val]

-- ------------------------------------------------------------------ the DRBG (16.9)

/-- 384 bits of conditioned entropy. -/
def entropy48 (s : State) : Bytes × State :=
  ((List.range 48).map fun j => Config.entropy (48 * s.free + j), { s with free := s.free + 1 })

/-- The personalisation string: the serial number, its bytes in the order of R11 (R629). -/
def serialBytes (s : State) : Bytes := leBytes 8 s.serial.toNat

/-- Instantiate the DRBG (R488). -/
def drbgStart (s : State) : State :=
  let (e, s) := entropy48 s
  let d := drbgInit e (serialBytes s)
  setBri (fun b => { b with drbgOk := true, drbgKey := d.key, drbgV := d.v, drbgCnt := 0 }) s

/-- Reseed it with fresh entropy. -/
def drbgFresh (s : State) : State :=
  let (e, s) := entropy48 s
  let d := drbgUpdate { key := s.bri.drbgKey, v := s.bri.drbgV } e
  setBri (fun b => { b with drbgKey := d.key, drbgV := d.v, drbgCnt := 0 }) s

/-- n random bytes, one generate request; none while the DRBG is not instantiated (R489). -/
def drbgTake (n : Nat) (s : State) : Option (Bytes × State) :=
  if s.bri.drbgOk then
    let (out, d) := drbgGenerate { key := s.bri.drbgKey, v := s.bri.drbgV } n
    some (out, setBri (fun b => { b with drbgKey := d.key, drbgV := d.v, drbgCnt := b.drbgCnt + 1 }) s)
  else none

/-- Give the RNGs that wait their bytes, the one asked first first (R486). -/
def serveReqs : List EngineReq → State → List EngineReq × State
  | [], s => ([], s)
  | e :: r, s =>
    match e.rng && !e.stale && e.out.isNone, drbgTake 4 s with
    | true, some (o, s) => let (l, s) := serveReqs r s; ({ e with out := some o } :: l, s)
    | _, _ => let (l, s) := serveReqs r s; (e :: l, s)

/-- The RNGs of engine class 1 that wait are served before a request of a lower class takes DRBG output (R255, R486). -/
def serveRng (s : State) : State :=
  let (l, s) := serveReqs s.bri.engine s
  setBri (fun b => { b with engine := l }) s

-- ------------------------------------------------------------------ keys (16.2 to 16.6)

/-- The tenant whose subtree a slot belongs to (R467). -/
def slotOwner (k : Fin 48) : Tenant := ⟨k.val / 12, by omega⟩

/-- A slot number, if it is one. -/
def slotNo (n : Nat) : Option (Fin 48) := if h : n < 48 then some ⟨n, h⟩ else none

/-- The device root (16.1). -/
def l0 : Bytes := List.ofFn Config.deviceRoot

/-- Tenant root n under its generation (R465). -/
def tenantRoot (t : Tenant) (s : State) : Bytes :=
  kdf l0 lblTenant (BitVec.ofNat 8 t.val :: leBytes 2 s.bri.roots[t].toNat) 256

/-- The device-internal root (R465). -/
def deviceInternal : Bytes := kdf l0 lblDevice [] 256

/-- The key that the blob of an imported slot is wrapped under (R472). -/
def blobKey (k : Fin 48) (gen : BitVec 16) (s : State) : Bytes :=
  kdf (tenantRoot (slotOwner k) s) lblBlob (BitVec.ofNat 8 k.val :: leBytes 2 gen.toNat) 128

/-- The value of a slot, its ancestors derived on the way (R466, R473); none where a record on the way cannot be read
(R638). The number bounds the depth of the tree. Log entry 40 DEDUCED. -/
def keyValue (s : State) : Nat → Fin 48 → Option Bytes
  | 0, _ => none
  | f + 1, k =>
    let sl := s.bri.slots[k]
    match sl.key with
    | none => none
    | some key =>
      if sl.bad then none
      else match key.src with
        | .blob g b => kwUnwrap (blobKey k g s) b
        | .recipe label ctx =>
          let l := if key.aes256 then 256 else 128
          match slotNo key.parent with
          | none => some (kdf (tenantRoot (slotOwner k) s) label ctx l)
          | some p => (keyValue s f p).map fun v => kdf v label ctx l

/-- Whether an occupied slot is orphaned (R479, R484). -/
def orphaned (s : State) : Nat → Fin 48 → Bool
  | 0, _ => true
  | f + 1, k =>
    match s.bri.slots[k].key with
    | none => true
    | some key =>
      match slotNo key.parent with
      | none => s.bri.dead[slotOwner k] || key.pgen != s.bri.roots[slotOwner k]
      | some p => key.pgen != s.bri.slots[p].gen || orphaned s f p

/-- Key RAM no longer holds values whose ancestors changed (R473). -/
def dropOrphans (s : State) : State :=
  setBri (fun b => { b with slots := Vector.ofFn fun k =>
    let sl := b.slots[k]
    if sl.cached && orphaned s 5 k then { sl with cached := false } else sl }) s

/-- Why a tenant's key, named by number, cannot be used by a class: the order is number and owner, root, free slot, lost
storage, class, orphan, unreadable record, use limit (R178, R462, R467, R468, R479, R637, R638).
Log entries 5 DEDUCED, 40 DEDUCED. -/
def keyRefusal (t : Tenant) (n : Nat) (ok : KeyClass → Bool) (s : State) : Option Byte :=
  match slotNo n with
  | none => some stBadArg
  | some k =>
    if slotOwner k ≠ t then some stDenied
    else if !s.bri.rootOk then some stNoRoot
    else match s.bri.slots[k].key with
      | none => some stBadArg
      | some key =>
        if s.mend.keyram.getLsbD k.val then some stDegraded
        else if !ok key.cls then some stKeyUsage
        else if orphaned s 5 k then some stKeyOrphan
        else if (keyValue s 5 k).isNone then some stNvmFail
        else none

/-- A slot's use limit leaves no room for n more uses, or its reservation has not landed (R474, R528). -/
def noUseLeft (k : Fin 48) (n : Nat) (s : State) : Bool :=
  let sl := s.bri.slots[k]
  match sl.key with
  | none => true
  | some key =>
    (key.life != 0 && decide (key.life < sl.useRes.now + n)) ||
    (!key.expire && decide (sl.useRes.now < 0xFFFFFF) && decide (sl.useRes.limit < sl.useRes.now + n))

/-- Charge n uses, if there is room: the next reservation is queued when half its block is spent (R195, R474, R475,
R527). Log entry 41 DEDUCED. -/
def chargeKey (k : Fin 48) (n : Nat) (s : State) : Option State :=
  if noUseLeft k n s then none
  else
    let sl := s.bri.slots[k]
    let v := min 0xFFFFFF (sl.useRes.now + n)
    let expire := match sl.key with | some key => key.expire | none => true
    let due := !expire && !sl.useRes.queued && decide (sl.useRes.limit ≤ v + 128) && decide (v < 0xFFFFFF)
    let s := modSlot k (fun sl => { sl with useRes := { sl.useRes with now := v, queued := sl.useRes.queued || due } }) s
    some (if due then queueCommit (.useRes k v) 1 s else s)

/-- The value is in key RAM from its use on (R473). -/
def cacheKey (k : Fin 48) : State → State := modSlot k fun sl => { sl with cached := true }

/-- Use a key by number for one use: its value and the state with the use charged, or the status that refuses it. -/
def useKey (t : Tenant) (n : Nat) (ok : KeyClass → Bool) (s : State) : Except Byte (Bytes × State) :=
  match keyRefusal t n ok s with
  | some st => .error st
  | none =>
    match slotNo n with
    | none => .error stBadArg
    | some k =>
      match keyValue s 5 k, chargeKey k 1 s with
      | some v, some s' => .ok (v, cacheKey k s')
      | none, _ => .error stNvmFail
      | _, none => .error stKeyExhausted

/-- The per-tag key of a function key (Table 12-3). -/
def tagKey (fk tid : Bytes) : Bytes := kdf fk lblTag tid 128

-- ------------------------------------------------------------------ ends of accesses and sessions

/-- An open interrogator session ends: its air is released and EV_SESSION carries the reason (R349, R357). -/
def closeSession (t : Tenant) (reason : Nat) (s : State) : State :=
  let s := dropWaiters (.session t) s
  sessionGone t reason (if holds (.session t) .reader s then releaseAir .reader s else s)

/-- The lantern tag's session ends: EV_TAG_SESSION to the owner (R379). -/
def closeTagSession (reason : Nat) (s : State) : State :=
  if s.tag.session then
    let s := setTag (fun g => { g with
      session := false, ctx := none, fz2Handle := none, request := [], part := [], pubNext := []
      area := g.pubNext.foldl (fun a p => memPutAll a p.1 p.2) g.area }) s
    raise s.tag.owner evTagSession ([0, BitVec.ofNat 8 reason] ++ leBytes 4 s.tag.msgs) s
  else s

/-- A running access or exchange ends: its closing event (R303, R363), then the built-in program stops and its air goes
back. Log entry 28 DEDUCED. -/
def endAcc (t : Tenant) (status : Byte) (tagErr : Byte) (reason : Nat) (s : State) : State :=
  match s.rdr.acc[t] with
  | none => s
  | some a =>
    let s := endProgram t status (setAcc t none s)
    match a.kind with
    | .access op _ _ _ _ _ =>
      raise t evAccess (leBytes 2 a.tseq.toNat ++ [status, tagErr, BitVec.ofNat 8 a.done.length] ++
        (if op = 0 then (a.done.map fun w => leBytes 2 w.toNat).flatten else [])) s
    | .tam1 .. =>
      raise t evAuth (leBytes 2 a.tseq.toNat ++ [status, BitVec.ofNat 8 (a.epc.length / 2)] ++ a.epc)
        (modSess t (fun q => { q with ctx := none, challenge := [] }) s)
    | .farz _ =>
      evSessionClosed t a.tseq s.sess[t].sid reason (modSess t (fun q => { q with ctx := none, challenge := [] }) s)

end Sys2Proof.Machine
end

