-- ==== Sys2Proof/Machine/Bridle.lean ====
section
/-!
DEFINITION. Bridle (chapter 16): the KEY, RNG and CRYPTO commands, TAMPER, the DRBG's reseeds, and block replies by epoch.
-/
namespace Sys2Proof.Machine

/-- Reserved bits of a USAGE byte (6.10). -/
def usageBad (u : Nat) : Bool := u &&& 0xEC != 0
/-- The class of a USAGE byte. -/
def usageClass (u : Nat) : KeyClass :=
  match u % 4 with
  | 0 => .enc
  | 1 => .dec
  | 2 => .wrap
  | _ => .derive_

/-- The code of a class (Table 16-3). -/
def classCode : KeyClass → Nat
  | .enc => 0
  | .dec => 1
  | .wrap => 2
  | .derive_ => 3

def isEnc : KeyClass → Bool := fun c => c == .enc
def isDec : KeyClass → Bool := fun c => c == .dec
def isWrap : KeyClass → Bool := fun c => c == .wrap
def isDerive : KeyClass → Bool := fun c => c == .derive_

/-- Why a slot cannot take a new key: it must be a free slot of the caller's subtree, and not retired (R467, R480). -/
def targetRefusal (t : Tenant) (n : Nat) (s : State) : Option Byte :=
  match slotNo n with
  | none => some stBadArg
  | some k =>
    if slotOwner k ≠ t then some stDenied
    else if s.bri.slots[k].key.isSome || s.bri.slots[k].gen == 0xFFFF then some stBadArg
    else none

/-- Why the caller's tenant root cannot be a parent (R462, R484). -/
def rootRefusal (t : Tenant) (s : State) : Option Byte :=
  if !s.bri.rootOk then some stNoRoot else if s.bri.dead[t] then some stKeyOrphan else none

/-- Why a slot cannot be a parent of the class: as every use, and below L4 (R469, R470). -/
def parentRefusal (t : Tenant) (n : Nat) (ok : KeyClass → Bool) (s : State) : Option Byte :=
  let deep := match slotNo n with
    | some k => slotOwner k == t && (match s.bri.slots[k].key with | some key => key.level == 4 | none => false)
    | none => false
  match keyRefusal t n ok s with
  | some st => some (if deep && st != stNoRoot && st != stDenied then stBadArg else st)
  | none => if deep then some stBadArg else none

/-- Put a new key into a slot: it takes the slot's last GEN, and its record is queued unless it expires (R472, R480). -/
def placeKey (k : Fin 48) (key : Key) (s : State) : State :=
  let s := modSlot k (fun sl => { sl with key := some key, unsaved := !key.expire, cached := false, usesLatch := 0,
                                          useRes := .reset 256, bad := false, stored := none }) s
  if key.expire then s else queueCommit (.keyRec k) 1 s

/-- KEY.DERIVE (R466, R469): a slot one level below its parent, its value computed at first use.
Log entry 40 DEDUCED. -/
def execKeyDerive (c : Cmd) (s : State) : Host.Outcome State Fault Refusal :=
  .next (keelRun 0x4000 c (fun s =>
    let a := c.args
    let t := c.t
    let usage := fld a 2 1
    let ll := fld a 7 1
    let cl := fld a (8 + ll) 1
    if a.length < 9 ∨ 16 < ll ∨ 32 < cl ∨ a.length ≠ 9 + ll + cl ∨ usageBad usage ∨ 1 < fld a 6 1 then
      refuse t stBadArg s
    else match slotNo (fld a 0 1), targetRefusal t (fld a 0 1) s with
      | _, some st => refuse t st s
      | none, none => refuse t stBadArg s
      | some k, none =>
        let key : Key :=
          { cls := usageClass usage, aes256 := decide (16 ≤ usage), expire := fld a 6 1 == 1, imported := false,
            clear := false, level := 2, parent := 48, pgen := s.bri.roots[t], life := fld a 3 3, uses := 0,
            src := .recipe ((a.drop 8).take ll) ((a.drop (9 + ll)).take cl) }
        if fld a 1 1 = 0xFE then
          match rootRefusal t s with
          | some st => refuse t st s
          | none =>
            let s := setBri (fun b => { b with rootUses := vmod b.rootUses t (satInc 0xFFFFFF) }) s
            reply t stOk (leBytes 2 s.bri.slots[k].gen.toNat) (placeKey k key s)
        else match parentRefusal t (fld a 1 1) isDerive s, slotNo (fld a 1 1) with
          | some st, _ => refuse t st s
          | none, none => refuse t stBadArg s
          | none, some p =>
            match chargeKey p 1 s with
            | none => refuse t stKeyExhausted s
            | some s =>
              let lv := match s.bri.slots[p].key with | some q => q.level | none => 2
              reply t stOk (leBytes 2 s.bri.slots[k].gen.toNat)
                (placeKey k { key with level := lv + 1, parent := p.val, pgen := s.bri.slots[p].gen } s)) s)

/-- KEY.UNWRAP (R8, R470 to R472): AES-KW under WKEY, or under sixteen zero bytes for 0xFF; WKEY is charged whether or not the
integrity check passes; the slot holds the key wrapped anew. -/
def execKeyUnwrap (c : Cmd) (s : State) : Host.Outcome State Fault Refusal :=
  .next (keelRun 0x4001 c (fun s =>
    let a := c.args
    let t := c.t
    let usage := fld a 2 1
    let bl := fld a 7 1
    if a.length < 8 ∨ a.length ≠ 8 + bl ∨ usageBad usage ∨ 1 < fld a 6 1 ∨ bl ≠ (if 16 ≤ usage then 40 else 24) then
      refuse t stBadArg s
    else match slotNo (fld a 0 1), targetRefusal t (fld a 0 1) s with
      | _, some st => refuse t st s
      | none, none => refuse t stBadArg s
      | some k, none =>
        let blob := a.drop 8
        let key : Key :=
          { cls := usageClass usage, aes256 := decide (16 ≤ usage), expire := fld a 6 1 == 1, imported := true,
            clear := true, level := 2, parent := 48, pgen := s.bri.roots[t], life := fld a 3 3, uses := 0,
            src := .blob 0 [] }
        let land_ := fun (wk : Bytes) (key : Key) (s : State) =>
          match kwUnwrap wk blob with
          | none => refuse t stAuthFail s
          | some v => reply t stOk (leBytes 2 s.bri.slots[k].gen.toNat) (placeKey k { key with src := .blob s.bri.slots[k].gen (kwWrap (blobKey k s.bri.slots[k].gen s) v) } s)
        if fld a 1 1 = 0xFF then
          match rootRefusal t s with
          | some st => refuse t st s
          | none => land_ (List.replicate 16 0) key s
        else match parentRefusal t (fld a 1 1) isWrap s, slotNo (fld a 1 1) with
          | some st, _ => refuse t st s
          | none, none => refuse t stBadArg s
          | none, some p =>
            match keyValue s 5 p, chargeKey p 1 s with
            | some wk, some s =>
              let lv := match s.bri.slots[p].key with | some q => q.level | none => 2
              land_ wk { key with clear := false, level := lv + 1, parent := p.val, pgen := s.bri.slots[p].gen }
                (cacheKey p s)
            | none, _ => refuse t stNvmFail s
            | _, none => refuse t stKeyExhausted s) s)

/-- KEY.ERASE (R475, R477): a free slot is left as it is; otherwise the command completes when the commit of the new GEN
lands. -/
def execKeyErase (c : Cmd) (s : State) : Host.Outcome State Fault Refusal :=
  .next (keelRun 0x4002 c (fun s =>
    let t := c.t
    if c.args.length ≠ 1 then refuse t stBadArg s
    else match slotNo (fld c.args 0 1) with
      | none => refuse t stBadArg s
      | some k =>
        if slotOwner k ≠ t then refuse t stDenied s
        else if s.bri.slots[k].key.isNone then reply t stOk [] s
        else match s.tens[t].exec with
          | none => s
          | some job => queueCommit (.keyErase t job k) 1 s) s)

/-- KEY.INVALIDATE (R478, R480): completes when the commit of the new GEN lands. -/
def execKeyInvalidate (c : Cmd) (s : State) : Host.Outcome State Fault Refusal :=
  .next (keelRun 0x4003 c (fun s =>
    let t := c.t
    let n := fld c.args 0 1
    if c.args.length ≠ 1 then refuse t stBadArg s
    else match s.tens[t].exec with
      | none => s
      | some job =>
        if n = 0xFE then
          if s.bri.roots[t] = 0xFFFF then refuse t stBadArg s else queueCommit (.rootInval t job) 1 s
        else match slotNo n with
          | none => refuse t stBadArg s
          | some k =>
            if slotOwner k ≠ t then refuse t stDenied s
            else if s.bri.slots[k].gen = 0xFFFF then refuse t stBadArg s
            else queueCommit (.keyInval t job k) 1 s) s)

/-- KSLOTk_ATTR (16.11): an orphan reads STATE 2, and so does a retired slot's orphan. -/
def attrWord (s : State) (k : Fin 48) : Nat :=
  let sl := s.bri.slots[k]
  match sl.key with
  | none => if sl.gen = 0xFFFF then 3 * 2 ^ 14 else 0
  | some key =>
    (if orphaned s 5 k then 2 else if sl.gen = 0xFFFF then 3 else 1) * 2 ^ 14 + classCode key.cls * 2 ^ 12 +
    bitAt 11 key.aes256 + bitAt 10 key.expire + bitAt 9 key.imported + bitAt 8 key.clear + bitAt 7 sl.unsaved +
    bitAt 6 sl.cached + key.level * 8

/-- The PARENT byte of a slot. -/
def parentByte (sl : Slot) : Nat :=
  match sl.key with
  | none => 0xFF
  | some key => if key.parent < 48 then key.parent else 0xFE

/-- USES of a slot. -/
def slotUses (sl : Slot) : Nat := if sl.key.isSome then sl.useRes.now else 0
/-- PGEN of a slot. -/
def slotPgen (sl : Slot) : Nat := match sl.key with | some key => key.pgen.toNat | none => 0

/-- KEY.INFO (6.10, 16.11): a slot's attributes, or the caller's tenant root for 0xFE. -/
def execKeyInfo (c : Cmd) (s : State) : Host.Outcome State Fault Refusal :=
  .next (keelRun 0x4004 c (fun s =>
    let t := c.t
    let n := fld c.args 0 1
    if c.args.length ≠ 1 then refuse t stBadArg s
    else if n = 0xFE then
      let st := if s.bri.dead[t] then 2 else if s.bri.roots[t] = 0xFFFF then 3 else 1
      reply t stOk (leBytes 2 (st * 2 ^ 14 + 3 * 2 ^ 12 + 2 ^ 11 + 8) ++ [0xFF, 0, 0] ++
        leBytes 2 s.bri.roots[t].toNat ++ leBytes 3 s.bri.rootUses[t]) s
    else match slotNo n with
      | none => refuse t stBadArg s
      | some k =>
        if slotOwner k ≠ t then refuse t stDenied s
        else
          let sl := s.bri.slots[k]
          reply t stOk (leBytes 2 (attrWord s k) ++ [BitVec.ofNat 8 (parentByte sl)] ++ leBytes 2 (slotPgen sl) ++
            leBytes 2 sl.gen.toNat ++ leBytes 3 (slotUses sl)) s) s)

/-- A Spool context that waits on a key value completes with a status (R252, R487). -/
def failEngineWait (t : Tenant) (status : Byte) (s : State) : State :=
  let k := s.ctxs[t]
  match k.run, k.pend with
  | .waiting, some p =>
    match p.op with
    | .ksel => endWait t s.reel.cnt (fun k => wr p.d (status.setWidth 32) { k with c := true, ksel := none }) s
    | .aesb => endWait t s.reel.cnt (fun k => wr p.d (status.setWidth 32) { k with c := true }) s
    | _ => s
  | _, _ => s

/-- What an assertion of TAMPER does (R484): tenant roots advance or are destroyed, their commit goes ahead of the queue,
values and session contexts are gone, sessions close with REASON 0, and every tenant hears of it. -/
def tamperApply (s : State) : State :=
  let s := setBri (fun b => { b with
    dead := Vector.ofFn fun t => b.dead[t] || b.roots[t] == 0xFFFF
    roots := b.roots.map fun g => if g = 0xFFFF then g else g + 1
    slots := b.slots.map fun sl => { sl with cached := false }
    seen := true
    latched := false }) s
  let s := queueFirst .tamperGens 4 s
  let s := forTenants (fun t s => failEngineWait t stKeyOrphan s) s
  let s := forTenants (fun t s => match s.rdr.acc[t] with
    | some a => (match a.kind with | .access .. => s | _ => endAcc t stKeyOrphan 0 0 s)
    | none => s) s
  let s := forTenants (fun t s => closeSession t 0 s) s
  let s := closeTagSession 0 s
  let s := setTag (fun g => { g with ctx := none, fz2Handle := none }) s
  logEntry evTamper [] (raiseAll evTamper [] s)

/-- KEY.TAMPER (R194, R483): arm; a TAMPER that is high as the arming takes effect is one assertion. -/
def execKeyTamper (c : Cmd) (pinHigh : Bool) (s : State) : Host.Outcome State Fault Refusal :=
  .next (keelRun 0x4010 c (fun s =>
    let t := c.t
    if c.args.length ≠ 1 then refuse t stBadArg s
    else if !isT0 c then refuse t stDenied s
    else if fld c.args 0 1 ≠ 1 then refuse t stBadArg s
    else if s.bri.armed then reply t stOk [] s
    else
      let s := reply t stOk [] (setBri (fun b => { b with armed := true }) s)
      if pinHigh && !s.power.vioLost then tamperApply s else s) s)

/-- TAMPER_ASSERTION (R9, R483 to R485, R89): in STANDBY, ACTIVE and LIMP it is applied; in SLEEP it wakes the part and is
latched; in WAKING, HOLD and LOCKOUT, during the drill of PWRFAIL and during a start it is latched. An unarmed TAMPER is ignored, and so
is TAMPER while VIO is lost (R37). Log entry 40 DEDUCED. -/
def execTamperAssertion (now : Tick) (s : State) : Host.Outcome State Fault Refusal :=
  let s := advanceTo now s
  if !s.bri.armed || s.power.vioLost then .next s
  else match s.power.mode with
    | .run | .limp => .next (tamperApply s)
    | .sleep =>
      .next (startWake .tamper (setBri (fun b => { b with latched := true }) s))
    | .waking | .hold | .lockout | .drill | .start => .next (setBri (fun b => { b with latched := true }) s)
    | _ => .next s

/-- RNG.GET (R488, R489): an RNG of a context that waits comes first (R486). -/
def execRngGet (c : Cmd) (s : State) : Host.Outcome State Fault Refusal :=
  .next (keelRun 0x4800 c (fun s =>
    let t := c.t
    let n := fld c.args 0 2
    if c.args.length ≠ 2 ∨ n < 1 ∨ 512 < n then refuse t stBadArg s
    else match drbgTake n (serveRng s) with
      | none => refuse t stDegraded s
      | some (out, s) => reply t stOk out s) s)

/-- CRYPTO.AES (6.11, R634): ECB, CBC or CTR under a key of the direction's class. -/
def execCryptoAes (c : Cmd) (s : State) : Host.Outcome State Fault Refusal :=
  .next (keelRun 0x4801 c (fun s =>
    let a := c.args
    let t := c.t
    let mode := fld a 0 1
    let dec := decide (128 ≤ mode)
    let iv := (a.drop 2).take 16
    let len := fld a 18 2
    let data := a.drop 20
    if a.length < 20 ∨ a.length ≠ 20 + len ∨ len < 1 ∨ 512 < len ∨ mode % 128 > 2 ∨
       (mode % 128 < 2 ∧ len % 16 ≠ 0) then refuse t stBadArg s
    else match useKey t (fld a 1 1) (if dec then isDec else isEnc) s with
      | .error st => refuse t st s
      | .ok (key, s) =>
        reply t stOk (match mode % 128 with
          | 0 => ecb dec key data
          | 1 => if dec then cbcDec key iv data else cbcEnc key iv data
          | _ => ctrMode key iv data) s) s)

/-- CRYPTO.CCM (6.11, R634): nothing is returned when verification fails. Log entry 40 DEDUCED. -/
def execCryptoCcm (c : Cmd) (s : State) : Host.Outcome State Fault Refusal :=
  .next (keelRun 0x4802 c (fun s =>
    let a := c.args
    let t := c.t
    let dir := fld a 0 1
    let nl := fld a 2 1
    let nonce := (a.drop 3).take nl
    let tl := fld a (3 + nl) 1
    let al := fld a (4 + nl) 2
    let aad := (a.drop (6 + nl)).take al
    let pl := fld a (6 + nl + al) 2
    let data := a.drop (8 + nl + al)
    if a.length < 8 + nl + al ∨ a.length ≠ 8 + nl + al + pl ∨ 1 < dir ∨ nl < 7 ∨ 13 < nl ∨
       !(tl == 4 || tl == 8 || tl == 16) ∨ (dir = 1 ∧ pl < tl) then refuse t stBadArg s
    else match useKey t (fld a 1 1) (if dir = 1 then isDec else isEnc) s with
      | .error st => refuse t st s
      | .ok (key, s) =>
        if dir = 0 then reply t stOk (ccmEnc key nonce aad data tl) s
        else match ccmDec key nonce aad data tl with
          | some p => reply t stOk p s
          | none => refuse t stAuthFail s) s)

/-- CRYPTO.CMAC (6.11): DIR 0 generates a tag of TLEN bytes, DIR 1 verifies one. -/
def execCryptoCmac (c : Cmd) (s : State) : Host.Outcome State Fault Refusal :=
  .next (keelRun 0x4803 c (fun s =>
    let a := c.args
    let t := c.t
    let dir := fld a 0 1
    let tl := fld a 2 1
    let len := fld a 3 2
    let data := (a.drop 5).take len
    if a.length < 5 ∨ 1 < dir ∨ tl < 4 ∨ 16 < tl ∨ 960 < len ∨ a.length ≠ 5 + len + (if dir = 1 then tl else 0) then
      refuse t stBadArg s
    else match useKey t (fld a 1 1) (if dir = 1 then isDec else isEnc) s with
      | .error st => refuse t st s
      | .ok (key, s) =>
        let tag := (cmac key data).take tl
        if dir = 0 then reply t stOk tag s
        else if tag = a.drop (5 + len) then reply t stOk [] s
        else refuse t stAuthFail s) s)

/-- Another tenant's open session, or a session of another tenant's lantern tag, keeps the crypto block busy (R487,
R589). -/
def cryptoBusy (t : Tenant) (s : State) : Bool :=
  tenants.any (fun u => u != t && s.sess[u].opened) || (s.tag.session && s.tag.owner != t)

/-- CRYPTO.RESET (R487): the caller's waiting engine requests end with ST_ABORTED_RESET, its session closes, the DRBG
starts anew and the epoch advances; the caller's requests in flight become stale. -/
def execCryptoReset (c : Cmd) (s : State) : Host.Outcome State Fault Refusal :=
  .next (keelRun 0x48F0 c (fun s =>
    let t := c.t
    if c.args.length ≠ 0 then refuse t stBadArg s
    else if cryptoBusy t s then refuse t stBusy s
    else
      let s := setBri (fun b => { b with
        drbgOk := false
        engine := b.engine.map fun e => if e.who = t then { e with stale := true } else e }) s
      let s := failEngineWait t stAbortedReset s
      let s := match s.ctxs[t].run, s.ctxs[t].pend with
        | .waiting, some p =>
          if p.op = .rng then endWait t s.reel.cnt (fun k => wr p.d 0 { k with c := true }) s else s
        | _, _ => s
      let s := setEpoch (fun e => { e with cry := e.cry + 1 }) s
      closeSession t 0 (reply t stOk [] s)) s)

/-- A failed attempt of the entropy source: the third in a row loses it (R489). -/
def entropyFail (s : State) : State :=
  let s := setBri (fun b => { b with entFail := satInc 255 b.entFail, entRun := b.entRun + 1, entPass := 0 }) s
  if s.bri.entRun = 3 ∧ !s.bri.entLost then
    mendLoss 7 9 (setBri (fun b => { b with entLost := true, drbgOk := false }) s)
  else s

/-- DRBG_RESEED (R488, R489): a reseed, or the instantiation after a start or CRYPTO.RESET, with the verdict of the health
tests. -/
def execDrbgReseed (passed : Bool) (s : State) : Host.Outcome State Fault Refusal :=
  if s.bri.entLost then .next s
  else if passed then
    let s := setBri (fun b => { b with entRun := 0 }) s
    .next (if s.bri.drbgOk then drbgFresh s else drbgStart s)
  else .next (entropyFail s)

/-- ENTROPY_RETRY (R489): the lost source is tried every second; three passing reseeds in a row restore it.
Log entry 40 DEDUCED. -/
def execEntropyRetry (passed : Bool) (s : State) : Host.Outcome State Fault Refusal :=
  if !s.bri.entLost then .next s
  else if passed then
    if s.bri.entPass + 1 < 3 then .next (setBri (fun b => { b with entPass := b.entPass + 1 }) s)
    else
      let s := setBri (fun b => { b with entLost := false, entPass := 0, entRun := 0 }) s
      .next (drbgStart (setMend (fun m => { m with lost := m.lost &&& ~~~0x200 }) s))
  else .next (setBri (fun b => { b with entFail := satInc 255 b.entFail, entPass := 0 }) s)

/-- Drop the first entry that passes the test. -/
def dropFirst {α : Type} (p : α → Bool) : List α → List α
  | [] => []
  | x :: r => if p x then r else x :: dropFirst p r

/-- BLOCK_REPLY (R587): a reply whose epoch is not its block's is discarded and counted; blocks are 0 RDR, 1 LNK, 2 CRYPTO,
3 the slot of context x. A CRYPTO reply is stale only if its own tenant reset the block. -/
def execBlockReply (block : Fin 4) (x : Tenant) (epoch : BitVec 16) (s : State) : Host.Outcome State Fault Refusal :=
  let count := countStale
  match block with
  | 0 => .next (if epoch = s.epoch.rdr then s else count s)
  | 1 => .next (if epoch = s.epoch.lnk then s else count s)
  | 2 =>
    match s.bri.engine.find? (fun e => e.who == x && e.epoch == epoch) with
    | none => .next s
    | some e =>
      let s := setBri (fun b => { b with engine := dropFirst (fun f => f == e) b.engine }) s
      .next (if e.stale then count s else s)
  | 3 => .next (if epoch = s.ctxs[x].epoch then s else count s)

end Sys2Proof.Machine
end

