-- ==== Sys2Proof/Machine/Cvu.lean ====
section
/-!
DEFINITION. The check-value units (chapter 18): the computation of R509, append, check and strip, the CVU commands and the
Spool instruction CRC.
-/
namespace Sys2Proof.Machine

/-- The low n bits of a number, last first. -/
def revBits : Nat → Nat → Nat
  | 0, _ => 0
  | n + 1, v => (v % 2) * 2 ^ n + revBits n (v / 2)

/-- One bit of the pseudocode of 18.2. Log entry 65 DEDUCED. -/
def cvuBit (width poly reg : Nat) (b : Bool) : Nat :=
  let fb := (2 ^ (width - 1) ≤ reg % 2 ^ width) != b
  let r := reg * 2 % 2 ^ width
  if fb then r ^^^ poly else r

/-- One byte: its bits from the most significant down. Log entry 65 DEDUCED. -/
def cvuByte (width poly reg : Nat) (b : Nat) : Nat :=
  [7, 6, 5, 4, 3, 2, 1, 0].foldl (fun r i => cvuBit width poly r (b.testBit i)) reg

/-- The check value of bytes under one parameter set (R509). Log entry 65 DEDUCED. -/
def checkValue (p : CvuPar) (d : Bytes) : Nat :=
  let reg := d.foldl (fun r b =>
    cvuByte p.width p.poly.toNat r (if p.reflIn then revBits 8 b.toNat else b.toNat)) p.init.toNat
  (if p.reflOut then revBits p.width reg else reg) ^^^ p.xorout.toNat

/-- The presets of Table 18-3. Log entry 65 DEDUCED. -/
def cvuPreset (n : Nat) : CvuPar :=
  match n with
  | 1 => { preset := 1, width := 5, poly := 9, init := 9, xorout := 0, reflIn := false, reflOut := false }
  | 3 => { preset := 3, width := 16, poly := 0x1021, init := 0, xorout := 0, reflIn := true, reflOut := true }
  | 4 =>
    { preset := 4, width := 32, poly := 0x04C11DB7, init := 0xFFFFFFFF, xorout := 0xFFFFFFFF, reflIn := true,
      reflOut := true }
  | _ => CvuPar.reset

/-- The Host Link Frame CRC (R112, 18.2): width 16, poly 0x1021, init 0xFFFF, nothing reflected, no final XOR. -/
def hlfCrc (d : Bytes) : Nat :=
  checkValue { preset := 0, width := 16, poly := 0x1021, init := 0xFFFF, xorout := 0, reflIn := false, reflOut := false } d

/-- Bytes that an appended value takes (R512). -/
def cvuBytes (p : CvuPar) : Nat := (p.width + 7) / 8

/-- A value as it is appended (R512). -/
def appendedValue (p : CvuPar) (v : Nat) : Bytes :=
  let n := cvuBytes p
  if p.reflOut then leBytes n v else beBytes n (v * 2 ^ (8 * n - p.width))

/-- Check and strip (R513): whether the trailing value is good, and the bytes before it. -/
def stripCheck (p : CvuPar) (d : Bytes) : Bool × Bytes :=
  let body := d.take (d.length - cvuBytes p)
  (decide (d.drop (d.length - cvuBytes p) = appendedValue p (checkValue p body)), body)

/-- CVU.SET (R510): a failed one leaves the context unchanged. -/
def execCvuSet (c : Cmd) (s : State) : Host.Outcome State Fault Refusal :=
  .next (keelRun 0x6000 c (fun s =>
    let a := c.args
    let t := c.t
    let pre := fld a 0 1
    let w := fld a 1 1
    let poly := fld a 2 4
    let init := fld a 6 4
    let xo := fld a 10 4
    let refl := fld a 14 1
    if a.length ≠ 15 ∨ 4 < pre then refuse t stBadArg s
    else if pre = 0 then
      if w < 1 ∨ 32 < w ∨ poly = 0 ∨ 2 ^ w ≤ poly ∨ 2 ^ w ≤ init ∨ 2 ^ w ≤ xo ∨ 3 < refl then refuse t stBadArg s
      else
        let p : CvuPar := { preset := 0, width := w, poly := BitVec.ofNat 32 poly, init := BitVec.ofNat 32 init,
                            xorout := BitVec.ofNat 32 xo, reflIn := refl % 2 == 1, reflOut := decide (2 ≤ refl) }
        reply t stOk [] { s with cvu := s.cvu.set t.val p t.isLt }
    else if w ≠ 0 ∨ poly ≠ 0 ∨ init ≠ 0 ∨ xo ≠ 0 ∨ refl ≠ 0 then refuse t stBadArg s
    else reply t stOk [] { s with cvu := s.cvu.set t.val (cvuPreset pre) t.isLt }) s)

/-- CVU.RUN (Table 6-16, R514). -/
def execCvuRun (c : Cmd) (s : State) : Host.Outcome State Fault Refusal :=
  .next (keelRun 0x6001 c (fun s =>
    let a := c.args
    let t := c.t
    let p := s.cvu[t]
    let mode := fld a 0 1
    let len := fld a 1 2
    let d := a.drop 3
    if a.length < 3 ∨ 1000 < len ∨ a.length ≠ 3 + len ∨ 2 < mode then refuse t stBadArg s
    else if mode = 0 then reply t stOk (leBytes 4 (checkValue p d)) s
    else if mode = 1 then reply t stOk (d ++ appendedValue p (checkValue p d)) s
    else if len < cvuBytes p then refuse t stBadArg s
    else
      let r := stripCheck p d
      reply t stOk ((if r.1 then 1 else 0) :: r.2) s) s)

/-- A buffer handle that a context holds (R251). -/
def heldBuf (k : Ctx) (v : Reg32) : Option (Fin 32) :=
  if h : v.toNat < 32 then (let i : Fin 32 := ⟨v.toNat, h⟩; if k.held.contains i then some i else none) else none

/-- The bytes of a buffer from 0 up to n. -/
def bufBytes (b : Buf) (n : Nat) : Bytes := memGetAll b.bytes 0 n

/-- CRC (R254, R515): a check value over the first B bytes of a held buffer, in one cycle and one for every 4 bytes. -/
def execSpCrc (x : Tenant) (d a b : Fin 16) (preset : Fin 5) (mode : Fin 3) (s : State) :
    Host.Outcome State Fault Refusal :=
  .next (issue x (wordA 0x3A d a b (BitVec.ofNat 14 (preset.val + 8 * mode.val))) (fun s =>
    let k := s.ctxs[x]
    let n := (rd k b).toNat
    let p := cvuPreset preset.val
    let cyc := 1 + (n + 3) / 4
    let out := fun (v : Nat) (bad : Bool) (s : State) =>
      retire x cyc (modCtx x (fun k => wr d (BitVec.ofNat 32 v) { k with c := bad }) s)
    if preset = 0 then spoolFault x 1 s
    else match heldBuf k (rd k a) with
      | none => spoolFault x 5 s
      | some h =>
        if 256 < n then spoolFault x 5 s
        else
          let data := bufBytes s.bufs[h] n
          match mode with
          | 0 => out (checkValue p data) false s
          | 1 =>
            let v := appendedValue p (checkValue p data)
            if 256 < n + v.length then spoolFault x 5 s
            else out (n + v.length) false
              (modBuf h (fun q => { q with bytes := memPutAll q.bytes n v, len := n + v.length, mark := .plain }) s)
          | 2 =>
            if n < cvuBytes p then out 0 true s
            else
              let r := stripCheck p data
              out (if r.1 then 1 else 0) (!r.1) (modBuf h (fun q => { q with len := n - cvuBytes p }) s)) s)

end Sys2Proof.Machine
end

