-- ==== Sys2Proof/Machine/Frames.lean ====
section
/-!
DEFINITION. Link frames (13.2, 13.3, 14.1, 14.2): spreading codes, PHY bits and durations, MAC frames built and parsed, and
their CCM* protection. PRESUMED: S-mode field places are those of IEEE 802.15.4-2006, which the spec names.
-/
namespace Sys2Proof.Machine

/-- Code seeds (Table 13-3), by SF code 0 to 4. -/
def codeSeed (sf : Nat) : Nat :=
  match sf with
  | 0 => 0x5B
  | 1 => 0x3A
  | 2 => 0x61
  | 3 => 0x2D
  | _ => 0x4F

/-- n more chips of the recurrence a(n + 7) = a(n + 6) xor a(n), from the last seven, oldest first (R385). -/
def codeRun : Nat → List Bool → List Bool
  | 0, _ => []
  | n + 1, w => w.headD false :: codeRun n (w.drop 1 ++ [w.getD 6 false != w.headD false])

/-- C_SF (R385). -/
def spreadCode (sf : Nat) : List Bool :=
  codeRun (sfChips sf) ((List.range 7).map fun i => (codeSeed sf).testBit i)

/-- A bit as chips: the code for 1, its complement for 0 (R383). -/
def spreadBit (sf : Nat) (b : Bool) : List Bool := (spreadCode sf).map fun c => c == b

/-- Bits of a number, bit 0 first. -/
def bitsLow (n v : Nat) : List Bool := (List.range n).map v.testBit

/-- HCS (R386): CRC-8 of LEN, polynomial 0x07. -/
def hcsOf (len : Nat) : Nat := cvuByte 8 7 0 len

/-- The bits of a T-mode frame on air (Table 13-4). -/
def phyBitsT (psdu : Bytes) : List Bool :=
  List.replicate 32 true ++ bitsLow 16 0x7A16 ++ bitsLow 8 psdu.length ++ bitsLow 8 (hcsOf psdu.length) ++
  (psdu.map fun b => bitsLow 8 b.toNat).flatten

/-- The chips of a T-mode frame (R383). -/
def phyChipsT (sf : Nat) (psdu : Bytes) : List Bool := ((phyBitsT psdu).map (spreadBit sf)).flatten

/-- The chips of S-mode's data symbol 0 (R382; PRESUMED IEEE 802.15.4, log entry 15). -/
def symbolZero : List Bool := ((List.range 32).map (0x744AC39B).testBit)

/-- The chips of a 4-bit symbol: symbols 1 to 7 shift those of 0 by four chips each, 8 to 15 invert the odd ones (log entry 15 PRESUMED). -/
def symbolChips (n : Nat) : List Bool :=
  let k := (32 - 4 * (n % 8)) % 32
  let c := symbolZero.drop k ++ symbolZero.take k
  if n < 8 then c else c.mapIdx fun i b => b != (i % 2 == 1)

/-- The chips of an S-mode frame (Table 13-4, R382): each byte's low symbol first; bit 7 of the PHR is sent as 0 (R387). -/
def phyChipsS (psdu : Bytes) : List Bool :=
  (([0, 0, 0, 0, 0xA7, BitVec.ofNat 8 (psdu.length % 128)] ++ psdu).map fun (b : Byte) =>
    symbolChips (b.toNat % 16) ++ symbolChips (b.toNat / 16)).flatten

/-- One chip as O-QPSK sends it: a half-sine pulse of two chip periods that starts `start` chip periods after the first chip's, on Q or
on I, positive for a 1 (R384). -/
structure Pulse where
  q        : Bool
  start    : Nat
  positive : Bool
  deriving DecidableEq, Repr

/-- Chips as O-QPSK pulses: even-numbered ones on I, odd-numbered ones on Q, one chip period later, numbered on from the first preamble
chip (R384). -/
def chipPulses (chips : List Bool) : List Pulse := chips.mapIdx fun i c => { q := i % 2 == 1, start := i, positive := c }

/-- The chips of a frame on a lane. -/
def phyChips (lane : Fin 6) (psdu : Bytes) : List Bool := if lane = 5 then phyChipsS psdu else phyChipsT lane.val psdu

/-- LQI of an EVM in 0.1 % units (R401). -/
def lqiOf (evm : Nat) : Nat := 255 - min 1000 evm / 2

/-- The PSDU with its FCS appended (preset 3). -/
def withFcs (b : Bytes) : Bytes := b ++ appendedValue (cvuPreset 3) (checkValue (cvuPreset 3) b)

/-- A MAC frame's fields; `hdr` are the header bytes up to KSEL, `body` what stands between the header and the FCS. -/
structure MacFrame where
  smode : Bool
  ftype : Nat
  dten  : Nat
  ar    : Bool
  sec   : Bool
  mseq  : BitVec 8
  dst   : BitVec 16
  src   : BitVec 16
  fcnt  : Nat
  ksel  : Nat
  hdr   : Bytes
  body  : Bytes
  deriving DecidableEq, Repr

def w16 (n : Nat) : BitVec 16 := BitVec.ofNat 16 n

/-- Parse a T-mode PSDU (Tables 14-2, 14-3); none where VER or TYPE is reserved or fields are missing (R406). -/
def parseT (psdu : Bytes) : Option MacFrame :=
  let fc := fld psdu 0 1
  let sec := fc.testBit 2
  let h := if sec then 11 else 6
  if fc / 64 ≠ 0 ∨ fc % 4 = 3 ∨ psdu.length < h + (if sec then 10 else 2) then none
  else some
    { smode := false, ftype := fc % 4, dten := fc / 16 % 4, ar := fc.testBit 3, sec := sec,
      mseq := BitVec.ofNat 8 (fld psdu 1 1), dst := w16 (fld psdu 2 2), src := w16 (fld psdu 4 2),
      fcnt := if sec then fld psdu 6 4 else 0, ksel := if sec then fld psdu 10 1 else 0, hdr := psdu.take h,
      body := (psdu.drop h).take (psdu.length - h - 2) }

/-- Parse an S-mode PSDU: data with PAN ID compression and short addresses, the one auxiliary header, or an imm-ACK; none
for any other option or PAN (R406). Log entry 15 PRESUMED. -/
def parseS (pan : Reg16) (psdu : Bytes) : Option MacFrame :=
  let fcf := fld psdu 0 2
  let sec := fcf.testBit 3
  let h := if sec then 15 else 9
  if fcf % 8 = 2 ∧ psdu.length = 5 then
    some { smode := true, ftype := 1, dten := 0, ar := false, sec := false, mseq := BitVec.ofNat 8 (fld psdu 2 1),
           dst := 0, src := 0, fcnt := 0, ksel := 0, hdr := psdu.take 3, body := [] }
  else if fcf % 8 ≠ 1 ∨ fcf / 16 % 2 = 1 ∨ fcf / 64 % 2 = 0 ∨ fcf / 128 % 8 ≠ 0 ∨ fcf / 1024 % 4 ≠ 2 ∨ fcf / 4096 % 4 > 1 ∨
      fcf / 16384 ≠ 2 ∨ psdu.length < h + (if sec then 10 else 2) ∨
      (fld psdu 3 2 ≠ pan.toNat ∧ fld psdu 3 2 ≠ 0xFFFF) ∨ (sec ∧ fld psdu 9 1 ≠ 0x0E) then none
  else some
    { smode := true, ftype := 0, dten := 0, ar := fcf / 32 % 2 == 1, sec := sec, mseq := BitVec.ofNat 8 (fld psdu 2 1),
      dst := w16 (fld psdu 5 2), src := w16 (fld psdu 7 2), fcnt := if sec then fld psdu 10 4 else 0,
      ksel := if sec then fld psdu 14 1 else 0, hdr := psdu.take h,
      body := (psdu.drop h).take (psdu.length - h - 2) }

/-- Parse a PSDU by its lane. -/
def parseMac (pan : Reg16) (lane : Fin 6) (psdu : Bytes) : Option MacFrame :=
  if lane = 5 then parseS pan psdu else parseT psdu

/-- The 13-byte nonce (R410). -/
def macNonce (smode : Bool) (pan : Reg16) (src : BitVec 16) (fcnt : Nat) : Bytes :=
  beBytes 2 (if smode then pan.toNat else 0) ++ [0, 0, 0, 0] ++ beBytes 2 src.toNat ++ beBytes 4 fcnt ++ [0x06]

/-- The MAC header of a T-mode frame. -/
def hdrT (ftype dten : Nat) (ar : Bool) (sec : Option (Nat × Nat)) (mseq : BitVec 8) (dst src : BitVec 16) : Bytes :=
  [BitVec.ofNat 8 (dten * 16 + bitAt 3 ar + bitAt 2 sec.isSome + ftype), mseq] ++ leBytes 2 dst.toNat ++
  leBytes 2 src.toNat ++ (match sec with | some (f, k) => leBytes 4 f ++ [BitVec.ofNat 8 k] | none => [])

/-- The MAC header of an S-mode data frame. Log entry 15 PRESUMED. -/
def hdrS (pan : Reg16) (ar : Bool) (sec : Option (Nat × Nat)) (mseq : BitVec 8) (dst src : BitVec 16) : Bytes :=
  leBytes 2 (0x8841 + bitAt 5 ar + bitAt 3 sec.isSome + bitAt 12 sec.isSome) ++ [mseq] ++ leBytes 2 pan.toNat ++
  leBytes 2 dst.toNat ++ leBytes 2 src.toNat ++
  (match sec with | some (f, k) => [0x0E] ++ leBytes 4 f ++ [BitVec.ofNat 8 k] | none => [])

/-- A whole PSDU: header, payload, protected under a key where one is given (R409), FCS. -/
def buildPsdu (hdr payload : Bytes) (key : Option (Bytes × Bytes)) : Bytes :=
  withFcs (hdr ++ match key with
    | some (k, nonce) => ccmEnc k nonce hdr payload 8
    | none => payload)

/-- The T-mode ACK of a frame (14.1). -/
def ackT (mseq : BitVec 8) (dst src : BitVec 16) : Bytes := withFcs (hdrT 1 0 false none mseq dst src)
/-- The imm-ACK of S-mode. Log entry 15 PRESUMED. -/
def ackS (mseq : BitVec 8) : Bytes := withFcs [0x02, 0x00, mseq]

/-- The MODE byte of a lane (Table 6-9). -/
def modeByte (lane : Fin 6) : Byte := if lane = 5 then 0x80 else BitVec.ofNat 8 lane.val

/-- The data of EV_LNK_RX for a received frame (Table 6-23). -/
def lnkRxData (f : RxFrame) (src : BitVec 16) (secured : Bool) (data : Bytes) : Bytes :=
  leBytes 2 src.toNat ++ [modeByte f.lane, f.rssi, BitVec.ofNat 8 (lqiOf f.evm)] ++ leBytes 2 (min 1000 f.evm) ++
  [if secured then 1 else 0, if f.lkb then 1 else 0] ++ leBytes 2 data.length ++ data

end Sys2Proof.Machine
end

