-- ==== Sys2Proof/Machine/Gondola.lean ====
section
/-!
DEFINITION. Gondola (chapter 17): channels, messages, doorbells and semaphores, by commands and by the Spool instructions
POST and MREAD.
-/
namespace Sys2Proof.Machine

/-- The ends of a binding: a tenant, or a Spool context (R490). -/
inductive End where
  | tenant (t : Tenant)
  | spool (x : Tenant)
  deriving DecidableEq, Repr

/-- An end code of a channel, given the other end's code. -/
def endOf (g : Fin 16) (code other : Nat) : End :=
  if code < 4 then .tenant (mod4 code) else if other < 4 then .spool (mod4 other) else .spool (mod4 g.val)

/-- The sender of a channel. -/
def senderOf (g : Fin 16) (ch : Chan) : Option End := ch.bound.map fun e => endOf g e.1 e.2
/-- The receiver of a channel. -/
def receiverOf (g : Fin 16) (ch : Chan) : Option End := ch.bound.map fun e => endOf g e.2 e.1

/-- A channel number, if it is one. -/
def chanNo (n : Nat) : Option (Fin 16) := if h : n < 16 then some ⟨n, h⟩ else none

/-- Return the buffer that a message carries. Log entry 64 DEDUCED. -/
def dropMsg (m : Option Msg) (s : State) : State :=
  match m with
  | some m => (match m.hand with | some h => freeBuf h s | none => s)
  | none => s

/-- Ring the receiver's doorbell: an EV_MBX unless one of the channel is undelivered, or the context's latch (R500). -/
def ringDoorbell (g : Fin 16) (m : Msg) (coll : Bool) (s : State) : State :=
  match receiverOf g s.gdl.chans[g] with
  | some (.tenant t) =>
    if undelivered s.tens[t] evMbx [BitVec.ofNat 8 g.val] then s
    else raise t evMbx [BitVec.ofNat 8 g.val, BitVec.ofNat 8 m.snd, m.mseq, if coll then 1 else 0] s
  | some (.spool x) => modCtx x (fun k => { k with latch := k.latch ||| 4 }) s
  | none => s

/-- Write a channel's slot: SND and MSEQ are stamped, a full slot is overwritten with COLL and CCNT, the doorbell rings
(R495, R497, R500). Log entry 64 DEDUCED. -/
def writeChan (g : Fin 16) (snd : Nat) (words : List Reg32) (hand : Option (Fin 32)) (s : State) : State :=
  let ch := s.gdl.chans[g]
  let full := ch.msg.isSome
  let m : Msg := { snd := snd, mseq := ch.next, words := words, hand := hand }
  let s := dropMsg ch.msg s
  let s := modChan g (fun ch => { ch with
    msg := some m
    last := ch.next
    next := ch.next + 1
    coll := ch.coll || full
    ccnt := if full then satInc 255 ch.ccnt else ch.ccnt }) s
  ringDoorbell g m full s

/-- MBX.BIND (R490 to R494): binding empties the slot and clears its sequence and collisions. Log entry 64 DEDUCED. -/
def execMbxBind (c : Cmd) (s : State) : Host.Outcome State Fault Refusal :=
  .next (keelRun 0x5000 c (fun s =>
    let a := c.args
    let t := c.t
    let snd := fld a 1 1
    let rcv := fld a 2 1
    if a.length ≠ 3 then refuse t stBadArg s
    else if !isT0 c then refuse t stDenied s
    else match chanNo (fld a 0 1) with
    | none => refuse t stBadArg s
    | some g =>
      if 5 < snd ∨ snd = 4 ∨ 5 < rcv ∨ rcv = 4 ∨ (snd = rcv ∧ snd < 4) then refuse t stBadArg s
      else if s.gdl.locked then refuse t stLocked s
      else
        let s := dropMsg s.gdl.chans[g].msg s
        reply t stOk []
          (modChan g (fun _ => { bound := some (snd, rcv), msg := none, last := 0, next := 0, coll := false, ccnt := 0 })
            s)) s)

/-- MBX.LOCK (R494): a second lock changes nothing. -/
def execMbxLock (c : Cmd) (s : State) : Host.Outcome State Fault Refusal :=
  .next (keelRun 0x5001 c (fun s =>
    if c.args.length ≠ 0 then refuse c.t stBadArg s
    else if !isT0 c then refuse c.t stDenied s
    else reply c.t stOk [] { s with gdl := { s.gdl with locked := true } }) s)

/-- MBX.WRITE (R196, R492, R495, R497). -/
def execMbxWrite (c : Cmd) (s : State) : Host.Outcome State Fault Refusal :=
  .next (keelRun 0x5002 c (fun s =>
    let a := c.args
    let t := c.t
    let n := fld a 1 1
    match chanNo (fld a 0 1) with
    | none => refuse t stBadArg s
    | some g =>
      let ch := s.gdl.chans[g]
      if 8 < n ∨ a.length ≠ 2 + 4 * n then refuse t stBadArg s
      else if senderOf g ch ≠ some (.tenant t) then refuse t stDenied s
      else if s.power.strapV1 ∧ receiverOf g ch = some (.tenant 0) then refuse t stV1Mode s
      else
        let words := (List.range n).map fun i => BitVec.ofNat 32 (fld a (2 + 4 * i) 4)
        reply t stOk [ch.next, if ch.msg.isSome then 1 else 0] (writeChan g t.val words none s)) s)

/-- MBX.READ (R496, R498, R499): the whole message, and an empty slot after it. -/
def execMbxRead (c : Cmd) (s : State) : Host.Outcome State Fault Refusal :=
  .next (keelRun 0x5003 c (fun s =>
    let a := c.args
    let t := c.t
    match chanNo (fld a 0 1) with
    | none => refuse t stBadArg s
    | some g =>
      let ch := s.gdl.chans[g]
      if a.length ≠ 2 ∨ 1 < fld a 1 1 then refuse t stBadArg s
      else if receiverOf g ch ≠ some (.tenant t) then refuse t stDenied s
      else
        let fl := fun (full : Bool) => BitVec.ofNat 8 (bitAt 0 full + bitAt 1 ch.coll)
        let cc := BitVec.ofNat 8 ch.ccnt
        let res := match ch.msg with
          | some m =>
            [BitVec.ofNat 8 m.snd, m.mseq, BitVec.ofNat 8 m.words.length, fl true, cc] ++
              (m.words.map fun w => leBytes 4 w.toNat).flatten
          | none => [BitVec.ofNat 8 (match ch.bound with | some e => e.1 | none => 0), ch.last, 0, fl false, cc]
        let clear := fld a 1 1 == 1
        reply t stOk res
          (modChan g (fun ch => { ch with msg := none, coll := ch.coll && !clear }) (dropMsg ch.msg s))) s)

/-- A semaphore number, if it is one. -/
def semNo (n : Nat) : Option (Fin 8) := if h : n < 8 then some ⟨n, h⟩ else none

/-- SEM.TAKE (R503). Log entry 64 DEDUCED. -/
def execSemTake (c : Cmd) (s : State) : Host.Outcome State Fault Refusal :=
  .next (keelRun 0x5004 c (fun s =>
    let t := c.t
    match semNo (fld c.args 0 1) with
    | none => refuse t stBadArg s
    | some i =>
      if c.args.length ≠ 1 then refuse t stBadArg s
      else match s.gdl.sems[i].holder with
        | none =>
          reply t stOk [if s.gdl.sems[i].broken then 1 else 0] (modSem i (fun _ => { holder := some t, broken := false }) s)
        | some h => if h = t then reply t stOk [0] s else refuse t stBusy s) s)

/-- SEM.GIVE (R504): by the holder alone. -/
def execSemGive (c : Cmd) (s : State) : Host.Outcome State Fault Refusal :=
  .next (keelRun 0x5005 c (fun s =>
    let t := c.t
    match semNo (fld c.args 0 1) with
    | none => refuse t stBadArg s
    | some i =>
      if c.args.length ≠ 1 then refuse t stBadArg s
      else if s.gdl.sems[i].holder = some t then
        reply t stOk [] (modSem i (fun q => { q with holder := none }) s)
      else refuse t stDenied s) s)

/-- Free every semaphore that a tenant holds, BROKEN set (R125, R506). Log entry 64 DEDUCED. -/
def breakSems (t : Tenant) (s : State) : State :=
  let sems := s.gdl.sems.map fun q => if q.holder = some t then { holder := none, broken := true } else q
  { s with gdl := { s.gdl with sems := sems } }

/-- POST (R222, R256): data words into a channel that this context sends on, with or without a buffer; D shows an
overwrite; otherwise nothing is written and C is set. -/
def execSpPost (x : Tenant) (d a b : Fin 16) (n : Fin 9) (hand : Bool) (s : State) : Host.Outcome State Fault Refusal :=
  .next (issue x (wordA 0x3C d a b (BitVec.ofNat 14 n.val ||| fnBit 4 hand)) (fun s =>
    let k := s.ctxs[x]
    let g : Fin 16 := ⟨(rd k a).toNat % 16, Nat.mod_lt _ (by decide)⟩
    let w := (rd k b).toNat
    let ch := s.gdl.chans[g]
    let fail := retire x (1 + n.val) (modCtx x (fun k => { k with c := true }) s)
    let done := fun (h : Option (Fin 32)) =>
      let words := (List.range n.val).map fun i => memWord k.data (w + i)
      let s := writeChan g 5 words h s
      retire x (1 + n.val) (modCtx x (fun k => wr d (if ch.msg.isSome then 1 else 0)
        { k with c := false, held := (match h with | some h => k.held.filter (· != h) | none => k.held) }) s)
    if senderOf g ch ≠ some (.spool x) then fail
    else if hand then
      if 255 < w then spoolFault x 5 s
      else match heldBuf k (memWord k.data w), ch.bound with
        | some h, some e =>
          if e.2 ≠ 5 then fail
          else if 256 < w + n.val then spoolFault x 5 s
          else done (some h)
        | _, _ => fail
    else if 0 < n.val ∧ 256 < w + n.val then spoolFault x 5 s
    else done none) s)

/-- MREAD (R259): the message of a channel that this context receives moves to its data words; a buffer that it carries
joins the held set, or returns to the pool with C set when 4 are held. -/
def execSpMread (x : Tenant) (d a b : Fin 16) (s : State) : Host.Outcome State Fault Refusal :=
  .next (issue x (wordA 0x3F d a b 2) (fun s =>
    let k := s.ctxs[x]
    let g : Fin 16 := ⟨(rd k a).toNat % 16, Nat.mod_lt _ (by decide)⟩
    let w := (rd k b).toNat
    let ch := s.gdl.chans[g]
    let none_ := retire x 1 (modCtx x (fun k => wr d 0xFFFFFFFF { k with c := true }) s)
    if receiverOf g ch ≠ some (.spool x) then none_
    else match ch.msg with
      | none => none_
      | some m =>
        if 0 < m.words.length ∧ 256 < w + m.words.length then spoolFault x 5 s
        else
          let data := m.words.zipIdx.foldl (fun mem p => memPutWord mem (w + p.2) p.1) k.data
          let more := m.hand.isSome && decide (4 ≤ k.held.length)
          let s := modChan g (fun ch => { ch with msg := none }) s
          let s := if more then dropMsg (some m) s else s
          retire x 1 (modCtx x (fun k => wr d (BitVec.ofNat 32 m.words.length)
            { k with data := data, c := more, held := (match m.hand with
                | some h => if more then k.held else k.held ++ [h]
                | none => k.held) }) s)) s)

end Sys2Proof.Machine
end

