-- ==== Sys2Proof/Machine/Reel.lean ====
section
/-!
DEFINITION. Reel's timers (chapter 15): compares, down counters, GO, captures and timer outputs.
-/
namespace Sys2Proof.Machine

/-- The tenant that owns a compare channel (R148). -/
def cmpOwner (k : Fin 12) : Tenant := ⟨k.val / 3, by omega⟩

/-- Precedence of TOUT actions on one tick (R459): clear, set, pulse, toggle. Log entry 66 DEDUCED. -/
def toutRank (act : Nat) : Nat :=
  match act with
  | 2 => 4
  | 1 => 3
  | 4 => 2
  | 3 => 1
  | _ => 0

/-- A pulse that has come to its end leaves the pin low (R458). -/
def toutPulseOver (t : Tick) (o : TimerOut) : TimerOut :=
  match o.pulseEnd with
  | some e => if reached t e then { o with level := false, pulseEnd := none } else o
  | none => o

/-- An action 1 set, 2 clear, 3 toggle, 4 pulse reaches a timer output on a tick (R458, R459); a lower one on the same tick
is lost. Log entry 66 DEDUCED. -/
def toutDo (o : TimerOut) (e : Tick × Nat) : TimerOut :=
  let (t, act) := e
  let o := toutPulseOver t o
  let r := toutRank act
  if r = 0 ∨ (o.actAt = t ∧ r ≤ o.rank) then o
  else
    let o := { o with actAt := t, rank := r }
    match act with
    | 1 => { o with level := true, pulseEnd := none }
    | 2 => { o with level := false, pulseEnd := none }
    | 3 => { o with level := !o.level, pulseEnd := none }
    | _ => { o with level := true, pulseEnd := some (t + BitVec.ofNat 48 ((o.pw.toNat + 1) * 24)) }

/-- A timer output as it stands at a tick: the actions whose ticks have come have been applied. -/
def toutAt (now : Tick) (o : TimerOut) : TimerOut :=
  (o.acts.filter fun e => reached now e.1).foldl toutDo { o with acts := o.acts.filter fun e => !reached now e.1 }

/-- The level of a TOUT pin at a tick. -/
def toutPin (now : Tick) (o : TimerOut) : Bool := (toutPulseOver now (toutAt now o)).level

/-- Put an action among those of ticks to come, behind the earlier ones. -/
def toutQueue (e : Tick × Nat) : List (Tick × Nat) → List (Tick × Nat)
  | [] => [e]
  | x :: r => if reached e.1 x.1 then x :: toutQueue e r else e :: x :: r

/-- An action for a timer output at a tick: now, or when Reel comes there. -/
def toutAct (n : Tenant) (act : Nat) (t : Tick) (s : State) : State :=
  modTout n (fun o =>
    let o := toutAt s.reel.cnt o
    if reached s.reel.cnt t then toutDo o (t, act) else { o with acts := toutQueue (t, act) o.acts }) s

/-- A fire of a down counter: reload, one-shot, TOUT one tick later, the WAITE latch, EV_TMR or MISS (R448, R450).
Log entry 66 DEDUCED. -/
def dcFired (n : Tenant) (s : State) : State :=
  let d := s.reel.dcs[n]
  let s := modDc n (fun d => dcRun 0 { d with cnt := d.rld, due := false, st := if bit d.cfg 14 then .held else d.st }) s
  let s := toutAct n (bits d.cfg 13 11) (s.reel.cnt + 1) s
  let s := modCtx n (fun k => { k with latch := k.latch ||| 1 }) s
  if bit d.cfg 15 then
    if undelivered s.tens[n] evTmr [1, BitVec.ofNat 8 n.val] then modDc n (fun d => { d with miss := satInc 255 d.miss }) s
    else raise n evTmr [1, BitVec.ofNat 8 n.val] s
  else s

/-- Release a down counter that is HELD: with MACT = 1 the gate is closed (R452, R453). Log entry 66 DEDUCED. -/
def dcRelease (d : DownCnt) : DownCnt :=
  if d.st == .held then { d with st := if bits d.cfg 7 6 = 1 then .gated else .running, phase := 0 } else d

/-- What a master event makes of a counter before it clocks it (R453, R454). Log entry 66 DEDUCED. -/
def dcMaster (d : DownCnt) : DownCnt :=
  match bits d.cfg 7 6 with
  | 1 => if d.st == .running then { d with st := .gated } else if d.st == .gated then { d with st := .running } else d
  | 2 => { d with cnt := d.rld, due := false }
  | 3 => dcRelease d
  | _ => d

/-- A master event of source `src` reaches its tenant's counter (R448, R453, R454). -/
def masterEvent (n : Tenant) (src : Nat) (s : State) : State :=
  let d := s.reel.dcs[n]
  if bits d.cfg 9 8 ≠ src then s
  else
    let s := modDc n dcMaster s
    let d := s.reel.dcs[n]
    if bit d.cfg 10 && d.st == .running then
      if d.cnt = 0 then dcFired n s else modDc n (fun d => { d with cnt := d.cnt - 1 }) s
    else s

/-- Reserved values of ACT (6.9). -/
def actBad (a : Nat) : Bool := decide (63 < a) || decide (4 < a % 8)

/-- Write value and ACT of a channel: DISABLED with bit 5, else HELD or ARMED (R440, R442). -/
def cmpSet (act : BitVec 6) (hold : Bool) (q : Compare) : Compare :=
  { q with act := act, hold := hold, st := if bit act 5 then .disabled else if hold then .held else .armed }

/-- A compare channel number, if it is one. -/
def cmpNo (n : Nat) : Option (Fin 12) := if h : n < 12 then some ⟨n, h⟩ else none
/-- A tenant's number, if it is one. -/
def tenNo (n : Nat) : Option Tenant := if h : n < 4 then some ⟨n, h⟩ else none

/-- TMR.READ (6.9): one consistent 48-bit value. -/
def execTmrRead (c : Cmd) (s : State) : Host.Outcome State Fault Refusal :=
  .next (keelRun 0x3000 c (fun s =>
    if c.args.length ≠ 0 then refuse c.t stBadArg s else reply c.t stOk (tickBytes s.reel.cnt) s) s)

/-- TMR.CMP (R440, R442). -/
def execTmrCmp (c : Cmd) (s : State) : Host.Outcome State Fault Refusal :=
  .next (keelRun 0x3001 c (fun s =>
    let a := c.args
    let act := fld a 7 1
    match cmpNo (fld a 0 1) with
    | none => refuse c.t stBadArg s
    | some k =>
      if a.length ≠ 8 then refuse c.t stBadArg s
      else if cmpOwner k ≠ c.t then refuse c.t stDenied s
      else if actBad act then refuse c.t stBadArg s
      else
        reply c.t stOk []
          (modCmp k (fun q => cmpSet (BitVec.ofNat 6 act) q.hold { q with val := BitVec.ofNat 48 (fld a 1 6) }) s)) s)

/-- Reserved codes of DCn_CFG, and CLK = 1 with a MACT (R447). Log entry 66 DEDUCED. -/
def dcCfgBad (w : Reg16) : Bool :=
  decide (4 < bits w 13 11) || decide (10 < bits w 3 0) || (bit w 10 && bits w 7 6 != 0)

/-- TMR.DC (R447): stop, load count and buffer, leave HELD. -/
def execTmrDc (c : Cmd) (s : State) : Host.Outcome State Fault Refusal :=
  .next (keelRun 0x3002 c (fun s =>
    let a := c.args
    let cfg := BitVec.ofNat 16 (fld a 4 2)
    match tenNo (fld a 0 1) with
    | none => refuse c.t stBadArg s
    | some n =>
      if a.length ≠ 6 then refuse c.t stBadArg s
      else if n ≠ c.t then refuse c.t stDenied s
      else if dcCfgBad cfg ∨ bits cfg 5 4 ≠ 0 then refuse c.t stBadArg s
      else
        let r := BitVec.ofNat 24 (fld a 1 3)
        reply c.t stOk []
          (modDc n (fun d => { d with cfg := cfg, rld := r, cnt := r, st := .held, phase := 0, due := false }) s)) s)

/-- The GO mask bits of a tenant's own timers (R148). -/
def ownMask (t : Tenant) : Nat := 7 * 2 ^ (3 * t.val) + 2 ^ (12 + t.val)

/-- Release the named timers that are HELD, all on one tick (R452). -/
def goRelease (mask : Nat) (s : State) : State :=
  let r := s.reel
  { s with reel := { r with
      cmps := Vector.ofFn fun k =>
        let q := r.cmps[k]
        if mask.testBit k.val && q.st == .held then { q with st := .armed } else q
      dcs := Vector.ofFn fun n => if mask.testBit (12 + n.val) then dcRelease r.dcs[n] else r.dcs[n] } }

/-- TMR.GO (R452). -/
def execTmrGo (c : Cmd) (s : State) : Host.Outcome State Fault Refusal :=
  .next (keelRun 0x3003 c (fun s =>
    let m := fld c.args 0 2
    if c.args.length ≠ 2 then refuse c.t stBadArg s
    else if m &&& ownMask c.t ≠ m then refuse c.t stDenied s
    else reply c.t stOk [] (goRelease m s)) s)

/-- TMR.CAP (R456): the latched value; FULL and OVR clear; ARM is set as told. -/
def execTmrCap (c : Cmd) (s : State) : Host.Outcome State Fault Refusal :=
  .next (keelRun 0x3004 c (fun s =>
    let a := c.args
    match tenNo (fld a 0 1) with
    | none => refuse c.t stBadArg s
    | some n =>
      if a.length ≠ 2 then refuse c.t stBadArg s
      else if n ≠ c.t then refuse c.t stDenied s
      else if 1 < fld a 1 1 then refuse c.t stBadArg s
      else
        let q := s.reel.caps[n]
        reply c.t stOk (tickBytes q.val ++ [if q.ovr then 1 else 0])
          (modCap n (fun q => { q with full := false, ovr := false, arm := fld a 1 1 == 1 }) s)) s)

/-- TMR.OUT (R458): the MODE byte's width is stored and its action comes on the tick it executes. -/
def execTmrOut (c : Cmd) (s : State) : Host.Outcome State Fault Refusal :=
  .next (keelRun 0x3005 c (fun s =>
    let a := c.args
    let m := fld a 1 1
    match tenNo (fld a 0 1) with
    | none => refuse c.t stBadArg s
    | some n =>
      if a.length ≠ 2 then refuse c.t stBadArg s
      else if n ≠ c.t then refuse c.t stDenied s
      else if 4 < m % 8 then refuse c.t stBadArg s
      else
        reply c.t stOk [] (toutAct n (m % 8) s.reel.cnt (modTout n (fun o => { o with pw := BitVec.ofNat 5 (m / 8) }) s))) s)

/-- Timers are judged while the part runs (R446). -/
def timersJudged (s : State) : Bool := s.power.mode == .run || s.power.mode == .limp

/-- COMPARE_FIRE (R441, R443): an ARMED channel that Reel has reached fires, LATE if on a later tick.
Log entry 66 DEDUCED. -/
def execCompareFire (k : Fin 12) (now : Tick) (s : State) : Host.Outcome State Fault Refusal :=
  let s := advanceTo now s
  let q := s.reel.cmps[k]
  if timersJudged s && q.st == .armed && reached s.reel.cnt q.val then
    let t := cmpOwner k
    let s := modCmp k (fun q => { q with st := .fired, late := s.reel.cnt != q.val }) s
    let s := toutAct t (bits q.act 2 0) (s.reel.cnt + 1) s
    let s := if bit q.act 3 then raise t evTmr [0, BitVec.ofNat 8 k.val] s else s
    let s := modCtx t (fun x => { x with latch := x.latch ||| 1 }) s
    .next (masterEvent t (k.val % 3) s)
  else .next s

/-- DC_FIRE (R448, R450): a clock has found the count at 0. -/
def execDcFire (n : Tenant) (now : Tick) (s : State) : Host.Outcome State Fault Refusal :=
  let s := advanceTo now s
  if timersJudged s && s.reel.dcs[n].due then .next (dcFired n s) else .next s

/-- Whether CAPn takes an edge (R455, CAPn_CTL.EDGE). -/
def edgeTaken (q : Capture) (rising : Bool) : Bool :=
  match q.edge.toNat with
  | 0 => rising
  | 1 => !rising
  | 2 => true
  | _ => false

/-- CAPTURE_EDGE (R77, R455 to R457): the value latched is Reel 2 or 3 ticks after the edge, which of them is free; with ARM the event is
built and counts as the read. Log entry 66 DESIGN CHOICE. -/
def execCaptureEdge (n : Tenant) (rising : Bool) (now : Tick) (s : State) : Host.Outcome State Fault Refusal :=
  let s := advanceTo now s
  let q := s.reel.caps[n]
  let s := modCap n (fun q => { q with level := rising }) s
  if timersJudged s && edgeTaken q rising then
    let ovr := q.ovr || q.full
    let (third, s) := drawBool s
    let v := s.reel.cnt + (if third then 3 else 2)
    let s := modCap n (fun q => { q with val := v, full := !q.arm, ovr := ovr }) s
    let s := if q.arm then
        raise n evCap ([BitVec.ofNat 8 n.val] ++ tickBytes v ++ [if ovr then 1 else 0]) s
      else s
    let s := modCtx n (fun x => { x with latch := x.latch ||| 2 }) s
    .next (masterEvent n 3 s)
  else .next s

/-- TOUT_PULSE_END (R458): the pulse's width is over. -/
def execToutPulseEnd (n : Tenant) (now : Tick) (s : State) : Host.Outcome State Fault Refusal :=
  let s := advanceTo now s
  .next (modTout n (fun o => toutPulseOver s.reel.cnt (toutAt s.reel.cnt o)) s)

/-- TOUT (Table 8-8, R458): the tenant's own output, at cursor + 3 ticks. -/
def execSpTout (x : Tenant) (d : Fin 16) (act : Fin 5) (s : State) : Host.Outcome State Fault Refusal :=
  .next (issue x (wordA 0x3E d 0 0 (BitVec.ofNat 14 act.val)) (fun s =>
    if act = 0 then spoolFault x 1 s
    else retire x 1 (toutAct x act.val (s.ctxs[x].cursor + 3) s)) s)

end Sys2Proof.Machine
end

