-- ==== Sys2Proof/Machine/Ledger.lean ====
section
/-!
DEFINITION. The traffic ledger (chapter 20): intervals, deduplication, sealing, draining, wall time and steps.
-/
namespace Sys2Proof.Machine

/-- Ticks of a millisecond. -/
abbrev msTicks : Nat := 24000

/-- Wall time at a tick in ticks since 1970, once it is set. -/
def wallTicks (s : State) (t : Tick) : Option Int :=
  s.ldg.wall.map fun w => w.2 * msTicks + ticksBetween w.1 t

/-- Milliseconds on a record's scale at a tick: wall time, or the time since the start (Table 20-2). -/
def ledgerMs (s : State) (t : Tick) : Int :=
  match wallTicks s t with
  | some w => w / msTicks
  | none => ticksBetween s.power.startedAt t / msTicks

/-- Ticks from a wall time to the next whole multiple of IVL minutes after 00:00 UTC; 00:00 is one (R533).
Log entry 53 DEDUCED. -/
def toBoundary (w : Int) (ivl : Nat) : Nat :=
  let day := 1440 * minTicks
  let inDay := (w % day).toNat
  let step := ivl * minTicks
  min (day - inDay) (step - inDay % step)

/-- REEL_UNTRUSTED or LIMP (Table 20-3). -/
def ledgerUntrusted (s : State) : Bool := s.power.untrusted || inLimp s

/-- Table 20-3. -/
def lfBack : BitVec 16 := 0x001
def lfFwd : BitVec 16 := 0x002
def lfNoWall : BitVec 16 := 0x004
def lfCut : BitVec 16 := 0x008
def lfRestart : BitVec 16 := 0x010
def lfUntrusted : BitVec 16 := 0x020
def lfEvict : BitVec 16 := 0x040
def lfSat : BitVec 16 := 0x080
def lfConfig : BitVec 16 := 0x100
def lfFirstWall : BitVec 16 := 0x200

/-- Open an interval at a tick (R533): a waiting configuration takes effect; nothing opens without the root (R26) or past
the last SEQ (20.3). Log entry 53 DEDUCED. -/
def openInterval (t : Tick) (s : State) : State :=
  if !s.bri.rootOk || decide (0xFFFFFFFF ≤ s.ldg.lastSeq) then setLdg (fun l => { l with cur := none }) s
  else
    let fresh := s.ldg.nextCfg.isSome
    let cfg := s.ldg.nextCfg.getD s.ldg.cfg
    let len := match wallTicks s t with
      | some w => toBoundary w cfg.ivl
      | none => cfg.ivl * minTicks
    let flags := (if s.ldg.wall.isNone then lfNoWall else 0) ||| (if s.ldg.restart then lfRestart else 0) |||
      (if fresh then lfConfig else 0) ||| (if ledgerUntrusted s then lfUntrusted else 0)
    let iv : Interval := { opened := t, startMs := ledgerMs s t, endsAt := t + BitVec.ofNat 48 len, flags := flags,
                           counts := List.replicate cfg.cls.length 0, dirty := true }
    let s := setLdg (fun l => { l with cur := some iv, cfg := cfg, nextCfg := none, restart := false }) s
    if fresh then queueCommit (.ledgerCfg cfg none) 1 s else s

/-- The bytes of a count as a 7-bit-group varint (20.4). -/
def varintLen : Nat → Nat → Nat
  | 0, _ => 1
  | f + 1, n => if n < 128 then 1 else 1 + varintLen f (n / 128)

/-- The bytes that a record takes in the ring (20.4). -/
def packedLen (prev : Option Record) (ivl : Nat) (r : Record) : Nat :=
  let plain := match prev with
    | some p => p.stop == r.start && r.stop - r.start == (ivl * 60000 : Nat)
    | none => false
  2 + (if plain then 0 else 16) + (r.counts.map (varintLen 5)).sum

/-- The records whose commits wait. Log entry 53 DEDUCED. -/
def recordsQueued (w : StoreSt) : List Record :=
  (w.queue ++ w.deferred).filterMap fun c => match c.kind with | .record r => some r | _ => none

/-- Overwrite the oldest held intervals until a record of n bytes fits (R540). -/
def ringMakeRoom (n : Nat) : Nat → State → State
  | 0, s => s
  | f + 1, s =>
    let q := recordsQueued s.store
    let used := (s.ldg.held.map (·.bytes)).sum + (q.map (·.bytes)).sum
    if s.ldg.held.length + q.length < 2048 ∧ used + n ≤ 22156 then s
    else match s.ldg.held with
      | [] => s
      | r :: rest =>
        let s := setLdg (fun l => { l with held := rest, lost := satInc 0xFFFF l.lost }) s
        ringMakeRoom n f (raise s.ldg.owner evLedgerOverrun (leBytes 4 r.seq ++ leBytes 2 s.ldg.lost) s)

/-- Give a record the next SEQ and queue its commit (R538, R540); a checkpoint of that SEQ is no longer valid (R545). -/
def sealRecord (flags : BitVec 16) (start stop : Int) (counts : List Nat) (s : State) : State :=
  let seq := s.ldg.lastSeq + 1
  let r : Record := { seq := seq, flags := flags, start := start, stop := stop, counts := counts, bytes := 0 }
  let prev := (s.ldg.held ++ recordsQueued s.store).getLast?
  let r := { r with bytes := packedLen prev s.ldg.cfg.ivl r }
  let s := ringMakeRoom r.bytes 2048 s
  queueCommit (.record r) (if r.bytes ≤ 58 then 1 else 2)
    (setLdg (fun l => { l with lastSeq := seq, cur := none, ckpt := none }) s)

/-- Close the open interval at a time of its scale, with further flags. -/
def sealOpen (extra : BitVec 16) (stop : Int) (s : State) : State :=
  match s.ldg.cur with
  | none => s
  | some iv =>
    sealRecord (iv.flags ||| extra ||| (if ledgerUntrusted s then lfUntrusted else 0)) iv.startMs stop iv.counts s

/-- The open interval's boundary, if Reel has reached it: it is sealed there and the next one opens there (R533). -/
def boundaryIfDue (s : State) : State :=
  match s.ldg.cur with
  | none => s
  | some iv =>
    if reached s.reel.cnt iv.endsAt then openInterval iv.endsAt (sealOpen 0 (ledgerMs s iv.endsAt) s) else s

/-- INTERVAL_BOUNDARY (R533, R538, R540). -/
def execIntervalBoundary (now : Tick) (s : State) : Host.Outcome State Fault Refusal :=
  let s := advanceTo now s
  if s.power.mode == .run || s.power.mode == .limp then .next (boundaryIfDue s) else .next s

/-- LEDGER_SEAL_LANDED (R538): the oldest landed seal is told to the ledger owner. Log entry 53 DEDUCED. -/
def execLedgerSealLanded (s : State) : Host.Outcome State Fault Refusal :=
  match s.ldg.toTell with
  | [] => .next s
  | e :: rest =>
    .next (raise s.ldg.owner evLedgerSealed (leBytes 4 e.1 ++ leBytes 2 e.2.toNat)
      (setLdg (fun l => { l with toTell := rest }) s))

/-- The dedupe key of a read (R535): 56 bits. -/
def dedupeKey (epc : Bytes) : Bytes :=
  (cmac (kdf deviceInternal lblDedupe [] 128) (BitVec.ofNat 8 (epc.length / 2) :: epc)).take 7

/-- The class of an EPC: the first whose mask and value match its first 32 bits (6.15). -/
def classOf (cls : List (BitVec 32 × BitVec 32)) (epc : Bytes) : Option Nat :=
  let w := BitVec.ofNat 32 (beNat ((epc ++ [0, 0, 0, 0]).take 4))
  (cls.findIdx? fun c => w &&& c.1 == c.2)

/-- A tag read is keyed, deduplicated and counted (R23, R534 to R536); nothing counts without the root (R26) or in LIMP
(R85). -/
def countRead (epc : Bytes) (s : State) : State :=
  if !s.bri.rootOk || inLimp s then s
  else
    let now := s.reel.cnt
    let s := match s.ldg.cur with
      | some iv => if iv.endsAt ≠ now then boundaryIfDue s else s
      | none => s
    let key := dedupeKey epc
    let win := s.ldg.cfg.dedupe * 24000000
    let live := fun (t : Tick) => decide (ticksBetween t now ≤ win)
    let old := s.ldg.dedupe.find? fun e => e.1 == key
    let rest := s.ldg.dedupe.filter fun e => e.1 != key
    let full := old.isNone && decide (4096 ≤ rest.length)
    let evicted := full && (match rest.head? with | some e => live e.2 | none => false)
    let table := (if full then rest.drop 1 else rest) ++ [(key, now)]
    let counts := match old with | some e => !live e.2 | none => true
    setLdg (fun l => { l with
      dedupe := table
      evict := if evicted then satInc 0xFFFF l.evict else l.evict
      cur := l.cur.map fun iv =>
        let iv := if evicted then { iv with flags := iv.flags ||| lfEvict, dirty := true } else iv
        match counts, classOf l.cfg.cls epc with
        | true, some i =>
          let n := iv.counts.getD i 0
          if n < 0xFFFFFFFF then { iv with counts := iv.counts.set i (n + 1), dirty := true }
          else { iv with flags := iv.flags ||| lfSat, dirty := true }
        | _, _ => iv }) s

/-- The checkpoint of the open interval: the record it would be sealed as now (R545). -/
def checkpointOf (s : State) : Option Record :=
  s.ldg.cur.map fun iv =>
    { seq := s.ldg.lastSeq + 1, flags := iv.flags ||| (if ledgerUntrusted s then lfUntrusted else 0),
      start := iv.startMs, stop := ledgerMs s s.reel.cnt, counts := iv.counts, bytes := 0 }

/-- At a start with the root available (R545, R546): a checkpoint of the next SEQ is sealed with CUT, any other is discarded,
and the first interval opens. -/
def ledgerStart (s : State) : State :=
  if !s.bri.rootOk then s
  else
    let s := match s.ldg.ckpt with
      | some r =>
        let s := setLdg (fun l => { l with ckpt := none }) s
        if r.seq = s.ldg.lastSeq + 1 then
          setLdg (fun l => { l with restart := false }) (sealRecord (r.flags ||| lfCut) r.start r.stop r.counts s)
        else s
      | none => s
    openInterval s.reel.cnt s

/-- The record's bytes without its MAC (Table 20-2). -/
def recordBody (r : Record) : Bytes :=
  leBytes 4 r.seq ++ leBytes 2 r.flags.toNat ++ leInt 8 r.start ++ leInt 8 r.stop ++ [BitVec.ofNat 8 r.counts.length] ++
  (r.counts.map (leBytes 4)).flatten

/-- A record as LEDGER.READ returns it (R539). -/
def recordBytes (s : State) (r : Record) : Bytes :=
  recordBody r ++ (cmac (kdf deviceInternal lblLedger [] 128) (serialBytes s ++ recordBody r)).take 8

/-- LEDGER.CONFIG (6.15, R26, R146): in force from the next interval on. Log entry 53 DEDUCED. -/
def execLedgerConfig (c : Cmd) (s : State) : Host.Outcome State Fault Refusal :=
  .next (keelRun 0x7400 c (fun s =>
    let a := c.args
    let ivl := fld a 0 1
    let dd := fld a 1 2
    let n := fld a 3 1
    if a.length ≠ 4 + 8 * n then refuse c.t stBadArg s
    else if c.t ≠ s.ldg.owner then refuse c.t stDenied s
    else if ivl < 1 ∨ 60 < ivl ∨ dd < 1 ∨ 600 < dd ∨ n < 1 ∨ 16 < n then refuse c.t stBadArg s
    else if !s.bri.rootOk then refuse c.t stNoRoot s
    else
      let cls := (List.range n).map fun i =>
        (BitVec.ofNat 32 (fld a (4 + 8 * i) 4), BitVec.ofNat 32 (fld a (8 + 8 * i) 4))
      let cfg : LedgerCfg := { ivl := ivl, dedupe := dd, cls := cls }
      reply c.t stOk []
        (queueCommit (.ledgerCfg s.ldg.cfg (some cfg)) 1 (setLdg (fun l => { l with nextCfg := some cfg }) s))) s)

/-- LEDGER.OWNER (R21, R541, R635): held intervals stay for the new owner. -/
def execLedgerOwner (c : Cmd) (s : State) : Host.Outcome State Fault Refusal :=
  .next (keelRun 0x7401 c (fun s =>
    if c.args.length ≠ 1 then refuse c.t stBadArg s
    else if !isT0 c then refuse c.t stDenied s
    else match tenNo (fld c.args 0 1) with
    | none => refuse c.t stBadArg s
    | some t => reply c.t stOk [] (queueCommit (.owner t) 1 (setLdg (fun l => { l with owner := t }) s))) s)

/-- LEDGER.READ (R198, R539, R541). -/
def execLedgerRead (c : Cmd) (s : State) : Host.Outcome State Fault Refusal :=
  .next (keelRun 0x7402 c (fun s =>
    let from_ := fld c.args 0 4
    let n := fld c.args 4 1
    if c.args.length ≠ 5 then refuse c.t stBadArg s
    else if s.power.strapV1 ∧ s.ldg.owner = 0 then refuse c.t stV1Mode s
    else if c.t ≠ s.ldg.owner then refuse c.t stDenied s
    else if n < 1 ∨ 8 < n then refuse c.t stBadArg s
    else if !s.bri.rootOk then refuse c.t stNoRoot s
    else
      let rs := (s.ldg.held.filter fun r => decide (from_ ≤ r.seq)).take n
      reply c.t stOk (BitVec.ofNat 8 rs.length :: (rs.map (recordBytes s)).flatten) s) s)

/-- LEDGER.ACK (R541): frees every held interval up to UPTO. -/
def execLedgerAck (c : Cmd) (s : State) : Host.Outcome State Fault Refusal :=
  .next (keelRun 0x7403 c (fun s =>
    let upto := fld c.args 0 4
    if c.args.length ≠ 4 then refuse c.t stBadArg s
    else if c.t ≠ s.ldg.owner then refuse c.t stDenied s
    else if !s.bri.rootOk then refuse c.t stNoRoot s
    else if s.ldg.lastSeq < upto then refuse c.t stBadArg s
    else reply c.t stOk [] (setLdg (fun l => { l with held := l.held.filter fun r => decide (upto < r.seq) }) s)) s)

/-- The SEQ of the oldest held interval, 0 with none. -/
def oldestSeq (l : LedgerSt) : Nat := match l.held with | r :: _ => r.seq | [] => 0

/-- LEDGER.STATUS (6.15). -/
def execLedgerStatus (c : Cmd) (s : State) : Host.Outcome State Fault Refusal :=
  .next (keelRun 0x7404 c (fun s =>
    let l := s.ldg
    if c.args.length ≠ 0 then refuse c.t stBadArg s
    else reply c.t stOk (leBytes 4 (l.lastSeq + 1) ++ leBytes 4 (oldestSeq l) ++ leBytes 2 l.held.length ++
      leBytes 2 l.lost ++ [BitVec.ofNat 8 l.cfg.ivl, BitVec.ofNat 8 l.owner.val,
        BitVec.ofNat 8 (bitAt 0 l.wall.isSome + bitAt 1 (!s.bri.rootOk))]) s) s)

/-- CLOCK.SET (R542 to R544): a due boundary is sealed first; the first setting and steps of a second or more close the
open interval; a smaller step moves its boundary with the wall time. -/
def execClockSet (c : Cmd) (s : State) : Host.Outcome State Fault Refusal :=
  .next (keelRun 0x7410 c (fun s =>
    let new : Int := fld c.args 0 8
    if c.args.length ≠ 8 then refuse c.t stBadArg s
    else if c.t ≠ s.ldg.owner then refuse c.t stDenied s
    else if !s.bri.rootOk then refuse c.t stNoRoot s
    else
      let s := boundaryIfDue s
      let now := s.reel.cnt
      let old := ledgerMs s now
      let set := setLdg fun l => { l with wall := some (now, new) }
      match wallTicks s now with
      | none => openInterval now (set (sealOpen lfFirstWall old (reply c.t stOk (leInt 8 0) s)))
      | some w =>
        let step := new - old
        let s := reply c.t stOk (leInt 8 step) s
        if step ≤ -1000 then openInterval now (set (sealOpen lfBack old s))
        else if 1000 ≤ step then openInterval now (set (sealOpen lfFwd old s))
        else
          set (setLdg (fun l => { l with cur := l.cur.map fun iv =>
            let left : Int := ticksBetween now iv.endsAt - (new * msTicks - w)
            { iv with endsAt := now + BitVec.ofNat 48 left.toNat } }) s)) s)

end Sys2Proof.Machine
end

