-- ==== Sys2Proof/Machine/SpoolIo.lean ====
section
/-!
DEFINITION. The Spool instructions on buffers, keys, random numbers and events (8.8 to 8.10), and the completions of KSEL,
AESB and RNG.
-/
namespace Sys2Proof.Machine

/-- A tag reply of PC, EPC and CRC-16 (R257): PC, XPC_W1 if the tag sends one, EPC. PRESUMED: the places of XI, UMI, T, XEB
and C are those of ISO/IEC 18000-63. -/
structure TagRead where
  pc  : BitVec 16
  xpc : BitVec 16
  epc : Bytes
  deriving DecidableEq, Repr

/-- Read PC, EPC and CRC-16 out of a reply's bytes; none where its length is not that of its PC.
Log entries 13 PRESUMED, 27 DEDUCED. -/
def parseRead (b : Bytes) : Option TagRead :=
  let pc := BitVec.ofNat 16 (beNat (b.take 2))
  let xi := bit pc 9
  let x1 := BitVec.ofNat 16 (beNat ((b.drop 2).take 2))
  let skip := if xi then (if bit x1 15 then 4 else 2) else 0
  let n := 2 * bits pc 15 11
  if b.length = 2 + skip + n + 2 then
    some { pc := pc, xpc := if xi then x1 else 0, epc := (b.drop (2 + skip)).take n }
  else none

/-- The TAGCAP bits that a read shows (R562). Log entry 13 PRESUMED. -/
def readCaps (r : TagRead) : BitVec 32 :=
  BitVec.ofNat 32 (bitAt 0 (bit r.pc 9) + bitAt 1 (bit r.pc 10) + bitAt 2 (bit r.pc 8) + bitAt 3 (bit r.xpc 6))

/-- Gather TAGCAP bits. -/
def gatherCaps (c : BitVec 32) : State → State := setSvy fun v => { v with tagCap := v.tagCap ||| c }

/-- A tag read is told to the tenant whose round it is, offered to the ledger, and gathered (R24, R257, R314, R562). -/
def tellRead (t : Tenant) (tseq : BitVec 16) (rssi phase : Byte) (r : TagRead) (s : State) : State :=
  let data := leBytes 2 tseq.toNat ++ leBytes 2 s.rdr.roundCnt.toNat ++ [BitVec.ofNat 8 s.rdr.aerial.val] ++
    leBytes 2 s.radio.rFreq ++ [rssi, phase] ++ leBytes 2 r.pc.toNat ++ [BitVec.ofNat 8 (r.epc.length / 2)] ++ r.epc
  gatherCaps (readCaps r) (countRead r.epc (raiseFrom t evTag data s))

/-- Format A word of a BUF function. -/
def wordBuf (d a b : Fin 16) (fn : Nat) : BitVec 32 := wordA 0x36 d a b (BitVec.ofNat 14 fn)

/-- BUF ALLOC (R215, R593, R594): a free buffer, or all ones with C; at most four are held. -/
def execSpBufAlloc (x : Tenant) (d : Fin 16) (s : State) : Host.Outcome State Fault Refusal :=
  .next (issue x (wordBuf d 0 0 0) (fun s =>
    match decide (s.ctxs[x].held.length < 4), findBuf (posOf x) s with
    | true, some h =>
      retire x 1 (modCtx x (fun k => wr d (BitVec.ofNat 32 h.val) { k with held := k.held ++ [h], c := false })
        (serveBuf (posOf x) true h s))
    | _, none => retire x 1 (modCtx x (fun k => wr d 0xFFFFFFFF { k with c := true }) (missBuf (posOf x) true s))
    | _, _ => retire x 1 (modCtx x (fun k => wr d 0xFFFFFFFF { k with c := true }) s)) s)

/-- Run a body on a held buffer; a handle that the context does not hold faults with code 5 (R251). -/
def onBuf (x : Tenant) (a : Fin 16) (body : Fin 32 → State → State) (s : State) : State :=
  match heldBuf s.ctxs[x] (rd s.ctxs[x] a) with
  | some h => body h s
  | none => spoolFault x 5 s

/-- BUF FREE: the buffer returns to the pool. -/
def execSpBufFree (x : Tenant) (d a : Fin 16) (s : State) : Host.Outcome State Fault Refusal :=
  .next (issue x (wordBuf d a 0 1) (onBuf x a fun h s =>
    retire x 1 (modCtx x (fun k => { k with held := k.held.filter (· != h), c := false }) (freeBuf h s))) s)

/-- BUF RDW: four bytes from byte B; an access past byte 255 faults (R251). -/
def execSpBufRdw (x : Tenant) (d a b : Fin 16) (s : State) : Host.Outcome State Fault Refusal :=
  .next (issue x (wordBuf d a b 2) (onBuf x a fun h s =>
    let o := (rd s.ctxs[x] b).toNat
    if 252 < o then spoolFault x 5 s
    else
      let v := BitVec.ofNat 32 (leNat (memGetAll s.bufs[h].bytes o 4))
      retire x 1 (modCtx x (fun k => wr d v { k with c := false }) s)) s)

/-- BUF WRW: D to bytes B to B + 3; the length stays (R251). -/
def execSpBufWrw (x : Tenant) (d a b : Fin 16) (s : State) : Host.Outcome State Fault Refusal :=
  .next (issue x (wordBuf d a b 3) (onBuf x a fun h s =>
    let k := s.ctxs[x]
    let o := (rd k b).toNat
    if 252 < o then spoolFault x 5 s
    else
      let s := modBuf h (fun q => { q with bytes := memPutAll q.bytes o (leBytes 4 (rd k d).toNat), mark := .plain }) s
      retire x 1 (modCtx x (fun k => { k with c := false }) s)) s)

/-- BUF LEN: D := the buffer's length. -/
def execSpBufLen (x : Tenant) (d a : Fin 16) (s : State) : Host.Outcome State Fault Refusal :=
  .next (issue x (wordBuf d a 0 4) (onBuf x a fun h s =>
    retire x 1 (modCtx x (fun k => wr d (BitVec.ofNat 32 s.bufs[h].len) { k with c := false }) s)) s)

/-- BUF SETLEN: length := B, 0 to 256; more faults (R251). -/
def execSpBufSetlen (x : Tenant) (d a b : Fin 16) (s : State) : Host.Outcome State Fault Refusal :=
  .next (issue x (wordBuf d a b 5) (onBuf x a fun h s =>
    let n := (rd s.ctxs[x] b).toNat
    if 256 < n then spoolFault x 5 s
    else retire x 1 (modCtx x (fun k => { k with c := false }) (modBuf h (fun q => { q with len := n, mark := .plain }) s)))
    s)

/-- A request to Bridle from a context, with the epoch of the moment (R587). -/
def engineAsk (x : Tenant) (rng : Bool) : State → State := fun s =>
  setBri (fun b => { b with
    engine := b.engine ++ [{ who := x, epoch := s.epoch.cry, stale := false, rng := rng, out := none }] }) s

/-- The request of a context has been answered. -/
def engineDone (x : Tenant) : State → State :=
  setBri fun b => { b with engine := dropFirst (fun e => e.who == x && !e.stale) b.engine }

/-- Wait for Bridle. -/
def engineWait (x : Tenant) (op : WaitOp) (d : Fin 16) (a b : Reg32) (fn : BitVec 14) (s : State) : State :=
  let c := s.ctxs[x].cursor
  enterWait x { op := op, d := d, a := a, b := b, fn := fn, issued := c, until_ := c, noAir := false, epoch := 0 }
    (engineAsk x (op == .rng) s)

/-- KSEL (R252): wait until Bridle has the value ready. -/
def execSpKsel (x : Tenant) (d a b : Fin 16) (s : State) : Host.Outcome State Fault Refusal :=
  .next (issue x (wordA 0x38 d a b 0) (fun s => engineWait x .ksel d (rd s.ctxs[x] a) 0 0 s) s)

/-- AESB (R253): a bad place faults with code 5, no selected key gives ST_BAD_ARG, otherwise Bridle is waited for. -/
def execSpAesb (x : Tenant) (d a b : Fin 16) (decrypt : Bool) (s : State) : Host.Outcome State Fault Refusal :=
  .next (issue x (wordA 0x39 d a b (fnBit 0 decrypt)) (onBuf x a fun _ s =>
    let k := s.ctxs[x]
    let o := (rd k b).toNat
    if o % 16 ≠ 0 ∨ 240 < o then spoolFault x 5 s
    else if k.ksel.isNone then wAtOnce x (fun k => wr d (stBadArg.setWidth 32) { k with c := true }) s
    else engineWait x .aesb d (rd k a) (rd k b) (fnBit 0 decrypt) s) s)

/-- RNG (R255): without an instantiated DRBG, 0 with C at once (R489); otherwise wait for the service. -/
def execSpRng (x : Tenant) (d a b : Fin 16) (s : State) : Host.Outcome State Fault Refusal :=
  .next (issue x (wordA 0x3B d a b 0) (fun s =>
    if s.bri.drbgOk then engineWait x .rng d 0 0 0 s
    else wAtOnce x (fun k => wr d 0 { k with c := true }) s) s)

/-- Classes that an AESB can use. -/
def isAes : KeyClass → Bool := fun c => c == .enc || c == .dec

/-- KSEL_COMPLETE (R252): the value is ready, or the status that refuses it; a refused KSEL leaves no key selected. -/
def execKselComplete (x : Tenant) (now : Tick) (s : State) : Host.Outcome State Fault Refusal :=
  let s := advanceTo now s
  match pendIs x .ksel s with
  | none => .next s
  | some p =>
    let n := p.a.toNat % 64
    let st := match keyRefusal x n isAes s with
      | some st => st
      | none => (match slotNo n with
        | some k => if noUseLeft k 1 s then stKeyExhausted else stOk
        | none => stBadArg)
    let sel : Option KeySel := if st = stOk then (slotNo n).map fun k => { slot := k, gone := false } else none
    let s := match sel with | some q => cacheKey q.slot s | none => s
    .next (endWait x s.reel.cnt (fun k => wr p.d (st.setWidth 32) { k with c := st != stOk, ksel := sel })
      (engineDone x s))

/-- AESB_COMPLETE (R253, R481): the block is changed in place and one use charged, or the status refuses it. -/
def execAesbComplete (x : Tenant) (now : Tick) (s : State) : Host.Outcome State Fault Refusal :=
  let s := advanceTo now s
  match pendIs x .aesb s with
  | none => .next s
  | some p =>
    let s := engineDone x s
    let fin := fun (st : Byte) (s : State) =>
      endWait x s.reel.cnt (fun k => wr p.d (st.setWidth 32) { k with c := st != stOk }) s
    match s.ctxs[x].ksel, heldBuf s.ctxs[x] p.a with
    | some q, some h =>
      if q.gone then .next (fin stKeyOrphan s)
      else
        let dec := bit p.fn 0
        match useKey x q.slot.val (if dec then isDec else isEnc) s with
        | .error st => .next (fin st s)
        | .ok (key, s) =>
          let o := p.b.toNat
          let blk := memGetAll s.bufs[h].bytes o 16
          let out := if dec then aesDec key blk else aesEnc key blk
          .next (fin stOk (modBuf h (fun b => { b with bytes := memPutAll b.bytes o out, mark := .plain }) s))
    | _, _ => .next (fin stBadArg s)

/-- RNG_COMPLETE (R255): 32 bits of the DRBG, or 0 with C while it is not instantiated. The first of the four output bytes is the
least significant of D; the spec does not say which is. Log entry 74 DESIGN CHOICE. -/
def execRngComplete (x : Tenant) (now : Tick) (s : State) : Host.Outcome State Fault Refusal :=
  let s := advanceTo now s
  match pendIs x .rng s with
  | none => .next s
  | some p =>
    let given := (s.bri.engine.find? fun e => e.who == x && !e.stale).bind (·.out)
    let s := engineDone x s
    match (match given with | some o => some (o, s) | none => drbgTake 4 s) with
    | some (out, s) =>
      .next (endWait x s.reel.cnt (fun k => wr p.d (BitVec.ofNat 32 (leNat out)) { k with c := false }) s)
    | none => .next (endWait x s.reel.cnt (fun k => wr p.d 0 { k with c := true }) s)

/-- Hand a held buffer on to Keel: it leaves the context and, its event written, returns to the pool. -/
def handOn (x : Tenant) (h : Fin 32) (s : State) : State :=
  modCtx x (fun k => { k with held := k.held.filter (· != h) }) (freeBuf h s)

/-- EVT (R222, R257): SPOOL, TAG or LNKRX; a buffer that does not hold what its kind requires sets C and stays held. -/
def execSpEvt (x : Tenant) (d a : Fin 16) (kind : Fin 3) (s : State) : Host.Outcome State Fault Refusal :=
  .next (issue x (wordA 0x3D d a 0 (BitVec.ofNat 14 kind.val)) (fun s =>
    let k := s.ctxs[x]
    let fin := fun (bad : Bool) (s : State) => retire x 1 (modCtx x (fun k => { k with c := bad }) s)
    match kind with
    | 0 =>
      let w := fun r => leBytes 4 (rd k r).toNat
      fin false (raiseFrom x evSpool (leBytes 2 ((rd k a).toNat % 65536) ++ w 1 ++ w 2 ++ w 3 ++ w 4) s)
    | 1 => onBuf x a (fun h s =>
        let b := s.bufs[h]
        match b.mark, parseRead (bufBytes b b.len) with
        | .reply rssi phase, some r => fin false (handOn x h (tellRead x k.tseq rssi phase r s))
        | _, _ => fin true s) s
    | 2 => onBuf x a (fun h s =>
        match s.bufs[h].mark with
        | .frame f =>
          let data := match parseMac s.link.pan f.lane f.psdu with
            | some m => lnkRxData f m.src m.sec m.body
            | none => lnkRxData f 0 false (f.psdu.take (f.psdu.length - 2))
          fin false (handOn x h (raiseFrom x evLnkRx data s))
        | _ => fin true s) s) s)

end Sys2Proof.Machine
end

