-- ==== Sys2Proof/Machine/Reader.lean ====
section
/-!
DEFINITION. The reader's own machinery (chapters 10 and 11): link sets, forward-link frames, power and compensation, dwell
records and hopping, synthesizer calibration, and the built-in inventory. PRESUMED: command codes and field orders of the
forward link are those of ISO/IEC 18000-63, which the spec names and does not print.
-/
namespace Sys2Proof.Machine

-- ------------------------------------------------------------------ link sets (10.2)

/-- BLF of a code in kHz (RDR_BACK). -/
def blfKhz (c : Nat) : Nat :=
  match c with
  | 0 => 40
  | 1 => 80
  | 2 => 160
  | 3 => 250
  | 4 => 320
  | _ => 640

/-- The pulse width of a PW code in ticks: (0.265 + 0.0325 PW) Tari, at least 2 µs (RDR_FWD). -/
def pulseOf (tari pw : Nat) : Rat := max 48 (tari * (2650 + 325 * (pw : Rat)) / 10000)

/-- The link set of a profile (RDR_FWD, RDR_BACK, RDR_Q). -/
def profileSet (p : Profile) : LinkSet :=
  let tari := 600 / 2 ^ bits p.fwd 15 14
  let lo := bits p.q 7 4
  let hi := bits p.q 11 8
  { tari := tari, data1 := tari * (12 + bits p.fwd 6 4) / 2, mod := bits p.fwd 13 12, depth := 80 + bits p.fwd 11 7,
    pw := pulseOf tari (bits p.fwd 3 0), blf := blfKhz (bits p.back 5 3), dr64 := bit p.back 7,
    m := bits p.back 1 0, trext := bit p.back 6, qinit := max lo (min hi (bits p.q 15 12)), qmin := lo, qmax := hi,
    adapt := bit p.q 3 }

/-- The link set in force for a region (R289, Table 10-3). -/
def linkSet (region : Nat) (p : Profile) : LinkSet :=
  match region with
  | 0 =>
    { tari := 150, data1 := 1200, mod := 2, depth := 90, pw := pulseOf 150 4, blf := 640, dr64 := true, m := 0, trext := false,
      qinit := 4, qmin := 0, qmax := 15, adapt := true }
  | 1 =>
    { tari := 300, data1 := 2400, mod := 2, depth := 90, pw := pulseOf 300 4, blf := 320, dr64 := true, m := 2, trext := true,
      qinit := 4, qmin := 0, qmax := 15, adapt := true }
  | _ => profileSet p

/-- RTcal in quarter ticks: data-0 plus data-1. -/
def rtcal4 (l : LinkSet) : Nat := 4 * l.tari + l.data1
/-- The whole ticks in which 2 RTcal lie (R299). -/
def rtcalTwice (l : LinkSet) : Nat := (rtcal4 l + 1) / 2
/-- TRcal in ticks: DR / BLF. -/
def trcal (l : LinkSet) : Nat := (if l.dr64 then 512000 else 192000) / l.blf
/-- NONSTD (R291): TRcal outside 1.1 to 3 times RTcal. -/
def nonStd (l : LinkSet) : Bool := decide (40 * trcal l < 11 * rtcal4 l ∨ 3 * rtcal4 l < 4 * trcal l)

/-- What a forward-link frame sends, as durations in quarter ticks in the order of time: the delimiter, data-0, RTcal, for a preamble
TRcal (R243, R291), and the bits. PRESUMED: the delimiter of 12.5 µs is that of ISO/IEC 18000-63. Log entry 13 PRESUMED. -/
def fwdSymbols (f : AirFrame) : List Nat :=
  [1200, 4 * f.set.tari, rtcal4 f.set] ++ (if f.pre then [4 * trcal f.set] else []) ++
  f.bits.map fun b => if b then f.set.data1 else 4 * f.set.tari

/-- The tick at which the last symbol of a frame ends whose first begins at a tick: accurate to a tick (R288), so a fraction is rounded
freely. Log entry 21 DEDUCED. -/
def fwdEnd (first : Tick) (f : AirFrame) (s : State) : Tick × State :=
  let n := (fwdSymbols f).sum
  if n % 4 = 0 then (first + BitVec.ofNat 48 (n / 4), s)
  else
    let (up, s) := drawBool s
    (first + BitVec.ofNat 48 (if up then n / 4 + 1 else n / 4), s)

/-- The time after a command's end at which a slot counts as empty (R293): T1max + 10 µs. Log entry 21 DEDUCED. -/
def emptyTicks (l : LinkSet) : Nat := 5 * max (rtcal4 l) (960000 / l.blf) / 16 + 288
/-- The gap between a reply's end and the next command's first symbol (R294): 3 Tpri, and no less than the 203 ticks of the
instruction timing (8.12). Log entry 21 DEDUCED. -/
def replyGap (l : LinkSet) : Nat := max 203 ((72000 + l.blf - 1) / l.blf)
/-- The longest a slot can last (R306): every frame at its longest, with the largest EPC. DESIGN CHOICE.
Log entry 21 DEDUCED. -/
def slotMax (l : LinkSet) : Nat :=
  let cmd := fun n => (1200 + 4 * l.tari + rtcal4 l + 4 * trcal l + n * l.data1 + 3) / 4
  let back := fun n => (n + 40) * 2 ^ l.m * 24000 / l.blf
  cmd 22 + emptyTicks l + back 16 + replyGap l + cmd 18 + emptyTicks l + back 560 + replyGap l + cmd 8

-- ------------------------------------------------------------------ forward-link frames (10.4 to 10.6)

/-- The low n bits of a number, the highest first. -/
def bitsHigh (n v : Nat) : List Bool := ((List.range n).map v.testBit).reverse
/-- Bits of bytes, bit 7 of byte 0 first. -/
def byteBits (b : Bytes) : List Bool := (b.map fun x => bitsHigh 8 x.toNat).flatten

/-- A number of bits, the first bit highest. -/
def bitsNat (b : List Bool) : Nat := b.foldl (fun v x => 2 * v + if x then 1 else 0) 0
/-- Bits packed into bytes, the first in bit 7, the last byte filled with zeros. -/
def bitBytes : List Bool → Bytes
  | a :: b :: c :: d :: e :: f :: g :: h :: r => BitVec.ofNat 8 (bitsNat [a, b, c, d, e, f, g, h]) :: bitBytes r
  | [] => []
  | r => [BitVec.ofNat 8 (bitsNat r * 2 ^ (8 - r.length))]
/-- Append CRC-16 (preset 2). -/
def withCrc16 (b : List Bool) : List Bool := b ++ bitsHigh 16 (b.foldl (cvuBit 16 0x1021) 0xFFFF ^^^ 0xFFFF)
/-- Append CRC-5 (preset 1). -/
def withCrc5 (b : List Bool) : List Bool := b ++ bitsHigh 5 (b.foldl (cvuBit 5 9) 9)

/-- The groups of an EBV above its last. -/
def ebvHigh : Nat → Nat → List Bool
  | 0, _ => []
  | f + 1, v => if v = 0 then [] else ebvHigh f (v / 128) ++ true :: bitsHigh 7 (v % 128)
/-- An extensible bit vector. -/
def ebv (v : Nat) : List Bool := ebvHigh 3 (v / 128) ++ false :: bitsHigh 7 (v % 128)

/-- Select (R299): Target SL, Action 0, Truncate 0. Log entry 13 PRESUMED. -/
def selectBits (bank ptr : Nat) (mask : List Bool) : List Bool :=
  withCrc16 (bitsHigh 4 0xA ++ bitsHigh 3 4 ++ bitsHigh 3 0 ++ bitsHigh 2 bank ++ ebv ptr ++ bitsHigh 8 mask.length ++
    mask ++ [false])

/-- Query (R300). Log entry 13 PRESUMED. -/
def queryBits (l : LinkSet) (sel sess : Nat) (targetB : Bool) (q : Nat) : List Bool :=
  withCrc5 (bitsHigh 4 8 ++ [l.dr64] ++ bitsHigh 2 l.m ++ [l.trext] ++ bitsHigh 2 sel ++ bitsHigh 2 sess ++ [targetB] ++
    bitsHigh 4 q)

/-- QueryRep, QueryAdjust (one step up or down), ACK and NAK. -/
def repBits (sess : Nat) : List Bool := bitsHigh 2 0 ++ bitsHigh 2 sess
def adjustBits (sess : Nat) (up : Bool) : List Bool := bitsHigh 4 9 ++ bitsHigh 2 sess ++ bitsHigh 3 (if up then 6 else 3)
def ackBits (rn : BitVec 16) : List Bool := bitsHigh 2 1 ++ bitsHigh 16 rn.toNat
def nakBits : List Bool := bitsHigh 8 0xC0

-- ------------------------------------------------------------------ power and compensation (11.1)

/-- A requested power under the ceiling; with the external PA also under +33 dBm at the reference plane (R321). -/
def clampPower (p : Profile) (power : Int) (s : State) : Int :=
  let c := ceilUnits s.svy.smp.vpa
  if bit p.pa 15 then min power (min 132 (c + s.rdr.paGain)) else min power c

/-- Round to the nearest whole number; which of two equally near the spec leaves open. Log entry 24 DESIGN CHOICE. -/
def roundNear (x : Rat) : Int :=
  let f := (x + 1 / 2).floor
  if x + 1 / 2 = f ∧ !Config.halfUp x then f - 1 else f

/-- The supply points of a plane in mV (11.1): link, or reader. -/
def supplyPts (link : Bool) : List Nat := if link then [2700, 3000, 3300, 3600] else [3000, 3800, 4750, 5500]

/-- Where a value lies among rising points: the point below and the fraction on to the next, the edges held (R319). -/
def segOf : List Nat → Nat → Nat × Rat
  | a :: b :: r, v =>
    if v ≤ a then (0, 0)
    else if v < b then (0, ((v : Rat) - a) / ((b : Rat) - a))
    else match r with
      | [] => (0, 1)
      | _ => let (i, f) := segOf (b :: r) v; (i + 1, f)
  | _, _ => (0, 0)

/-- An entry of the factory table. -/
def tableAt (link : Bool) (i j : Nat) : Rat :=
  (Config.factoryTable link ⟨i % 16, Nat.mod_lt _ (by decide)⟩ ⟨j % 4, Nat.mod_lt _ (by decide)⟩ : Int)

/-- The drive correction in 0.05 dB units (R319): bilinear between the four surrounding entries, rounded to nearest. -/
def compOf (link : Bool) (m : Sample) : Int :=
  let tt := (max (-400) (min 1100 m.temp) + 400).toNat
  let i := min 14 (tt / 100)
  let ft : Rat := ((tt : Rat) - 100 * i) / 100
  let (j, fv) := segOf (supplyPts link) (if link then m.vin else m.vpa)
  let row := fun a => tableAt link a j + fv * (tableAt link a (j + 1) - tableAt link a j)
  roundNear (row i + ft * (row (i + 1) - row i))

/-- A new reader correction is ready for the next action (R320). Log entry 24 DESIGN CHOICE. -/
def compReady (m : Sample) : State → State :=
  setRdr fun r => { r with compNext := (m.temp / 10, compOf false m) }

/-- A HOP recomputes the correction from a fresh Survey sample (R319, R320). -/
def compHop (s : State) : State :=
  let (m, s) := freshSample s
  compReady m s

-- ------------------------------------------------------------------ dwell records (10.7)

/-- The carrier-on spans of a channel, the oldest first, the running one last. -/
def spansOf (f : Nat) (s : State) : List (Tick × Tick) :=
  (s.rdr.onTime.filterMap fun e => if e.1 = f then some e.2 else none) ++
  (match s.rdr.carrier with
   | some t => if s.radio.rFreq = f then [(t, s.reel.cnt)] else []
   | none => [])

/-- Ticks of carrier that a channel has had in the last 20 s (R307). -/
def spentFcc (f : Nat) (s : State) : Nat :=
  ((spansOf f s).map fun e =>
    min 480000000 (ticksBetween e.1 s.reel.cnt) - min 480000000 (ticksBetween e.2 s.reel.cnt)).sum

/-- Less than 10 ms of the 400 ms are left (R307). -/
def fccShort (f : Nat) (s : State) : Bool := decide (9360000 < spentFcc f s)

/-- Ticks until an excess has left the sliding 20 s, the oldest span first. -/
def regainIn (now : Tick) : List (Tick × Tick) → Nat → Nat
  | [], _ => 0
  | e :: r, rest =>
    let a := min 480000000 (ticksBetween e.1 now)
    let n := a - min 480000000 (ticksBetween e.2 now)
    if rest ≤ n then 480000000 - a + rest else regainIn now r (rest - n)

/-- Ticks until a channel has regained 10 ms of its budget. -/
def fccRegain (f : Nat) (s : State) : Nat := regainIn s.reel.cnt (spansOf f s) (spentFcc f s - 9360000)

/-- The FREQ codes of Table 10-4. -/
def fccFreq (k : Nat) : Nat := 2510 + 20 * k
def etsiFreq (i : Fin 4) : Nat := 1028 + 24 * i.val

/-- The ticks for which a channel left a moment ago stays barred (R308). -/
def etsiBar (f : Nat) (s : State) : Nat :=
  match s.rdr.leftAt.find? fun e => e.1 == f with
  | some e => 2400000 - ticksBetween e.2 s.reel.cnt
  | none => 0

/-- Pick element by element from a list by a number: the permutation that the number spells.
Log entry 23 DESIGN CHOICE. -/
def permute : Nat → Nat → List Nat → List Nat
  | 0, _, _ => []
  | n + 1, c, l => match l[c % l.length]? with
    | none => []
    | some x => x :: permute n (c / l.length) (l.erase x)

/-- A fresh FCC permutation (Table 10-4): it takes DRBG output; which permutation the output gives the spec does not state,
so it is free. Log entry 23 DESIGN CHOICE. -/
def freshCycle (s : State) : List Nat × State :=
  let s := match drbgTake 32 s with | some (_, s) => s | none => s
  let (c, s) := drawNat s
  (permute 50 c (List.range 50), s)

/-- The smallest of a list of numbers. -/
def minOf : List Nat → Nat
  | [] => 0
  | [x] => x
  | x :: r => min x (minOf r)

/-- The next channel of a tenant's sequence, or the ticks to wait for one (R301, R306 to R309). Log entry 22 DEDUCED. -/
def nextChannel (t : Tenant) (region : Nat) (s : State) : Except Nat (Nat × State) :=
  match region with
  | 0 =>
    let usable := fun k => !fccShort (fccFreq k) s
    if !(List.range 50).any usable then .error (minOf ((List.range 50).map fun k => fccRegain (fccFreq k) s))
    else
      let (l, s) := if s.rdr.cycle[t].any usable then (s.rdr.cycle[t].dropWhile fun k => !usable k, s)
                    else let (c, s) := freshCycle s; (c.dropWhile fun k => !usable k, s)
      match l with
      | [] => .error 1
      | k :: rest => .ok (fccFreq k, setRdr (fun r => { r with cycle := r.cycle.set t.val rest t.isLt }) s)
  | 1 =>
    let order := [s.rdr.etsiNext[t], s.rdr.etsiNext[t] + 1, s.rdr.etsiNext[t] + 2, s.rdr.etsiNext[t] + 3]
    match order.find? fun i => etsiBar (etsiFreq i) s == 0 with
    | some i => .ok (etsiFreq i, setRdr (fun r => { r with etsiNext := r.etsiNext.set t.val (i + 1) t.isLt }) s)
    | none => .error (minOf (order.map fun i => etsiBar (etsiFreq i) s))
  | _ =>
    let tab := s.prof[t].hop
    let i := s.rdr.tabNext[t] % tab.length
    .ok (tab.getD i 0, setRdr (fun r => { r with tabNext := r.tabNext.set t.val (i + 1) t.isLt }) s)

/-- A further slot of n ticks fits the region's dwell rule on the channel in use (R306 to R309).
Log entry 22 DEDUCED. -/
def dwellFits (t : Tenant) (region : Nat) (visit : Tick) (n : Nat) (s : State) : Bool :=
  let f := s.radio.rFreq
  match region with
  | 0 => decide (spentFcc f s + n ≤ 9600000)
  | 1 => decide ((match s.rdr.carrier with | some c => ticksBetween c s.reel.cnt | none => 0) + n ≤ 96000000)
  | _ =>
    let spent := ((spansOf f s).map fun e => if reached e.1 visit then ticksBetween e.1 e.2 else 0).sum
    decide (spent + n ≤ s.prof[t].hopDwell * 24000)

-- ------------------------------------------------------------------ calibration (9.1)

/-- A calibration onto a channel: it succeeds at once or at its repeat, which brings the core to SYNTH, or fails twice (R261,
R263). -/
def calibrate (c : CoreId) (cal : Cal) (session : Bool) (s : State) : State :=
  let s := calEnd c cal (deepAtChange c session s)
  match cal with
  | .ok => setCore c .synth s
  | .failed => s

-- ------------------------------------------------------------------ the carrier and the external PA (11.2)

/-- Report a class of a Survey target: it changes after two of the same in a row, and a change to a fault is told and
logged (R560). -/
def reportClass (n : Fin 6) (cls : Nat) (s : State) : State :=
  let g := s.svy.targets[n]
  let s := setSvy (fun v => { v with targets := vmod v.targets n fun g => { g with seen := cls } }) s
  if g.seen = cls ∧ g.cls ≠ cls then
    let s := setSvy (fun v => { v with targets := vmod v.targets n fun g => { g with cls := cls } }) s
    if cls = 0 then s
    else
      let d := [BitVec.ofNat 8 n.val, BitVec.ofNat 8 cls]
      logEntry evAerialFault d (raiseAll evAerialFault d s)
  else s

/-- The PA load is judged 20 µs after a carrier settle (R561): the median of the first 16 currents is the reference. -/
def paLoad (cur : Nat) (s : State) : State :=
  let a := s.rdr.aerial
  let s := setSvy (fun v => { v with paCur := cur }) s
  let refs := s.svy.paRefs[a]
  if refs.length < 16 then setSvy (fun v => { v with paRefs := vmod v.paRefs a (· ++ [cur]) }) s
  else
    let l := refs.mergeSort (· ≤ ·)
    let twice := l.getD 7 0 + l.getD 8 0
    let cls := if 13 * twice < 20 * cur then 3 else if 20 * cur < 7 * twice then 1 else 0
    reportClass ⟨a.val, by omega⟩ cls s

/-- The carrier starts to ramp at a tick: the power as asked under what the ceiling now is (R61, R321), the external PA's bias and
enable before it (R324), the correction in force. -/
def rampUp (p : Profile) (pset : BitVec 16) (at_ : Tick) (s : State) : State :=
  let s := setCore .reader .tx (paUp p at_ (compApply (extPa p) s))
  let power := clampPower p pset.toInt s
  setRdr (fun r => { r with pset := BitVec.ofInt 16 power, drive := driveOf (extPa p) power s, loop := false }) s

/-- The ramp has ended: with the external PA the gain is learned and PAFB judged (R323, R327), its current sampled (R561), and the drive
follows the gain, regulated from PAFB while that is in its window (R322). Log entry 26 DEDUCED. -/
def rampDone (p : Profile) (pafb : Int) (pacur : Nat) (s : State) : State :=
  let s := carrierOn s.reel.cnt s
  if extPa p then
    let cpl : Int := bits p.pacpl 7 0
    let s := setRdr (fun r => { r with
      paGain := max (-32768) (min 32767 (pafb + cpl - r.drive / 5))
      pafbLo := decide (pafb < -80), pafbHi := decide (-20 < pafb), loop := decide (-80 ≤ pafb ∧ pafb ≤ -20) }) s
    paLoad pacur (setRdr (fun r => { r with drive := driveOf true r.pset.toInt s }) s)
  else setSvy (fun v => { v with paCur := 0xFFFF }) s

/-- The 40 MHz channel group of a FREQ code (11.2). -/
def dpdGroup (f : Nat) : Fin 3 := ⟨min 2 (f / 1600), by omega⟩

/-- A forward-link frame adapts the predistortion table of its group (R326, R327). The table converges within 20 frames; at which the
spec does not say, and the model takes the twentieth. Log entry 76 DESIGN CHOICE. -/
def dpdFrame (p : Profile) (s : State) : State :=
  if extPa p && bit p.pa 14 && !s.rdr.pafbLo && !s.rdr.pafbHi then
    setRdr (fun r => { r with dpd := vmod r.dpd (dpdGroup s.radio.rFreq) (satInc 20) }) s
  else s

-- ------------------------------------------------------------------ the built-in program's context

/-- Why the reader cannot be used at all: LIMP, VPA low, lost receive slices or synthesizers (R60, R85, R583). -/
def readerDown (s : State) : Option Byte :=
  if inLimp s then some stLimp
  else if s.power.vpaLow || lostReaderRx s || noSyn s then some stDegraded
  else none

/-- A context in which a program runs or a load is open is busy (R165, R206). -/
def ctxBusy (k : Ctx) : Bool := k.run == .running || k.run == .waiting || k.load.isSome

/-- A built-in program starts in a tenant's context (R165, R166). -/
def startBuiltin (t : Tenant) (tseq : BitVec 16) (s : State) : State :=
  let now := s.reel.cnt
  s |> modCtx t fun k =>
    { k with run := .waiting, starter := .builtin, tseq := tseq, fault := 0, pend := none, start := none, early := [],
             stopping := none, wipe := false, held := [], lostR := false, lostL := false, stack := [], cyc := 0, wdog := 0,
             began := now }

/-- The built-in program waits for an instruction of its own to complete. -/
def builtinPend (x : Tenant) (op : WaitOp) (until_ : Tick) (noAir : Bool) (s : State) : State :=
  modCtx x (fun k => { k with
    run := .waiting
    pend := some { op := op, d := 0, a := 0, b := 0, fn := 0, issued := s.reel.cnt, until_ := until_, noAir := noAir,
                   epoch := s.epoch.rdr } }) s

/-- Ask for the reader air for a built-in program and wait for its channel. -/
def builtinTune (x : Tenant) (cls freq : Nat) (s : State) : State :=
  let s := builtinPend x .hop s.reel.cnt true s
  requestAir { core := .reader, who := .ctx x, cls := cls, freq := freq, since := s.reel.cnt, gnt := true,
               wait := coexWait x s, noWait := false } s

/-- A Query that sets Q opens a slot at its commit point; a QueryRep keeps the count of slots, a QueryAdjust starts it anew. -/
def opensQuery (x : Tenant) (q : Nat) (at_ : Tick) : Option Opening :=
  some { at_ := at_, who := x, query := true, q := q, anew := true }
def opensSlot (x : Tenant) (q : Nat) (anew : Bool) (at_ : Tick) : Option Opening :=
  some { at_ := at_, who := x, query := false, q := q, anew := anew }
/-- A frame that opens no slot. -/
def opensNone (_ : Tick) : Option Opening := none

/-- The built-in program sends a frame whose first symbol comes `gap` ticks from now; its action tick, 192 ticks before, is
the slot's commit point (R243, R275), at which a slot that it opens counts; it is sent when its last symbol has ended. -/
def builtinSend (x : Tenant) (f : AirFrame) (gap : Nat) (opens : Tick → Option Opening) (s : State) : State :=
  let first := s.reel.cnt + BitVec.ofNat 48 gap
  let s := setRdr (fun r => { r with onAir := some f, opening := opens (first - 192) }) (compApply (extPa s.loaded[x]) s)
  let s := match holdOf .reader s with
    | some h => if h.commit.isNone then setCommit .reader (some (first - 192)) s else s
    | none => s
  let (last, s) := fwdEnd first f s
  dpdFrame s.loaded[x] (builtinPend x .txsym last false s)

/-- A frame with a frame-sync, as every command but a Query begins (10.2). -/
def plainFrame (l : LinkSet) (b : List Bool) : AirFrame := { set := l, pre := false, bits := b }

/-- The bits of a reply. -/
def replyAll (r : Reply) : List Bool := (byteBits r.bytes).take r.bits

/-- A reply ends in the CRC-16 of what comes before (R245, R296). -/
def crcGood (b : List Bool) : Bool := decide (16 ≤ b.length) && withCrc16 (b.take (b.length - 16)) == b

/-- A measured backlink rate lies within 25 % of the nominal one (R292). -/
def rateIn (l : LinkSet) (hz : Nat) : Bool := decide (3 * (1000 * l.blf) ≤ 4 * hz ∧ 4 * hz ≤ 5 * (1000 * l.blf))
def rateOk (l : LinkSet) (r : Reply) : Bool := rateIn l r.rateHz

/-- A frame or slot on a core has ended: its commit point is behind, and a request that may preempt the holder does so now
(R265, R275). Log entry 20 DEDUCED. -/
def frameEnd (c : CoreId) (s : State) : State :=
  let s := setCommit c none s
  match holdOf c s with
  | none => s
  | some h =>
    let takes := fun (r : AirReq) => airConflict r h.req s && mayPreempt s.reel.cnt r h && !ownHold r h
    match firstGrantable s.reel.cnt s [] (orderedWaiters s) with
    | some r => if takes r then grantAir r s.reel.cnt s else s
    | none => s

-- ------------------------------------------------------------------ the inventory (10.4)

/-- The link set of V1 mode (Table 4-10): Tari, BLF and encoding of V1_LINK and Q of V1_Q; DESIGN CHOICE: the rest as the
profile's reset values. Log entry 30 DESIGN CHOICE. -/
def v1Set (v : V1St) : LinkSet :=
  let tari := 600 / 2 ^ bits v.link 6 5
  { tari := tari, data1 := 8 * tari, mod := 2, depth := 90, pw := pulseOf tari 4, blf := blfKhz (bits v.link 4 2), dr64 := true, m := bits v.link 1 0, trext := true,
    qinit := bits v.q 3 0, qmin := 0, qmax := 15, adapt := bit v.q 4 }

/-- The link set of an inventory. -/
def invSet (x : Tenant) (i : Inv) (s : State) : LinkSet :=
  if i.v1 then v1Set s.v1 else linkSet i.args.region s.loaded[x]

/-- Set V1 flags (Table 4-10). -/
def v1Flag (m : Byte) : State → State := setV1 fun v => { v with irqflg := v.irqflg ||| m }

/-- V1 mode's error: the code and the ERR flag. -/
def v1Error (st : Byte) : State → State := setV1 fun v => { v with err := st, irqflg := v.irqflg ||| 0x08 }

/-- Q of a Qfp in hundredths: half up (R297). -/
def qOf (qfp : Nat) : Nat := (qfp + 50) / 100

/-- Tell the end of a round (R296, R298, R315): its counts and the empty run; in V1 mode by the ROUND_END flag. -/
def roundTold (x : Tenant) (i : Inv) (s : State) : State :=
  let s := setRdr (fun r => { r with running := false,
                                     emptyRun := if i.reply then 0 else satInc 0xFFFF r.emptyRun }) s
  if i.v1 then v1Flag 0x02 s
  else raise x evRoundEnd (leBytes 2 i.tseq.toNat ++ leBytes 2 i.round.toNat ++ [BitVec.ofNat 8 i.q] ++ leBytes 2 i.slots ++
    leBytes 2 i.tags ++ leBytes 2 i.coll ++ leBytes 2 i.empty) s

/-- The inventory after its round: counts added, target toggled (R300), nothing running. -/
def roundClosed (i : Inv) : Inv :=
  { i with rounds := i.rounds + 1, tagsAll := i.tagsAll + i.tags, running := false, resume := false, withdrawn := false,
           targetB := if bit i.args.sess 3 then !i.targetB else i.targetB }

/-- An inventory ends: the round's events first, then EV_INV_DONE (R313, R315); V1 mode keeps the status of one that
failed. -/
def invDone (x : Tenant) (status : Byte) (s : State) : State :=
  match s.rdr.inv[x] with
  | none => s
  | some i =>
    let (i, s) := if i.running then (roundClosed i, roundTold x i s) else (i, s)
    let s := endProgram x status (setInv x none s)
    if i.v1 then (if status = stOk then s else v1Error status s)
    else raise x evInvDone (leBytes 2 i.tseq.toNat ++ [status] ++ leBytes 2 i.rounds ++ leBytes 4 i.tagsAll) s

/-- DUR has run out (R313): it counts from the first grant; 0 means one round. -/
def durOver (i : Inv) (s : State) : Bool :=
  match i.from_ with
  | some f => i.args.dur != 0 && reached s.reel.cnt (f + BitVec.ofNat 48 (i.args.dur * 24000))
  | none => false

/-- The inventory looks for its next channel and asks for air as a new round (class 4), or waits with the air released for
its region's rule (R306 to R308). A channel that it leaves with the air in hand is left now (R308). -/
def invHop (x : Tenant) (i : Inv) (s : State) : State :=
  let s := carrierOff s.reel.cnt s
  let s := if holds (.ctx x) .reader s then leaveChannel s.reel.cnt s else s
  match nextChannel x i.args.region s with
  | .ok (f, s) => builtinTune x 4 f (setInv x (some { i with stage := .tune, freq := f }) s)
  | .error n =>
    let s := if holds (.ctx x) .reader s then releaseAir .reader s else s
    let till := s.reel.cnt + BitVec.ofNat 48 n
    builtinPend x .waitd till false (setInv x (some { i with stage := .regionWait till }) s)

/-- The next aerial in ascending order, wrapping (R312). -/
def nextAerial (sel : BitVec 4) (a : Fin 4) : Fin 4 :=
  ([a + 1, a + 2, a + 3].find? fun j => bit sel j.val).getD a

/-- The round's first frame, where its first slot fits the region's dwell rule (R306): a Select where one is asked for (R299), else the
Query, which starts the round at its commit point (R244, R295, R300). `sel` tells that the Select has been sent.
Log entry 21 DEDUCED. -/
def roundOpen (x : Tenant) (i : Inv) (sel : Bool) (gap : Nat) (s : State) : State :=
  let l := invSet x i s
  if !dwellFits x i.args.region i.visitFrom (slotMax l) s then invHop x i s
  else if i.args.slen ≠ 0 ∧ !sel then
    builtinSend x (plainFrame l (selectBits i.args.sbank i.args.sptr ((byteBits i.args.smask).take i.args.slen))) gap opensNone
      (setInv x (some { i with stage := .send, sent := .select }) s)
  else
    let q := if l.adapt then qOf i.qfp else l.qinit
    builtinSend x
      { set := l, pre := true, bits := queryBits l (if i.args.slen ≠ 0 then 3 else 0) (bits i.args.sess 1 0) i.targetB q } gap
      (opensQuery x q) (setInv x (some { i with stage := .send, sent := .query, resume := false }) s)

/-- The round is over: ROUND_END tells it. -/
def roundOver (x : Tenant) (i : Inv) (s : State) : State :=
  builtinPend x .waitd s.reel.cnt false (setInv x (some { i with stage := .over }) s)

/-- Open the next slot (R297): one step of Q by QueryAdjust, or QueryRep. -/
def slotOpen (x : Tenant) (i : Inv) (gap : Nat) (s : State) : State :=
  let l := invSet x i s
  let sess := bits i.args.sess 1 0
  let target := qOf i.qfp
  if l.adapt ∧ target ≠ i.q then
    let up := decide (i.q < target)
    builtinSend x (plainFrame l (adjustBits sess up)) gap (opensSlot x (if up then i.q + 1 else i.q - 1) true)
      (setInv x (some { i with stage := .send, sent := .adjust, resume := false }) s)
  else
    builtinSend x (plainFrame l (repBits sess)) gap (opensSlot x i.q false)
      (setInv x (some { i with stage := .send, sent := .rep, resume := false }) s)

/-- After a slot (R283, R295, R306, R313): the round is over at 2^Q slots, at a stop, a withdrawal, the end of DUR, or when
another slot would not fit the dwell rule; a preempted round waits for its air; otherwise the next slot opens.
Log entry 21 DEDUCED. -/
def slotDone (x : Tenant) (i : Inv) (gap : Nat) (s : State) : State :=
  let l := invSet x i s
  let s := frameEnd .reader (dropBufs x (setInv x (some i) s))
  let fits := dwellFits x i.args.region i.visitFrom (slotMax l) s
  if decide (2 ^ i.q ≤ i.sinceQ) || i.ending.isSome || i.withdrawn || durOver i s || !fits then
    roundOver x i s
  else if holds (.ctx x) .reader s then slotOpen x i gap s
  else s

/-- The next round of an inventory (10.4): Keel judges what ends it, moves the aerial on (R312), lets requests go first that
come before a new round (R269), hops when the dwell rule asks for it (R306), and keeps the carrier off for 150 µs while
the lantern tag is enabled (R371); a carrier that was on takes 240 ticks to ramp down (R242). Log entry 22 DEDUCED. -/
def invNext (x : Tenant) (i : Inv) (s : State) : State :=
  let s := setInv x (some i) s
  match i.ending, readerDown s with
  | some st, _ => invDone x st s
  | none, some st => invDone x st s
  | none, none =>
    if i.single ∨ durOver i s then invDone x stOk s
    else
      let l := invSet x i s
      let a := nextAerial i.args.asel i.aerial
      let turn := decide (a ≠ i.aerial)
      let i := { i with aerial := a }
      let down := turn || s.tag.enabled
      let fall := if down && s.rdr.carrier.isSome then 240 else 0
      let s := if down then carrierOff s.reel.cnt s else s
      let s := if down then setRdr (fun r => { r with aerial := a }) s else s
      let s := match holdOf .reader s with
        | some h =>
          if h.req.who == .ctx x then
            let mine : AirReq := { h.req with cls := 4, since := s.reel.cnt }
            let first := s.radio.waiters.any fun r => airConflict r mine s && !beforeInOrder mine r s && coexOk r s
            if first then releaseAir .reader s else setHold .reader (some { h with req := mine }) s
          else s
        | none => s
      if holds (.ctx x) .reader s then
        if !dwellFits x i.args.region i.visitFrom (slotMax l) s then invHop x i s
        else if s.rdr.carrier.isSome then roundOpen x i false (replyGap l) s
        else
          let t := s.reel.cnt + BitVec.ofNat 48 (fall + if s.tag.enabled then 3600 else 0)
          builtinPend x .txcw (t + 243) false
            (rampUp s.loaded[x] i.args.pset (t + 3)
              (setRdr (fun r => { r with aerial := a }) (setInv x (some { i with stage := .ramp }) s)))
      else invHop x i s

/-- A steering of Qfp after a slot (R297). -/
def qfpAfter (l : LinkSet) (coll : Bool) (v : Nat) : Nat :=
  if !l.adapt then v
  else if coll then min (100 * l.qmax) (v + 35) else max (100 * l.qmin) (v - 15)

/-- A reply that began (R292): outside the rate tolerance it counts in RDR_DECERR. -/
def countHz (l : LinkSet) (hz : Nat) (s : State) : State :=
  if rateIn l hz then s else setRdr (fun q => { q with decErr := satInc 0xFFFF q.decErr }) s
def countRate (l : LinkSet) (r : Reply) : State → State := countHz l r.rateHz

/-- The inventory's channel is reached: the carrier ramps up on the inventory's own aerial (R241, R242, R312). A round that was
suspended keeps the visit that its dwell rule counts from. -/
def invTuned (x : Tenant) (i : Inv) (cal : Cal) (s : State) : State :=
  let s := calibrate .reader cal false (compApply (extPa s.loaded[x]) s)
  match cal with
  | .failed => invDone x stCalFail s
  | .ok =>
    let s := compHop (setRadio (fun r => { r with rFreq := i.freq }) s)
    let t := leadTick s s.reel.cnt
    let i := { i with stage := .ramp, visitFrom := if i.resume then i.visitFrom else s.reel.cnt }
    builtinPend x .txcw (t + 240) false
      (rampUp s.loaded[x] i.args.pset t (setRdr (fun r => { r with aerial := i.aerial }) (setInv x (some i) s)))

/-- The canceller has converged: the round goes on, or opens (R268, R329). -/
def invSettled (x : Tenant) (i : Inv) (s : State) : State :=
  if i.resume then
    if dwellFits x i.args.region i.visitFrom (slotMax (invSet x i s)) s then slotOpen x i 203 s else roundOver x i s
  else roundOpen x i false 203 s

/-- A Select has been sent: a stop or a withdrawal that came past its commit point takes effect (R181, R283), a request that may preempt
takes the air (R265), otherwise the Query follows after 2 RTcal (R299). -/
def selectSent (x : Tenant) (i : Inv) (s : State) : State :=
  match i.ending with
  | some st => invDone x st s
  | none =>
    if i.withdrawn then
      builtinTune x 4 i.freq (setInv x (some { i with stage := .tune, withdrawn := false }) (releaseAir .reader s))
    else
      let s := frameEnd .reader s
      if holds (.ctx x) .reader s then roundOpen x i true (max 203 (rtcalTwice (invSet x i s))) s else s

/-- The frame has been sent: what follows a Select, a reply awaited after a slot's command or an ACK,
or the next slot after a NAK (R296, R299). -/
def invSent (x : Tenant) (i : Inv) (s : State) : State :=
  let l := invSet x i s
  match i.sent with
  | .select => selectSent x i s
  | .nak => slotDone x i 203 s
  | _ =>
    builtinPend x .rxwin (s.reel.cnt + BitVec.ofNat 48 (emptyTicks l)) false (setInv x (some { i with stage := .window }) s)

/-- V1 mode keeps what is read in its FIFO: a length byte, PC, EPC and RSSI; a full FIFO discards it (R132).
Log entry 29 DEDUCED. -/
def v1Read (r : TagRead) (rssi : Byte) : State → State :=
  let e : Bytes := BitVec.ofNat 8 (r.epc.length + 3) :: (leBytes 2 r.pc.toNat ++ r.epc ++ [rssi])
  setV1 fun v =>
    if v.fifo.length < 16 then { v with fifo := v.fifo ++ [e], irqflg := v.irqflg ||| 0x01 }
    else { v with irqflg := v.irqflg ||| 0x04 }

/-- What a reply, or none, makes of the slot (R292, R293, R296, R594). -/
def invReply (x : Tenant) (i : Inv) (reply : Option Reply) (s : State) : State :=
  let l := invSet x i s
  let gap := replyGap l
  match i.sent, reply with
  | .ack, none => slotDone x i 203 s
  | .ack, some r =>
    let s := countRate l r s
    match r.decoded && rateOk l r && crcGood (replyAll r), parseRead r.bytes with
    | true, some d =>
      let s := if i.v1 then gatherCaps (readCaps d) (countRead d.epc (v1Read d r.rssi s))
               else tellRead x i.tseq r.rssi r.phase d s
      slotDone x { i with tags := i.tags + 1 } gap s
    | _, _ =>
      builtinSend x (plainFrame l nakBits) gap opensNone (setInv x (some { i with stage := .send, sent := .nak }) (dropBufs x s))
  | _, none => slotDone x { i with empty := i.empty + 1, qfp := qfpAfter l false i.qfp } 203 s
  | _, some r =>
    let i := { i with reply := true }
    let s := countRate l r s
    if r.decoded && rateOk l r && r.bits == 16 then
      match findBuf 5 s with
      | none => slotDone x i gap (setEpoch (fun e => { e with rxdrop := satInc 0xFFFF e.rxdrop }) (missBuf 5 false s))
      | some h =>
        let s := modCtx x (fun k => { k with held := [h] }) (serveBuf 5 false h s)
        builtinSend x (plainFrame l (ackBits (BitVec.ofNat 16 (beNat (r.bytes.take 2))))) gap opensNone
          (setInv x (some { i with stage := .send, sent := .ack }) s)
    else slotDone x { i with coll := i.coll + 1, qfp := qfpAfter l true i.qfp } gap s

/-- ROUND_END (R295, R298, R315): the round's end is told and the inventory goes on. -/
def execRoundEnd (x : Tenant) (now : Tick) (s : State) : Host.Outcome State Fault Refusal :=
  let s := advanceTo now s
  match s.rdr.inv[x] with
  | none => .next s
  | some i =>
    if i.stage = .over then
      let s := roundTold x i s
      let gone := i.withdrawn
      let i := roundClosed i
      if gone then
        let s := if holds (.ctx x) .reader s then releaseAir .reader s else s
        .next (invNext x i s)
      else .next (invNext x i s)
    else .next s

/-- INVENTORY_DUR_EXPIRY (R313): a slot past its commit point is the last; otherwise the inventory ends at once. -/
def execInventoryDurExpiry (x : Tenant) (now : Tick) (s : State) : Host.Outcome State Fault Refusal :=
  let s := advanceTo now s
  match s.rdr.inv[x] with
  | none => .next s
  | some i =>
    if durOver i s then
      if i.stage = .over ∨ (pastCommit .reader s ∧ holds (.ctx x) .reader s) then
        .next (setInv x (some { i with ending := some (i.ending.getD stOk) }) s)
      else .next (invDone x stOk s)
    else .next s

end Sys2Proof.Machine
end

