-- ==== Sys2Proof/Machine/Access.lean ====
section
/-!
DEFINITION. Singulation and access (10.6) as Keel's built-in program runs them, for RDR.ACCESS and for the interrogator's
exchanges (12.6). PRESUMED: command codes and reply layouts are those of ISO/IEC 18000-63.
-/
namespace Sys2Proof.Machine

/-- n bits of a reply from bit `off` on, as a number. -/
def replyBits (r : Reply) (off n : Nat) : Nat := bitsNat (((byteBits r.bytes).drop off).take n)
def replyWord (r : Reply) (off : Nat) : BitVec 16 := BitVec.ofNat 16 (replyBits r off 16)

/-- The link set of an access (R289). -/
def accSet (x : Tenant) (a : Acc) (s : State) : LinkSet := linkSet a.args.region s.loaded[x]

/-- Req_RN, Access, Read, Write and Lock with the handle. Log entry 13 PRESUMED. -/
def reqRnBits (rn : BitVec 16) : List Bool := withCrc16 (bitsHigh 8 0xC1 ++ bitsHigh 16 rn.toNat)
/-- Log entry 13 PRESUMED. -/
def accessBits (half : Nat) (rn h : BitVec 16) : List Bool :=
  withCrc16 (bitsHigh 8 0xC6 ++ bitsHigh 16 (half ^^^ rn.toNat) ++ bitsHigh 16 h.toNat)
/-- Log entry 13 PRESUMED. -/
def readBits (bank ptr n : Nat) (h : BitVec 16) : List Bool :=
  withCrc16 (bitsHigh 8 0xC2 ++ bitsHigh 2 bank ++ ebv ptr ++ bitsHigh 8 n ++ bitsHigh 16 h.toNat)
/-- Log entry 13 PRESUMED. -/
def writeBits (bank ptr : Nat) (w rn h : BitVec 16) : List Bool :=
  withCrc16 (bitsHigh 8 0xC3 ++ bitsHigh 2 bank ++ ebv ptr ++ bitsHigh 16 (w ^^^ rn).toNat ++ bitsHigh 16 h.toNat)
/-- Log entry 13 PRESUMED. -/
def lockBits (payload : Nat) (h : BitVec 16) : List Bool :=
  withCrc16 (bitsHigh 8 0xC5 ++ bitsHigh 20 payload ++ bitsHigh 16 h.toNat)

/-- Authenticate and SecureComm with SenRep 1 and IncRepLen 1 (12.3, 12.4). Log entries 13 PRESUMED, 14 PRESUMED. -/
def authBits (csi : Nat) (msg : Bytes) (h : BitVec 16) : List Bool :=
  withCrc16 (bitsHigh 8 0xD5 ++ [false, false, true, true] ++ bitsHigh 8 csi ++ bitsHigh 12 (8 * msg.length) ++
    byteBits msg ++ bitsHigh 16 h.toNat)
/-- Log entry 13 PRESUMED. -/
def secureBits (msg : Bytes) (h : BitVec 16) : List Bool :=
  withCrc16 (bitsHigh 8 0xD6 ++ [false, false, true, true] ++ ebv (8 * msg.length) ++ byteBits msg ++ bitsHigh 16 h.toNat)

/-- TPROOF and RPROOF (12.3). -/
def tproof (c : SecCtx) : Bytes := (cmac c.kmac ([0x02] ++ c.rch ++ c.tch)).take 8
def rproof (c : SecCtx) : Bytes := (cmac c.kmac ([0x03] ++ c.tch ++ c.rch)).take 8

/-- The frame of an access's step (R302, R303, R348, Table 12-4). Log entries 14 PRESUMED, 28 DEDUCED. -/
def accFrame (l : LinkSet) (x : Tenant) (a : Acc) (s : State) : List Bool :=
  match a.step, a.kind with
  | .select, _ => selectBits 1 0x20 (byteBits a.epc)
  | .query, _ => queryBits l 3 0 (a.attempt % 2 == 1) 0
  | .ack, _ => ackBits a.rn
  | .reqRn, _ => reqRnBits a.rn
  | .passRn _, _ | .writeRn, _ => reqRnBits a.handle
  | .pass second, .access _ apwd _ _ _ _ =>
    accessBits (if second then bits apwd 15 0 else bits apwd 31 16) a.rn a.handle
  | .op, .access op _ bank wptr wcnt data =>
    if op = 0 then readBits bank wptr wcnt a.handle
    else if op = 1 then writeBits bank (wptr + a.done.length) (data.getD a.done.length 0) a.rn a.handle
    else lockBits (wptr % 65536 + 65536 * (wcnt % 16)) a.handle
  | .tid short, _ => readBits 2 0 (if short then 2 else 6) a.handle
  | .exchange, .tam1 _ keyId => authBits 0x00 ([0x00, keyId] ++ s.sess[x].challenge) a.handle
  | .exchange, .farz _ => authBits 0xD1 ([0x01, 0x01] ++ s.sess[x].challenge) a.handle
  | .fz3, _ =>
    authBits 0xD1 ([0x03] ++ (match s.sess[x].ctx with | some c => rproof c | none => [])) a.handle
  | _, _ => []

/-- Send the frame of the access's step; a Query starts a round at its commit point (R244, R295, R298). -/
def accSend (x : Tenant) (a : Acc) (gap : Nat) (s : State) : State :=
  let l := accSet x a s
  builtinSend x { set := l, pre := a.step == .query, bits := accFrame l x a s } gap
    (if a.step = .query then opensQuery x 0 else opensNone) (setAcc x (some { a with stage := .send }) s)

/-- An access asks for air on its region's next channel, or waits for its rule (R301). -/
def accTune (x : Tenant) (a : Acc) (s : State) : State :=
  match nextChannel x a.args.region s with
  | .ok (f, s) => builtinTune x 4 f (setAcc x (some { a with stage := .tune, step := .select, freq := f }) s)
  | .error n =>
    let till := s.reel.cnt + BitVec.ofNat 48 n
    builtinPend x .waitd till false (setAcc x (some { a with stage := .regionWait till }) s)

/-- The channel is reached and the carrier ramps up. -/
def accTuned (x : Tenant) (a : Acc) (cal : Cal) (s : State) : State :=
  let s := calibrate .reader cal false (compApply (extPa s.loaded[x]) s)
  match cal with
  | .failed => endAcc x stCalFail 0 1 s
  | .ok =>
    let s := compHop (setRadio (fun r => { r with rFreq := a.freq }) s)
    let s := setRdr (fun r => { r with aerial := a.asel }) s
    let t := leadTick s s.reel.cnt
    builtinPend x .txcw (t + 240) false
      (rampUp s.loaded[x] a.args.pset t (setAcc x (some { a with stage := .ramp }) s))

/-- An attempt has failed: the next one, or ST_TIMEOUT after the fourth (R302, R363). Log entry 28 DEDUCED. -/
def attemptFail (x : Tenant) (a : Acc) (s : State) : State :=
  if 3 ≤ a.attempt then endAcc x stTimeout 0 1 s
  else accSend x { a with attempt := a.attempt + 1, step := .select } (replyGap (accSet x a s)) s

/-- An exchange begins once the handle is known (R351, R362): the DRBG gives its challenge, and one use is charged for FZ1
or for the TAM1 exchange (R350). -/
def exchangeStart (x : Tenant) (a : Acc) (key : Fin 48) (n : Nat) (s : State) : State :=
  match chargeKey key 1 s with
  | none => endAcc x stKeyExhausted 0 2 s
  | some s =>
    match keyValue s 5 key, drbgTake n s with
    | none, _ => endAcc x stNvmFail 0 0 s
    | some _, none => endAcc x stDegraded 0 1 s
    | some fk, some (c, s) =>
      let held : SecCtx := { ktag := tagKey fk a.tid, kenc := [], kmac := [], rch := c, tch := [] }
      let s := cacheKey key (modSess x (fun q => { q with challenge := c, ctx := some held }) s)
      accSend x { a with step := .exchange } (replyGap (accSet x a s)) s

/-- What follows the handle and the passwords: the operation, or for an exchange the TID context (R303, R348, R362). -/
def accOperate (x : Tenant) (a : Acc) (s : State) : State :=
  let gap := replyGap (accSet x a s)
  match a.kind with
  | .access op _ _ _ _ _ => accSend x { a with step := if op = 1 then .writeRn else .op } gap s
  | _ => accSend x { a with step := .tid false } gap s

/-- The TID context is read: the exchange begins. TAGCAP notes an extended header (R562; PRESUMED: bit 8 of TID, as ISO/IEC
18000-63 places it). Log entry 13 PRESUMED. -/
def accIdentified (x : Tenant) (a : Acc) (tid : Bytes) (s : State) : State :=
  let a := { a with tid := tid }
  let s := if bit (tid.getD 1 0) 7 then setSvy (fun v => { v with tagCap := v.tagCap ||| 0x10 }) s else s
  match a.kind with
  | .access .. => s
  | .tam1 key _ => exchangeStart x a key 10 s
  | .farz key => exchangeStart x a key 8 s

/-- The bytes of n words of a Read's reply, unless it is an error reply. -/
def readBytes (n : Nat) (r : Reply) : Option Bytes :=
  if r.bits < 1 + 16 * n + 32 ∨ replyBits r 0 1 = 1 then none
  else some ((List.range (2 * n)).map fun i => BitVec.ofNat 8 (replyBits r (1 + 8 * i) 8))

/-- The time that a step's reply may take: 20 ms for Write and Lock, 10 ms for an exchange (R303, R359). -/
def accWindow (l : LinkSet) (a : Acc) : Nat :=
  match a.step, a.kind with
  | .op, .access op _ _ _ _ _ => if op = 0 then emptyTicks l else 480000
  | .exchange, _ | .fz3, _ => 240000
  | _, _ => emptyTicks l

/-- The reader frame of an access is over: what waits for that comes about, a block reset (R588) or a withdrawn grant (R283), or a
request that may preempt takes the air (R265). Tells whether the access goes on. -/
def accFrameOver (x : Tenant) (a : Acc) (s : State) : Bool × State :=
  match a.ending with
  | some st => (false, endAcc x st 0 (if st = stAbortedReset then 0 else 1) s)
  | none =>
    if holds (.ctx x) .reader s && !s.radio.gnt then
      (false, builtinTune x 4 a.freq (setAcc x (some { a with stage := .tune, step := .select }) (releaseAir .reader s)))
    else
      let s := frameEnd .reader s
      (holds (.ctx x) .reader s, s)

/-- The frame has been sent: the Query follows the Select after 2 RTcal, every other frame awaits its reply. -/
def accSent (x : Tenant) (a : Acc) (s : State) : State :=
  let l := accSet x a s
  if a.step = .select then
    let (on, s) := accFrameOver x a s
    if on then accSend x { a with step := .query } (max 203 (rtcalTwice l)) s else s
  else
    builtinPend x .rxwin (s.reel.cnt + BitVec.ofNat 48 (accWindow l a)) false (setAcc x (some { a with stage := .window }) s)

/-- The outcome of the operation itself (R303, R304). -/
def accOutcome (x : Tenant) (a : Acc) (r : Reply) (s : State) : State :=
  match a.kind with
  | .access op _ _ _ wcnt data =>
    if replyBits r 0 1 = 1 then
      let code := replyBits r 1 8
      endAcc x (if code = 3 then stBadArg else stDenied) (0x80 ||| BitVec.ofNat 8 code) 0 s
    else if op = 0 then
      endAcc x stOk 0 0 (setAcc x (some { a with done := (List.range wcnt).map fun i => replyWord r (1 + 16 * i) }) s)
    else if op = 1 then
      let a := { a with done := a.done ++ [data.getD a.done.length 0] }
      if a.done.length < wcnt then accSend x { a with step := .writeRn } (replyGap (accSet x a s)) s
      else endAcc x stOk 0 0 (setAcc x (some a) s)
    else endAcc x stOk 0 0 s
  | _ => s

/-- COEX_GNT went before a frame of the access was past its commit point: the air goes back and the access asks for it again
(R284). -/
def accWithdrawn (x : Tenant) (a : Acc) (s : State) : State :=
  builtinTune x 4 a.freq (setAcc x (some { a with stage := .tune, step := .select }) (releaseAir .reader s))

/-- A reply has begun in the round that an access opened, or in a tenant's own program's (R298). -/
def replyBegan : State → State := setRdr fun q => { q with ownReply := q.ownReply.map fun _ => true }

/-- What a reply, or none, makes of the access's step. -/
def accReply (x : Tenant) (a : Acc) (reply : Option Reply) (s : State) : State :=
  if a.step = .exchange ∨ a.step = .fz3 then s
  else
  let l := accSet x a s
  let gap := replyGap l
  let s := match reply with | some r => countRate l r (replyBegan s) | none => s
  let (on, s) := accFrameOver x a s
  if !on then s
  else
    let good := reply.filter fun r => r.decoded && rateOk l r && (crcGood (replyAll r) || a.step == .query)
    match a.step, good with
    | .query, some r =>
      if r.bits = 16 then accSend x { a with step := .ack, rn := replyWord r 0 } gap s else attemptFail x a s
    | .ack, some r =>
      match parseRead r.bytes with
      | some d => if d.epc = a.epc then accSend x { a with step := .reqRn } gap s else attemptFail x a s
      | none => attemptFail x a s
    | .reqRn, some r =>
      let a := { a with handle := replyWord r 0 }
      match a.kind with
      | .access _ apwd _ _ _ _ => if apwd ≠ 0 then accSend x { a with step := .passRn false } gap s else accOperate x a s
      | _ => accOperate x a s
    | .passRn b, some r => accSend x { a with step := .pass b, rn := replyWord r 0 } gap s
    | .pass false, some _ => accSend x { a with step := .passRn true } gap s
    | .pass true, some _ => accOperate x a s
    | .writeRn, some r => accSend x { a with step := .op, rn := replyWord r 0 } gap s
    | .op, some r => accOutcome x a r s
    | .tid short, r =>
      (match (r.bind fun r => readBytes (if short then 2 else 6) r) with
       | some tid => accIdentified x a tid s
       | none => if short then endAcc x stTimeout 0 1 s else accSend x { a with step := .tid true } gap s)
    | .pass _, none => endAcc x stAuthFail 0 3 s
    | .passRn _, none | .writeRn, none | .op, none => endAcc x stTimeout 0 1 s
    | .query, none | .ack, none | .reqRn, none => attemptFail x a s
    | _, _ => s

/-- A built-in program that waits for its region's rule asks for air at the moment the rule lets it (R307, R308). -/
def regionWaitEnd (x : Tenant) (region : Nat) (s : State) : State :=
  match s.rdr.inv[x], s.rdr.acc[x] with
  | some i, _ => (match i.stage with
    | .regionWait till => if i.args.region = region ∧ reached s.reel.cnt till then invHop x i s else s
    | _ => s)
  | none, some a => (match a.stage with
    | .regionWait till => if a.args.region = region ∧ reached s.reel.cnt till then accTune x a s else s
    | _ => s)
  | none, none => s

/-- FCC_BUDGET_WAIT_END (R307). -/
def execFccBudgetWaitEnd (x : Tenant) (now : Tick) (s : State) : Host.Outcome State Fault Refusal :=
  .next (regionWaitEnd x 0 (advanceTo now s))

/-- ETSI_RETURN_WAIT_END (R308). -/
def execEtsiReturnWaitEnd (x : Tenant) (now : Tick) (s : State) : Host.Outcome State Fault Refusal :=
  .next (regionWaitEnd x 1 (advanceTo now s))

end Sys2Proof.Machine
end

