-- ==== Sys2Proof/Machine/SpoolAir.lean ====
section
/-!
DEFINITION. The air instructions of Spool (8.6, 8.7) and their completions, for a tenant's own program and for Keel's
built-in programs.
-/
namespace Sys2Proof.Machine

/-- The context's air of a core was lost and it has not been told yet. -/
def lostAir (x : Tenant) (c : CoreId) (s : State) : Bool :=
  match c with
  | .reader => s.ctxs[x].lostR
  | .link => s.ctxs[x].lostL

/-- A waiting instruction may complete: its time has come, or its air is lost. -/
def mayEnd (x : Tenant) (c : CoreId) (t : Tick) (s : State) : Bool := lostAir x c s || reached s.reel.cnt t

/-- An air wait that asks for air first: it waits for the grant, which may come at once (R214). -/
def waitAir (x : Tenant) (op : WaitOp) (d : Fin 16) (a b : Reg32) (fn : BitVec 14) (r : AirReq) (s : State) : State :=
  let p := { airPend x op d a b fn 0 s with noAir := true }
  requestAir r (enterWait x p s)

-- ------------------------------------------------------------------ reader

/-- HOP (R212, R213, R241, R274): ask for the channel; a carrier ramps down first. A HOP of a context that holds the reader is judged
anew at the class that it holds. -/
def execSpHop (x : Tenant) (d a : Fin 16) (noWait : Bool) (s : State) : Host.Outcome State Fault Refusal :=
  .next (issue x (wordA 0x20 d a 0 (fnNoWait noWait)) (airIssue true x .reader d (fun _ => false) fun s =>
    let f := (rd s.ctxs[x] a).toNat
    if 4800 < f then airNothing x s
    else
      let on := s.rdr.carrier.isSome && holds (.ctx x) .reader s
      let s := if on then carrierOff (s.ctxs[x].cursor + 243) s else s
      waitAir x .hop d (rd s.ctxs[x] a) (if on then 240 else 0) (fnNoWait noWait)
        (ctxRequest x .reader (readerClass x s) f noWait s) s) s)

/-- PWR (R61, R211, R214, R317, R321): the power of the run's later ramps, clamped; below −30 dBm nothing changes and C is set. It
takes effect 3 ticks after the cursor; no ramp can act before. -/
def execSpPwr (x : Tenant) (d a : Fin 16) (noWait : Bool) (s : State) : Host.Outcome State Fault Refusal :=
  .next (issue x (wordA 0x21 d a 0 (fnNoWait noWait)) (airIssue false x .reader d paBad <|
    airFirst x .reader d (fnNoWait noWait) fun s =>
    let k := s.ctxs[x]
    let v := sWord ((rd k a).toNat % 65536)
    let p := clampPower s.loaded[x] v s
    let out := fun (w : Int) (c : Bool) (s : State) =>
      retire x 1 (modCtx x (fun k => wr d (BitVec.ofInt 32 w) { k with n := false, c := c, power := BitVec.ofInt 16 w }) s)
    if v < -120 then out k.power.toInt true s else out p (decide (p < v)) s) s)

/-- The aerial changes at a tick: until then the one before stands at the pins (R337). -/
def selectAerial (a : Fin 4) (at_ : Tick) : State → State :=
  setRdr fun r => { r with aerialWas := some (at_, r.aerial), aerial := a }

/-- ASEL (R211, R214, R337): only while the carrier is off, at the action tick. -/
def execSpAsel (x : Tenant) (d a : Fin 16) (noWait : Bool) (s : State) : Host.Outcome State Fault Refusal :=
  .next (issue x (wordA 0x22 d a 0 (fnNoWait noWait)) (airIssue false x .reader d (fun _ => false) <|
    airFirst x .reader d (fnNoWait noWait) fun s =>
    if s.rdr.carrier.isSome then retire x 1 (modCtx x (fun k => { k with n := false, c := true }) s)
    else
      retire x 1 (modCtx x (fun k => wr d 0 { k with n := false, c := false })
        (selectAerial (mod4 (rd s.ctxs[x] a).toNat) (s.ctxs[x].cursor + 3) s))) s)

/-- TXCW (R242): a ramp of 240 ticks from the action tick, at once when the carrier is as asked; ON needs the run's own
tuning (R231) and the COEX lead (R278), OFF the air (R214). The correction takes effect at the action tick (R320). -/
def execSpTxcw (x : Tenant) (d : Fin 16) (on noWait : Bool) (s : State) : Host.Outcome State Fault Refusal :=
  let fn := fnBit 0 on ||| fnNoWait noWait
  .next (issue x (wordA 0x23 d 0 0 fn) (airIssue true x .reader d (fun p => on && paBad p) fun s =>
    let p := airPend x .txcw d 0 0 fn 240 s
    if on then
      if !tuned x .reader s then airFail true x d stBadArg s
      else if s.rdr.carrier.isSome then wAtOnce x (airOkNz d 0) s
      else
        let act := leadTick s (s.ctxs[x].cursor + 3)
        enterWait x { p with until_ := act + 240 } (rampUp s.loaded[x] s.ctxs[x].power act s)
    else
      airFirst x .reader d fn (fun s =>
        if s.rdr.carrier.isNone then wAtOnce x (airOkNz d 0) s
        else enterWait x p (compApply (extPa s.loaded[x]) s)) s) s)

/-- The bits that TXSYM fetches (R243): from a held buffer, a register, or data words; none where the source is out of
slot. -/
def symBits (x : Tenant) (src : Fin 3) (a : Reg32) (n : Nat) (s : State) : Option (List Bool) :=
  match src with
  | 0 => (heldBuf s.ctxs[x] a).map fun h => (byteBits (bufBytes s.bufs[h] ((n + 7) / 8))).take n
  | 1 => some (bitsHigh n a.toNat)
  | 2 =>
    let w := a.toNat % 256
    if 8192 < 32 * w + n then none
    else some (((List.range ((n + 31) / 32)).map fun i => bitsHigh 32 (memWord s.ctxs[x].data (w + i)).toNat).flatten.take n)

/-- The counts that TXSYM takes (R243). -/
def symCountOk (src : Fin 3) (n : Nat) : Bool := decide (1 ≤ n ∧ n ≤ (if src = 1 then 32 else 2048))

/-- A frame by its first bits opens a slot: QueryRep, Query, QueryAdjust, or Select before a Query. Log entry 81 DEDUCED. -/
def opensAnew (b : List Bool) : Bool :=
  b.take 2 == [false, false] || ((b.take 4 == bitsHigh 4 8 || b.take 4 == bitsHigh 4 9) || b.take 4 == bitsHigh 4 0xA)

/-- A frame to which no reply belongs: Select and NAK. Log entry 81 DEDUCED. -/
def unanswered (b : List Bool) : Bool := b.take 4 == bitsHigh 4 0xA || b == nakBits

/-- TXSYM (R243, R244): the first symbol 192 ticks after the action tick, which is the commit point; QRY starts a round there; it
completes at the end of its last symbol. A program that is to stop opens no further slot (R181). -/
def execSpTxsym (x : Tenant) (d a b : Fin 16) (src : Fin 3) (pre qry noWait : Bool) (s : State) :
    Host.Outcome State Fault Refusal :=
  let fn := BitVec.ofNat 14 src.val ||| fnBit 2 pre ||| fnBit 3 qry ||| fnNoWait noWait
  .next (issue x (wordA 0x24 d a b fn) (fun s =>
    let k := s.ctxs[x]
    let n := (rd k b).toNat
    let ok := symCountOk src n
    match symBits x src (rd k a) (if ok then n else 1) s with
    | none => spoolFault x 5 s
    | some fr =>
      airIssue true x .reader d (fun p => fwdBad p || (pre && backBad p)) (airFirst x .reader d fn fun s =>
        if !ok || s.rdr.carrier.isNone then airNothing x s
        else if s.ctxs[x].stopping.isSome && opensAnew fr then endProgram x stCancelled s
        else
          let act := s.ctxs[x].cursor + 3
          let f : AirFrame := { set := profileSet s.loaded[x], pre := pre, bits := fr }
          let s := setCommit .reader (some act) (compApply (extPa s.loaded[x]) s)
          let s := setRdr (fun r => { r with onAir := some f, opening := if qry then opensQuery x 0 act else none }) s
          let (last, s) := fwdEnd (act + 192) f s
          enterWait x { airPend x .txsym d 0 0 fn 0 s with until_ := last } (dpdFrame s.loaded[x] s)) s) s)

/-- RXWIN (R245): a window of B ticks from the action tick, 0 completing at once. -/
def execSpRxwin (x : Tenant) (d a b : Fin 16) (count : BitVec 10) (pclen crc noWait : Bool) (s : State) :
    Host.Outcome State Fault Refusal :=
  let fn := count.setWidth 14 ||| fnBit 10 pclen ||| fnBit 11 crc ||| fnNoWait noWait
  .next (issue x (wordA 0x25 d a b fn) (fun s =>
    if pclen ∧ count ≠ 0 then spoolFault x 1 s
    else onBuf x a (fun _ s => airIssue true x .reader d backBad (fun s =>
      let k := s.ctxs[x]
      let w := rd k b
      if lostReaderRx s then airFail true x d stDegraded s
      else if !tuned x .reader s then airFail true x d stBadArg s
      else if w = 0 then wAtOnce x (fun k => { airOkCtx d 0 k with z := true }) s
      else enterWait x (airPend x .rxwin d (rd k a) w fn w.toNat s) (setOver .reader none s)) s) s) s)

/-- RSSI (Table 8-5, R214): level and phase of the last reply. -/
def execSpRssi (x : Tenant) (d : Fin 16) (noWait : Bool) (s : State) : Host.Outcome State Fault Refusal :=
  .next (issue x (wordA 0x26 d 0 0 (fnNoWait noWait)) (airIssue false x .reader d (fun _ => false) <|
    airFirst x .reader d (fnNoWait noWait) fun s =>
    retire x 1 (modCtx x (fun k => wr d ((k.phase ++ k.rssi).setWidth 32) { k with n := false }) s)) s)

/-- SNIFF (R246, R278, R344): one burst, with the carrier off. -/
def execSpSniff (x : Tenant) (d : Fin 16) (noWait : Bool) (s : State) : Host.Outcome State Fault Refusal :=
  .next (issue x (wordA 0x27 d 0 0 (fnNoWait noWait)) (airIssue true x .reader d paBad fun s =>
    if !tuned x .reader s then airFail true x d stBadArg s
    else if s.rdr.carrier.isSome then airNothing x s
    else
      let act := leadTick s (s.ctxs[x].cursor + 3)
      let s := setCommit .reader (some act) (setCore .reader .tx (burstDrive s.loaded[x] act s))
      enterWait x { airPend x .sniff d 0 0 (fnNoWait noWait) 0 s with until_ := act + 960 } s) s)

/-- RFOFF (R246, R214): carrier down, core to STANDBY, air released. -/
def execSpRfoff (x : Tenant) (d : Fin 16) (noWait : Bool) (s : State) : Host.Outcome State Fault Refusal :=
  .next (issue x (wordA 0x28 d 0 0 (fnNoWait noWait)) (airIssue true x .reader d (fun _ => false) <|
    airFirst x .reader d (fnNoWait noWait) fun s =>
      enterWait x (airPend x .rfoff d 0 0 (fnNoWait noWait) (if s.rdr.carrier.isSome then 240 else 0) s) s) s)

-- ------------------------------------------------------------------ link

/-- The class of an LCH: that of the hold, where the context re-tunes a core that it holds (R274), else by TXI (R233). -/
def lchClass (x : Tenant) (txi : Bool) (s : State) : Nat :=
  match holdOf .link s with
  | some h => if h.req.who == .ctx x then h.req.cls else if txi then 3 else 5
  | none => if txi then 3 else 5

/-- LCH (R233, R247, R274). -/
def execSpLch (x : Tenant) (d a : Fin 16) (txi noWait : Bool) (s : State) : Host.Outcome State Fault Refusal :=
  let fn := fnBit 12 txi ||| fnNoWait noWait
  .next (issue x (wordA 0x2C d a 0 fn) (airIssue true x .link d linkProfileBad fun s =>
    let f := (rd s.ctxs[x] a).toNat
    if 4800 < f then airNothing x s
    else waitAir x .lch d (rd s.ctxs[x] a) 0 fn (ctxRequest x .link (lchClass x txi s) f noWait s) s) s)

/-- A new link correction is ready for the next frame (R403). -/
def linkCompReady (m : Sample) : State → State := setLink fun l => { l with compNext := (m.temp / 10, compOf true m) }
/-- LTX (R248, R388): from SYNTH, a class-3 request; first chip 432 ticks after the action tick, commit point at 240. -/
def execSpLtx (x : Tenant) (d a : Fin 16) (sf : Fin 5) (smode ack fcs noWait : Bool) (s : State) :
    Host.Outcome State Fault Refusal :=
  let fn := BitVec.ofNat 14 sf.val ||| fnBit 7 smode ||| fnBit 8 ack ||| fnBit 9 fcs ||| fnNoWait noWait
  .next (issue x (wordA 0x2D d a 0 fn) (fun s =>
    if smode ∧ sf ≠ 0 then spoolFault x 1 s
    else onBuf x a (fun h s => airIssue true x .link d linkProfileBad (fun s =>
      let b := s.bufs[h]
      let raw := bufBytes b b.len
      let psdu := if fcs then withFcs raw else raw
      let lane : Fin 6 := if smode then 5 else ⟨sf.val, by omega⟩
      if psdu.length = 0 ∨ (if smode then 127 else 255) < psdu.length ∨ !holds (.ctx x) .link s ∨
          coreState .link s != .synth then airNothing x s
      else
        let dur := airTicks lane (slowChips s.loaded[x] s) psdu.length
        let f : LinkTx := { lane := lane, slow := slowChips s.loaded[x] s, lkb := txLkb s.loaded[x] s, first := 0,
                            power := BitVec.ofNat 8 (bits s.loaded[x].txpwr 7 0) }
        let s := setLink (fun l => { l with sentPsdu := psdu, onAir := some f }) s
        waitAir x .ltx d (rd s.ctxs[x] a) (BitVec.ofNat 32 (432 + dur)) fn
          { ctxRequest x .link 3 s.radio.lFreq noWait s with gnt := true } s) s) s) s)

/-- LRX (R213, R249, R393): its window counts from the 576 ticks after the action tick at which it listens at the latest; at which of
them it begins the spec does not say. Log entry 73 DESIGN CHOICE. Class 1 within 1.2 ms after the context's own frame that asks for an ACK, else class 5. -/
def execSpLrx (x : Tenant) (d a b : Fin 16) (lanes : BitVec 6) (noWait : Bool) (s : State) :
    Host.Outcome State Fault Refusal :=
  let fn := lanes.setWidth 14 ||| fnNoWait noWait
  .next (issue x (wordA 0x2E d a b fn) (onBuf x a fun _ s => airIssue true x .link d (fun _ => false) (fun s =>
    let k := s.ctxs[x]
    let w := rd k b
    let mask := if lanes = 0 then 0x3F else lanes
    let open_ := mask &&& s.link.uses &&& (if slowChips s.loaded[x] s then 0x1F else 0x3F)
    if lostLinkRx s || open_ == 0 then airFail true x d stDegraded s
    else if !tuned x .link s then airFail true x d stBadArg s
    else if w = 0 then wAtOnce x (fun k => { airOkCtx d 0 k with z := true }) s
    else
      let soon := match k.ackTx with
        | some t => decide (ticksBetween t (k.cursor + 3) ≤ 28800)
        | none => false
      waitAir x .lrx d (rd k a) w fn
        { ctxRequest x .link (if soon then 1 else 5) s.radio.lFreq noWait s with gnt := lkbShared x s } s) s) s)

/-- LCCA (R233, R250). -/
def execSpLcca (x : Tenant) (d : Fin 16) (txi noWait : Bool) (s : State) : Host.Outcome State Fault Refusal :=
  let fn := fnBit 12 txi ||| fnNoWait noWait
  .next (issue x (wordA 0x2F d 0 0 fn) (airIssue true x .link d (fun _ => false) fun s =>
    if lostLinkRx s then airFail true x d stDegraded s
    else if !tuned x .link s then airFail true x d stBadArg s
    else waitAir x .lcca d 0 0 fn (ctxRequest x .link (if txi then 3 else 5) s.radio.lFreq noWait s) s) s)

/-- LOFF (R247, R214). -/
def execSpLoff (x : Tenant) (d : Fin 16) (noWait : Bool) (s : State) : Host.Outcome State Fault Refusal :=
  .next (issue x (wordA 0x30 d 0 0 (fnNoWait noWait)) (airIssue true x .link d (fun _ => false) <|
    airFirst x .link d (fnNoWait noWait) fun s => enterWait x (airPend x .loff d 0 0 (fnNoWait noWait) 0 s) s) s)

-- ------------------------------------------------------------------ completions, reader

/-- HOP_COMPLETE (R241, R260, R261): the channel is reached, or both calibrations failed. -/
def execHopComplete (x : Tenant) (now : Tick) (cal : Cal) (s : State) : Host.Outcome State Fault Refusal :=
  let s := advanceTo now s
  match pendIs x .hop s with
  | none => .next s
  | some p =>
    if isBuiltin s.ctxs[x] then
      match s.rdr.inv[x], s.rdr.acc[x] with
      | some i, _ => .next (invTuned x i cal s)
      | none, some a => .next (accTuned x a cal s)
      | none, none => .next s
    else if mayEnd x .reader (p.until_ + p.b.setWidth 48) s then
      if lostAir x .reader s then .next (airDone x .reader s.reel.cnt p.d id s)
      else
        let s := calibrate .reader cal false (if s.radio.rFreq = p.a.toNat then s else leaveChannel s.reel.cnt s)
        match cal with
        | .failed => .next (endWait x s.reel.cnt (airFailCtx p.d stCalFail) s)
        | .ok =>
          let s := compHop (setRadio (fun r => { r with rFreq := p.a.toNat }) s)
          .next (endWait x s.reel.cnt (fun k => airOkCtx p.d 0 { k with tunedR := true }) s)
    else .next s

/-- TXCW_COMPLETE (R242, R323, R327): the ramp ends. -/
def execTxcwComplete (x : Tenant) (now : Tick) (pafb : Int) (pacur : Nat) (s : State) :
    Host.Outcome State Fault Refusal :=
  let s := advanceTo now s
  match pendIs x .txcw s with
  | none => .next s
  | some p =>
    if isBuiltin s.ctxs[x] then
      if reached s.reel.cnt p.until_ then
        let s := builtinPend x .waitd s.reel.cnt false (rampDone s.loaded[x] pafb pacur s)
        match s.rdr.inv[x], s.rdr.acc[x] with
        | some i, _ => .next (setInv x (some { i with stage := .settle }) s)
        | none, some a => .next (setAcc x (some { a with stage := .settle }) s)
        | none, none => .next s
      else .next s
    else if mayEnd x .reader p.until_ s then
      if lostAir x .reader s then .next (airDone x .reader s.reel.cnt p.d id s)
      else
        let s := if bit p.fn 0 then rampDone s.loaded[x] pafb pacur s else carrierOff s.reel.cnt s
        .next (endWait x s.reel.cnt (airOkNz p.d 0) s)
    else .next s

/-- A slot of a tenant's own program is over: without COEX_GNT its air goes back, and the program learns it (R283). -/
def slotWithdrawn (x : Tenant) (s : State) : State :=
  if holds (.ctx x) .reader s && !s.radio.gnt then ctxLost x .reader (releaseAir .reader s) else s

/-- A frame of a tenant's own program is out (R243): D holds the tick of its last symbol's end. A frame to which no reply belongs ends
its slot; any other does unless an RXWIN follows before a reply could no longer begin. Log entry 81 DEDUCED. -/
def txsymOver (x : Tenant) (p : Pend) (s : State) : State :=
  if lostAir x .reader s then airDone x .reader s.reel.cnt p.d id s
  else
    let s := endWait x p.until_ (airOkCtx p.d (p.until_.setWidth 32)) s
    match s.rdr.onAir with
    | some f =>
      if unanswered f.bits then slotWithdrawn x (frameEnd .reader s)
      else setOver .reader (some (p.until_ + BitVec.ofNat 48 (emptyTicks f.set))) s
    | none => frameEnd .reader s

/-- TXSYM_COMPLETE (R243): the last symbol has ended. -/
def execTxsymComplete (x : Tenant) (now : Tick) (s : State) : Host.Outcome State Fault Refusal :=
  let s := advanceTo now s
  match pendIs x .txsym s with
  | none => .next s
  | some p =>
    if isBuiltin s.ctxs[x] then
      if reached s.reel.cnt p.until_ then
        match s.rdr.inv[x], s.rdr.acc[x] with
        | some i, _ => .next (invSent x i s)
        | none, some a => .next (accSent x a s)
        | none, none => .next s
      else .next s
    else if mayEnd x .reader p.until_ s then
      .next (stopIfDue x (txsymOver x p s))
    else .next s

/-- Steps of the receiver's gain that waited for the window's end (R335, R336). -/
def gainApply (s : State) : State :=
  if s.rdr.gainDue = 0 then s
  else setRdr (fun r => { r with gain := (max 0 (min 7 ((r.gain : Int) + r.gainDue))).toNat, gainAt := s.reel.cnt,
                                 gainDue := 0 }) s

/-- The length of a reply that RXWIN takes: FN[9:0] bits, or with PCLEN what its PC word tells (R245). Log entry 13 PRESUMED. -/
def rxwinLen (fn : BitVec 14) (r : Reply) : Nat :=
  if bit fn 10 then
    let pc := BitVec.ofNat 16 (replyBits r 0 16)
    let xpc := if bit pc 9 then (if replyBits r 16 1 = 1 then 32 else 16) else 0
    16 + xpc + 16 * bits pc 15 11 + 16
  else bits fn 9 0

/-- What a decoded reply leaves in the buffer and D (R245). -/
def rxwinOk (x : Tenant) (p : Pend) (r : Reply) (n : Nat) (s : State) : State :=
  let got := (byteBits r.bytes).take n
  let crc := bit p.fn 11
  let good := crc && crcGood got
  let bytes := (bitBytes got).take 256
  let v := bitsNat (got.take 16) + n % 4096 * 65536 + bitAt 28 good
  let s := match heldBuf s.ctxs[x] p.a with
    | some h => modBuf h (fun b => { b with bytes := memPutAll b.bytes 0 bytes, len := bytes.length,
                                            mark := if good then .reply r.rssi r.phase else .plain }) s
    | none => s
  endWait x s.reel.cnt (fun k => { airOkCtx p.d (BitVec.ofNat 32 v) k with
    c := crc && !good, rssi := r.rssi, phase := r.phase }) s

/-- The reply that an RXWIN detects: one whose preamble began in its window of B ticks from the action tick (R245); one to a request of
an older epoch is discarded (R587). -/
def rxwinHeard (p : Pend) (own : Bool) (reply : Option Reply) : Option Reply :=
  if own then
    let action := p.until_ - p.b.setWidth 48
    reply.filter fun r => reached r.begun action && !reached r.begun p.until_
  else reply

/-- An RXWIN of a tenant's own program is over: the slot goes on where it took a 16-bit reply without a CRC, an RN16 that an ACK
answers within 20 Tpri, and is over otherwise (R283). Log entry 81 DEDUCED. -/
def rxwinOver (x : Tenant) (p : Pend) (goesOn : Bool) (s : State) : State :=
  if goesOn && bits p.fn 11 0 == 16 then
    setOver .reader (some (s.reel.cnt + BitVec.ofNat 48 (480000 / (profileSet s.loaded[x]).blf))) s
  else slotWithdrawn x (frameEnd .reader s)

/-- RXWIN of a tenant's own program completes: with a reply decoded to its end, one that cannot be decoded, or none (R245, R292). -/
def rxwinOwn (x : Tenant) (p : Pend) (reply : Option Reply) (s : State) : State :=
  let s := gainApply s
  match reply with
  | none => rxwinOver x p false (endWait x s.reel.cnt (fun k => { airOkCtx p.d 0 k with z := true }) s)
  | some r =>
    let l := profileSet s.loaded[x]
    let s := countRate l r (replyBegan s)
    let n := rxwinLen p.fn r
    if r.decoded && rateOk l r && decide (n ≤ r.bits) then rxwinOver x p true (rxwinOk x p r n s)
    else rxwinOver x p false (endWait x s.reel.cnt (fun k => { airOkCtx p.d 0 k with c := true }) s)

/-- A built-in program's window is over: the reply, or none, goes to the inventory or the access that awaits it; a reply to a request
made before a block reset is discarded and counted (R82, R587). -/
def rxwinBuiltin (x : Tenant) (reply : Option Reply) (s : State) : State :=
  let s := gainApply s
  let stale := reply.isSome && requestStale x .reader s
  let s := if stale then countStale s else s
  match s.rdr.inv[x], s.rdr.acc[x] with
  | some i, _ => if stale then slotDone x i 203 s else invReply x i reply s
  | none, some a => accReply x a (if stale then none else reply) s
  | none, none => s

/-- RXWIN_COMPLETE (R245, R292): a reply decoded to its end, a reply that cannot be decoded, or the window's end. -/
def execRxwinComplete (x : Tenant) (now : Tick) (reply : Option Reply) (s : State) : Host.Outcome State Fault Refusal :=
  let s := advanceTo now s
  match pendIs x .rxwin s with
  | none => .next s
  | some p =>
    let own := !isBuiltin s.ctxs[x]
    let heard := rxwinHeard p own reply
    let due := heard.isSome || reached s.reel.cnt p.until_
    if own && lostAir x .reader s then .next (stopIfDue x (airDone x .reader s.reel.cnt p.d id s))
    else if !due then .next s
    else if own then
      let stale := heard.isSome && requestStale x .reader s
      .next (stopIfDue x (rxwinOwn x p (if stale then none else heard) (if stale then countStale s else s)))
    else .next (rxwinBuiltin x heard s)

/-- |Γ − Γbase|² in units of 0.001². -/
def gammaDist (a b : Gamma) : Rat := ((a.re - b.re) * (a.re - b.re) + (a.im - b.im) * (a.im - b.im)) * 1000000

/-- DELTA in 0.01 dB (11.6): 1,000 times the decimal logarithm of the squared distance, 0 below a distance of 0.001. The
spec does not say how it is rounded: the next unit up is a free choice. Log entry 24 DESIGN CHOICE. -/
def deltaOf (g base : Gamma) (s : State) : Nat × State :=
  let x := gammaDist g base
  if x < 1 then (0, s)
  else
    let p := x ^ 1000
    let k := Nat.log 10 p.floor.toNat
    if p = 10 ^ k then (k, s)
    else
      let (up, s) := drawBool s
      (if up then k + 1 else k, s)

/-- Set an aerial's sniff baseline. -/
def setBase (a : Fin 4) (g : Gamma) : State → State := setRdr fun r => { r with base := r.base.set a.val (some g) a.isLt }

/-- A presence burst is measured (R340 to R342): without a baseline it becomes the baseline; DELTA at THR raises
EV_PRESENCE once until 4 bursts in a row stay below; below THR the baseline follows. Tells whether an event was
raised. Log entry 25 DEDUCED. -/
def sniffJudge (n : Sniff) (g : Gamma) (s : State) : Bool × State :=
  match s.rdr.base[n.asel] with
  | none => (false, setBase n.asel g s)
  | some b =>
    let (dl, s) := deltaOf g b s
    if n.thr ≤ dl then
      let s := setRdr (fun r => { r with sniff := r.sniff.map fun q => { q with armed := false, below := 0 } }) s
      if n.armed then
        (true, raise n.owner evPresence (leBytes 2 n.tseq.toNat ++ [BitVec.ofNat 8 n.asel.val] ++
          leBytes 2 (min 0xFFFF dl)) s)
      else (false, s)
    else
      let mid : Gamma := { re := b.re + (g.re - b.re) / 64, im := b.im + (g.im - b.im) / 64 }
      let below := n.below + 1
      (false, setBase n.asel mid (setRdr (fun r => { r with
        sniff := r.sniff.map fun q => { q with below := below, armed := q.armed || decide (4 ≤ below) } }) s))

/-- Start an inventory with given arguments in a free context (R342), on the first aerial of those selected (R312). -/
def invStart (t : Tenant) (a : InvArgs) (tseq : BitVec 16) (v1 single : Bool) (s : State) : State :=
  let s := takeProfile t (startBuiltin t tseq s)
  let l := if v1 then v1Set s.v1 else linkSet a.region s.loaded[t]
  let first := ([0, 1, 2, 3] : List (Fin 4)).find? fun j => bit a.asel j.val
  invHop t
    { args := a, tseq := tseq, v1 := v1, single := single, stage := .tune, sent := .query, running := false,
      resume := false, withdrawn := false, from_ := none, freq := 0, aerial := first.getD 0, visitFrom := s.reel.cnt, rounds := 0, tagsAll := 0,
      round := 0, slots := 0, sinceQ := 0, tags := 0, coll := 0, empty := 0, q := 0, qfp := 100 * l.qinit,
      targetB := bit a.sess 2, reply := false, ending := none } s

/-- AUTO (R342): an inventory with the arguments of the tenant's last, under the TSEQ of the RDR.SNIFF. The spec does not say what
becomes of it while the tenant's context is busy, or where its profile would refuse it (R290): none starts and nothing is told.
Log entry 78 DESIGN CHOICE. -/
def autoStart (n : Sniff) (s : State) : State :=
  let t := n.owner
  match s.rdr.lastInv[t] with
  | none => s
  | some a =>
    let p := s.prof[t]
    let bad := paSniffBad p || feedBad p || (a.region == 2 && (readerProfileBad p || p.hop.isEmpty))
    if ctxBusy s.ctxs[t] || (readerDown s).isSome || bad then s
    else
      let a := { a with pset := BitVec.ofInt 16 (clampPower p a.pset.toInt s) }
      invStart t a n.tseq false (a.dur == 0) s

/-- SNIFF_COMPLETE (R246, R340 to R342): a context's burst, or a burst of the presence sniff, which is not sent where its calibration
failed (R261). Log entry 25 DEDUCED. -/
def execSniffComplete (x : Option Tenant) (now : Tick) (g : Gamma) (s : State) : Host.Outcome State Fault Refusal :=
  let s := advanceTo now s
  match x with
  | some x =>
    match pendIs x .sniff s with
    | none => .next s
    | some p =>
      if mayEnd x .reader p.until_ s then
        if lostAir x .reader s then .next (airDone x .reader s.reel.cnt p.d id s)
        else
          let s := slotWithdrawn x (setCore .reader .synth (frameEnd .reader s))
          if p.epoch != s.epoch.rdr then .next (stopIfDue x (endWait x s.reel.cnt (airOkCtx p.d 0) (countStale s)))
          else match s.rdr.base[s.rdr.aerial] with
          | none => .next (stopIfDue x (endWait x s.reel.cnt (airOkCtx p.d 0) (setBase s.rdr.aerial g s)))
          | some b =>
            let (dl, s) := deltaOf g b s
            .next (stopIfDue x (endWait x s.reel.cnt (airOkCtx p.d (BitVec.ofNat 32 dl)) s))
      else .next s
  | none =>
    match s.rdr.sniff, s.radio.rHold with
    | some n, some h =>
      if h.req.who = .sniff n.owner then
        let (failed, s) := calResult .reader s
        if failed then .next s
        else
          let s := releaseAir .reader s
          let (hit, s) := sniffJudge n g s
          .next (if hit && n.auto then autoStart n s else s)
      else .next s
    | _, _ => .next s

/-- RFOFF_COMPLETE (R246): STANDBY is reached. -/
def execRfoffComplete (x : Tenant) (now : Tick) (s : State) : Host.Outcome State Fault Refusal :=
  let s := advanceTo now s
  match pendIs x .rfoff s with
  | none => .next s
  | some p =>
    if mayEnd x .reader p.until_ s then
      if lostAir x .reader s then .next (airDone x .reader s.reel.cnt p.d id s)
      else .next (endWait x s.reel.cnt (airOkNz p.d 0) (modCtx x (fun k => { k with tunedR := false }) (releaseAir .reader s)))
    else .next s

-- ------------------------------------------------------------------ completions, link

/-- LCH_COMPLETE (R247, R260, R261). -/
def execLchComplete (x : Tenant) (now : Tick) (cal : Cal) (s : State) : Host.Outcome State Fault Refusal :=
  let s := advanceTo now s
  match pendIs x .lch s with
  | none => .next s
  | some p =>
    if mayEnd x .link p.until_ s then
      if lostAir x .link s then .next (airDone x .link s.reel.cnt p.d id s)
      else
        let s := calibrate .link cal false s
        match cal with
        | .failed => .next (endWait x s.reel.cnt (airFailCtx p.d stCalFail) s)
        | .ok =>
          let (m, s) := freshSample s
          let s := linkCompReady m (setRadio (fun r => { r with lFreq := p.a.toNat }) s)
          .next (endWait x s.reel.cnt (fun k => airOkCtx p.d 0 { k with tunedL := true }) s)
    else .next s

/-- LTX_COMPLETE (R248): the last chip has ended; a frame that asks for an ACK opens the class-1 span of R213. -/
def execLtxComplete (x : Tenant) (now : Tick) (s : State) : Host.Outcome State Fault Refusal :=
  let s := advanceTo now s
  match pendIs x .ltx s with
  | none => .next s
  | some p =>
    let last := p.until_ + p.b.setWidth 48
    if mayEnd x .link last s then
      if lostAir x .link s then .next (stopIfDue x (airDone x .link s.reel.cnt p.d id s))
      else
        let s := dutyAdd p.until_ p.b.toNat (setCore .link .synth s)
        let s := endWait x last (fun k => airOkCtx p.d (last.setWidth 32)
          { k with ackTx := if bit p.fn 8 then some last else none }) s
        .next (stopIfDue x (frameEnd .link s))
    else .next s

/-- The FCS of a received frame is good (Table 14-2). -/
def fcsGood (f : RxFrame) : Bool := decide (2 ≤ f.psdu.length) && withFcs (f.psdu.take (f.psdu.length - 2)) == f.psdu

/-- A frame with its RSSI within what the part reports, -127 to -10 dBm (R401). -/
def rssiReported (f : RxFrame) : RxFrame := { f with rssi := BitVec.ofInt 8 (max (-127) (min (-10) f.rssi.toInt)) }

/-- What the PHY reports of the last frame (R401); with a good FCS its aerial is the search aerial (R394), and the search goes on. -/
def linkHeard (f : RxFrame) (s : State) : State :=
  searchAgain (setLink (fun l => { l with
    lastRssi := f.rssi, lastLqi := lqiOf f.evm, lastEvm := min 1000 f.evm, lane := f.lane,
    searchLkb := if fcsGood f then f.lkb else l.searchLkb }) s)

/-- A frame's SFD was found in the window of an LRX (R249). -/
def sfdInWindow (p : Pend) (t : Tick) : Bool :=
  let from_ := p.until_ + 576
  reached t from_ && !reached t (from_ + p.b.setWidth 48)

/-- LRX_COMPLETE (R249): a frame on one of the lanes asked for, its SFD found in the window, written even with a bad FCS; or the window's
end, unless a frame whose SFD was found is still being received. -/
def execLrxComplete (x : Tenant) (now : Tick) (frame : Option RxFrame) (s : State) : Host.Outcome State Fault Refusal :=
  let s := advanceTo now s
  match pendIs x .lrx s with
  | none => .next s
  | some p =>
    if lostAir x .link s then .next (stopIfDue x (airDone x .link s.reel.cnt p.d id s))
    else match frame with
      | none =>
        if reached s.reel.cnt (p.until_ + 576 + p.b.setWidth 48) && !(s.link.demod && s.link.afterSfd) then
          .next (stopIfDue x (endWait x s.reel.cnt (fun k => { airOkCtx p.d 0 k with z := true })
            (frameEnd .link (setCore .link .synth s))))
        else .next s
      | some f =>
        let lanes := bits p.fn 5 0
        if (lanes = 0 ∨ lanes.testBit f.lane.val) ∧ sfdInWindow p f.sfd then
          if requestStale x .link s then
            .next (stopIfDue x (endWait x s.reel.cnt (fun k => { airOkCtx p.d 0 k with z := true })
              (frameEnd .link (setCore .link .synth (countStale s)))))
          else
          let f := rssiReported f
          let s := frameEnd .link (setCore .link .synth (linkHeard f s))
          let s := match heldBuf s.ctxs[x] p.a with
            | some h => modBuf h (fun b => { b with bytes := memPutAll b.bytes 0 f.psdu, len := f.psdu.length,
                                                    mark := if fcsGood f then .frame f else .plain }) s
            | none => s
          let v := f.psdu.length + 65536 * lqiOf f.evm
          .next (stopIfDue x (endWait x s.reel.cnt
            (fun k => { airOkCtx p.d (BitVec.ofNat 32 v) k with c := !fcsGood f }) s))
        else .next s

/-- The CCA threshold of a profile in dBm (R250). -/
def ccaThr (p : Profile) : Int := sByte (bits p.cca 7 0)

/-- LCCA_COMPLETE (R250): the average power, and Z where it lies below the threshold. -/
def execLccaComplete (x : Tenant) (now : Tick) (dbm : Int) (s : State) : Host.Outcome State Fault Refusal :=
  let s := advanceTo now s
  match pendIs x .lcca s with
  | none => .next s
  | some p =>
    if mayEnd x .link (p.until_ + 3072) s then
      if lostAir x .link s then .next (airDone x .link s.reel.cnt p.d id s)
      else
        .next (endWait x s.reel.cnt (fun k => { airOkNz p.d (BitVec.ofInt 32 dbm) k with
          z := decide (dbm < ccaThr s.loaded[x]) }) (setCore .link .synth s))
    else .next s

/-- LOFF_COMPLETE (R247). -/
def execLoffComplete (x : Tenant) (now : Tick) (s : State) : Host.Outcome State Fault Refusal :=
  let s := advanceTo now s
  match pendIs x .loff s with
  | none => .next s
  | some p =>
    if mayEnd x .link p.until_ s then
      if lostAir x .link s then .next (airDone x .link s.reel.cnt p.d id s)
      else .next (endWait x s.reel.cnt (airOkNz p.d 0) (modCtx x (fun k => { k with tunedL := false }) (releaseAir .link s)))
    else .next s

end Sys2Proof.Machine
end

