-- ==== Sys2Proof/Machine/Survey.lean ====
section
/-!
DEFINITION. Survey (chapter 21): samples, aerial sweeps, feeder length, fault classes, partners and telemetry.
-/
namespace Sys2Proof.Machine

-- ------------------------------------------------------------------ samples and telemetry (21.1, 21.7)

/-- Take a sample into the registers (R548 to R550): voltages above 6,000 mV read 6,000. -/
def takeSample (m : Sample) (s : State) : State :=
  let m : Sample := { vin := min 6000 m.vin, vpa := min 6000 m.vpa, vio := min 6000 m.vio, vhu := min 6000 m.vhu,
                      temp := m.temp }
  setPower (fun p => { p with vpaLow := decide (m.vpa < 3000) })
    (setSvy (fun v => { v with smp := m, hot := decide (1300 < m.temp) }) s)

/-- PORTS of MEAS.PARTNERS (R563). -/
def portsByte (s : State) : Byte :=
  BitVec.ofNat 8 (bitAt 0 s.ports[0].attached + bitAt 1 s.ports[1].attached + bitAt 2 s.ports[2].attached +
    bitAt 3 s.ports[3].attached)

/-- The entries of log pages whose commits wait, the newest first. -/
def logWaiting (w : StoreSt) : List LogEntry :=
  ((w.deferred ++ w.queue).map fun c => match c.kind with | .logPage es => es | _ => []).reverse.flatten

/-- The newest event-log codes, the newest first, empty ones 0. -/
def logCodes (s : State) : List Nat :=
  let w := s.store
  (((w.logBuf.take (w.logBuf.length - w.logDone) ++ logWaiting w ++ w.log).map fun (e : LogEntry) => e.code.toNat) ++
    List.replicate 16 0).take 16

/-- The telemetry record (Table 21-2). -/
def telemetry (s : State) : Bytes :=
  let m := s.svy.smp
  let g := (List.finRange 6).map fun i => s.svy.targets[i]
  [1, BitVec.ofNat 8 (bitAt 0 s.power.untrusted + bitAt 1 (inLimp s) + bitAt 2 s.power.vpaLow + bitAt 3 s.svy.hot +
    bitAt 4 s.bri.rootOk + bitAt 5 (singleSyn s))] ++
  tickBytes s.reel.cnt ++ leBytes 2 m.vin ++ leBytes 2 m.vpa ++ leBytes 2 m.vio ++ leBytes 2 m.vhu ++ leInt 2 m.temp ++
  (g.map fun t => leBytes 2 t.rl).flatten ++ ((g.take 4).map fun t => leBytes 2 t.len).flatten ++
  (g.map fun t => BitVec.ofNat 8 t.cls) ++ leBytes 2 s.svy.paCur ++ [portsByte s, BitVec.ofNat 8 s.link.nbrs.length] ++
  leBytes 4 s.svy.tagCap.toNat ++ leBytes 2 (mendLevel s) ++ leBytes 2 s.store.logLost ++
  ((logCodes s).map (leBytes 2)).flatten

/-- The telemetry period in force (R199). -/
def periodOf (subs : Vector Nat 4) : Nat :=
  match subs.toList.filter (· != 0) with
  | [] => 60
  | l => minOf l

/-- SURVEY_SAMPLE (R548): in STANDBY and ACTIVE. -/
def execSurveySample (now : Tick) (smp : Sample) (s : State) : Host.Outcome State Fault Refusal :=
  let s := advanceTo now s
  if s.power.mode == .run then .next (takeSample smp s) else .next s

/-- TELEMETRY_SNAPSHOT (R564, R565): at a multiple of the period, to every subscribed tenant. -/
def execTelemetrySnapshot (now : Tick) (smp : Sample) (s : State) : Host.Outcome State Fault Refusal :=
  let s := advanceTo now s
  if (s.power.mode == .run || s.power.mode == .limp) && s.reel.cnt.toNat % (s.svy.period * 24000000) == 0 then
    let s := takeSample smp s
    let d := telemetry s
    .next (forTenants (fun t s => if s.svy.subs[t] = 0 then s else raise t evTelemetry d s) s)
  else .next s

/-- MEAS.SNAPSHOT (R565): the record, with a fresh sample. -/
def execMeasSnapshot (c : Cmd) (smp : Sample) (s : State) : Host.Outcome State Fault Refusal :=
  .next (keelRun 0x8000 c (fun s =>
    if c.args.length ≠ 0 then refuse c.t stBadArg s
    else
      let s := takeSample smp s
      reply c.t stOk (telemetry s) s) s)

/-- MEAS.SUBSCRIBE (R199). -/
def execMeasSubscribe (c : Cmd) (s : State) : Host.Outcome State Fault Refusal :=
  .next (keelRun 0x8002 c (fun s =>
    let p := fld c.args 0 2
    if c.args.length ≠ 2 ∨ (p ≠ 0 ∧ (p < 10 ∨ 3600 < p)) then refuse c.t stBadArg s
    else
      let subs := s.svy.subs.set c.t.val p c.t.isLt
      reply c.t stOk (leBytes 2 (periodOf subs)) (setSvy (fun v => { v with subs := subs, period := periodOf subs }) s)) s)

/-- MEAS.PARTNERS (R563). -/
def execMeasPartners (c : Cmd) (s : State) : Host.Outcome State Fault Refusal :=
  .next (keelRun 0x8003 c (fun s =>
    if c.args.length ≠ 0 then refuse c.t stBadArg s
    else
      reply c.t stOk ([portsByte s, BitVec.ofNat 8 s.link.nbrs.length] ++ leBytes 4 s.svy.tagCap.toNat) s) s)

-- ------------------------------------------------------------------ phase and return loss (21.2, 21.3)

/-- π to 20 decimals. Log entry 54 DEDUCED. -/
def piRat : Rat := 314159265358979323846 / 100000000000000000000

/-- The arctangent series to n terms, from x^(2i + 1). Log entry 54 DEDUCED. -/
def atanSeries : Nat → Nat → Rat → Rat → Rat
  | 0, _, _, _ => 0
  | n + 1, i, p, x2 => (if i % 2 = 0 then p else -p) / (2 * i + 1 : Nat) + atanSeries n (i + 1) (p * x2) x2

/-- The arctangent of a number from 0 to 1, to better than 1e-10. -/
def atanUnit (x : Rat) : Rat :=
  let trim := fun (y : Rat) => ((y * 1000000000000).floor : Rat) / 1000000000000
  let go := fun (y : Rat) => atanSeries 20 0 (trim y) (trim y * trim y)
  if x ≤ 2 / 5 then go x else piRat / 4 + go ((x - 1) / (x + 1))

/-- The phase of a vector in degrees, −180 to 180. -/
def phaseDeg (g : Gamma) : Rat :=
  let ax := if g.re < 0 then -g.re else g.re
  let ay := if g.im < 0 then -g.im else g.im
  let a := if ax = 0 ∧ ay = 0 then 0 else if ay ≤ ax then atanUnit (ay / ax) else piRat / 2 - atanUnit (ax / ay)
  let d := a * 180 / piRat
  let d := if g.re < 0 then 180 - d else d
  if g.im < 0 then -d else d

/-- Unwrap phases point by point: each lies within 180° of the one before. -/
def unwrap : Rat → List (Rat × Rat) → List (Rat × Rat)
  | _, [] => []
  | last, (f, p) :: r =>
    let p := p - 360 * ((p - last + 180) / 360).floor
    (f, p) :: unwrap p r

/-- The straight line through points by least squares: slope and the value at 0. Log entry 54 DEDUCED. -/
def fitLine (l : List (Rat × Rat)) : Rat × Rat :=
  let n : Rat := l.length
  let sx := (l.map (·.1)).sum
  let sy := (l.map (·.2)).sum
  let sxx := (l.map fun p => p.1 * p.1).sum
  let sxy := (l.map fun p => p.1 * p.2).sum
  let den := n * sxx - sx * sx
  if den = 0 then (0, if n = 0 then 0 else sy / n)
  else
    let m := (n * sxy - sx * sy) / den
    (m, (sy - m * sx) / n)

/-- The line of a sweep's phases over frequency in MHz: point k lies at 840 + 2.5 k. -/
def phaseLine (pts : List (Nat × Gamma)) : Rat × Rat :=
  let raw := pts.map fun p => ((840 : Rat) + 5 * p.1 / 2, phaseDeg p.2)
  match raw with
  | [] => (0, 0)
  | p :: r => fitLine (p :: unwrap p.2 r)

/-- The feeder length in cm (R556), or 0xFFFF. Log entry 54 DEDUCED. -/
def feederLength (p : Profile) (pts : List (Nat × Gamma)) : Nat :=
  let slope := -(phaseLine pts).1
  let cm := slope * (bits p.feed 15 8 : Nat) / 200 * 299792458 / 7200000 - (bits p.feed 7 0 : Nat)
  let r := 5 * roundNear (cm / 5)
  if pts.length < 24 ∨ cm < 30 ∨ 1500 < cm then 0xFFFF else r.toNat

/-- The squared magnitude of a reflection. -/
def gammaSq (g : Gamma) : Rat := g.re * g.re + g.im * g.im

/-- Return loss in 0.1 dB; its rounding, which the spec leaves open, is a free choice. Log entry 24 DESIGN CHOICE. -/
def returnLoss (g : Gamma) (s : State) : Nat × State :=
  let m := gammaSq g
  if m = 0 then (0xFFFE, s)
  else
    let x := 1 / m
    if x ≤ 1 then (0, s)
    else
      let p := x ^ 100
      let k := Nat.log 10 p.floor.toNat
      if p = 10 ^ k then (min 0xFFFE k, s)
      else
        let (up, s) := drawBool s
        (min 0xFFFE (if up then k + 1 else k), s)

/-- The lowest return loss of points. -/
def lowestLoss : List (Nat × Gamma) → State → Nat × State
  | [], s => (0xFFFF, s)
  | p :: r, s =>
    let (a, s) := returnLoss p.2 s
    let (b, s) := lowestLoss r s
    (min a b, s)

/-- A point lies in the band that RL is judged in (R555). -/
def inBand (w : Sweep) (k : Nat) (s : State) : Bool :=
  if w.target.val < 4 then
    let p := w.prof
    decide (2 * bits p.rlband 14 8 ≤ 5 * k ∧ 5 * k ≤ 2 * bits p.rlband 6 0)
  else decide (codeGap (100 * k) s.link.freq ≤ 200)

/-- |angle| ≤ 45° around a direction, in degrees mod 360. -/
def near45 (a centre : Rat) : Bool :=
  let d := a - centre - 360 * ((a - centre) / 360).floor
  decide (d ≤ 45 ∨ 315 ≤ d)

/-- The fault class of a completed sweep (R558). Log entry 54 DEDUCED. -/
def classify (w : Sweep) (rl len : Nat) (s : State) : Nat :=
  let band := w.points.filter fun p => inBand w p.1 s
  let flat := !band.isEmpty && band.all fun p => decide (1 ≤ 10 * gammaSq p.2 ^ 10)
  let ends := (phaseLine w.points).2
  if flat && near45 ends 0 then 1
  else if flat && near45 ends 180 then 2
  else if rl < 60 then 3
  else match s.svy.targets[w.target].refRl with
    | some (r0, l0) =>
      if (rl ≠ 0xFFFF ∧ r0 ≠ 0xFFFF ∧ rl + 40 ≤ r0) ∨ (len ≠ 0xFFFF ∧ l0 ≠ 0xFFFF ∧ (20 ≤ len - l0 ∨ 20 ≤ l0 - len)) then 4
      else 0
    | none => 0

-- ------------------------------------------------------------------ sweeps (21.2)

/-- The sweep emits nothing on a reader aerial behind an external PA (R561). -/
def sweepSilent (w : Sweep) : Bool := decide (w.target.val < 4) && extPa w.prof

/-- Ask for the air of the next point that is not skipped; with none left the sweep is complete. -/
def sweepNext (s : State) : State :=
  match s.svy.sweep with
  | none => s
  | some w =>
    if sweepSilent w then setSvy (fun v => { v with sweep := some { w with next := 49 } }) s
    else match sweepPoint w s with
      | none => setSvy (fun v => { v with sweep := some { w with next := 49 } }) s
      | some k =>
        let s := setSvy (fun v => { v with sweep := some { w with next := k } }) s
        requestAir { core := sweepCore w, who := .sweep w.owner, cls := 6, freq := 100 * k, since := s.reel.cnt, gnt := true,
                     wait := coexWait (w.owner.getD 0) s, noWait := false } s

/-- Start a sweep. -/
def sweepBegin (owner : Option Tenant) (tseq : BitVec 16) (target : Fin 6) (length : Bool) (rest : List (Fin 6))
    (s : State) : State :=
  sweepNext (setSvy (fun v => { v with
    target := target
    sweep := some { owner := owner, tseq := tseq, target := target, length := length, next := 0, points := [],
                    from_ := none, rest := rest, prof := s.prof[owner.getD 0] } }) s)

/-- EV_MEAS to the tenant that asked for a sweep (R554). -/
def sweepTold (w : Sweep) (status : Byte) (rl len : Nat) (s : State) : State :=
  match w.owner with
  | some t =>
    raise t evMeas (leBytes 2 w.tseq.toNat ++ [status, BitVec.ofNat 8 w.target.val] ++ leBytes 2 rl ++ leBytes 2 len) s
  | none => s

/-- A sweep point holds a core. -/
def sweepHolds (c : CoreId) (s : State) : Bool :=
  match holdOf c s with
  | some h => h.req.who.isSweep
  | none => false

/-- The air of a sweep goes back. -/
def sweepRelease (s : State) : State :=
  let s := coexTrack (setRadio (fun r => { r with waiters := r.waiters.filter fun q => !q.who.isSweep }) s)
  let s := if sweepHolds .reader s then releaseAir .reader s else s
  if sweepHolds .link s then releaseAir .link s else s

/-- A scheduled sweep goes on to its next target. -/
def sweepRest (w : Sweep) (s : State) : State :=
  match w.rest with
  | [] => setSvy (fun v => { v with sweep := none }) s
  | t :: r => sweepBegin none 0 t true r s

/-- A sweep ends without results (R552, R554). Log entry 54 DEDUCED. -/
def sweepEnd (status : Byte) (s : State) : State :=
  match s.svy.sweep with
  | none => s
  | some w => sweepRest w (sweepTold w status 0xFFFF 0xFFFF (sweepRelease s))

/-- SWEEP_POINT_DONE (R551, R552): a point is measured, or was cut and is measured again; where its calibration failed (R261) the sweep
ends. Log entry 54 DEDUCED. -/
def execSweepPointDone (now : Tick) (g : Option Gamma) (s : State) : Host.Outcome State Fault Refusal :=
  let s := advanceTo now s
  match s.svy.sweep with
  | none => .next s
  | some w =>
    if sweepHolds (sweepCore w) s then
      let (failed, s) := calResult (sweepCore w) s
      if failed then .next (sweepEnd stDegraded s)
      else
      let s := releaseAir (sweepCore w) s
      match g with
      | some g =>
        .next (sweepNext (setSvy (fun v => { v with
          sweep := some { w with points := w.points ++ [(w.next, g)], next := w.next + 1 } }) s))
      | none => .next (sweepNext s)
    else .next s

/-- SWEEP_COMPLETE (R555 to R560): RL, length and class of a sweep whose points are done. -/
def execSweepComplete (now : Tick) (s : State) : Host.Outcome State Fault Refusal :=
  let s := advanceTo now s
  match s.svy.sweep with
  | none => .next s
  | some w =>
    if w.next < 49 then .next s
    else if sweepSilent w then
      let s := setSvy (fun v => { v with targets := vmod v.targets w.target fun g => { g with rl := 0xFFFF, len := 0xFFFF } }) s
      .next (sweepRest w (sweepTold w stOk 0xFFFF 0xFFFF s))
    else
      let (rl, s) := lowestLoss (w.points.filter fun p => inBand w p.1 s) s
      let len := if w.length ∧ w.target.val < 4 then feederLength w.prof w.points else 0xFFFF
      let cls := classify w rl len s
      let s := setSvy (fun v => { v with targets := vmod v.targets w.target fun g =>
        { g with rl := rl, len := len,
                 refRl := if g.refRl.isNone ∧ (cls = 0 ∨ cls = 4) then some (rl, len) else g.refRl } }) s
      let s := sweepTold w stOk rl len s
      .next (sweepRest w (reportClass w.target cls s))

/-- SWEEP_TIMEOUT (R552): 2 s after its first grant. -/
def execSweepTimeout (now : Tick) (s : State) : Host.Outcome State Fault Refusal :=
  let s := advanceTo now s
  match s.svy.sweep with
  | none => .next s
  | some w =>
    match w.from_ with
    | some f => if w.next < 49 ∧ reached s.reel.cnt (f + 48000000) then .next (sweepEnd stAirtime s) else .next s
    | none => .next s

/-- SCHEDULED_SWEEP (R553): at every 900 s of Reel, the aerials used since the start, LKA, and LKB while diversity is in
service; skipped while a sweep runs. -/
def execScheduledSweep (now : Tick) (s : State) : Host.Outcome State Fault Refusal :=
  let s := advanceTo now s
  if s.power.mode == .run && s.reel.cnt.toNat % 21600000000 == 0 && s.svy.sweep.isNone && !noSyn s then
    let own := ([0, 1, 2, 3] : List (Fin 6)).filter fun i => bit s.svy.used i.val
    let div := !bit s.mend.lost 4 && bit s.prof[linkHost s].phycfg 1
    match own ++ [4] ++ (if div then [5] else []) with
    | [] => .next s
    | t :: r => .next (sweepBegin none 0 t true r s)
  else .next s

/-- A sweep target, if it is one. -/
def targetNo (n : Nat) : Option (Fin 6) := if h : n < 6 then some ⟨n, h⟩ else none

/-- MEAS.SWEEP (R178, R553, R557). -/
def execMeasSweep (c : Cmd) (s : State) : Host.Outcome State Fault Refusal :=
  .next (keelRun 0x8001 c (fun s =>
    match targetNo (fld c.args 0 1) with
    | none => refuse c.t stBadArg s
    | some n =>
      if c.args.length ≠ 2 ∨ 1 < fld c.args 1 1 then refuse c.t stBadArg s
      else if inLimp s then refuse c.t stLimp s
      else if noSyn s || (decide (n.val < 4) && lostReaderRx s) then refuse c.t stDegraded s
      else if n.val < 4 ∧ feedBad s.prof[c.t] then refuse c.t stBadArg s
      else if s.svy.sweep.isSome then refuse c.t stBusy s
      else sweepBegin (some c.t) c.seq n (fld c.args 1 1 == 1) [] (reply c.t stOk [] s)) s)

end Sys2Proof.Machine
end

