-- ==== Sys2Proof/Machine/RdrCmds.lean ====
section
/-!
DEFINITION. The RDR commands (6.4) and the happenings of the reader's RF chain (chapter 11).
-/
namespace Sys2Proof.Machine

/-- Why a reader command of a tenant cannot start, in the order LIMP, lost resources, reserved profile values, busy context;
`own` adds the profile's air settings (R60, R165, R178, R290, R346, R557). Log entry 5 DEDUCED. -/
def rdrRefusal (t : Tenant) (own : Bool) (s : State) : Option Byte :=
  match readerDown s with
  | some st => some st
  | none =>
    let p := s.prof[t]
    if paSniffBad p || feedBad p || (own && readerProfileBad p) then some stBadArg
    else if ctxBusy s.ctxs[t] then some stBusy
    else none

/-- The arguments of an RDR.INVENTORY, none where one is out of range (Tables 6-4, 6-5, R187, R317). -/
def invArgsOf (a : Bytes) : Option (InvArgs × Int) :=
  let slen := fld a 10 1
  let power := sWord (fld a 1 2)
  if a.length < 11 ∨ a.length ≠ 11 + (slen + 7) / 8 ∨ 2 < fld a 0 1 ∨ fld a 5 1 = 0 ∨ 15 < fld a 5 1 ∨ 15 < fld a 6 1 ∨
      3 < fld a 7 1 ∨ (0 < slen ∧ fld a 7 1 = 0) ∨ power < -120 then none
  else some ({ region := fld a 0 1, pset := 0, dur := fld a 3 2, asel := BitVec.ofNat 4 (fld a 5 1),
               sess := BitVec.ofNat 8 (fld a 6 1), sbank := fld a 7 1, sptr := fld a 8 2, slen := slen,
               smask := a.drop 11 }, power)

/-- RDR.INVENTORY (R61, R187, R289, R310, R313): the answer gives the power set and the number of the next Query. -/
def execRdrInventory (c : Cmd) (s : State) : Host.Outcome State Fault Refusal :=
  .next (keelRun 0x1000 c (fun s =>
    match invArgsOf c.args with
    | none => refuse c.t stBadArg s
    | some (a, power) =>
      match rdrRefusal c.t (a.region == 2) s with
      | some st => refuse c.t st s
      | none =>
        if a.region = 2 ∧ s.prof[c.t].hop.isEmpty then refuse c.t stBadArg s
        else
          let a := { a with pset := BitVec.ofInt 16 (clampPower s.prof[c.t] power s) }
          let s := reply c.t stOk (leBytes 2 a.pset.toNat ++ leBytes 2 (s.rdr.roundCnt + 1).toNat) s
          let s := setRdr (fun r => { r with lastInv := r.lastInv.set c.t.val (some a) c.t.isLt }) s
          invStart c.t a c.seq false (a.dur == 0) s) s)

/-- RDR.STOP (R181, R276, R596): before the commit point the inventory ends at once; after it the slot is the last. -/
def execRdrStop (c : Cmd) (s : State) : Host.Outcome State Fault Refusal :=
  .next (keelRun 0x1001 c (fun s =>
    match s.rdr.inv[c.t] with
    | none => refuse c.t stBadArg s
    | some i =>
      if c.args.length ≠ 2 ∨ fld c.args 0 2 ≠ i.tseq.toNat then refuse c.t stBadArg s
      else if holds (.ctx c.t) .reader s ∧ pastCommit .reader s ∧ i.stage ≠ .over then
        setInv c.t (some { i with ending := some (i.ending.getD stLateCancel) }) (refuse c.t stLateCancel s)
      else invDone c.t stCancelled (refuse c.t stCancelled s)) s)

/-- RDR.ACCESS (R301 to R303). -/
def execRdrAccess (c : Cmd) (s : State) : Host.Outcome State Fault Refusal :=
  .next (keelRun 0x1002 c (fun s =>
    let a := c.args
    let t := c.t
    let op := fld a 0 1
    let wcnt := fld a 9 1
    let epcw := fld a 10 1
    let n := if op = 1 then wcnt else 0
    if a.length < 11 ∨ 2 < op ∨ 3 < fld a 1 1 ∨ 3 < fld a 6 1 ∨ epcw < 1 ∨ 31 < epcw ∨
        (if op = 2 then 15 < wcnt else wcnt < 1 ∨ 32 < wcnt) ∨ a.length ≠ 11 + 2 * epcw + 2 * n then refuse t stBadArg s
    else if inLimp s then refuse t stLimp s
    else match s.rdr.lastInv[t] with
      | none => refuse t stBadArg s
      | some g =>
        match rdrRefusal t (g.region == 2) s with
        | some st => refuse t st s
        | none =>
          let data := (List.range n).map fun i => BitVec.ofNat 16 (fld a (11 + 2 * epcw + 2 * i) 2)
          let s := startBuiltin t c.seq (reply t stOk [] s)
          accTune t
            { kind := .access op (BitVec.ofNat 32 (fld a 2 4)) (fld a 6 1) (fld a 7 2) wcnt data, args := g,
              tseq := c.seq, asel := mod4 (fld a 1 1), epc := (a.drop 11).take (2 * epcw), stage := .tune, step := .select,
              freq := 0, attempt := 0, rn := 0, handle := 0, tid := [], done := [], ending := none } s) s)

/-- Stop a presence sniff and its burst. -/
def sniffStop (s : State) : State :=
  match s.rdr.sniff with
  | none => s
  | some n =>
    let s := dropWaiters (.sniff n.owner) s
    let s := if holds (.sniff n.owner) .reader s then releaseAir .reader s else s
    setRdr (fun r => { r with sniff := none }) s

/-- Sniff needs VPA and a synthesizer; its receive path is its own (R60, Table 22-5). -/
def sniffDown (s : State) : Option Byte :=
  if inLimp s then some stLimp else if s.power.vpaLow || noSyn s then some stDegraded else none

/-- RDR.SNIFF (R339, R346): one per device; IVL 0 stops the caller's own. -/
def execRdrSniff (c : Cmd) (s : State) : Host.Outcome State Fault Refusal :=
  .next (keelRun 0x1003 c (fun s =>
    let a := c.args
    let t := c.t
    let ivl := fld a 0 2
    let other := match s.rdr.sniff with | some n => n.owner != t | none => false
    if a.length ≠ 6 ∨ (ivl ≠ 0 ∧ (ivl < 50 ∨ 2000 < ivl)) ∨ 3 < fld a 2 1 ∨ 1 < fld a 5 1 then refuse t stBadArg s
    else match sniffDown s with
      | some st => refuse t st s
      | none =>
        if ivl ≠ 0 ∧ (paSniffBad s.prof[t] || feedBad s.prof[t]) then refuse t stBadArg s
        else if other then refuse t stBusy s
        else
          let s := sniffStop (reply t stOk [] s)
          if ivl = 0 then s
          else
            let n : Sniff :=
              { owner := t, tseq := c.seq, ivl := ivl, asel := mod4 (fld a 2 1), thr := fld a 3 2,
                auto := fld a 5 1 == 1, armed := true, below := 0, waiting := false,
                due := s.reel.cnt + BitVec.ofNat 48 (ivl * 24000) }
            setRdr (fun r => { r with skip := 0, sniff := some n }) s) s)

/-- The mean of reflection vectors. -/
def gammaMean (l : List Gamma) : Gamma :=
  { re := (l.map (·.re)).sum / l.length, im := (l.map (·.im)).sum / l.length }

/-- The air request of a baseline's bursts: class 6 on the channel of RDR_SNIFF (R343). -/
def baselineReq (t : Tenant) (s : State) : AirReq :=
  { core := .reader, who := .baseline t, cls := 6, freq := bits s.prof[t].sniff 12 0, since := s.reel.cnt, gnt := true,
    wait := coexWait t s, noWait := true }

/-- A request has the air at once: no holder stands in its way, the grant is there, and no waiting request comes before it (R152, R265,
R269, R278). -/
def airNow (r : AirReq) (s : State) : Bool :=
  passes s.reel.cnt r s.radio.rHold s && passes s.reel.cnt r s.radio.lHold s && coexOk r s && !yields r s &&
  !s.radio.waiters.any (fun e => airConflict e r s && !beforeInOrder r e s)

/-- The bursts of a baseline have run: 16 times 40 µs and what lies between them, which is free, are charged to the tenant (R153,
R270). Log entry 86 DESIGN CHOICE. -/
def baselineCharged (t : Tenant) (s : State) : State :=
  let (n, s) := drawNat s
  setRadio (fun r => { r with charged := vmod r.charged t (· + 15360 + n) }) s

/-- RDR.BASELINE (R27, R28, R340, R343): the average of 16 bursts; without the air for them it ends in ST_AIRTIME (log entries 25
DEDUCED, 86 DESIGN CHOICE). Table 6-4 lists ST_BUSY without its condition: it is given while another tenant's sniff runs. Log entry 77
DESIGN CHOICE. -/
def execRdrBaseline (c : Cmd) (bursts : List Gamma) (s : State) : Host.Outcome State Fault Refusal :=
  .next (keelRun 0x1004 c (fun s =>
    let t := c.t
    let other := match s.rdr.sniff with | some n => n.owner != t | none => false
    if c.args.length ≠ 1 ∨ 3 < fld c.args 0 1 then refuse t stBadArg s
    else match sniffDown s with
      | some st => refuse t st s
      | none =>
        if paSniffBad s.prof[t] || feedBad s.prof[t] then refuse t stBadArg s
        else if other then refuse t stBusy s
        else if bursts.length ≠ 16 ∨ !airNow (baselineReq t s) s then refuse t stAirtime s
        else
          let s := baselineCharged t (releaseAir .reader (grantAir (baselineReq t s) s.reel.cnt (takeHalf .reader t s)))
          reply t stOk [] (setBase (mod4 (fld c.args 0 1)) (gammaMean bursts) s)) s)

/-- Whether a tenant has an activity on the reader that runs or waits for air (R589). -/
def rdrActive (t : Tenant) (s : State) : Bool :=
  s.rdr.inv[t].isSome || s.rdr.acc[t].isSome || s.sess[t].opened ||
  (match s.rdr.sniff with | some n => n.owner == t | none => false) ||
  (match s.svy.sweep with | some w => w.owner == some t && decide (w.target.val < 4) | none => false) ||
  (match s.radio.rHold with | some h => h.req.who == .ctx t | none => false) ||
  s.radio.waiters.any (fun r => r.core == .reader && r.who == .ctx t) ||
  (s.tag.enabled && s.tag.field && s.tag.owner == t)

/-- The predistortion tables and NOCONC clear (R326, R333). -/
def rdrClear : State → State := setRdr fun r => { r with dpd := Vector.replicate 3 0, noconc := 0 }

/-- A block or context reset meets an access: at once, or when the frame past its commit point is over (R220, R588).
Log entry 19 DEDUCED. -/
def accReset (t : Tenant) (s : State) : State :=
  match s.rdr.acc[t] with
  | none => s
  | some a =>
    if holds (.ctx t) .reader s ∧ pastCommit .reader s then setAcc t (some { a with ending := some stAbortedReset }) s
    else endAcc t stAbortedReset 0 0 s

/-- A built-in program that a reset meets ends its activity, under the commit point (R220, R588). Log entry 19 DEDUCED. -/
def builtinReset (t : Tenant) (s : State) : State :=
  match s.rdr.inv[t] with
  | some i =>
    if holds (.ctx t) .reader s ∧ pastCommit .reader s ∧ i.stage ≠ .over then
      setInv t (some { i with ending := some stAbortedReset }) s
    else invDone t stAbortedReset s
  | none => accReset t s

/-- A core's block reset reaches a program of the tenant's own: one that holds the core ends (R220), and an air request that
waits for it completes with ST_ABORTED_RESET (R588). -/
def ctxAirGone (t : Tenant) (c : CoreId) (s : State) : State :=
  if holds (.ctx t) c s then stopProgram t stAbortedReset s
  else if s.radio.waiters.any (fun r => r.core == c && r.who == .ctx t) then
    let s := coexTrack (setRadio (fun r => { r with waiters := r.waiters.filter fun q => !(q.core == c && q.who == .ctx t) }) s)
    match s.ctxs[t].pend with
    | some p => if p.noAir then endWait t s.reel.cnt (airFailCtx p.d stAbortedReset) s else s
    | none => s
  else s

/-- RDR.RESET (R82, R186, R588, R589): the tenant's reader activities end in ST_ABORTED_RESET, a slot past its commit point
first being finished; Keel's own sweep of a reader aerial waits for its next mark. -/
def execRdrReset (c : Cmd) (s : State) : Host.Outcome State Fault Refusal :=
  .next (keelRun 0x10F0 c (fun s =>
    let t := c.t
    if c.args.length ≠ 0 then refuse t stBadArg s
    else if tenants.any (fun u => u != t && rdrActive u s) then refuse t stBusy s
    else
      let s := reply t stOk [] s
      let s := setEpoch (fun e => { e with rdr := e.rdr + 1 }) (rdrClear s)
      let s := if s.rdr.inv[t].isSome || s.rdr.acc[t].isSome then builtinReset t s else ctxAirGone t .reader s
      let s := closeSession t 0 s
      let s := if (match s.rdr.sniff with | some n => n.owner == t | none => false) then sniffStop s else s
      match s.svy.sweep with
      | some w =>
        if w.target.val < 4 then
          if w.owner.isSome then sweepEnd stAbortedReset s
          else setSvy (fun v => { v with sweep := none }) (sweepRelease s)
        else s
      | none => s) s)

/-- SNIFF_BURST_DUE (R60, R342, R343): a burst that still waits is skipped and counted, and the next one asks for air;
bursts pause while the sniff's own inventory holds the reader air. Log entries 25 DEDUCED, 39 DEDUCED. -/
def execSniffBurstDue (now : Tick) (s : State) : Host.Outcome State Fault Refusal :=
  let s := advanceTo now s
  match s.rdr.sniff with
  | none => .next s
  | some n =>
    if s.power.mode == .run && reached s.reel.cnt n.due then
      let auto := match s.rdr.inv[n.owner] with
        | some i => i.tseq == n.tseq && holds (.ctx n.owner) .reader s
        | none => false
      let s := dropWaiters (.sniff n.owner) s
      let skip := if n.waiting then satInc 255 s.rdr.skip else s.rdr.skip
      let ask := !auto && (sniffDown s).isNone && !holds (.sniff n.owner) .reader s
      let s := setRdr (fun r => { r with
        skip := skip
        sniff := some { n with due := n.due + BitVec.ofNat 48 (n.ivl * 24000), waiting := ask } }) s
      if ask then
        .next (requestAir { core := .reader, who := .sniff n.owner, cls := 6, freq := bits s.prof[n.owner].sniff 12 0,
                            since := s.reel.cnt, gnt := true, wait := coexWait n.owner s, noWait := false } s)
      else .next s
    else .next s

/-- The reader activity that holds the air ends with a status (R325). Log entry 26 DEDUCED. -/
def readerFails (status : Byte) (s : State) : State :=
  match s.radio.rHold with
  | none => s
  | some h =>
    match h.req.who with
    | .ctx t =>
      if isBuiltin s.ctxs[t] then
        if s.rdr.inv[t].isSome then invDone t status s else endAcc t status 0 1 s
      else
        let s := releaseAir .reader s
        match s.ctxs[t].pend with
        | some p =>
          if opCore p.op = some .reader then endWait t s.reel.cnt (fun k => airFailCtx p.d status { k with tunedR := false }) s
          else modCtx t (fun k => { k with lostR := true, tunedR := false }) s
        | none => modCtx t (fun k => { k with lostR := true, tunedR := false }) s
    | .session t => closeSession t 1 s
    | _ => releaseAir .reader s

/-- PA_ILIM_TRIP (R325): PAEN falls, RDTX ramps down, the activity ends in ST_DEGRADED. -/
def execPaIlimTrip (now : Tick) (s : State) : Host.Outcome State Fault Refusal :=
  let s := advanceTo now s
  if paenHigh s then
    .next (readerFails stDegraded (setRdr (fun r => { r with trips := satInc 255 r.trips, paen := none }) s))
  else .next s

/-- COMPENSATION_RECOMPUTE (R320): while the carrier is on. -/
def execCompensationRecompute (smp : Sample) (s : State) : Host.Outcome State Fault Refusal :=
  if s.rdr.carrier.isSome then .next (compReady smp s) else .next s

/-- LINK_COMPENSATION (R403). -/
def execLinkCompensation (smp : Sample) (s : State) : Host.Outcome State Fault Refusal :=
  if s.power.mode == .run then .next (linkCompReady smp s) else .next s

/-- A tap has converged: its state on this aerial and channel group is kept as a warm start (11.3). -/
def tapWarm (tapL : Bool) (s : State) : State :=
  let e := (tapL, s.rdr.aerial, dpdGroup s.radio.rFreq)
  setRdr (fun r => { r with warm := if r.warm.contains e then r.warm else e :: r.warm }) s

/-- CANCELLER_CONVERGED (R329, R330, R332): tap R above +5 dBm saturates; a built-in program that waited for it goes on. -/
def execCancellerConverged (tapL : Bool) (jammerDbm : Int) (suppHalfDb : BitVec 8) (s : State) :
    Host.Outcome State Fault Refusal :=
  if s.rdr.carrier.isNone then .next s
  else if tapL then
    if coreState .link s == .rx then .next (tapWarm true (setRdr (fun r => { r with convL := true }) s)) else .next s
  else
    let sat := decide (5 < jammerDbm)
    let s := tapWarm false (setRdr (fun r => { r with
      convR := true, satR := sat, suppR := suppHalfDb, clcSat := if sat then satInc 0xFFFF r.clcSat else r.clcSat }) s)
    match s.radio.rHold with
    | some h => (match h.req.who with
      | .ctx x => (match s.rdr.inv[x], s.rdr.acc[x] with
        | some i, _ => if i.stage = .settle then .next (invSettled x i s) else .next s
        | none, some a => if a.stage = .settle then .next (accSend x { a with step := .select } 203 s) else .next s
        | none, none => .next s)
      | _ => .next s)
    | none => .next s

/-- TAP_L_SATURATION (R333). -/
def execTapLSaturation (s : State) : Host.Outcome State Fault Refusal :=
  if s.rdr.carrier.isSome then
    .next (setRdr (fun r => { r with noconc := r.noconc ||| BitVec.ofNat 4 (2 ^ r.aerial.val) }) s)
  else .next s

/-- An RXWIN of some context receives. -/
def rxOpen (s : State) : Bool := tenants.any fun x => (pendIs x .rxwin s).isSome

/-- RX_GAIN_STEP (R334, R335): a threshold crossed, 4 ms after the last step; during a window the step waits for its end. -/
def execRxGainStep (now : Tick) (levelDbm : Int) (s : State) : Host.Outcome State Fault Refusal :=
  let s := advanceTo now s
  let g : Int := s.rdr.gain
  let step : Int := if -40 + 6 * g < levelDbm ∧ g < 7 then 1 else if levelDbm < -49 + 6 * g ∧ 0 < g then -1 else 0
  if step ≠ 0 ∧ 96000 ≤ ticksBetween s.rdr.gainAt s.reel.cnt then
    let s := setRdr (fun r => { r with gainDue := step }) s
    .next (if rxOpen s then s else gainApply s)
  else .next s

/-- ADC_CLIP (R336): one step down at the end of the window in progress, or at once. The spec does not say what several clips in one
window make: each makes a step. Log entry 79 DESIGN CHOICE. -/
def execAdcClip (now : Tick) (s : State) : Host.Outcome State Fault Refusal :=
  let s := advanceTo now s
  let s := setRdr (fun r => { r with clips := satInc 255 r.clips, gainDue := r.gainDue + 1 }) s
  .next (if rxOpen s then s else gainApply s)

end Sys2Proof.Machine
end

