-- ==== Sys2Proof/Machine/TagSec.lean ====
section
/-!
DEFINITION. Tag security and the lantern tag (chapter 12): the TAG and SEC commands, field detect, the lantern tag's air
behaviour, the Farzoben exchange in both roles, sessions and readout. PRESUMED: Select, Read and TAM1 are those of ISO/IEC
18000-63 and ISO/IEC 29167-10, which the spec names.
-/
namespace Sys2Proof.Machine

-- ------------------------------------------------------------------ session messages (12.4)

/-- Kenc and Kmac of an exchange (Table 12-3). -/
def secKeys (ktag rch tch : Bytes) : SecCtx :=
  { ktag := ktag, kenc := kdf ktag lblFzenc (rch ++ tch) 128, kmac := kdf ktag lblFzmac (rch ++ tch) 128, rch := rch, tch := tch }

/-- The CCM nonce (12.4). -/
def secNonce (c : SecCtx) (dir : Byte) (ctr : Nat) : Bytes := [dir] ++ c.rch.take 4 ++ c.tch.take 4 ++ leBytes 4 ctr

/-- Build a session message (Table 12-6). -/
def secMessage (c : SecCtx) (dir typ : Byte) (ctr : Nat) (plain : Bytes) : Bytes :=
  let head := [typ] ++ leBytes 4 ctr
  head ++ ccmEnc c.kenc (secNonce c dir ctr) head plain 8

/-- The plaintext of a session message if its MIC verifies. -/
def secOpen (c : SecCtx) (dir : Byte) (msg : Bytes) : Option Bytes :=
  ccmDec c.kenc (secNonce c dir (fld msg 1 4)) (msg.take 5) (msg.drop 5) 8

/-- The limit of both directions together (R357). -/
def msgLimit : Nat := 1048576

/-- Why a session's key can no longer be charged: REASON 0 for a slot erased or orphaned, REASON 2 at its use limit (R350,
R482); otherwise the state with one use charged. -/
def chargeSession (k : Fin 48) (gone : Bool) (s : State) : Except Nat State :=
  if gone || s.bri.slots[k].key.isNone || orphaned s 5 k then .error 0
  else match chargeKey k 1 s with
    | some s => .ok s
    | none => .error 2

-- ------------------------------------------------------------------ the lantern tag: commands

/-- The lantern tag's hold on the reader core ends (R271). -/
def lanternRelease (s : State) : State :=
  let s := dropWaiters .lantern s
  if holds .lantern .reader s then coexTrack (setHold .reader none s) else s

/-- The lantern tag is disabled (R190, R368, R369). Log entry 31 DEDUCED. -/
def tagOff (s : State) : State :=
  if s.tag.enabled then
    lanternRelease (setTag (fun g => { g with
      enabled := false, flags := 0, epc := [], field := false, owed := false, fd := false, sl := false, inv := 0,
      rn16 := none, handle := none, ctx := none, fz2Handle := none, part := [], request := [], area := [], pubNext := [],
      keyGone := false }) (closeTagSession 0 s))
  else s

/-- TAG.ENABLE (R188, R189, R369). The owner may enable again: key, EPC and options are taken anew.
Log entry 31 DEDUCED. -/
def execTagEnable (c : Cmd) (s : State) : Host.Outcome State Fault Refusal :=
  .next (keelRun 0x1100 c (fun s =>
    let a := c.args
    let t := c.t
    let n := fld a 2 1
    if a.length < 3 ∨ n < 2 ∨ 8 < n ∨ a.length ≠ 3 + 2 * n ∨ 7 < fld a 1 1 then refuse t stBadArg s
    else if inLimp s then refuse t stLimp s
    else if s.tag.enabled ∧ s.tag.owner ≠ t then refuse t stBusy s
    else match keyRefusal t (fld a 0 1) isDerive s, slotNo (fld a 0 1) with
      | some st, _ => refuse t st s
      | none, none => refuse t stBadArg s
      | none, some k =>
        reply t stOk [] (setTag (fun g => { g with
          enabled := true, owner := t, key := k, flags := BitVec.ofNat 8 (fld a 1 1), epc := a.drop 3 }) s)) s)

/-- A tenant does not own the lantern tag (R188). -/
def notTagOwner (t : Tenant) (s : State) : Bool := !s.tag.enabled || s.tag.owner != t

/-- TAG.DISABLE (R188, R190, R369). Log entry 31 DEDUCED. -/
def execTagDisable (c : Cmd) (s : State) : Host.Outcome State Fault Refusal :=
  .next (keelRun 0x1101 c (fun s =>
    if c.args.length ≠ 0 then refuse c.t stBadArg s
    else if notTagOwner c.t s then refuse c.t stDenied s
    else tagOff (reply c.t stOk [] s)) s)

/-- TAG.PUBLISH (R188, R189): with a session open the write takes effect at the next crew message. -/
def execTagPublish (c : Cmd) (s : State) : Host.Outcome State Fault Refusal :=
  .next (keelRun 0x1102 c (fun s =>
    let a := c.args
    let off := fld a 0 2
    let len := fld a 2 2
    if a.length ≠ 4 + len then refuse c.t stBadArg s
    else if notTagOwner c.t s then refuse c.t stDenied s
    else if len < 1 ∨ 512 < len ∨ 2048 < off + len then refuse c.t stBadArg s
    else
      reply c.t stOk [] (setTag (fun g =>
        if g.session then { g with pubNext := g.pubNext ++ [(off, a.drop 4)] }
        else { g with area := memPutAll g.area off (a.drop 4) }) s)) s)

-- ------------------------------------------------------------------ field detect (12.7.2)

/-- Tell the tag's owner of the field (R372). -/
def evFieldTo (on : Byte) (level : Byte) (s : State) : State :=
  if bit s.tag.flags 2 then raise s.tag.owner evField [on, level] s else s

/-- The lantern tag's claim on the reader core (R271, R376). -/
def lanternHold (s : State) : State :=
  if holds .lantern .reader s || s.radio.waiters.any (fun r => r.who == .lantern) then s
  else requestAir { core := .reader, who := .lantern, cls := 1, freq := 0, since := s.reel.cnt, gnt := false, wait := 0,
                    noWait := false } s

/-- FIELD_QUALIFIED (R368, R370 to R372): only while the tag is enabled, the own carrier is off and the level is at least
-40 dBm. While the part sleeps or wakes, EV_FIELD and the hold come when STANDBY is reached. Log entry 31 DEDUCED. -/
def execFieldQualified (now : Tick) (levelDbm : BitVec 8) (s : State) : Host.Outcome State Fault Refusal :=
  let s := advanceTo now s
  if s.tag.enabled && !s.tag.field && s.rdr.carrier.isNone && decide (-40 ≤ levelDbm.toInt) then
    let s := setTag (fun g => { g with field := true, level := levelDbm, fd := bit g.flags 0 }) s
    if s.power.mode == .run then .next (lanternHold (evFieldTo 1 levelDbm s))
    else .next (startWake .field (setTag (fun g => { g with owed := true }) s))
  else .next s

/-- FIELD_DROP (R357, R370, R372): the session is lost with the field; the reader core is free. The level told is the last
one qualified. Log entry 31 DEDUCED. -/
def execFieldDrop (now : Tick) (s : State) : Host.Outcome State Fault Refusal :=
  let s := advanceTo now s
  if s.tag.field && s.rdr.carrier.isNone then
    let s := closeTagSession 1 s
    let s := if s.tag.owed then evFieldTo 1 s.tag.level s else s
    let s := setTag (fun g => { g with field := false, owed := false, fd := false, rn16 := none, handle := none, ctx := none,
                                       fz2Handle := none, part := [], request := [] }) s
    .next (lanternRelease (evFieldTo 0 s.tag.level s))
  else .next s

-- ------------------------------------------------------------------ the lantern tag on air (12.7.3)

/-- The lantern tag hears: enabled, in a qualified field, in STANDBY or ACTIVE (R373). -/
def tagHears (s : State) : Bool := s.tag.enabled && s.tag.field && s.power.mode == .run

/-- The PC word of the lantern tag (Table 12-7). -/
def tagPc (s : State) : Nat := s.tag.epc.length / 2 * 2048

/-- CRC-16 of bytes, as two bytes in air order. -/
def crcBytes (b : Bytes) : Bytes := beBytes 2 (bitsNat ((withCrc16 (byteBits b)).drop (8 * b.length)))

/-- PC and EPC in air order. -/
def tagPcEpc (s : State) : Bytes := beBytes 2 (tagPc s) ++ s.tag.epc

/-- The lantern tag's TID: class and model words, then the serial number (R629, R631, Table 12-7). -/
def tagTid (s : State) : Bytes := [0xE2, 0x8A, 0x40, 0x40] ++ beBytes 8 s.serial.toNat

/-- The bytes of a bank (PRESUMED: word 0 of the EPC bank is its CRC-16). Log entries 13 PRESUMED, 33 PRESUMED. -/
def tagBank (bank : BitVec 2) (s : State) : Bytes :=
  match bank.toNat with
  | 1 => crcBytes (tagPcEpc s) ++ tagPcEpc s
  | 2 => tagTid s
  | _ => []

/-- A Select matches: the EPC bank from bit 0x20 on, or the TID bank; memory that is not there matches nothing.
Log entry 33 PRESUMED. -/
def tagMatches (bank : BitVec 2) (ptr : Nat) (mask : List Bool) (s : State) : Bool :=
  let b := byteBits (tagBank bank s)
  (bank == 2 || (bank == 1 && decide (32 ≤ ptr))) && decide (ptr + mask.length ≤ b.length) &&
    (b.drop ptr).take mask.length == mask

/-- What an Action does to a flag: `some b` sets it, `none` keeps it (PRESUMED ISO/IEC 18000-63; a flag is true for SL
asserted or inventoried A). Log entries 13 PRESUMED, 33 PRESUMED. -/
def selectAction (action : BitVec 3) (hit flag : Bool) : Bool :=
  match action.toNat, hit with
  | 0, h => h
  | 1, true => true
  | 2, false => false
  | 3, true => !flag
  | 4, h => !h
  | 5, true => false
  | 6, false => true
  | 7, false => !flag
  | _, _ => flag

/-- TAG_SELECT (Table 12-7). -/
def execTagSelect (target action : BitVec 3) (bank : BitVec 2) (ptr : Nat) (mask : List Bool) (s : State) :
    Host.Outcome State Fault Refusal :=
  if tagHears s then
    let hit := tagMatches bank ptr mask s
    .next (setTag (fun g =>
      match target.toNat with
      | 4 => { g with sl := selectAction action hit g.sl }
      | 0 | 1 | 2 | 3 =>
        let b := selectAction action hit (!bit g.inv target.toNat)
        let m : BitVec 4 := BitVec.ofNat 4 (2 ^ target.toNat)
        { g with inv := if b then g.inv &&& ~~~m else g.inv ||| m }
      | _ => g) s)
  else .next s

/-- The BLF that a TRcal in ns sets lies between 40 and 640 kHz (R374). Log entry 33 PRESUMED. -/
def blfInReach (dr : Bool) (trcal : Nat) : Bool :=
  if dr then decide (120 * trcal ≤ 64000000 ∧ 64000000 ≤ 1920 * trcal)
  else decide (40 * trcal ≤ 8000000 ∧ 8000000 ≤ 640 * trcal)

/-- TAG_QUERY (R374, Table 12-7): a matching Query is answered with a fresh RN16, whose value is free.
Log entry 31 DEDUCED. -/
def execTagQuery (sel sess : BitVec 2) (targetB : Bool) (dr : Bool) (m : BitVec 2) (trext : Bool) (trcal : Nat) (s : State) :
    Host.Outcome State Fault Refusal :=
  let selOk := match sel.toNat with
    | 2 => !s.tag.sl
    | 3 => s.tag.sl
    | _ => true
  if tagHears s && selOk && bit s.tag.inv sess.toNat == targetB && blfInReach dr trcal then
    let (r, s) := drawNat s
    let rn := BitVec.ofNat 16 r
    .next (setTag (fun g => { g with rn16 := some rn, blfSet := (trcal, dr, m, trext), replyOut := .rn16 rn }) s)
  else .next s

/-- TAG_ACK (Table 12-7): the RN16 becomes the handle. Log entry 31 DEDUCED. -/
def execTagAck (rn16 : BitVec 16) (s : State) : Host.Outcome State Fault Refusal :=
  if tagHears s && s.tag.rn16 == some rn16 then
    .next (setTag (fun g => { g with
      handle := some rn16, replyOut := .epc (tagPcEpc s ++ crcBytes (tagPcEpc s)) }) s)
  else .next s

/-- A command with the lantern tag's handle. -/
def withHandle (h : BitVec 16) (s : State) : Bool := tagHears s && s.tag.handle == some h

/-- TAG_READ (Table 12-7): PRESUMED, a word count of 0 reads to the end of the bank. -/
def execTagRead (handle : BitVec 16) (bank : BitVec 2) (ptr : Nat) (count : Nat) (s : State) :
    Host.Outcome State Fault Refusal :=
  if withHandle handle s then
    let b := tagBank bank s
    let n := if count = 0 then b.length / 2 - ptr else count
    if n = 0 ∨ b.length < 2 * (ptr + n) then .next (setTag (fun g => { g with replyOut := .error 0x04 }) s)
    else .next (setTag (fun g => { g with replyOut := .words ((b.drop (2 * ptr)).take (2 * n)) }) s)
  else .next s

-- ------------------------------------------------------------------ the lantern tag: Farzoben (12.3, 12.4)

/-- A message of the lantern tag: one use is charged for it; where no use can be charged it is not sent, and an open session
closes (R350, R482). Log entry 32 DEDUCED. -/
def tagAnswer (msg : Bytes) (s : State) : State :=
  match chargeSession s.tag.key s.tag.keyGone s with
  | .error r => setTag (fun g => { g with ctx := none, fz2Handle := none }) (closeTagSession r s)
  | .ok s => setTag (fun g => { g with replyOut := .msg msg }) s

/-- ERR (Table 12-5). Log entry 32 DEDUCED. -/
def tagErr (code : Byte) : State → State := tagAnswer [0x7F, code]

/-- The authentication backoff still runs (R378). -/
def backingOff (s : State) : Bool :=
  match s.tag.backoff with
  | some t => !reached s.reel.cnt t
  | none => false

/-- FZ1_RECEIVED (R351, R354, R378, Table 12-4): FZ2 with a fresh TCH. Without a usable key or an instantiated DRBG nothing
is answered. Log entry 32 DEDUCED. -/
def execFz1Received (handle : BitVec 16) (msg : Bytes) (now : Tick) (s : State) : Host.Outcome State Fault Refusal :=
  let s := advanceTo now s
  if !withHandle handle s then .next s
  else if msg.length ≠ 10 ∨ msg.take 2 ≠ [0x01, 0x01] then .next (tagErr 0x05 s)
  else if backingOff s then .next (tagErr 0x02 s)
  else match chargeSession s.tag.key (s.tag.keyGone && s.tag.session) s with
    | .error r => .next (setTag (fun g => { g with ctx := none, fz2Handle := none }) (closeTagSession r s))
    | .ok s1 =>
      let s := setTag (fun g => { g with keyGone := false, ctx := none, fz2Handle := none }) (closeTagSession 0 s1)
      match keyRefusal s.tag.owner s.tag.key.val isDerive s, keyValue s 5 s.tag.key, drbgTake 8 s with
      | none, some fk, some (tch, s) =>
        let c := secKeys (tagKey fk (tagTid s)) (msg.drop 2) tch
        let s := cacheKey s.tag.key (setTag (fun g => { g with ctx := some c, fz2Handle := some handle }) s)
        .next (tagAnswer ([0x02] ++ tch ++ tproof c) s)
      | _, _, _ => .next s

/-- The seconds of backoff after n failures in a row (R378). -/
def backoffSeconds (n : Nat) : Nat := min (2 ^ (min n 7 - 1)) 64

/-- FZ3_RECEIVED (R353, R378, R379): a right RPROOF opens the session, a wrong one is answered ERR 0x01.
Log entry 32 DEDUCED. -/
def execFz3Received (handle : BitVec 16) (msg : Bytes) (now : Tick) (s : State) : Host.Outcome State Fault Refusal :=
  let s := advanceTo now s
  if !withHandle handle s then .next s
  else if msg.length ≠ 9 ∨ msg.take 1 ≠ [0x03] then .next (tagErr 0x05 s)
  else match s.tag.ctx with
    | none => .next (tagErr 0x03 s)
    | some c =>
      if s.tag.fz2Handle ≠ some handle then .next (tagErr 0x03 s)
      else if msg.drop 1 = rproof c then
        match chargeSession s.tag.key s.tag.keyGone s with
        | .error _ => .next (setTag (fun g => { g with ctx := none, fz2Handle := none }) s)
        | .ok s =>
          let s := setTag (fun g => { g with session := true, fz2Handle := none, ctrTx := 0, ctrRx := 0, msgs := 0,
                                             part := [], request := [], failRun := 0, backoff := none }) s
          let s := raise s.tag.owner evTagSession ([1, 0] ++ leBytes 4 0) s
          .next (tagAnswer [0x04, 0x00] s)
      else
        let s := setTag (fun g =>
          let n := g.failRun + 1
          { g with ctx := none, fz2Handle := none, failRun := satInc 255 g.failRun, failTotal := satInc 255 g.failTotal,
                   backoff := some (s.reel.cnt + BitVec.ofNat 48 (backoffSeconds n * 24000000)) }) s
        let s := logAuthFail 1 s.tag.owner (raise s.tag.owner evTagSession ([0, 3] ++ leBytes 4 0) s)
        .next (tagErr 0x01 s)

/-- TAM1_RECEIVED (R347, R361; PRESUMED: messages and error code of ISO/IEC 29167-10 and 18000-63): answered only with FLAGS
bit 1 and KeyID 0. Log entries 14 PRESUMED, 32 DEDUCED. -/
def execTam1Received (handle : BitVec 16) (msg : Bytes) (s : State) : Host.Outcome State Fault Refusal :=
  if !withHandle handle s then .next s
  else if !bit s.tag.flags 1 || decide (msg.length ≠ 12) || msg.take 2 != [0x00, 0x00] then
    .next (setTag (fun g => { g with replyOut := .error 0x01 }) s)
  else match keyRefusal s.tag.owner s.tag.key.val isDerive s, keyValue s 5 s.tag.key, drbgTake 4 s with
    | none, some fk, some (rnd, s) =>
      (match chargeKey s.tag.key 1 s with
       | some s =>
         let blk := aesEnc (tagKey fk (tagTid s)) ([0x96, 0xC5] ++ rnd ++ msg.drop 2)
         .next (cacheKey s.tag.key (setTag (fun g => { g with replyOut := .msg blk }) s))
       | none => .next s)
    | _, _, _ => .next s

/-- Count a session message of the lantern tag; at the limit the session closes (R357, R379). -/
def tagCounted (s : State) : State :=
  let s := setTag (fun g => { g with msgs := g.msgs + 1 }) s
  if msgLimit ≤ s.tag.msgs then closeTagSession 2 s else s

/-- Send a session message of the lantern tag: its counter, its charge, its count (R350, R355). -/
def tagSend (typ : Byte) (plain : Bytes) (s : State) : State :=
  match s.tag.session, s.tag.ctx with
  | true, some c =>
    let n := s.tag.ctrTx + 1
    let s := tagAnswer (secMessage c 0x01 typ n plain) s
    if s.tag.session then tagCounted (setTag (fun g => { g with ctrTx := n }) s) else s
  | _, _ => s

/-- What TAG.PUBLISH wrote since the last crew message is in the area now (R189, R377). Log entry 32 DEDUCED. -/
def publishNow : State → State := setTag fun g =>
  { g with area := g.pubNext.foldl (fun a p => memPutAll a p.1 p.2) g.area, pubNext := [] }

/-- A request's form (Table 12-8): unknown OP, malformed, or one that a readout row answers. -/
inductive ReadoutForm where
  | unknown | malformed | known
  deriving DecidableEq, Repr

def readoutForm (b : Bytes) : ReadoutForm :=
  match fld b 0 1 with
  | 1 => if b.length = 4 ∧ 1 ≤ fld b 3 1 ∧ fld b 3 1 ≤ 128 then .known else .malformed
  | 2 | 3 => if b.length = 1 then .known else .malformed
  | _ => if b.isEmpty then .malformed else .unknown

/-- SESSION_MESSAGE (R355, R356, R358): a good non-final fragment is acknowledged; a good final one becomes the request, which
the readout rows answer, unless it is malformed (ERR 0x05) or its OP unknown (RESULT 0x01). Log entry 32 DEDUCED. -/
def execSessionMessage (handle : BitVec 16) (msg : Bytes) (s : State) : Host.Outcome State Fault Refusal :=
  if !withHandle handle s then .next s
  else
    let typ := msg.getD 0 0
    match s.tag.session, s.tag.ctx with
    | true, some c =>
      if msg.length < 13 ∨ 213 < msg.length ∨ (typ ≠ 0x10 ∧ typ ≠ 0x12) then .next (tagErr 0x05 s)
      else if fld msg 1 4 ≤ s.tag.ctrRx then .next (tagErr 0x04 s)
      else match secOpen c 0x00 msg with
        | none => .next (tagErr 0x01 s)
        | some plain =>
          match chargeSession s.tag.key s.tag.keyGone s with
          | .error r => .next (closeTagSession r s)
          | .ok s =>
            let s := publishNow (setTag (fun g => { g with ctrRx := fld msg 1 4 }) s)
            let whole := s.tag.part ++ plain
            if typ = 0x12 then .next (tagSend 0x13 [] (tagCounted (setTag (fun g => { g with part := whole }) s)))
            else
              let s := tagCounted (setTag (fun g => { g with part := [] }) s)
              if !s.tag.session then .next s
              else match readoutForm whole with
                | .malformed => .next (tagErr 0x05 s)
                | .unknown => .next (tagSend 0x11 [0x01] s)
                | .known => .next (setTag (fun g => { g with request := whole }) s)
    | _, _ => .next (tagErr 0x03 s)

/-- Answer the request that waits. -/
def answerRequest (plain : Bytes) (s : State) : State := tagSend 0x11 plain (setTag (fun g => { g with request := [] }) s)

/-- READOUT_READ (R377, Table 12-8). Log entry 32 DEDUCED. -/
def execReadoutRead (off : BitVec 16) (len : BitVec 8) (s : State) : Host.Outcome State Fault Refusal :=
  if s.tag.session && s.tag.request == [0x01] ++ leBytes 2 off.toNat ++ [len] then
    let s := publishNow s
    if 2048 < off.toNat + len.toNat then .next (answerRequest [0x01] s)
    else .next (answerRequest ([0x00] ++ memGetAll s.tag.area off.toNat len.toNat) s)
  else .next s

/-- READOUT_INFO: the area's size, Reel, and the messages so far. Log entry 32 DEDUCED. -/
def execReadoutInfo (now : Tick) (s : State) : Host.Outcome State Fault Refusal :=
  let s := advanceTo now s
  if s.tag.session && s.tag.request == [0x02] then
    .next (answerRequest ([0x00] ++ leBytes 2 2048 ++ tickBytes s.reel.cnt ++ leBytes 4 s.tag.msgs) s)
  else .next s

/-- READOUT_CLOSE: the session ends after the reply (R357). -/
def execReadoutClose (s : State) : Host.Outcome State Fault Refusal :=
  if s.tag.session && s.tag.request == [0x03] then .next (closeTagSession 0 (answerRequest [0x00] s)) else .next s

/-- AUTH_BACKOFF_EXPIRY (R378). -/
def execAuthBackoffExpiry (now : Tick) (s : State) : Host.Outcome State Fault Refusal :=
  let s := advanceTo now s
  if backingOff s then .next s else .next (setTag (fun g => { g with backoff := none }) s)

-- ------------------------------------------------------------------ the interrogator: commands (6.6)

/-- Start an exchange (R301, R348, R362): its own format check has passed; `own` is what refuses it besides.
Log entries 5 DEDUCED, 34 DEDUCED. -/
def exchangeBegin (t : Tenant) (seq : BitVec 16) (key asel : Nat) (epc : Bytes) (kind : Fin 48 → AccKind)
    (busy : Bool) (results : Bytes) (note : Fin 48 → SecSess → SecSess) (s : State) : State :=
  if inLimp s then refuse t stLimp s
  else match s.rdr.lastInv[t] with
  | none => refuse t stBadArg s
  | some g =>
    match rdrRefusal t (g.region == 2) s, keyRefusal t key isDerive s, slotNo key with
    | some st, _, _ => refuse t st s
    | none, some st, _ => refuse t st s
    | none, none, none => refuse t stBadArg s
    | none, none, some k =>
      if !s.bri.drbgOk then refuse t stDegraded s
      else if busy then refuse t stBusy s
      else
        let s := startBuiltin t seq (modSess t (note k) (reply t stOk results s))
        accTune t { kind := kind k, args := g, tseq := seq, asel := mod4 asel, epc := epc, stage := .tune, step := .select,
                    freq := 0, attempt := 0, rn := 0, handle := 0, tid := [], done := [], ending := none } s

/-- SEC.TAM1 (R347, R360, R362). -/
def execSecTam1 (c : Cmd) (s : State) : Host.Outcome State Fault Refusal :=
  .next (keelRun 0x1200 c (fun s =>
    let a := c.args
    let n := fld a 3 1
    if a.length < 4 ∨ 3 < fld a 2 1 ∨ n < 1 ∨ 31 < n ∨ a.length ≠ 4 + 2 * n then refuse c.t stBadArg s
    else
      exchangeBegin c.t c.seq (fld a 0 1) (fld a 2 1) (a.drop 4) (fun k => .tam1 k (BitVec.ofNat 8 (fld a 1 1)))
        s.sess[c.t].opened [] (fun _ q => { q with challenge := [] }) s) s)

/-- SID values run from 1 to 255, skipping 0 (R367). -/
def nextSid (b : Byte) : Byte := if b = 0xFF then 1 else b + 1

/-- SEC.FARZ_OPEN (R191, R362, R367). -/
def execSecFarzOpen (c : Cmd) (s : State) : Host.Outcome State Fault Refusal :=
  .next (keelRun 0x1201 c (fun s =>
    let a := c.args
    let n := fld a 2 1
    let sid := nextSid s.sess[c.t].sid
    if a.length < 3 ∨ 3 < fld a 1 1 ∨ n < 1 ∨ 31 < n ∨ a.length ≠ 3 + 2 * n then refuse c.t stBadArg s
    else
      exchangeBegin c.t c.seq (fld a 0 1) (fld a 1 1) (a.drop 3) (fun k => .farz k) s.sess[c.t].opened [sid]
        (fun k q => { q with sid := sid, tseq := c.seq, key := k, keyGone := false, challenge := [], ctx := none }) s) s)

/-- The open session of a tenant under this SID (R191). -/
def sessIs (t : Tenant) (sid : Nat) (s : State) : Bool := s.sess[t].opened && s.sess[t].sid.toNat == sid

/-- The link set of an open session: its region's, or its tenant's own (R289). -/
def sessSet (t : Tenant) (s : State) : LinkSet := linkSet s.sess[t].region s.loaded[t]

/-- A SecureComm frame goes on air, its first symbol `gap` ticks from now; the wait for its reply begins when its last symbol has ended
(R243, R275, R359). -/
def sessAir (t : Tenant) (msg : Bytes) (gap : Nat) (s : State) : State :=
  let f := plainFrame (sessSet t s) (secureBits msg s.sess[t].handle)
  let first := s.reel.cnt + BitVec.ofNat 48 gap
  let s := setRdr (fun r => { r with onAir := some f }) (setCommit .reader (some (first - 192)) (compApply (extPa s.loaded[t]) s))
  let (last, s) := fwdEnd first f s
  modSess t (fun q => { q with sentAt := last }) (dpdFrame s.loaded[t] s)

/-- Send one message of an open session: a non-final one of 200 bytes where more follows (R350, R355, R358). -/
def sessSend (t : Tenant) (tseq : BitVec 16) (data : Bytes) (gap : Nat) (s : State) : State :=
  let q := s.sess[t]
  match q.ctx with
  | none => s
  | some c =>
    match chargeSession q.key q.keyGone s with
    | .error r => closeSession t r s
    | .ok s =>
      let long := decide (200 < data.length)
      let msg := secMessage c 0x00 (if long then 0x12 else 0x10) (q.ctrTx + 1) (data.take 200)
      let s := modSess t (fun q => { q with ctrTx := q.ctrTx + 1, msgs := q.msgs + 1, busy := some (tseq, data.drop 200) })
        (sessAir t msg gap s)
      if msgLimit ≤ s.sess[t].msgs then closeSession t 2 s else s

/-- SEC.FARZ_SEND (R191, R195, R350, R358, R366): it waits while the message before awaits its reply. A use limit that leaves
no room for it refuses it and closes the session. Log entry 34 DEDUCED. -/
def execSecFarzSend (c : Cmd) (s : State) : Host.Outcome State Fault Refusal :=
  .next (keelRun 0x1202 c (fun s =>
    let a := c.args
    let t := c.t
    let n := fld a 1 2
    let q := s.sess[t]
    if a.length < 3 ∨ n < 1 ∨ 256 < n ∨ a.length ≠ 3 + n then refuse t stBadArg s
    else if inLimp s then refuse t stLimp s
    else if !sessIs t (fld a 0 1) s then refuse t stBadArg s
    else if s.mend.keyram.getLsbD q.key.val then refuse t stDegraded s
    else if !q.keyGone ∧ s.bri.slots[q.key].key.isSome ∧ noUseLeft q.key (if 200 < n then 2 else 1) s then
      closeSession t 2 (refuse t stKeyExhausted s)
    else
      let s := modSess t (fun q => { q with idleFrom := s.reel.cnt }) (reply t stOk [] s)
      if q.busy.isSome then modSess t (fun q => { q with sendQ := q.sendQ ++ [(c.seq, a.drop 3)] }) s
      else sessSend t c.seq (a.drop 3) 203 s) s)

/-- SEC.CLOSE (R191, R357). -/
def execSecClose (c : Cmd) (s : State) : Host.Outcome State Fault Refusal :=
  .next (keelRun 0x1203 c (fun s =>
    if c.args.length ≠ 1 ∨ !sessIs c.t (fld c.args 0 1) s then refuse c.t stBadArg s
    else closeSession c.t 0 (reply c.t stOk [] s)) s)

-- ------------------------------------------------------------------ the interrogator: replies (12.3 to 12.6)

/-- The exchange of a tenant that awaits a reply at this step. -/
def exchangeAt (x : Tenant) (step : AccStep) (s : State) : Option Acc :=
  (s.rdr.acc[x]).filter fun a => a.stage == .window && a.step == step && holds (.ctx x) .reader s

/-- An authentication has failed: REASON 3, logged (R352, R566). -/
def farzFails (x : Tenant) (s : State) : State := logAuthFail 0 x (endAcc x stAuthFail 0 3 s)

/-- The reply to an exchange's frame at this step arrives at a rate; one off by more than 25 % is counted and not decoded (R292), and the
wait goes on. One whose request was made before a block reset is discarded and counted, and the exchange ends (R587, R588). -/
def exchangeHeard (x : Tenant) (step : AccStep) (hz : Nat) (s : State) : Option Acc × State :=
  match exchangeAt x step s with
  | none => (none, s)
  | some a =>
    if requestStale x .reader s then (none, (accFrameOver x a (countStale s)).2)
    else
    let l := accSet x a s
    (if rateIn l hz then some a else none, countHz l hz (replyBegan s))

/-- FZ2_REPLY (R292, R350, R352): FZ3 goes out only under a right TPROOF. Log entry 34 DEDUCED. -/
def execFz2Reply (x : Tenant) (msg : Bytes) (hz : Nat) (now : Tick) (s : State) : Host.Outcome State Fault Refusal :=
  match exchangeHeard x .exchange hz (advanceTo now s) with
  | (none, s) => .next s
  | (some a, s) =>
    match a.kind with
    | .farz k =>
      (match s.sess[x].ctx with
       | none => .next (endAcc x stNvmFail 0 0 s)
       | some held =>
         let c := secKeys held.ktag s.sess[x].challenge ((msg.drop 1).take 8)
         if msg.length ≠ 17 ∨ msg.take 1 ≠ [0x02] ∨ msg.drop 9 ≠ tproof c then .next (farzFails x s)
         else match chargeSession k s.sess[x].keyGone s with
           | .error r => .next (endAcc x stKeyExhausted 0 r s)
           | .ok s =>
             let s := setSvy (fun v => { v with tagCap := v.tagCap ||| 0x40 }) s
             let (on, s) := accFrameOver x a (modSess x (fun q => { q with ctx := some c }) s)
             if !on then .next s
             else match chargeSession k s.sess[x].keyGone s with
               | .error r => .next (endAcc x stKeyExhausted 0 r s)
               | .ok s => .next (accSend x { a with step := .fz3 } (replyGap (accSet x a s)) s))
    | _ => .next s

/-- The reader's hold passes from the exchange to the session (R364). Log entry 34 DEDUCED. -/
def holdAsSession (x : Tenant) (s : State) : State :=
  match holdOf .reader s with
  | some h => setHold .reader (some { h with req := { h.req with who := .session x }, commit := none }) s
  | none => s

/-- FZ3_REPLY: the session is open and takes over the reader air at class 2 (R364). Log entry 34 DEDUCED. -/
def execFz3Reply (x : Tenant) (msg : Bytes) (hz : Nat) (now : Tick) (s : State) : Host.Outcome State Fault Refusal :=
  match exchangeHeard x .fz3 hz (advanceTo now s) with
  | (none, s) => .next s
  | (some a, s) =>
    match a.kind with
    | .farz k =>
      if msg ≠ [0x04, 0x00] then .next (farzFails x s)
      else match chargeSession k s.sess[x].keyGone s with
        | .error r => .next (endAcc x stKeyExhausted 0 r s)
        | .ok s =>
          let s := modSess x (fun q => { q with
            opened := true, handle := a.handle, ctrTx := 0, ctrRx := 0, msgs := 0, sendQ := [], busy := none,
            idleFrom := s.reel.cnt, sentAt := s.reel.cnt, region := a.args.region, visitFrom := s.reel.cnt,
            challenge := [] }) (holdAsSession x s)
          let s := endProgram x stOk (setAcc x none s)
          .next (raise x evSession (leBytes 2 a.tseq.toNat ++ [s.sess[x].sid, 1, 0]) s)
    | _ => .next s

/-- TAM1_RESPONSE (R360, R562; PRESUMED: the constant and the places of ISO/IEC 29167-10). Log entry 14 PRESUMED. -/
def execTam1Response (x : Tenant) (msg : Bytes) (hz : Nat) (now : Tick) (s : State) : Host.Outcome State Fault Refusal :=
  match exchangeHeard x .exchange hz (advanceTo now s) with
  | (none, s) => .next s
  | (some a, s) =>
    match a.kind with
    | .tam1 _ _ =>
      (match s.sess[x].ctx with
       | none => .next (endAcc x stNvmFail 0 0 s)
       | some held =>
         let p := aesDec held.ktag msg
         if msg.length = 16 ∧ p.take 2 = [0x96, 0xC5] ∧ p.drop 6 = s.sess[x].challenge then
           .next (endAcc x stOk 0 0 (setSvy (fun v => { v with tagCap := v.tagCap ||| 0x20 }) s))
         else .next (logAuthFail 0 x (endAcc x stAuthFail 0 3 s)))
    | _ => .next s

/-- The next SEC.FARZ_SEND that waits (R366). -/
def sessNext (x : Tenant) (s : State) : State :=
  let s := modSess x (fun q => { q with busy := none }) s
  match s.sess[x].sendQ with
  | [] => s
  | (tseq, data) :: r => sessSend x tseq data (replyGap (sessSet x s)) (modSess x (fun q => { q with sendQ := r }) s)

/-- SESSION_REPLY (R350, R355 to R358, R366, R367): a failed MIC closes the session with REASON 3; a stale counter is not
accepted; an acknowledgement lets the rest follow, a final reply is delivered. Log entry 34 DEDUCED. -/
def execSessionReply (x : Tenant) (msg : Bytes) (hz : Nat) (now : Tick) (s : State) : Host.Outcome State Fault Refusal :=
  let s := advanceTo now s
  let q := s.sess[x]
  let waits := q.opened && q.busy.isSome && reached s.reel.cnt q.sentAt
  if !waits then .next s
  else if !rateIn (sessSet x s) hz then .next (countHz (sessSet x s) hz s)
  else
  match q.opened, q.ctx, q.busy with
  | true, some c, some (tseq, rest) =>
    let typ := msg.getD 0 0
    match secOpen c 0x01 msg with
    | none => .next (logAuthFail 0 x (closeSession x 3 s))
    | some plain =>
      if fld msg 1 4 ≤ q.ctrRx ∨ typ ≠ (if rest.isEmpty then 0x11 else 0x13) then .next s
      else match chargeSession q.key q.keyGone s with
        | .error r => .next (closeSession x r s)
        | .ok s =>
          let s := modSess x (fun q => { q with ctrRx := fld msg 1 4, msgs := q.msgs + 1 }) s
          let s := if rest.isEmpty then
              raise x evSecData (leBytes 2 tseq.toNat ++ [q.sid] ++ leBytes 2 plain.length ++ plain) s
            else s
          if msgLimit ≤ s.sess[x].msgs then .next (closeSession x 2 s)
          else
          let s := frameEnd .reader s
          if !s.sess[x].opened then .next s
          else if rest.isEmpty then .next (sessNext x s)
          else .next (sessSend x tseq rest (replyGap (sessSet x s)) s)
  | _, _, _ => .next s

/-- TAG_REPLY_TIMEOUT (R357, R359, R360, R363): no reply within 10 ms. Log entry 34 DEDUCED. -/
def execTagReplyTimeout (x : Tenant) (now : Tick) (s : State) : Host.Outcome State Fault Refusal :=
  let s := advanceTo now s
  let late : Bool := match (s.ctxs[x]).pend with
    | some p => reached s.reel.cnt p.until_
    | none => false
  match s.rdr.acc[x] with
  | some a =>
    if a.stage == .window && (a.step == .exchange || a.step == .fz3) && late then .next (endAcc x stTimeout 0 1 s)
    else .next s
  | none =>
    let q := s.sess[x]
    if q.opened && q.busy.isSome && reached s.reel.cnt (q.sentAt + 240000) then .next (closeSession x 1 s) else .next s

/-- SESSION_IDLE_TIMEOUT (R365). -/
def execSessionIdleTimeout (x : Tenant) (now : Tick) (s : State) : Host.Outcome State Fault Refusal :=
  let s := advanceTo now s
  let q := s.sess[x]
  if q.opened && reached s.reel.cnt (q.idleFrom + 48000000) then .next (closeSession x 1 s) else .next s

/-- SESSION_DWELL_HOP (R364): at its region's dwell limit the session hops, its carrier off meanwhile; a hop that cannot be
made closes it. Log entry 34 DEDUCED. -/
def execSessionDwellHop (x : Tenant) (now : Tick) (cal : Cal) (s : State) : Host.Outcome State Fault Refusal :=
  let s := advanceTo now s
  let q := s.sess[x]
  if q.opened && holds (.session x) .reader s && !dwellFits x q.region q.visitFrom 1 s then
    let s := carrierOff s.reel.cnt (leaveChannel s.reel.cnt s)
    match nextChannel x q.region s, holdOf .reader s with
    | .ok (f, s), some h =>
      let r : AirReq := { h.req with freq := f }
      if !passes s.reel.cnt r s.radio.lHold s then .next (closeSession x 1 s)
      else
        let s := grantAir r s.reel.cnt s
        let s := calibrate .reader cal true (compApply (extPa s.loaded[x]) s)
        (match cal with
         | .failed => .next (sessionGone x 1 s)
         | .ok =>
           let s := compHop s
           let s := carrierOn s.reel.cnt (rampUp s.loaded[x] s.rdr.pset s.reel.cnt s)
           .next (modSess x (fun q => { q with visitFrom := s.reel.cnt }) s))
    | _, _ => .next (closeSession x 1 s)
  else .next s

end Sys2Proof.Machine
end

