-- ==== Sys2Proof/Machine/LinkMac.lean ====
section
/-!
DEFINITION. The link MAC's transmit side (chapter 14): frames and counters, channel access by Table 14-4, acknowledgements
sent, beacons, the duty cycle, ISOLATED, and the ends of sends and listens.
-/
namespace Sys2Proof.Machine

/-- The backoff unit in ticks (14.3). -/
def backoffUnit (s : State) : Nat := if linkSlow s then 38400 else 7680
/-- The ACK wait in ticks (R415). -/
def ackWaitTicks (s : State) : Nat := if linkSlow s then 144000 else 28800

-- ------------------------------------------------------------------ frame counters (14.2, 19.5)

/-- The frame counter of a slot is at its end, or at the limit in force (R412, R528). -/
def noFrameLeft (k : Fin 48) (s : State) : Bool :=
  let f := s.bri.slots[k].frame
  decide (4294901760 ≤ f.now ∨ f.limit ≤ f.now)

/-- Take the next frame counter value; the next reservation is queued when half its block is spent (R411, R527).
Log entry 41 DEDUCED. -/
def takeFrame (k : Fin 48) (s : State) : Nat × State :=
  let f := s.bri.slots[k].frame
  let v := f.now + 1
  let due := !f.queued && decide (f.limit ≤ v + 512)
  let s := modSlot k (fun sl => { sl with frame := { sl.frame with now := v, queued := sl.frame.queued || due } }) s
  (f.now, if due then queueCommit (.frameRes k v) 1 s else s)

/-- Protect and build a PSDU (R409, R410); `key` is the slot and its value, with the frame counter taken. -/
def buildFrame (smode : Bool) (ftype dten : Nat) (ar : Bool) (mseq : BitVec 8) (dst : BitVec 16) (payload : Bytes)
    (key : Option (Fin 48 × Bytes × Nat)) (s : State) : Bytes :=
  let pan := s.link.pan
  let sec := key.map fun k => (k.2.2, k.1.val)
  let hdr := if smode then hdrS pan ar sec mseq dst s.link.addr else hdrT ftype dten ar sec mseq dst s.link.addr
  buildPsdu hdr payload (key.map fun k => (k.2.1, macNonce smode pan s.link.addr k.2.2))

/-- Take the node's next MSEQ (R408). Log entry 36 DESIGN CHOICE. -/
def takeMseq (s : State) : BitVec 8 × State := (s.link.mseq, setLink (fun l => { l with mseq := l.mseq + 1 }) s)

-- ------------------------------------------------------------------ ends of sends and listens

/-- EV_LNK_TX_DONE of a send, its buffer returned. -/
def sendTold (e : Send) (status : Byte) (s : State) : State :=
  let s := match e.buf with | some h => freeBuf h s | none => s
  match e.owner with
  | some t =>
    raise t evLnkTxDone (leBytes 2 e.tseq.toNat ++ [status, BitVec.ofNat 8 e.tries, e.mseq] ++
      (if e.tries = 0 then leBytes 6 0 else tickBytes e.tstart)) s
  | none => s

/-- The MAC's active send ends: its air goes back (R418). -/
def sendEnd (status : Byte) (s : State) : State :=
  match s.link.sends with
  | [] => s
  | e :: r =>
    let s := setLink (fun l => { l with sends := r, step := .idle }) s
    sendTold e status (releaseAir .link s)

/-- A send that is not on air ends. -/
def sendDrop (e : Send) (status : Byte) (s : State) : State :=
  let s := setLink (fun l => { l with sends := l.sends.erase e }) (dropWaiters (sendWho e) s)
  sendTold e status s

/-- A send asks for the link air at class 3 (R418). -/
def sendAsk (e : Send) (s : State) : State := requestAir (sendReq e s) s

/-- Whether the MAC works on this send now. -/
def sendActive (e : Send) (s : State) : Bool := s.link.step != .idle && s.link.sends.head? == some e

/-- A link listen has found an SFD, or its frame's ACK is still owed or in the air (R266). -/
def listenBusy (s : State) : Bool := s.link.afterSfd || s.link.ackDue.isSome || s.link.ackEnd.isSome

/-- One tenant's listen ends (R270, R422); the receiver closes with the last one. -/
def listenEnd (x : Tenant) (status : Byte) (s : State) : State :=
  match s.link.listens[x] with
  | none => s
  | some l =>
    let s := match s.radio.lHold with
      | some h => if h.req.who = .listen then chargeListen h x s else s
      | none => s
    let s := setLink (fun q => { q with listens := q.listens.set x.val none x.isLt }) s
    let s := raise x evListenEnd (leBytes 2 l.tseq.toNat ++ [status] ++ leBytes 2 l.frames) s
    if s.link.listens.toList.all Option.isNone then
      let s := dropWaiters .listen s
      if holds .listen .link s then releaseAir .link s else s
    else s

/-- A listen's DUR has run out (R422). Log entry 38 DEDUCED. -/
def listenOver (l : Listen) (s : State) : Bool :=
  match l.from_ with
  | some f => l.dur != 0 && reached s.reel.cnt (f + BitVec.ofNat 48 (l.dur * 24000))
  | none => false

/-- Listens that waited for the end of a frame and its ACK end now (R434). -/
def listensDue (s : State) : State :=
  forTenants (fun x s => match s.link.listens[x] with
    | some l => (match l.ending with
      | some st => listenEnd x st s
      | none => if listenOver l s then listenEnd x stOk s else s)
    | none => s) s

-- ------------------------------------------------------------------ the transmit state table (Table 14-4)

/-- SEND_TIME_DUE (R193): at its TIME a send whose first chip is not going on air now ends in ST_AIRTIME; one that is was started in time
for it. Log entry 35 DEDUCED. -/
def execSendTimeDue (now : Tick) (s : State) : Host.Outcome State Fault Refusal :=
  let s := advanceTo now s
  let due := fun (e : Send) => match e.time with
    | some t => reached s.reel.cnt t && !sendActive e s
    | none => false
  match s.link.sends.find? due with
  | none => .next s
  | some e => .next (if holds (sendWho e) .link s then sendEnd stAirtime s else sendDrop e stAirtime s)

/-- CSMA_BACKOFF_END (14.3, R261, R431): a backoff of 0 to 2^BE - 1 units ends; an attempt whose calibration failed or that the duty
cycle refuses ends its send, otherwise the CCA begins. Log entries 36 DESIGN CHOICE, 37 DEDUCED. -/
def execCsmaBackoffEnd (now : Tick) (s : State) : Host.Outcome State Fault Refusal :=
  let s := advanceTo now s
  match s.link.step, s.link.sends with
  | .backoff, e :: _ =>
    let n := ticksBetween s.link.timer s.reel.cnt
    let u := backoffUnit s
    if n % u = 0 ∧ n / u < 2 ^ e.be ∧ holds (sendWho e) .link s then
      let s := match drbgTake 1 s with | some (_, s) => s | none => s
      let (failed, s) := calResult .link s
      if failed then .next (sendEnd stCalFail s)
      else if dutyShort (frameTicks e.lane e.psdu.length s) s then .next (sendEnd stAirtime s)
      else .next (setCore .link .rx (setLink (fun l => { l with step := .cca, timer := s.reel.cnt }) s))
    else .next s
  | _, _ => .next s

/-- CCA_RESULT (R417, Table 14-4): clear below LNK_CCA of the node holder; the first chip follows within the turnaround of 24 µs,
when within it the spec does not say. -/
def execCcaResult (now : Tick) (dbm : Int) (s : State) : Host.Outcome State Fault Refusal :=
  let s := advanceTo now s
  match s.link.step, s.link.sends with
  | .cca, e :: r =>
    if reached s.reel.cnt (s.link.timer + 3072) then
      if dbm < ccaThr s.prof[linkHost s] then
        let (k, s) := drawNat s
        .next (transmit e (leadTick s s.reel.cnt + BitVec.ofNat 48 (k % 577)) s)
      else if 4 < e.nb + 1 then
        .next (sendEnd stAirtime (setLink (fun l => { l with txCaf := satInc 255 l.txCaf }) s))
      else
        .next (setCore .link .synth (setLink (fun l => { l with
          step := .backoff, timer := s.reel.cnt, sends := { e with nb := e.nb + 1, be := min (e.be + 1) 5 } :: r }) s))
    else .next s
  | _, _ => .next s

/-- The ACK that was owed is over, sent or not: a listen goes on at class 5, an ACK window of the node's own at class 1. -/
def ackOver (s : State) : State :=
  let s := trswEnd (setRadio (fun r => { r with pri := false }) (setLink (fun l => { l with ackDue := none, ackEnd := none }) s))
  let s := if s.radio.lHold.isSome then setCore .link .rx s else coexTrack s
  match s.radio.lHold with
  | some h =>
    if h.req.who = .listen then
      let s := setHold .link (some { h with req := { h.req with cls := 5, gnt := lkbShared s.link.rxHost s }, commit := none, ends := none }) s
      listensDue (frameEnd .link (coexTrack s))
    else s
  | none => s

/-- LINK_TX_END (R405, R415, R416, R418, Table 14-4): the last chip of an ACK, or of the active send: it opens the ACK window at
class 1, or ends the send. -/
def execLinkTxEnd (now : Tick) (s : State) : Host.Outcome State Fault Refusal :=
  let s := advanceTo now s
  match s.link.ackEnd with
  | some t => if reached s.reel.cnt t then .next (ackOver s) else .next s
  | none =>
    match s.link.step, s.link.sends with
    | .tx, e :: r =>
      if reached s.reel.cnt s.link.timer then
        let n := frameTicks e.lane e.psdu.length s
        let first := s.link.timer - BitVec.ofNat 48 n
        let e := { e with tries := e.tries + 1, tstart := first, time := none }
        let last := s.link.timer
        let s := dutyAdd first n (setCore .link .synth (setLink (fun l => { l with sends := e :: r }) s))
        if e.ar ∧ e.dst ≠ 0xFFFF ∧ e.ending ≠ some stAbortedReset then
          let s := setLink (fun l => { l with step := .ackWait, timer := last + BitVec.ofNat 48 (ackWaitTicks s) }) s
          .next (setCore .link .rx (match s.radio.lHold with
            | some h => setHold .link (some { h with req := { h.req with cls := 1 }, commit := none, ends := none }) s
            | none => s))
        else .next (sendEnd (e.ending.getD stOk) s)
      else .next s
    | _, _ => .next s

/-- The node becomes ISOLATED at 16 (R428). -/
def noAck (s : State) : State :=
  let s := setLink (fun l => { l with noackRun := min 16 (l.noackRun + 1), txNoack := satInc 255 l.txNoack }) s
  if s.link.noackRun = 16 ∧ !s.link.isolated then
    let s := setLink (fun l => { l with isolated := true }) s
    raise (linkHost s) evIsolated [1] s
  else s

/-- ACK_WINDOW_EXPIRY (R416, R428, R433): up to three retries, each under CSMA with a fresh backoff at class 3; a frame that is
being received keeps the window open. -/
def execAckWindowExpiry (now : Tick) (s : State) : Host.Outcome State Fault Refusal :=
  let s := advanceTo now s
  match s.link.step, s.link.sends with
  | .ackWait, e :: r =>
    if reached s.reel.cnt s.link.timer && !s.link.demod && s.link.ackEnd.isNone then
      match e.ending with
      | some st => .next (sendEnd st s)
      | none =>
        if 4 ≤ e.tries then .next (noAck (sendEnd stNoAck s))
        else
          let s := setLink (fun l => { l with step := .backoff, timer := s.reel.cnt, sends := { e with nb := 0, be := 3 } :: r }) s
          let s := setCore .link .synth s
          let s := match s.radio.lHold with
            | some h => setHold .link (some { h with req := { h.req with cls := 3 } }) s
            | none => s
          .next (frameEnd .link s)
    else .next s
  | _, _ => .next s

/-- ACK_TRANSMIT (R278, R282, R405, R414, R431): 192 µs after the frame's last chip, once the grant and its lead are there; on
REGION 1 it is refused only when the budget is spent. -/
def execAckTransmit (now : Tick) (s : State) : Host.Outcome State Fault Refusal :=
  let s := advanceTo now s
  match s.link.ackDue with
  | none => .next s
  | some (t, psdu, lane, lkb) =>
    if s.link.ackEnd.isSome || s.radio.lHold.isNone || !reached s.reel.cnt t || !s.radio.gnt ||
        leadTick s s.reel.cnt != s.reel.cnt then .next s
    else if s.link.region = 1 ∧ dutyBudget s ≤ dutyUsed s then .next (ackOver s)
    else
      let n := frameTicks lane psdu.length s
      let s := linkCompApply (dutyAdd s.reel.cnt n (setCore .link .tx s))
      let last := s.reel.cnt + BitVec.ofNat 48 n
      let f : LinkTx := { lane := lane, slow := linkSlow s, lkb := lkb, first := s.reel.cnt,
                          power := BitVec.ofNat 8 (bits s.prof[linkHost s].txpwr 7 0) }
      .next (trswSpan (laterTick (s.reel.cnt - 432) t) last
        (setLink (fun l => { l with sentPsdu := psdu, onAir := some f, ackDue := none, ackEnd := some last }) s))

-- ------------------------------------------------------------------ beacons (14.5)

/-- The interval in force in seconds (R423). -/
def beaconIvl (s : State) : Nat := if s.link.isolated then 4 * s.link.beacon else s.link.beacon

/-- Diversity is in service at the node (R396, R424). -/
def diversityOn (s : State) : Bool := diversityFor s.prof[linkHost s] s

/-- CAP of the node (R424). -/
def capWord (s : State) : Nat :=
  s.link.cap.toNat + bitAt 31 true + bitAt 30 (diversityOn s) + bitAt 29 (singleSyn s) + bitAt 28 (linkSlow s)

/-- The beacon payload (Table 14-5). -/
def beaconPayload (s : State) : Bytes :=
  leBytes 4 (capWord s) ++ leBytes 2 (beaconIvl s) ++ [if s.link.isolated then 1 else 0, BitVec.ofNat 8 s.link.nbrs.length]

/-- The beacon's next tick: each interval starts at a random offset of 0 to 1,000 ms (R423), which is free.
Log entry 36 DESIGN CHOICE. -/
def beaconPlan (start : Tick) (s : State) : State :=
  let (k, s) := drawNat s
  setLink (fun l => { l with beaconAt := some (start, start + BitVec.ofNat 48 (k % 24000001)) }) s

/-- Take the beacon's key for one frame: its value and frame counter, one use charged; none where it cannot be used (R412). -/
def beaconKey (k : Fin 48) (s : State) : Option (Bytes × Nat × State) :=
  if noFrameLeft k s then none
  else match useKey (slotOwner k) k.val isEnc s with
    | .error _ => none
    | .ok (v, s) =>
      let (f, s) := takeFrame k s
      some (v, f, s)

/-- BEACON_DUE (R412, R423): a beacon is built and asks for the air at class 3; one that cannot be secured is skipped and
counted. Log entry 37 DEDUCED. -/
def execBeaconDue (now : Tick) (s : State) : Host.Outcome State Fault Refusal :=
  let s := advanceTo now s
  match s.link.beaconAt with
  | none => .next s
  | some (start, at_) =>
    if s.power.mode != .run || s.link.beacon == 0 || !reached s.reel.cnt at_ then .next s
    else
      let s := beaconPlan (start + BitVec.ofNat 48 (beaconIvl s * 24000000)) s
      if noSyn s ∨ s.link.sends.any (fun e => e.owner.isNone) then .next s
      else
        let smode := s.link.rate == 2
        let bsf := bits s.link.maccfg 2 0
        let lane : Fin 6 := if smode then 5 else ⟨bsf % 5, by omega⟩
        let body := (if smode then [0x4B, 0x42] else []) ++ beaconPayload s
        let ask := fun (key : Option (Fin 48 × Bytes × Nat)) (s : State) =>
          let (m, s) := takeMseq s
          let dten := match key with | some k => (slotOwner k.1).val | none => 0
          let e : Send :=
            { owner := none, tseq := 0, dst := 0xFFFF, mseq := m,
              psdu := buildFrame smode 2 dten false m 0xFFFF body key s, lane := lane, ar := false, time := none, tries := 0,
              nb := 0, be := 3, tstart := 0, power := BitVec.ofNat 8 (bits s.prof[linkHost s].txpwr 7 0), ending := none,
              buf := none, late := false }
          sendAsk e (setLink (fun l => { l with sends := l.sends ++ [e] }) s)
        match slotNo (bits s.link.maccfg 13 8) with
        | none => .next (ask none s)
        | some k =>
          match beaconKey k s with
          | some (v, f, s) => .next (ask (some (k, v, f)) s)
          | none => .next (setLink (fun l => { l with macNokey := satInc 255 l.macNokey }) s)

-- ------------------------------------------------------------------ neighbours (14.5)

/-- An entry leaves the table (R426, R427). -/
def nbrLost (addr : BitVec 16) (reason : Byte) (s : State) : State :=
  let s := setLink (fun l => { l with nbrs := l.nbrs.filter fun n => n.addr != addr, nbrFull := false }) s
  raise (linkHost s) evNbrLost (leBytes 2 addr.toNat ++ [reason]) s

/-- MISSED of an entry (R426). -/
def nbrMissed (n : Nbr) (s : State) : Nat := ticksBetween n.last s.reel.cnt / (n.bivl * 24000000)

/-- NBR_AGEING (R426). -/
def execNbrAgeing (now : Tick) (s : State) : Host.Outcome State Fault Refusal :=
  let s := advanceTo now s
  if s.power.mode == .run then
    let s := setLink (fun l => { l with nbrs := l.nbrs.map fun n => { n with missed := nbrMissed n s } }) s
    let gone := s.link.nbrs.filter fun n => decide (4 ≤ n.missed)
    .next (gone.foldl (fun s n => nbrLost n.addr 0 s) s)
  else .next s

/-- LISTEN_DUR_EXPIRY (R422): a frame past its SFD is received to its end first. -/
def execListenDurExpiry (x : Tenant) (now : Tick) (s : State) : Host.Outcome State Fault Refusal :=
  let s := advanceTo now s
  match s.link.listens[x] with
  | none => .next s
  | some l => if listenOver l s ∧ !listenBusy s then .next (listenEnd x stOk s) else .next s

end Sys2Proof.Machine
end

