-- ==== Sys2Proof/Machine/LinkAir.lean ====
section
/-!
DEFINITION. Link reception: the search and demodulation states of the PHY (13.4, 13.5), and what Keel's MAC does with a
received frame (14.4): acknowledgement, format, address, security, neighbours, duplicates, delivery.
-/
namespace Sys2Proof.Machine

-- ------------------------------------------------------------------ the receiver (13.3 to 13.5)

/-- The lanes that search: those in service, at 200 kchip/s without S-mode, in an ACK window only the own frame's, in a
context's LRX those of its mask (R389, R415). -/
def searchLanes (s : State) : BitVec 6 :=
  let base := fun (slow : Bool) => s.link.uses &&& (if slow then 0x1F else 0x3F)
  match s.radio.lHold with
  | some h =>
    (match h.req.who with
     | .ctx x =>
       let m : BitVec 6 := match s.ctxs[x].pend with
         | some p => if p.op == .lrx then p.fn.setWidth 6 else 0
         | none => 0
       base (slowChips s.loaded[x] s) &&& (if m == (0 : BitVec 6) then 0x3F else m)
     | _ =>
       if s.link.step == .ackWait then
         match s.link.sends with
         | e :: _ => base (linkSlow s) &&& BitVec.ofNat 6 (2 ^ e.lane.val)
         | [] => 0
       else base (linkSlow s))
  | none => 0

/-- The tenant for whom Keel receives: whose listen opened the receiver, or whose send awaits its ACK. -/
def rxTenant (s : State) : Tenant :=
  match s.radio.lHold with
  | some h => (match h.req.who with
    | .listen => s.link.rxHost
    | .ctx x => x
    | .send t _ => t
    | _ => linkHost s)
  | none => linkHost s

/-- The profile in use for reception (R396, R398). -/
def rxProfile (s : State) : Profile := s.loaded[rxTenant s]

/-- The receiver works at 200 kchip/s: by the activity that holds the link air (R389). -/
def rxSlow (s : State) : Bool :=
  match s.radio.lHold with
  | some h => (match h.req.who with | .ctx x => slowChips s.loaded[x] s | _ => linkSlow s)
  | none => linkSlow s

/-- Of two detections at one chip the stronger wins; a tie goes to the lower SF code, with S-mode last (R391). -/
def strongerLane (a b : Fin 6 × Nat) : Fin 6 × Nat :=
  if a.2 < b.2 ∨ (a.2 = b.2 ∧ b.1.val < a.1.val) then b else a

/-- The lane that wins among those that detect and search. -/
def lanePick (found : List (Fin 6 × Nat)) (s : State) : Option (Fin 6 × Nat) :=
  match found.filter fun d => bit (searchLanes s) d.1.val with
  | [] => none
  | d :: r => some (r.foldl strongerLane d)

/-- A lane has detected: the search stops on the others (R391). With diversity in service the receiver measures on the other aerial now,
its AGC running there; otherwise it stays, its AGC frozen, and the equaliser trains (R394 to R398). -/
def laneTaken (lane : Fin 6) (s : State) : State :=
  let p := rxProfile s
  let div := diversityFor p s
  let here := searchesLkb p s
  setLink (fun l => { l with
    demod := true, afterSfd := false, lane := lane, detAt := s.reel.cnt, keptLkb := here, measuring := div
    agc := if div then .second (!here) else .frozen here
    eq := if bit p.phycfg 0 && !div then .training else .off }) s

/-- The receiver keeps an aerial (R394): the AGC is frozen on its gain, and the equaliser trains on its symbols (R397, R398). -/
def aerialKept (lkb : Bool) (s : State) : State :=
  setLink (fun l => { l with keptLkb := lkb, measuring := false, agc := .frozen lkb,
                             eq := if bit (rxProfile s).phycfg 0 then .training else .off }) s

/-- LANE_DETECTION (R391): the first lane to detect stops the search on the others. A listen whose calibration failed ends instead
(R261). -/
def execLaneDetection (found : List (Fin 6 × Nat)) (now : Tick) (s : State) : Host.Outcome State Fault Refusal :=
  let s := advanceTo now s
  if coreState .link s == .rx && !s.link.demod then
    match lanePick found s with
    | none => .next s
    | some d =>
      let (failed, s) := calResult .link s
      if failed then .next (forTenants (fun x => listenEnd x stCalFail) s)
      else .next (laneTaken d.1 s)
  else .next s

/-- DIVERSITY_DECISION (R394, R396): the aerial with the stronger correlation per chip is kept. Which one is kept of two equals the spec
does not say: it is a free choice. Log entry 38 DESIGN CHOICE. -/
def execDiversityDecision (here there : Nat) (s : State) : Host.Outcome State Fault Refusal :=
  if s.link.demod && s.link.measuring then
    if here = there then
      let (b, s) := drawBool s
      .next (aerialKept b s)
    else .next (aerialKept (if here < there then !s.link.keptLkb else s.link.keptLkb) s)
  else .next s

/-- The ticks after a detection within which its SFD must follow: 48 T-mode bits or 10 S-mode symbols (R392). -/
def sfdTicks (s : State) : Nat :=
  if s.link.lane = 5 then 3840 else 48 * sfChips s.link.lane.val * chipTicks (rxSlow s)

/-- SFD_TIMEOUT (R392). -/
def execSfdTimeout (now : Tick) (s : State) : Host.Outcome State Fault Refusal :=
  let s := advanceTo now s
  if s.link.demod && !s.link.afterSfd && reached s.reel.cnt (s.link.detAt + BitVec.ofNat 48 (sfdTicks s)) then
    .next (searchAgain (setLink (fun l => { l with errFalse := satInc 255 l.errFalse }) s))
  else .next s

/-- A good PHY header: the length is not 0, and HCS fits LEN in T-mode (R386, R387). -/
def phrGood (lane : Fin 6) (len hcs : Byte) : Bool :=
  if lane = 5 then len.toNat % 128 != 0 else len != 0 && hcs.toNat == hcsOf len.toNat

/-- The SFD has been found. In S-mode it may end a diversity measurement, and the receiver keeps the aerial it is on (R395); the
equaliser is directed by its decisions from here on (R398). -/
def sfdFound (s : State) : State :=
  let s := if s.link.measuring then aerialKept (!s.link.keptLkb) s else s
  setLink (fun l => { l with afterSfd := true, eq := if l.eq == .training then .directed (l.lane == 5) else l.eq }) s

/-- Keel's MAC receives: in a listen, or in the ACK window of its own send. -/
def macReceives (s : State) : Bool := holds .listen .link s || s.link.step == .ackWait

/-- PHR_RECEIVED (R266, R281, R387, R395): a bad header drops the frame; a good one has passed its SFD, and what receives has passed its
commit point. A frame that asks this node's MAC for an ACK drives COEX_PRI and COEX_REQ high. Log entry 38 DEDUCED. -/
def execPhrReceived (len hcs : Byte) (asksAck : Bool) (s : State) : Host.Outcome State Fault Refusal :=
  if s.link.demod && !s.link.afterSfd then
    if phrGood s.link.lane len hcs then
      let s := setCommit .link (some s.reel.cnt) (sfdFound s)
      .next (if asksAck && macReceives s then coexTrack (setRadio (fun r => { r with pri := true }) s) else s)
    else .next (searchAgain (setLink (fun l => { l with errHdr := satInc 255 l.errHdr }) s))
  else .next s

-- ------------------------------------------------------------------ the MAC's checks (14.4)

/-- AR and DST as they stand in a frame, before any format check (R414). -/
def rawAck (f : RxFrame) : Bool × BitVec 16 × BitVec 16 × BitVec 8 :=
  if f.lane = 5 then
    (decide (11 ≤ f.psdu.length) && (fld f.psdu 0 1).testBit 5, w16 (fld f.psdu 5 2), w16 (fld f.psdu 7 2),
     BitVec.ofNat 8 (fld f.psdu 2 1))
  else
    (decide (8 ≤ f.psdu.length) && (fld f.psdu 0 1).testBit 3, w16 (fld f.psdu 2 2), w16 (fld f.psdu 4 2),
     BitVec.ofNat 8 (fld f.psdu 1 1))

/-- The ACK of R414 falls due, on the frame's lane and aerial; a listen holds its air at class 1 until it is over (R266, R281). -/
def ackOwe (f : RxFrame) (s : State) : State :=
  let (ar, dst, src, mseq) := rawAck f
  let s := setRadio (fun r => { r with pri := false }) s
  if ar ∧ dst = s.link.addr then
    let psdu := if f.lane = 5 then ackS mseq else ackT mseq src s.link.addr
    let s := setLink (fun l => { l with ackDue := some (s.reel.cnt + 4608, psdu, f.lane, f.lkb) }) s
    match s.radio.lHold with
    | some h =>
      if h.req.who = .listen then
        let r : AirReq := { h.req with cls := 1, gnt := true, since := s.reel.cnt, wait := coexWait (linkHost s) s }
        coexTrack (setHold .link (some { h with req := r, commit := some s.reel.cnt, ends := none }) s)
      else coexTrack s
    | none => coexTrack s
  else coexTrack s

/-- Why a received frame goes no further. -/
inductive Drop where
  | nokey | replay | mic | silent
  deriving DecidableEq, Repr

/-- Count a dropped frame. -/
def countDrop (d : Drop) : State → State := setLink fun l =>
  match d with
  | .nokey => { l with macNokey := satInc 255 l.macNokey }
  | .replay => { l with secReplay := satInc 255 l.secReplay }
  | .mic => { l with secMic := satInc 255 l.secMic }
  | .silent => l

def nbrOf (a : BitVec 16) (s : State) : Option Nbr := s.link.nbrs.find? fun n => n.addr == a

/-- The last frame delivered from a source, if it is younger than 2 s and the same as this one (R420).
Log entry 38 DEDUCED. -/
def isDup (m : MacFrame) (s : State) : Bool :=
  match s.link.dup.find? (fun d => d.1 == m.src) with
  | some d =>
    d.2.1 == m.mseq && d.2.2.1 == (if m.sec then some m.fcnt else none) &&
      decide (ticksBetween d.2.2.2 s.reel.cnt < 48000000)
  | none => false

/-- The security checks in their order (R413, R462): a known source, a DEC slot of the frame's tenant, a fresh counter, the MIC. A
retry of the frame delivered last is a duplicate, not a replay. Log entry 38 DEDUCED. -/
def secCheck (m : MacFrame) (beacon : Bool) (s : State) : Except Drop Bytes :=
  if !m.sec then .ok m.body
  else
    let nb := nbrOf m.src s
    match slotNo m.ksel with
    | none => .error .nokey
    | some k =>
      let mine := if m.smode then s.link.listens[slotOwner k].isSome || beacon else (slotOwner k).val == m.dten
      if (nb.isNone && !beacon) || !mine || (keyRefusal (slotOwner k) m.ksel isDec s).isSome then .error .nokey
      else
        let seen := nb.bind fun n => (n.fcnts.find? fun e => e.1 == m.ksel).map (·.2)
        let stale := match seen with | some v => decide (m.fcnt ≤ v) | none => false
        if stale then .error (if isDup m s then .silent else .replay)
        else match keyValue s 5 k with
          | none => .error .nokey
          | some key =>
            match ccmDec key (macNonce m.smode s.link.pan m.src m.fcnt) m.hdr m.body 8 with
            | some p => .ok p
            | none => .error .mic

/-- The frame counters of a neighbour with this one in front, two pairs at most (R413). -/
def fcntNoted (m : MacFrame) (l : List (Nat × Nat)) : List (Nat × Nat) :=
  if m.sec then ((m.ksel, m.fcnt) :: l.filter fun e => e.1 != m.ksel).take 2 else l

/-- A frame from a neighbour refreshes its LAST, RSSI and LQI, and its replay record (R413, R425).
Log entry 38 DEDUCED. -/
def nbrHeard (f : RxFrame) (m : MacFrame) (s : State) : State :=
  setLink (fun l => { l with nbrs := l.nbrs.map fun n =>
    if n.addr = m.src then
      { n with last := s.reel.cnt, rssi := f.rssi, lqi := lqiOf f.evm, fcnts := fcntNoted m n.fcnts }
    else n }) s

/-- The entry that a new neighbour replaces in a full table: the highest MISSED, then the oldest LAST (R427). -/
def nbrWorst (s : State) : Option Nbr :=
  s.link.nbrs.foldl (fun w n =>
    match w with
    | none => some n
    | some x =>
      let a := nbrMissed n s
      let b := nbrMissed x s
      if b < a ∨ (a = b ∧ ticksBetween x.last s.reel.cnt < ticksBetween n.last s.reel.cnt) then some n else some x) none

/-- A beacon creates or refreshes its sender's entry (R425, R427) and ends ISOLATED (R429). -/
def beaconHeard (f : RxFrame) (m : MacFrame) (body : Bytes) (s : State) : State :=
  let cap := BitVec.ofNat 32 (fld body 0 4)
  let bivl := fld body 4 2
  let fresh : Nbr := { addr := m.src, cap := cap, rssi := f.rssi, lqi := lqiOf f.evm, missed := 0, smode := m.smode,
                       last := s.reel.cnt, bivl := bivl, fcnts := fcntNoted m [] }
  let tell := fun (s : State) => raise (linkHost s) evNbrNew (leBytes 2 m.src.toNat ++ leBytes 4 cap.toNat) s
  let s :=
    match nbrOf m.src s with
    | some _ =>
      setLink (fun l => { l with nbrs := l.nbrs.map fun n =>
        if n.addr = m.src then { fresh with fcnts := fcntNoted m n.fcnts } else n }) s
    | none =>
      if s.link.nbrs.length < 64 then tell (setLink (fun l => { l with nbrs := l.nbrs ++ [fresh] }) s)
      else match nbrWorst s with
        | some w =>
          if nbrMissed w s = 0 then setLink (fun l => { l with nbrFull := true }) s
          else tell (setLink (fun l => { l with nbrs := (l.nbrs.filter fun n => n.addr != w.addr) ++ [fresh], nbrFull := false }) s)
        | none => s
  if s.link.isolated then
    let s := setLink (fun l => { l with isolated := false, noackRun := 0 }) s
    raise (linkHost s) evIsolated [0] s
  else s

/-- The beacon payload of a frame, if it is a beacon (Table 14-5). -/
def beaconBody (m : MacFrame) (p : Bytes) : Option Bytes :=
  if m.smode then (if m.dst = 0xFFFF ∧ p.length = 10 ∧ p.take 2 = [0x4B, 0x42] then some (p.drop 2) else none)
  else if m.ftype = 2 ∧ p.length = 8 then some p
  else none

/-- A frame may be a beacon before its payload is known. -/
def beaconLike (m : MacFrame) : Bool := if m.smode then m.dst == 0xFFFF else m.ftype == 2

/-- Deliver a frame (R25, R420, R421): to tenant DTEN whether or not it listens, or in S-mode to every tenant that listens. -/
def deliver (f : RxFrame) (m : MacFrame) (p : Bytes) (s : State) : State :=
  if isDup m s then s
  else if (findBuf 4 s).isNone then setLink (fun l => { l with rxdrop := satInc 0xFFFF l.rxdrop }) s
  else
    let s := setLink (fun l => { l with
      dup := (m.src, m.mseq, (if m.sec then some m.fcnt else none), s.reel.cnt) ::
        l.dup.filter fun d => d.1 != m.src && decide (ticksBetween d.2.2.2 s.reel.cnt < 48000000) }) s
    let to_ := fun (t : Tenant) =>
      if m.smode then s.link.listens[t].isSome else t.val == m.dten
    forTenants (fun t s =>
      if to_ t then
        setLink (fun l => { l with listens := vmod l.listens t fun o => o.map fun x => { x with frames := satInc 0xFFFF x.frames } })
          (raise t evLnkRx (lnkRxData f m.src m.sec p) s)
      else s) s

/-- What Keel does with a frame of good FCS after its ACK (R406, R419, R425). Whether a beacon is also delivered in EV_LNK_RX the spec
does not say: it only updates the neighbour table. Log entries 38 DEDUCED, 80 DESIGN CHOICE. -/
def macProcess (f : RxFrame) (s : State) : State :=
  match parseMac s.link.pan f.lane f.psdu with
  | none => setLink (fun l => { l with macFormat := satInc 255 l.macFormat }) s
  | some m =>
    if m.ftype = 1 ∨ (m.dst ≠ s.link.addr ∧ m.dst ≠ 0xFFFF) then s
    else match secCheck m (beaconLike m) s with
      | .error d => countDrop d s
      | .ok p =>
        let bkey := bits s.link.maccfg 13 8
        match beaconBody m p with
        | some b => if bkey < 63 ∧ (!m.sec ∨ m.ksel ≠ bkey) then s else beaconHeard f m b s
        | none =>
          if m.ftype = 2 then s
          else if m.smode ∧ m.sec ∧ (nbrOf m.src s).isNone then countDrop .nokey s
          else deliver f m p (nbrHeard f m s)

/-- Keel's MAC receives now, on this lane: in a listen, or in the ACK window of its own send. -/
def macListens (lane : Fin 6) (s : State) : Bool :=
  coreState .link s == .rx && bit (searchLanes s) lane.val && macReceives s

/-- LINK_FRAME_RECEIVED (R419): the frame has ended; Keel takes the steps of R419, then the receiver searches on.
Log entry 38 DEDUCED. -/
def execLinkFrameReceived (f : RxFrame) (now : Tick) (s : State) : Host.Outcome State Fault Refusal :=
  let s := advanceTo now s
  if macListens f.lane s && decide (1 ≤ f.psdu.length ∧ f.psdu.length ≤ (if f.lane = 5 then 127 else 255)) then
    let f := rssiReported f
    let s := linkHeard f s
    let s := if fcsGood f then macProcess f (ackOwe f s) else coexTrack (setRadio (fun r => { r with pri := false }) s)
    if s.link.ackDue.isSome then .next s
    else match s.radio.lHold with
      | some h => if h.req.who = .listen then .next (listensDue (frameEnd .link s)) else .next s
      | none => .next s
  else .next s

/-- ACK_RECEIVED (R415, R416, R428): the ACK of the active send, its preamble detected inside the window, its FCS good, MSEQ and
DST matching. -/
def execAckReceived (now : Tick) (f : RxFrame) (s : State) : Host.Outcome State Fault Refusal :=
  let s := advanceTo now s
  match s.link.step, s.link.sends with
  | .ackWait, e :: _ =>
    let pre := if f.lane = 5 then 1536 else 4 * sfChips f.lane.val * chipTicks (linkSlow s)
    let found := s.reel.cnt - BitVec.ofNat 48 (frameTicks f.lane f.psdu.length s) + BitVec.ofNat 48 pre
    let fits : Bool := match parseMac s.link.pan f.lane f.psdu with
      | some m => m.ftype == 1 && m.mseq == e.mseq && (m.smode || m.dst == s.link.addr)
      | none => false
    if f.lane = e.lane ∧ fcsGood f ∧ fits ∧ reached s.link.timer found then
      .next (sendEnd stOk (setLink (fun l => { l with noackRun := 0 }) (linkHeard (rssiReported f) s)))
    else .next s
  | _, _ => .next s

end Sys2Proof.Machine
end

