-- ==== Sys2Proof/Machine/LinkCmds.lean ====
section
/-!
DEFINITION. The LNK and NBR commands (6.7).
-/
namespace Sys2Proof.Machine

/-- Why a link command cannot run: LIMP, lost synthesizers or receiver, reserved profile values, no node configuration (R178,
R192, R404). A send at a TIME that asks for no ACK has no CCA and needs no receiver (Table 22-5). Log entry 5 DEDUCED. -/
def linkRefusal (t : Tenant) (needsRx : Bool) (s : State) : Option Byte :=
  if inLimp s then some stLimp
  else if noSyn s || (needsRx && lostLinkRx s) then some stDegraded
  else if linkProfileBad s.prof[t] then some stBadArg
  else if !s.link.configured then some stBusy
  else none

/-- The occupied band of R430 lies where the region allows it. -/
def bandOk (freq rate region : Nat) : Bool :=
  let k := codeKhz freq
  let half := if rate = 1 then 120 else 600
  if region = 0 then rate != 1 && decide (902000 + half ≤ k ∧ k + half ≤ 928000)
  else rate != 2 && subBands.any fun b => decide (b.1 + half ≤ k ∧ k + half ≤ b.2.1)

/-- Whether sends or listens run. -/
def linkBusy (s : State) : Bool := !s.link.sends.isEmpty || s.link.listens.toList.any Option.isSome

/-- LNK.NODE (R192, R381, R423, R424, R430): sets or releases the one node configuration; a release gives up the holding only.
Log entry 35 DEDUCED. -/
def execLnkNode (c : Cmd) (s : State) : Host.Outcome State Fault Refusal :=
  .next (keelRun 0x2000 c (fun s =>
    let a := c.args
    let t := c.t
    let addr := fld a 0 2
    let freq := fld a 2 2
    let rate := fld a 4 1
    let region := fld a 5 1
    let other := match s.link.holder with | some h => h != t | none => false
    if a.length ≠ 13 then refuse t stBadArg s
    else if other then refuse t stDenied s
    else if 1 < fld a 12 1 then refuse t stBadArg s
    else if fld a 12 1 = 1 then reply t stOk [] (setLink (fun l => { l with holder := none }) s)
    else if 0xFFFE ≤ addr ∨ 4800 < freq ∨ 2 < rate ∨ 1 < region ∨ 3600 < fld a 6 2 ∨ 2 ^ 28 ≤ fld a 8 4 ∨
        (rate = 2 ∧ (freq < 2480 ∨ 3520 < freq)) ∨ !bandOk freq rate region then refuse t stBadArg s
    else if linkBusy s then refuse t stBusy s
    else
      let s := setLink (fun l => { l with
        configured := true, holder := some t, addr := w16 addr, freq := freq, rate := rate, region := region,
        beacon := fld a 6 2, cap := BitVec.ofNat 28 (fld a 8 4), beaconAt := none }) s
      let s := if fld a 6 2 = 0 then s else beaconPlan s.reel.cnt s
      reply t stOk [] s) s)

/-- The longest payload (R407). -/
def payloadMax (smode sec : Bool) : Nat :=
  match smode, sec with
  | false, false => 247
  | false, true => 234
  | true, false => 116
  | true, true => 102

/-- The key, its value and the frame counter value of a secured send, or the status that refuses it (R409, R411). -/
def sendKey (t : Tenant) (key : Nat) (s : State) : Except Byte (Option (Fin 48 × Bytes × Nat) × State) :=
  match slotNo key with
  | none => .ok (none, s)
  | some k =>
    match keyRefusal t key isEnc s with
    | some st => .error st
    | none =>
      if noFrameLeft k s then .error stKeyExhausted
      else if (findBuf (posOf t) s).isNone then .error stNoBuffer
      else match useKey t key isEnc s with
        | .error st => .error st
        | .ok (v, s) => let (f, s) := takeFrame k s; .ok (some (k, v, f), s)

/-- LNK.SEND (R193, R195, R393, R404, R407, R408, R411, R412, R594). Log entry 35 DEDUCED. -/
def execLnkSend (c : Cmd) (s : State) : Host.Outcome State Fault Refusal :=
  .next (keelRun 0x2001 c (fun s =>
    let a := c.args
    let t := c.t
    let dst := w16 (fld a 0 2)
    let dten := fld a 2 1
    let mode := fld a 3 1
    let smode := mode == 128
    let key := fld a 4 1
    let pw := sByte (fld a 5 1)
    let len := fld a 13 2
    let lane : Fin 6 := if smode then 5 else ⟨mode % 5, by omega⟩
    if a.length < 15 ∨ a.length ≠ 15 + len ∨ dst = 0xFFFE ∨ 3 < dten ∨ (smode ∧ dten ≠ 0) ∨ (4 < mode ∧ !smode) ∨
        (47 < key ∧ key ≠ 0xFF) ∨ pw < -40 ∨ 28 < pw ∨ 1 < fld a 6 1 ∨ payloadMax smode (key != 0xFF) < len then
      refuse t stBadArg s
    else match linkRefusal t (fld a 6 1 == 1 && dst != 0xFFFF || fld a 7 6 == 0) s with
      | some st => refuse t st s
      | none =>
        let ar := fld a 6 1 == 1 && dst != 0xFFFF
        let time := fld a 7 6
        if smode ∧ (s.link.rate = 1 ∨ s.link.freq < 2480 ∨ 3520 < s.link.freq) then refuse t stBadArg s
        else if ar ∧ !bit s.link.uses lane.val then refuse t stDegraded s
        else
          let keyed := sendKey t key s
          match keyed, findBuf (posOf t) s with
          | .error st, _ => refuse t st (if st = stNoBuffer then missBuf (posOf t) false s else s)
          | .ok _, none => refuse t stNoBuffer (missBuf (posOf t) false s)
          | .ok (kv, s), some h =>
            let (m, s) := takeMseq (serveBuf (posOf t) false h s)
            let psdu := buildFrame smode 0 dten ar m dst (a.drop 15) kv s
            let e : Send :=
              { owner := some t, tseq := c.seq, dst := dst, mseq := m, psdu := psdu, lane := lane, ar := ar,
                time := if time = 0 then none else some (BitVec.ofNat 48 time), tries := 0, nb := 0, be := 3, tstart := 0,
                power := BitVec.ofNat 8 (fld a 5 1), ending := none, buf := some h, late := false }
            let s := modBuf h (fun b => { b with bytes := memPutAll [] 0 psdu, len := psdu.length }) s
            let s := reply t stOk [m] (setLink (fun l => { l with sends := l.sends ++ [e] }) s)
            if time = 0 then sendAsk e s else s) s)

/-- LNK.LISTEN (R393, R422): a listen that joins an open receive counts from now. Log entry 37 DEDUCED. -/
def execLnkListen (c : Cmd) (s : State) : Host.Outcome State Fault Refusal :=
  .next (keelRun 0x2002 c (fun s =>
    let t := c.t
    if c.args.length ≠ 2 then refuse t stBadArg s
    else match linkRefusal t true s with
      | some st => refuse t st s
      | none =>
        if s.link.uses = 0 then refuse t stDegraded s
        else if s.link.listens[t].isSome then refuse t stBusy s
        else
          let first := s.link.listens.toList.all Option.isNone
          let from_ := if holds .listen .link s then some s.reel.cnt else none
          let l : Listen := { tseq := c.seq, dur := fld c.args 0 2, from_ := from_, frames := 0, ending := none }
          let s := setLink (fun q => { q with listens := q.listens.set t.val (some l) t.isLt }) (reply t stOk [] s)
          if first then
            requestAir { core := .link, who := .listen, cls := 5, freq := s.link.freq, since := s.reel.cnt,
                         gnt := lkbShared t s, wait := coexWait t s, noWait := false }
              (setLink (fun q => { q with rxHost := t }) s)
          else s) s)

/-- An attempt of a send has reached its commit point (R433). -/
def sendCommitted (e : Send) (s : State) : Bool :=
  decide (1 ≤ e.tries) || (sendActive e s && s.link.step == .tx && pastCommit .link s)

/-- End a send with a status, leaving what is past its commit point to finish (R433, R588). Log entry 35 DEDUCED. -/
def sendStop (e : Send) (status : Byte) (s : State) : State :=
  let goesOn := sendActive e s && ((s.link.step == .tx && pastCommit .link s) || (s.link.step == .ackWait && status != stAbortedReset))
  if goesOn then
    setLink (fun l => { l with sends := match l.sends with | [] => [] | e :: r => { e with ending := some status } :: r }) s
  else if sendActive e s || holds (sendWho e) .link s then sendEnd status s
  else sendDrop e status s

/-- LNK.CANCEL (R180, R181, R433, R434). Log entry 35 DEDUCED. -/
def execLnkCancel (c : Cmd) (s : State) : Host.Outcome State Fault Refusal :=
  .next (keelRun 0x2003 c (fun s =>
    let t := c.t
    let seq := w16 (fld c.args 0 2)
    if c.args.length ≠ 2 then refuse t stBadArg s
    else
      let mine := (s.link.listens[t]).any fun l => l.tseq == seq
      if mine then
        if holds .listen .link s && listenBusy s then
          setLink (fun q => { q with listens := vmod q.listens t fun o => o.map fun l => { l with ending := some stLateCancel } })
            (refuse t stLateCancel s)
        else listenEnd t stCancelled (refuse t stCancelled s)
      else match s.link.sends.find? (fun e => e.owner == some t && e.tseq == seq) with
        | none => refuse t stBadArg s
        | some e =>
          let st := if sendCommitted e s then stLateCancel else stCancelled
          sendStop e st (refuse t st s)) s)

/-- Whether a tenant has an activity on the link that runs or waits for air (R589). -/
def linkActive (t : Tenant) (s : State) : Bool :=
  s.link.sends.any (fun e => e.owner == some t) || s.link.listens[t].isSome ||
  (match s.svy.sweep with | some w => w.owner == some t && decide (4 ≤ w.target.val) | none => false) ||
  (match s.radio.lHold with | some h => h.req.who == .ctx t | none => false) ||
  s.radio.waiters.any (fun r => r.core == .link && r.who == .ctx t)

/-- LNK.RESET (R82, R186, R588, R589, 14.10): a frame past its commit point is sent whole; the tenant's sends and listens end in
ST_ABORTED_RESET, Keel's own work ends untold; NOACKRUN clears and ISOLATED ends without an event.
Log entry 35 DEDUCED. -/
def execLnkReset (c : Cmd) (s : State) : Host.Outcome State Fault Refusal :=
  .next (keelRun 0x20F0 c (fun s =>
    let t := c.t
    if c.args.length ≠ 0 then refuse t stBadArg s
    else if tenants.any (fun u => u != t && linkActive u s) then refuse t stBusy s
    else
      let s := setEpoch (fun e => { e with lnk := e.lnk + 1 }) (reply t stOk [] s)
      let s := s.link.sends.foldl (fun s e =>
        sendStop (match s.link.sends.find? (fun x => x.owner == e.owner && x.mseq == e.mseq) with | some x => x | none => e)
          stAbortedReset s) s
      let s := if listenBusy s ∧ s.link.ackDue.isNone ∧ s.link.ackEnd.isNone then
          searchAgain s
        else s
      let s := if s.link.ackEnd.isNone then ackOver s else s
      let s := if s.link.ackEnd.isSome then
          setLink (fun q => { q with listens := q.listens.map fun o => o.map fun l => { l with ending := some stAbortedReset } }) s
        else listenEnd t stAbortedReset s
      let s := ctxAirGone t .link s
      let s := setLink (fun l => { l with noackRun := 0, isolated := false, dup := [] }) s
      match s.svy.sweep with
      | some w =>
        if 4 ≤ w.target.val then
          if w.owner.isSome then sweepEnd stAbortedReset s
          else setSvy (fun v => { v with sweep := none }) (sweepRelease s)
        else s
      | none => s) s)

/-- One entry of NBR.LIST (Table 6-9). -/
def nbrEntry (n : Nbr) (s : State) : Bytes :=
  leBytes 2 n.addr.toNat ++ leBytes 4 n.cap.toNat ++ [n.rssi, BitVec.ofNat 8 n.lqi, BitVec.ofNat 8 (min 255 (nbrMissed n s)),
    if n.smode then 1 else 0] ++ tickBytes n.last

/-- NBR.LIST (6.7): entries from an index, as far as the table is occupied. -/
def execNbrList (c : Cmd) (s : State) : Host.Outcome State Fault Refusal :=
  .next (keelRun 0x2100 c (fun s =>
    let from_ := fld c.args 0 1
    let n := fld c.args 1 1
    if c.args.length ≠ 2 ∨ 63 < from_ ∨ n < 1 ∨ 32 < n then refuse c.t stBadArg s
    else
      let l := (s.link.nbrs.drop from_).take n
      reply c.t stOk ([BitVec.ofNat 8 l.length] ++ (l.map fun e => nbrEntry e s).flatten) s) s)

/-- NBR.FORGET (6.7): an address that is not in the table gives ST_BAD_ARG. Log entry 38 DEDUCED. -/
def execNbrForget (c : Cmd) (s : State) : Host.Outcome State Fault Refusal :=
  .next (keelRun 0x2101 c (fun s =>
    let a := w16 (fld c.args 0 2)
    if c.args.length ≠ 2 ∨ (nbrOf a s).isNone then refuse c.t stBadArg s
    else nbrLost a 1 (reply c.t stOk [] s)) s)

end Sys2Proof.Machine
end

