-- ==== Sys2Proof/Machine/Store.lean ====
section
/-!
DEFINITION. Store and Ballast (chapter 19): the NVM commands, the commit queue with its Ballast checks and read-back, what
each commit changes when it lands, retired sectors and wear moves.
-/
namespace Sys2Proof.Machine

-- ------------------------------------------------------------------ sectors and wear (R516, R530)

/-- The physical sector of a logical one: 0 to 2 are fixed (R516). -/
def physOf (w : StoreSt) (l : Nat) : Nat := if l < 3 then l else w.sectors.getD (l - 3) l

/-- The spares: physical sectors 3 to 135 that are neither mapped nor retired. -/
def spareSectors (w : StoreSt) : List Nat :=
  ((List.range 133).map (· + 3)).filter fun p => !w.sectors.contains p && !w.retired.contains p

/-- The wear of a physical sector. -/
def wearOf (w : StoreSt) (p : Nat) : Nat := w.wear.getD p 0

/-- The sector of a list with the least wear, the first of equals. Log entry 12 DESIGN CHOICE. -/
def leastWorn (w : StoreSt) : List Nat → Option Nat
  | [] => none
  | p :: r => match leastWorn w r with
    | none => some p
    | some q => if wearOf w q < wearOf w p then some q else some p

/-- The sector of a list with the most wear, the first of equals. -/
def mostWorn (w : StoreSt) : List Nat → Option Nat
  | [] => none
  | p :: r => match mostWorn w r with
    | none => some p
    | some q => if wearOf w p < wearOf w q then some q else some p

/-- The wear of the most-worn sector (NVM_MAXWEARm). -/
def maxWear (w : StoreSt) : Nat := w.wear.foldl max 0

/-- n page commits into a physical sector: its wear and NVM_COMMITSm count them, and it is written on this day (R530, R532). Log
entry 45 DESIGN CHOICE. -/
def countWrites (p n : Nat) (s : State) : State :=
  setStore (fun w => { w with
    wear := w.wear.set p (wearOf w p + n), written := w.written.set p s.reel.day
    commits := min 0xFFFFFFFF (w.commits + n) }) s

/-- Put physical sector p in the place of a logical sector. -/
def remap (l p : Nat) : State → State := setStore fun w => { w with sectors := w.sectors.set (l - 3) p }

-- ------------------------------------------------------------------ Ballast (19.3)

/-- C · (VHU² − Vmin²) in µF·mV²: E_avail is this over 2,000,000, in µJ (R522). Log entry 43 DEDUCED. -/
def energyScaled (w : StoreSt) (vhu : Nat) : Int := (w.balC : Int) * ((vhu : Int) ^ 2 - (w.vmin : Int) ^ 2)

/-- Enough energy is in hand for n page writes (R522); with C 0 there is no check (R523). Log entry 43 DEDUCED. -/
def ballastOk (w : StoreSt) (vhu n : Nat) : Bool :=
  w.balC == 0 || decide ((2 * (4 * n + 24) * 2000000 : Nat) ≤ energyScaled w vhu)

/-- What BAL_VHU and BAL_EAVAIL show after a check. Log entry 43 DEDUCED. -/
def ballastSample (vhu : Nat) : State → State :=
  setStore fun w => if w.balC = 0 then w else { w with vhu := vhu, eavail := min 0xFFFF (energyScaled w vhu / 2000000).toNat }

-- ------------------------------------------------------------------ NVM commands (6.14)

/-- The pages that n bytes at an offset touch. Log entry 42 DEDUCED. -/
def pagesOf (off n : Nat) : List Nat := (List.range ((off + n + 63) / 64 - off / 64)).map (· + off / 64)

/-- NVM.READ (R517, R577). Log entry 44 DEDUCED. -/
def execNvmRead (c : Cmd) (s : State) : Host.Outcome State Fault Refusal :=
  .next (keelRun 0x7000 c (fun s =>
    let off := fld c.args 0 2
    let n := fld c.args 2 2
    if c.args.length ≠ 4 ∨ n < 1 ∨ 1000 < n ∨ 16384 < off + n then refuse c.t stBadArg s
    else if bit s.mend.lost 10 then refuse c.t stNvmFail s
    else if s.store.badPages.any (fun e => e.1 == c.t && (pagesOf off n).contains e.2) then refuse c.t stNvmFail s
    else reply c.t stOk (memGetAll s.store.areas[c.t] off n) s) s)

/-- NVM.WRITE (R517, R519, R577): a page of which only part is written is read first; the write of p pages is 2p + 1 page
commits, and the command completes with its commit. Log entry 44 DEDUCED. -/
def execNvmWrite (c : Cmd) (s : State) : Host.Outcome State Fault Refusal :=
  .next (keelRun 0x7001 c (fun s =>
    let off := fld c.args 0 2
    let n := fld c.args 2 2
    let data := c.args.drop 4
    let ps := pagesOf off n
    let partly := ps.filter fun p => decide (p * 64 < off) || decide (off + n < p * 64 + 64)
    if c.args.length < 4 ∨ c.args.length ≠ 4 + n ∨ n < 1 ∨ 512 < n ∨ 16384 < off + n then refuse c.t stBadArg s
    else if bit s.mend.lost 10 then refuse c.t stNvmFail s
    else if s.store.badPages.any (fun e => e.1 == c.t && partly.contains e.2) then refuse c.t stNvmFail s
    else match s.tens[c.t].exec with
      | none => s
      | some job => queueCommit (.nvmWrite c.t job off data) (2 * ps.length + 1) s) s)

/-- NVM.BALLAST (R145, R521, R635): in effect at once, its commit is Keel's own work. -/
def execNvmBallast (c : Cmd) (s : State) : Host.Outcome State Fault Refusal :=
  .next (keelRun 0x7002 c (fun s =>
    let cap := fld c.args 0 4
    let vmin := fld c.args 4 2
    if c.args.length ≠ 6 then refuse c.t stBadArg s
    else if !isT0 c then refuse c.t stDenied s
    else if 100000000 < cap ∨ (0 < cap ∧ (vmin < 1000 ∨ 5500 < vmin)) then refuse c.t stBadArg s
    else reply c.t stOk [] (queueCommit (.ballast cap vmin) 1
      (setStore (fun w => { w with balC := cap, vmin := vmin }) s))) s)

/-- NVM.STATUS (6.14). -/
def execNvmStatus (c : Cmd) (s : State) : Host.Outcome State Fault Refusal :=
  .next (keelRun 0x7003 c (fun s =>
    if c.args.length ≠ 0 then refuse c.t stBadArg s
    else reply c.t stOk (BitVec.ofNat 8 (8 - s.store.retired.length) :: (leBytes 2 s.store.defer ++
      leBytes 4 s.store.commits ++ leBytes 4 (min 0xFFFFFFFF (maxWear s.store)))) s) s)

-- ------------------------------------------------------------------ where a commit writes

/-- The logical sector of each page that a commit writes. Where in the ledger and counter areas a record lies, and on which
pages the journal, the spec leaves open. Log entry 45 DESIGN CHOICE. -/
def commitSectors (c : Commit) (s : State) : List Nat × State :=
  let (v, s) := drawNat s
  let counters := 104 + v % 24
  match c.kind with
  | .nvmWrite t _ off data =>
    let ps := pagesOf off data.length
    (List.replicate (ps.length + 1) counters ++ ps.map (fun p => 16 + 16 * t.val + p / 16), s)
  | .patch _ _ slot _ => (List.replicate c.pages (8 + slot), s)
  | .ballast .. | .owner _ | .ledgerCfg .. | .window .. => (List.replicate c.pages 7, s)
  | .record _ | .checkpoint _ => (List.replicate c.pages (80 + v % 24), s)
  | _ => (List.replicate c.pages counters, s)

/-- Mend commits the map after every repair (R575): 3 copies of 16 pages. -/
def queueMap (wear : Bool) : State → State := queueCommit (.map wear) 48

/-- The store's loss: a commit found no spare, or a map copy is bad (R518, R566). Log entry 52 DEDUCED. -/
def storeLoss (p : Nat) (s : State) : State :=
  let s := mendLoss 3 3 (setStore (fun w => { w with degraded := true }) s)
  logEntry 0xF001 [BitVec.ofNat 8 p, stNvmFail] s

/-- A page fails its read-back twice (R518): its sector is retired and its contents go to the least-worn spare, where the
page is written; with no spare the answer is false. Log entries 42 DEDUCED, 46 DEDUCED. -/
def retireSector (l : Nat) (s : State) : Bool × State :=
  let old := physOf s.store l
  match leastWorn s.store (spareSectors s.store) with
  | none => (false, queueMap false (storeLoss old s))
  | some p =>
    let s := countWrites p 17 (remap l p (countWrites old 1 s))
    let s := setStore (fun w => { w with retired := w.retired ++ [old], moving := none }) s
    (true, queueMap false (mendEvent 3 false s))

/-- Retire the sectors of the first n pages of a commit. -/
def retireAll : Nat → List Nat → State → Bool × State
  | 0, _, s => (true, s)
  | _, [], s => (true, s)
  | n + 1, l :: r, s =>
    match retireSector l s with
    | (false, s) => (false, s)
    | (true, s) => retireAll n r s

/-- The pages of a commit are written: wear counts, and a move of a sector written to is abandoned (R531). -/
def writePages (ls : List Nat) (s : State) : State :=
  let s := ls.foldl (fun s l => countWrites (physOf s.store l) 1 s) s
  match s.store.moving with
  | some m => if ls.contains m.logical then setStore (fun w => { w with moving := none }) s else s
  | none => s

-- ------------------------------------------------------------------ landing

/-- A slot's key is erased (R477): its GEN advances unless it is retired, and whoever used it learns of it at the next
message or AESB (R481, R482). Log entry 41 DEDUCED. -/
def eraseSlot (k : Fin 48) (s : State) : State :=
  let s := modSlot k (fun sl => { sl with
    key := none, gen := if sl.gen = 0xFFFF then sl.gen else sl.gen + 1, unsaved := false, cached := false, usesLatch := 0,
    useRes := .reset 256, bad := false, stored := none }) s
  let mine := fun (c : Commit) => match c.kind with | .keyRec j => j == k | .useRes j _ => j == k | _ => false
  let s := setStore (fun w => { w with queue := w.queue.filter (fun c => !mine c),
                                       deferred := w.deferred.filter (fun c => !mine c) }) s
  let s := forTenants (fun t s => modCtx t (fun x => { x with
    ksel := x.ksel.map fun e => if e.slot = k then { e with gone := true } else e }) s) s
  let s := forTenants (fun t s => modSess t (fun q => if q.key = k then { q with keyGone := true } else q) s) s
  dropOrphans (setTag (fun g => if g.key = k then { g with keyGone := true } else g) s)

/-- A patch image's fields as SYS.PATCH returns them. Log entry 63 DEDUCED. -/
def patchResult (slot : Nat) (p : Patch) : Bytes := BitVec.ofNat 8 slot :: leBytes 2 p.level

/-- Append landed log entries, newest first: 512 are held, older ones are overwritten and counted (19.1).
Log entry 46 DEDUCED. -/
def logLand (es : List LogEntry) : State → State :=
  setStore fun w =>
    let all := es ++ w.log
    { w with log := all.take 512, logLost := min 0xFFFF (w.logLost + (all.length - 512)),
             sinceMap := w.sinceMap + es.length }

/-- The working map as a commit saves it (Table 22-4); WEAR is kept in units of 256 page commits.
Log entry 45 DESIGN CHOICE. -/
def mapToSave (wear : Bool) (copies : BitVec 3) (s : State) : MendMap :=
  let m := s.mend
  { rowmap := m.rowmap, disrow := m.disrow, lanes := m.lanes, adc := m.adc, lna := m.lna, syn := m.syn,
    keyram := m.keyram, lost := m.lost, seq := m.saved.seq + 1, sectors := s.store.sectors, retired := s.store.retired,
    wear := if wear then s.store.wear.map (fun n => n / 256 * 256) else m.saved.wear, copies := copies }

/-- The Mend map lands in the copies that verify: a finished wear move changes the sector map (R531).
Log entry 44 DEDUCED. -/
def mapLand (wear : Bool) (copies : BitVec 3) (s : State) : State :=
  let s := match s.store.moving with
    | some m => if m.steps = 2 then setStore (fun w => { w with moving := none }) (remap m.logical m.target s) else s
    | none => s
  let s := setMend (fun m => { m with mapSeq := m.saved.seq + 1, saved := mapToSave wear copies s }) s
  setStore (fun w => { w with sinceMap := 0 }) s

/-- What a commit changes when it lands. Log entry 6 DEDUCED. -/
def landCommit (k : CommitKind) (s : State) : State :=
  match k with
  | .nvmWrite t _ off data =>
    let full := (pagesOf off data.length).filter fun p => decide (off ≤ p * 64) && decide (p * 64 + 64 ≤ off + data.length)
    reply t stOk [] (setStore (fun w => { w with
      areas := vmod w.areas t (fun m => memPutAll m off data)
      badPages := w.badPages.filter (fun e => !(e.1 == t && full.contains e.2)) }) s)
  | .patch t _ slot p =>
    let s := setStore (fun w => { w with patches := w.patches.set! slot (some p) }) s
    raise 0 evPatch (patchResult slot p) (reply t stOk (patchResult slot p) s)
  | .keyErase t _ k => reply t stOk [] (eraseSlot k s)
  | .keyInval t _ k =>
    let s := dropOrphans (modSlot k (fun sl => { sl with gen := sl.gen + 1 }) s)
    reply t stOk (leBytes 2 s.bri.slots[k].gen.toNat) s
  | .rootInval t _ =>
    let s := setBri (fun b => { b with roots := vmod b.roots t (· + 1) }) s
    let s := setBri (fun b => { b with rootsLanded := b.rootsLanded.set t.val b.roots[t] t.isLt }) s
    reply t stOk (leBytes 2 s.bri.roots[t].toNat) (dropOrphans s)
  | .keyRec k => modSlot k (fun sl => match sl.key with
    | some key => if key.expire then sl else { sl with stored := some key, unsaved := false }
    | none => sl) s
  | .useRes k v => modSlot k (fun sl => { sl with useRes := { sl.useRes with limit := v + 256, queued := false } }) s
  | .frameRes k v => modSlot k (fun sl => { sl with frame := { sl.frame with limit := v + 1024, queued := false } }) s
  | .tamperGens => setBri (fun b => { b with rootsLanded := b.roots, deadLanded := b.dead }) s
  | .ballast c v => setStore (fun w => { w with prov := { w.prov with balC := c, vmin := v } }) s
  | .owner t => setStore (fun w => { w with prov := { w.prov with owner := t } }) s
  | .ledgerCfg c n => setStore (fun w => { w with prov := { w.prov with cfg := c, nextCfg := n } }) s
  | .window a n => setStore (fun w => { w with prov := { w.prov with winStart := a, winLen := n } }) s
  | .record r =>
    setLdg (fun l => { l with held := l.held ++ [r], lastLanded := r.seq, toTell := l.toTell ++ [(r.seq, r.flags)] }) s
  | .checkpoint r =>
    setLdg (fun l => { l with
      ckpt := some r
      cur := l.cur.map fun iv =>
        if r.seq = l.lastSeq + 1 ∧ r.counts = iv.counts then { iv with dirty := false } else iv }) s
  | .logPage es => logLand es s
  | .map w => mapLand w 7 s

/-- A commit ends with a status: its command completes with it and changes nothing; a reservation may be queued again.
Log entries 6 DEDUCED, 44 DEDUCED, 46 DEDUCED. -/
def failCommit (k : CommitKind) (st : Byte) (s : State) : State :=
  match k with
  | .nvmWrite t .. | .patch t .. | .keyErase t .. | .keyInval t .. | .rootInval t _ => refuse t st s
  | .useRes k _ => modSlot k (fun sl => { sl with useRes := { sl.useRes with queued := false } }) s
  | .frameRes k _ => modSlot k (fun sl => { sl with frame := { sl.frame with queued := false } }) s
  | _ => s

/-- A map commit (R518): bit c of `bad` tells that copy c failed its read-back twice; it lands when a copy verifies.
Log entry 46 DEDUCED. -/
def runMap (wear : Bool) (bad : Nat) (s : State) : State :=
  let s := countWrites 2 16 (countWrites 1 16 (countWrites 0 16 s))
  let good : BitVec 3 := ~~~(BitVec.ofNat 3 bad)
  let s := (([0, 1, 2] : List Nat).filter fun i => !good.getLsbD i).foldl (fun s i => storeLoss i s) s
  if good = 0 then setMend (fun m => { m with saved := { m.saved with copies := 0 } }) s else mapLand wear good s

/-- A commit runs: its pages are written with read-back, `bad` of them fail twice, and it lands or ends (R518). Without a
sector map nothing lands (R577). -/
def runCommit (c : Commit) (bad : Nat) (s : State) : State :=
  if bit s.mend.lost 10 then failCommit c.kind stNvmFail s
  else match c.kind with
  | .map wear => runMap wear bad s
  | k =>
    let (ls, s) := commitSectors c s
    match retireAll bad ls (writePages ls s) with
    | (true, s) => landCommit k s
    | (false, s) => failCommit k stNvmFail s

/-- A commit that a command waits for; every other is Keel's own (R525). -/
def ofCommand : CommitKind → Bool
  | .nvmWrite .. | .patch .. | .keyErase .. | .keyInval .. | .rootInval .. => true
  | _ => false

/-- The head of the queue fails its check (R525). -/
def deferCommit (c : Commit) (s : State) : State :=
  let s := setStore (fun w => { w with defer := satInc 0xFFFF w.defer }) s
  if ofCommand c.kind then failCommit c.kind stBallastLow s
  else setStore (fun w => { w with deferred := w.deferred ++ [c] }) s

/-- STORE_COMMIT (R518, R522, R525): the commit at the head of the queue is checked and written.
Log entries 44 DEDUCED, 61 DESIGN CHOICE. -/
def execStoreCommit (vhu badWrites : Nat) (s : State) : Host.Outcome State Fault Refusal :=
  if !live s then .next s
  else match s.store.queue with
  | [] => .next s
  | c :: rest =>
    let ok := ballastOk s.store vhu (queuedPages s.store)
    let s := setStore (fun w => { w with queue := rest }) (ballastSample vhu s)
    .next (if ok then runCommit c badWrites s else deferCommit c s)

/-- BALLAST_RECHECK (R525): the oldest deferred commit is checked again and, passing, runs next.
Log entry 43 DEDUCED. -/
def execBallastRecheck (now : Tick) (vhu badWrites : Nat) (s : State) : Host.Outcome State Fault Refusal :=
  let s := advanceTo now s
  if !live s then .next s
  else match s.store.deferred with
  | [] => .next s
  | c :: rest =>
    let ok := ballastOk s.store vhu (queuedPages s.store)
    let s := ballastSample vhu s
    .next (if ok then runCommit c badWrites (setStore (fun w => { w with deferred := rest }) s) else s)

-- ------------------------------------------------------------------ wear moves (19.6)

/-- The move that R530 calls for, if any: a hot mapped sector to the least-worn spare, or the coldest mapped sector into the
most-worn spare. Log entry 12 DESIGN CHOICE. -/
def wearMove (w : StoreSt) : Option Move :=
  let sp := spareSectors w
  match leastWorn w sp, mostWorn w sp, leastWorn w w.sectors with
  | some lo, some hi, some cold =>
    match mostWorn w (w.sectors.filter fun p => decide (wearOf w lo + 1000000 < wearOf w p)) with
    | some hot => some { logical := w.sectors.idxOf hot + 3, target := lo, steps := 0 }
    | none =>
      if wearOf w cold + 1000000 < wearOf w lo then some { logical := w.sectors.idxOf cold + 3, target := hi, steps := 0 }
      else none
  | _, _, _ => none

/-- WEAR_MOVE_STEP (R530, R531): with no foreground commit queued, a move begins or copies its next 8 pages; after the second
step the map commit is queued. -/
def execWearMoveStep (s : State) : Host.Outcome State Fault Refusal :=
  if !live s || s.store.queue.any (fun c => ofCommand c.kind) || bit s.mend.lost 10 then .next s
  else match s.store.moving.orElse fun _ => wearMove s.store with
  | none => .next s
  | some m =>
    if 2 ≤ m.steps then .next s
    else
      let s := countWrites m.target 8 (setStore (fun w => { w with moving := some { m with steps := m.steps + 1 } }) s)
      .next (if m.steps = 1 then queueMap false s else s)

/-- A physical sector has not been written for 4 years of 365 days and a leap day, by Keel's day counter (R532). Log entry 12
DEDUCED. -/
def coldSector (p : Nat) (s : State) : Bool := decide (s.store.written.getD p 0 + 1461 ≤ s.reel.day)

/-- COLD_SECTOR_MOVE (R532): a mapped sector not written for 4 years begins its move; the spec does not say to which spare.
Log entry 12 DESIGN CHOICE. -/
def execColdSectorMove (sector : Nat) (s : State) : Host.Outcome State Fault Refusal :=
  let sp := spareSectors s.store
  if !live s || s.store.moving.isSome || sector < 3 || 128 ≤ sector || bit s.mend.lost 10 ||
      !coldSector (physOf s.store sector) s then .next s
  else
    let (v, s) := drawNat s
    match sp[v % sp.length]? with
    | none => .next s
    | some p => .next (setStore (fun w => { w with moving := some { logical := sector, target := p, steps := 0 } }) s)

end Sys2Proof.Machine
end

