-- ==== Sys2Proof/Machine/Mend.lean ====
section
/-!
DEFINITION. Mend (chapter 22): repairs and losses, the daily full self-test and its window, SRAM corrections, the check of a
synthesizer, and the MEND commands.
-/
namespace Sys2Proof.Machine

-- ------------------------------------------------------------------ repairs and losses (22.6)

/-- The link search uses that so many healthy lanes leave (R393): bits 0 to 4 SF8 to SF128, bit 5 S-mode. -/
def usesOf (healthy : Nat) : BitVec 6 :=
  match healthy with
  | 0 => 0x00
  | 1 => 0x20
  | 2 => 0x21
  | 3 => 0x23
  | 4 => 0x27
  | 5 => 0x2F
  | _ => 0x3F

/-- LNK_LANES follows the lanes that work. -/
def lanesApply (s : State) : State :=
  let n := 8 - popcount s.mend.lanes
  setLink (fun l => { l with lanesHealthy := n, uses := usesOf n }) s

/-- What a fault does to the map (R579, R581, R583, Table 22-5): the resource code it concerns, with the MEND_LOST bit where no
spare is left; none where the map has the fault already. -/
def mendFault (r : MendRes) (m : MendSt) : MendSt × Option (Nat × Option Nat) :=
  match r with
  | .row b row =>
    let e := (b.val, row.toNat)
    if bankUsed m b.val < 4 then ({ m with rowmap := m.rowmap ++ [e] }, some (0, none))
    else if m.disrow.contains e then (m, none)
    else ({ m with disrow := m.disrow ++ [e] }, some (0, some 0))
  | .lane n =>
    if m.lanes.getLsbD n.val then (m, none)
    else
      let m := { m with lanes := m.lanes ||| BitVec.ofNat 8 (2 ^ n.val) }
      (m, some (1, if popcount m.lanes ≤ 2 then none else some 1))
  | .adc n =>
    if m.adc.getLsbD n.val then (m, none)
    else
      let m := { m with adc := m.adc ||| BitVec.ofNat 3 (2 ^ n.val) }
      (m, some (2, if popcount m.adc ≤ 1 then none else some 2))
  | .lna n =>
    if m.lna.getLsbD n.val then (m, none)
    else
      let m := { m with lna := m.lna ||| BitVec.ofNat 2 (2 ^ n.val) }
      (m, some (4, some (if popcount m.lna ≤ 1 then 4 else 5)))
  | .syn c =>
    let i := match c with | .reader => 0 | .link => 1
    if m.syn.getLsbD i then (m, none)
    else
      let m := { m with syn := m.syn ||| BitVec.ofNat 2 (2 ^ i) }
      (m, some (5, some (if popcount m.syn ≤ 1 then 6 else 7)))
  | .keySlot k =>
    if m.keyram.getLsbD k.val then (m, none)
    else ({ m with keyram := m.keyram ||| BitVec.ofNat 48 (2 ^ k.val) }, some (6, some 8))

/-- Repair a fault while the part runs: the map changes and is committed, and every tenant hears of it (R575, R584). -/
def mendRepair (r : MendRes) (s : State) : State :=
  match mendFault r s.mend with
  | (_, none) => s
  | (m, some (code, lost)) =>
    let s := lanesApply (setMend (fun _ => m) s)
    queueMap false (match lost with
      | none => mendEvent code false s
      | some b => mendLoss code b s)

/-- Repair a fault of the start self-test: it is told when the ports are live (R567, R569). -/
def startRepair (r : MendRes) (s : State) : State :=
  match mendFault r s.mend with
  | (_, none) => s
  | (m, some (code, lost)) =>
    let s := setMend (fun _ => { m with startChanges := m.startChanges ++ [(code, lost.isSome)] }) s
    lanesApply (match lost with
      | none => s
      | some b =>
        logEntry evMend [BitVec.ofNat 8 code, BitVec.ofNat 8 (sparesLeft s code), 1]
          (setMend (fun m => { m with lost := m.lost ||| BitVec.ofNat 11 (2 ^ b) }) s))

/-- A core is used by no activity; the lantern tag's hold uses no part of it (R271). -/
def coreIdle (c : CoreId) (s : State) : Bool :=
  match holdOf c s with
  | none => true
  | some h => h.req.who == .lantern

/-- No activity uses the resource (R582). -/
def resIdle (r : MendRes) (s : State) : Bool :=
  match r with
  | .lane _ | .lna _ => coreIdle .link s
  | .adc _ => coreIdle .reader s
  | .syn _ => coreIdle .reader s && coreIdle .link s
  | .row .. | .keySlot _ => true

-- ------------------------------------------------------------------ the daylight window and the full self-test (22.3)

/-- The time of day in ticks: wall time, or the Reel time since the start (R570). -/
def dayTicks (s : State) : Nat :=
  let day := 1440 * minTicks
  match wallTicks s s.reel.cnt with
  | some w => (w % day).toNat
  | none => ticksBetween s.power.startedAt s.reel.cnt % day

/-- Ticks since the window's opening of the day. -/
def sinceOpening (s : State) : Nat :=
  let day := 1440 * minTicks
  (dayTicks s + day - s.mend.winStart * minTicks % day) % day

/-- The time of day lies in the window. -/
def inWindow (s : State) : Bool := decide (sinceOpening s < s.mend.winLen * minTicks)

/-- DAYLIGHT_WINDOW_OPEN (R570, R573): Keel wakes the part for it; once a window, the day is counted and the full self-test is
due. Log entry 52 DEDUCED. -/
def execDaylightWindowOpen (now : Tick) (s : State) : Host.Outcome State Fault Refusal :=
  let s := advanceTo now s
  let new := match s.mend.openedAt with
    | none => true
    | some t => decide (s.mend.winLen * minTicks ≤ ticksBetween t s.reel.cnt)
  if s.power.mode == .sleep then .next (startWake .keel s)
  else if s.power.mode == .run && inWindow s && !s.mend.winOpen && new then
    .next (setMend (fun m =>
      let d := satInc 0xFFFF m.days
      { m with winOpen := true, openedAt := some s.reel.cnt, days := d, overdue := m.overdue || decide (3 ≤ d) }) s)
  else .next s

/-- DAYLIGHT_WINDOW_END (R572, R573): an unfinished test stops and resumes from its next step in the next window. -/
def execDaylightWindowEnd (s : State) : Host.Outcome State Fault Refusal :=
  .next (setMend (fun m => { m with winOpen := false, running := false }) s)

/-- The resources of a step of Table 22-3 are idle, and no foreground request for them waits (R571, R591).
Log entry 52 DEDUCED. -/
def stepIdle (n : Nat) (s : State) : Bool :=
  let quiet := fun (c : CoreId) => coreIdle c s && !s.radio.waiters.any (fun r => r.core == c)
  if n < 320 then true
  else if n < 360 then quiet .link
  else if n < 390 then quiet .reader
  else if n < 400 then quiet .link
  else if n < 450 then quiet .reader && quiet .link
  else !s.store.queue.any (fun c => ofCommand c.kind)

/-- A step can find this fault (Table 22-3). -/
def stepFinds (n : Nat) (r : MendRes) : Bool :=
  match r with
  | .row b row => if n < 256 then b.val == n / 16 && row.toNat / 16 == n % 16 else n == b.val + 256
  | .keySlot k => n == k.val + 272
  | .lane _ => decide (320 ≤ n ∧ n < 360)
  | .adc _ => decide (360 ≤ n ∧ n < 390)
  | .lna _ => decide (390 ≤ n ∧ n < 400)
  | .syn _ => decide (400 ≤ n ∧ n < 450)

/-- A test of a key slot's RAM drops its value (R473). -/
def keyTested (n : Nat) (s : State) : State :=
  if n < 272 then s
  else match slotNo (n - 272) with
    | some k => modSlot k (fun sl => { sl with cached := false }) s
    | none => s

/-- The last step completes the test: the map is committed with WEAR (R573, R575). -/
def testDone (s : State) : State :=
  queueMap true (setMend (fun m => { m with running := false, winOpen := false, step := 0, days := 0, overdue := false }) s)

/-- The fault that a step found is repaired before the next one (R574). -/
def stepRepair (n : Nat) (found : Option MendRes) (s : State) : State :=
  match found with
  | some r => if stepFinds n r then mendRepair r s else s
  | none => s

/-- Steps of the full self-test (Table 22-3). -/
def testSteps : Nat := 586

/-- MEND_STEP (R571 to R574): one atomic step of the full self-test, with the fault it found if any.
Log entry 52 DEDUCED. -/
def execMendStep (now : Tick) (found : Option MendRes) (s : State) : Host.Outcome State Fault Refusal :=
  let s := advanceTo now s
  if s.power.mode == .run && s.mend.winOpen && stepIdle s.mend.step s then
    let n := s.mend.step
    let s := setMend (fun m => { m with running := true, step := m.step + 1 }) s
    let s := stepRepair n found (keyTested n s)
    .next (if s.mend.step < testSteps then s else testDone s)
  else .next s

-- ------------------------------------------------------------------ faults in the field

/-- SRAM_CORRECTION (R579): the second correction of a row within 24 h of Reel has it spared. -/
def execSramCorrection (bank : Fin 16) (row : BitVec 8) (now : Tick) (s : State) : Host.Outcome State Fault Refusal :=
  let s := advanceTo now s
  if !live s then .next s
  else
    let mine := fun (e : Nat × Nat × Tick) => e.1 == bank.val && e.2.1 == row.toNat
    let twice := s.mend.scrub.any fun e => mine e && decide (ticksBetween e.2.2 s.reel.cnt ≤ 1440 * minTicks)
    let rest := s.mend.scrub.filter fun e => !mine e
    if twice then .next (mendRepair (.row bank row) (setMend (fun m => { m with scrub := rest }) s))
    else .next (setMend (fun m => { m with scrub := rest ++ [(bank.val, row.toNat, s.reel.cnt)] }) s)

/-- SYNTH_CHECK_CALIBRATION (R583): at the core's STANDBY with no request pending, the check that three failed channel changes
called for; a failed one loses the synthesizer as soon as it is idle. Log entry 52 DEDUCED. -/
def execSynthCheckCalibration (core : CoreId) (passed : Bool) (s : State) : Host.Outcome State Fault Refusal :=
  let due := match core with | .reader => s.mend.checkR | .link => s.mend.checkL
  if s.power.mode == .run && due && coreIdle core s && !s.radio.waiters.any (fun r => r.core == core) then
    let s := setMend (fun m => match core with
      | .reader => { m with checkR := false }
      | .link => { m with checkL := false }) s
    if passed then .next s
    else if resIdle (.syn core) s then .next (mendRepair (.syn core) s)
    else .next (setMend (fun m => { m with owed := m.owed ++ [.syn core] }) s)
  else .next s

/-- Mend switches a resource on a finding of its own, or on one that waits; a synthesizer only once it is declared failed
(R583). Log entry 52 DEDUCED. -/
def switchDue (r : MendRes) (s : State) : Bool :=
  match r with
  | .lane _ | .adc _ | .lna _ => true
  | .syn _ => s.mend.owed.contains r
  | .row .. | .keySlot _ => false

/-- MEND_RESOURCE_SWITCH (R582): a failing lane, ADC slice, LNA or synthesizer is switched while no activity uses it.
Log entry 52 DEDUCED. -/
def execMendResourceSwitch (r : MendRes) (s : State) : Host.Outcome State Fault Refusal :=
  if s.power.mode == .run && switchDue r s && resIdle r s then
    .next (mendRepair r (setMend (fun m => { m with owed := m.owed.filter (· != r) }) s))
  else .next s

-- ------------------------------------------------------------------ commands (6.17)

/-- MEND.STATUS. -/
def execMendStatus (c : Cmd) (s : State) : Host.Outcome State Fault Refusal :=
  .next (keelRun 0x8800 c (fun s =>
    if c.args.length ≠ 0 then refuse c.t stBadArg s
    else reply c.t stOk (leBytes 2 (mendLevel s) ++ ((List.range 8).map fun i => BitVec.ofNat 8 (sparesLeft s i)) ++
      leBytes 2 s.mend.lost.toNat) s) s)

/-- MEND.WINDOW (R145, R635): in force at once, its commit is Keel's own work. -/
def execMendWindow (c : Cmd) (s : State) : Host.Outcome State Fault Refusal :=
  .next (keelRun 0x8801 c (fun s =>
    let a := fld c.args 0 2
    let n := fld c.args 2 2
    if c.args.length ≠ 4 then refuse c.t stBadArg s
    else if !isT0 c then refuse c.t stDenied s
    else if 1439 < a ∨ n < 1 ∨ 720 < n then refuse c.t stBadArg s
    else reply c.t stOk [] (queueCommit (.window a n) 1
      (setMend (fun m => { m with winStart := a, winLen := n }) s))) s)

end Sys2Proof.Machine
end

