-- ==== Sys2Proof/Machine/RadioCmds.lean ====
section
/-!
DEFINITION. The RADIO and COEX commands (6.8), deep calibration (9.1) and the coexistence wires (9.6).
-/
namespace Sys2Proof.Machine

/-- Reader and link hold air at once; the lantern tag's hold is no reader activity. -/
def concurrent (s : State) : Bool :=
  s.radio.lHold.isSome && (match s.radio.rHold with | some h => h.req.who != .lantern | none => false)

/-- RAD_CALFAIL. -/
def calFailWord (s : State) : Nat := s.radio.calFailL * 256 + s.radio.calFailR

/-- RADIO.STATUS (6.8). -/
def execRadioStatus (c : Cmd) (s : State) : Host.Outcome State Fault Refusal :=
  .next (keelRun 0x2800 c (fun s =>
    if c.args.length ≠ 0 then refuse c.t stBadArg s
    else
      let flags := bitAt 0 (singleSyn s) + bitAt 1 (concurrent s) + bitAt 2 s.radio.gnt
      reply c.t stOk ([BitVec.ofNat 8 (coreIndex (coreState .reader s)), BitVec.ofNat 8 (coreIndex (coreState .link s)),
        BitVec.ofNat 8 flags] ++ leBytes 2 (calFailWord s)) s) s)

/-- COEX_CFG with a WAIT, which stops at 10,000 µs (R285). -/
def coexWord (wait : Nat) (shared : Bool) : Reg16 := BitVec.ofNat 16 (bitAt 15 shared + min 10000 wait)

/-- COEX.CONFIG (R285). -/
def execCoexConfig (c : Cmd) (s : State) : Host.Outcome State Fault Refusal :=
  .next (keelRun 0x2801 c (fun s =>
    if c.args.length ≠ 2 then refuse c.t stBadArg s
    else
      reply c.t stOk [] (modProf c.t (fun p => { p with coex := coexWord (fld c.args 0 2) (bit p.coex 15) }) s)) s)

/-- RADIO.HOPTABLE (6.8, R310). -/
def execRadioHoptable (c : Cmd) (s : State) : Host.Outcome State Fault Refusal :=
  .next (keelRun 0x2802 c (fun s =>
    let a := c.args
    let t := c.t
    let n := fld a 0 1
    let dwell := fld a 1 2
    let tab := (List.range n).map fun i => fld a (3 + 2 * i) 2
    let own := (s.rdr.inv[t]).any fun i => !i.v1 && i.args.region == 2
    if a.length < 3 ∨ n < 1 ∨ 64 < n ∨ a.length ≠ 3 + 2 * n ∨ dwell < 1 ∨ 4000 < dwell ∨ tab.any (fun f => decide (4800 < f)) then
      refuse t stBadArg s
    else if own then refuse t stBusy s
    else
      let s := modProf t (fun p => { p with hopDwell := dwell, hop := tab }) s
      reply t stOk [] (setRdr (fun r => { r with tabNext := r.tabNext.set t.val 0 t.isLt }) s)) s)

/-- DEEP_CALIBRATION (R262): a due one runs while its core is in STANDBY with no request pending. -/
def execDeepCalibration (core : CoreId) (now : Tick) (temp : Int) (s : State) : Host.Outcome State Fault Refusal :=
  let s := advanceTo now s
  if s.power.mode == .run && deepDue core s && coreState core s == .standby && (holdOf core s).isNone &&
      !s.radio.waiters.any (fun r => r.core == core) then .next (deepRan core temp s)
  else .next s

-- ------------------------------------------------------------------ COEX_GNT (9.6)

/-- A tenant's own program loses the grant: its reader slot or burst past the commit point completes, and before it a TXCW, TXSYM or
SNIFF is not sent: it issues anew once the air is granted again (R283, R284). Log entry 82 DESIGN CHOICE. -/
def programWithdrawn (t : Tenant) (h : Hold) (s : State) : State :=
  match s.ctxs[t].pend with
  | some p =>
    let sends := (p.op == .txcw && bit p.fn 0) || p.op == .txsym || p.op == .sniff
    if sends && !committed s.reel.cnt h then
      let s := coreDown .reader (setHold .reader none (charge h s))
      let s := modCtx t (fun k => { k with tunedR := false, pend := some { p with op := .airR, noAir := true } }) s
      coexTrack (setRadio (fun r => { r with waiters := r.waiters ++ [{ h.req with since := s.reel.cnt }] }) s)
    else if committed s.reel.cnt h then s
    else loseAir .reader s
  | none => if committed s.reel.cnt h then s else loseAir .reader s

/-- COEX_GNT is withdrawn from the reader's holder (R283, R284, R365). -/
def readerWithdrawn (s : State) : State :=
  match s.radio.rHold with
  | none => s
  | some h =>
    let late := committed s.reel.cnt h
    match h.req.who with
    | .ctx t =>
      if isBuiltin s.ctxs[t] then
        match s.rdr.inv[t], s.rdr.acc[t] with
        | some i, _ =>
          if late ∨ i.stage = .over then setInv t (some { i with withdrawn := true }) s
          else
            let told := if i.running then roundTold t i s else s
            let s := releaseAir .reader told
            if i.running then invNext t (roundClosed i) s
            else builtinTune t 4 i.freq (setInv t (some { i with stage := .tune }) s)
        | none, some a => if late then s else accWithdrawn t a s
        | none, none => s
      else programWithdrawn t h s
    | .session t => closeSession t 1 s
    | .sweep _ => loseAir .reader s
    | .sniff _ => if coreState .reader s == .tx then s else loseAir .reader s
    | _ => s

/-- A link frame is cut short: COEX_CNT counts it (R283). -/
def cutCounted : State → State := setRadio fun r => { r with withdrawn := satInc 255 r.withdrawn }

/-- The active send loses the grant: from its commit point on its frame is cut and counts as a try (R276, R283); the send asks again, and
waits under R279 (R284). One with a TIME that had not come so far cannot go at it any more (R193). Log entry 35 DEDUCED. -/
def sendWithdrawn (e : Send) (r : List Send) (s : State) : State :=
  let n := frameTicks e.lane e.psdu.length s
  let first := s.link.timer - BitVec.ofNat 48 n
  let cut := s.link.step == .tx && reached s.reel.cnt (first - 192)
  let sent := if reached s.reel.cnt first then ticksBetween first s.reel.cnt else 0
  let e := if cut then { e with tries := e.tries + 1, tstart := first, time := none } else e
  let s := if cut then cutCounted (dutyAdd first sent s) else s
  let s := trswEnd (setLink (fun l => { l with sends := e :: r }) s)
  match e.ending with
  | some st => if cut then sendEnd st s else s
  | none =>
    if cut ∧ 4 ≤ e.tries then (if e.ar then noAck (sendEnd stNoAck s) else sendEnd stCoexDenied s)
    else
      let s := setLink (fun l => { l with step := .idle }) (releaseAir .link s)
      if e.time.isSome then sendMissed e s else sendAsk e s

/-- LKB goes to the modem, where the profile in use shares it: reception goes on on LKA alone (R283, R396). -/
def giveLkb (t : Tenant) (s : State) : State :=
  if lkbShared t s then
    let s := setRadio (fun r => { r with lkbGiven := true, lkbDue := false }) s
    setLink (fun l => { l with keptLkb := false, measuring := false,
                               agc := if l.agc == .off then .off else if l.demod then .frozen false else .running false }) s
  else s

/-- An LTX of a context whose grant is withdrawn (R283, R284): past its commit point it is cut, before it the request waits again. -/
def ltxWithdrawn (t : Tenant) (p : Pend) (r : AirReq) (s : State) : State :=
  if reached s.reel.cnt (p.until_ + 240) then
    let first := p.until_ + 432
    let sent := if reached s.reel.cnt first then ticksBetween first s.reel.cnt else 0
    loseAir .link (cutCounted (dutyAdd first sent s))
  else
    let s := modCtx t (fun k => { k with pend := some { p with noAir := true } }) s
    let s := setCore .link .synth (trswEnd (setCommit .link none s))
    coexTrack (setRadio (fun q => { q with waiters := q.waiters ++ [{ r with since := s.reel.cnt }] }) s)

/-- Keel's own send whose grant is withdrawn (R283): an ACK on air in its ACK window is cut, the window itself goes on. -/
def macWithdrawn (s : State) : State :=
  match s.link.step, s.link.sends, s.link.ackEnd with
  | .ackWait, _, some _ => giveLkb (rxTenant s) (ackOver (cutCounted s))
  | .ackWait, _, none => giveLkb (rxTenant s) s
  | _, e :: r, _ => sendWithdrawn e r s
  | _, [], _ => s

/-- COEX_GNT is withdrawn from the link's holder (R283, R284). Log entry 35 DEDUCED. -/
def linkWithdrawn (s : State) : State :=
  match s.radio.lHold with
  | none => s
  | some h =>
    match h.req.who with
    | .ctx t =>
      match s.ctxs[t].pend with
      | some p =>
        if p.op == .ltx && !p.noAir then ltxWithdrawn t p h.req s
        else if p.op == .lrx || p.op == .lcca then giveLkb t s
        else s
      | none => s
    | .send _ _ | .beacon => macWithdrawn s
    | .listen =>
      let s := giveLkb s.link.rxHost s
      if s.link.ackEnd.isSome then ackOver (cutCounted s) else s
    | .sweep _ => loseAir .link s
    | _ => s

/-- COEX_GNT_CHANGE (R239, R279, R280, R283, R284): a level that has held for 0.5 µs is a change; a rise lets diversity return at the next
preamble search, a fall withdraws the grant, and what waits for air waits from now. -/
def execCoexGntChange (now : Tick) (ns : Nat) (level : Bool) (s : State) : Host.Outcome State Fault Refusal :=
  let s := advanceTo now s
  if level = s.radio.gnt ∨ ns < 500 then .next s
  else
    let s := forTenants (fun t => modCtx t fun k => { k with latch := k.latch ||| 8 }) s
    let s := setRadio (fun r => { r with gnt := level }) s
    if level then .next (setRadio (fun r => { r with lkbDue := r.lkbGiven }) s)
    else
      let s := setRadio (fun r => { r with leadDone := false, lkbDue := false, waiters := r.waiters.map fun q =>
        if q.gnt then { q with since := s.reel.cnt } else q }) s
      .next (linkWithdrawn (readerWithdrawn s))

/-- COEX_LEAD_ELAPSED (R278, R282): 50 µs after COEX_REQ rose, with the grant there, RF may begin. -/
def execCoexLeadElapsed (now : Tick) (s : State) : Host.Outcome State Fault Refusal :=
  let s := advanceTo now s
  match s.radio.reqRose with
  | some t =>
    if s.radio.gnt && reached s.reel.cnt (t + 1200) then .next (setRadio (fun r => { r with leadDone := true }) s) else .next s
  | none => .next s

/-- The deadline of a request for the grant (R279). -/
def coexDeadline (r : AirReq) (s : State) : Tick :=
  (match s.radio.reqRose with | some t => laterTick (t + 1200) r.since | none => r.since) + BitVec.ofNat 48 (r.wait * 24)

/-- A request that the grant did not reach in time ends with ST_COEX_DENIED (R279). -/
def coexDenied (r : AirReq) (s : State) : State :=
  let s := setRadio (fun q => { q with denied := satInc 255 q.denied, waiters := q.waiters.erase r }) s
  let s := coexTrack s
  match r.who with
  | .ctx t =>
    if isBuiltin s.ctxs[t] then
      if (s.rdr.inv[t]).isSome then invDone t stCoexDenied s else endAcc t stCoexDenied 0 1 s
    else match s.ctxs[t].pend with
      | some p => if p.noAir then endWait t s.reel.cnt (airFailCtx p.d stCoexDenied) s else s
      | none => s
  | .send t q =>
    (match s.link.sends.find? fun e => e.owner == some t && e.tseq == q with
     | some e => sendDrop e stCoexDenied s
     | none => s)
  | .beacon =>
    (match s.link.sends.find? fun e => e.owner.isNone with
     | some e => sendDrop e stCoexDenied s
     | none => s)
  | .listen => forTenants (fun x => listenEnd x stCoexDenied) s
  | .sniff _ => setRdr (fun d => { d with skip := satInc 255 d.skip, sniff := d.sniff.map fun n => { n with waiting := false } }) s
  | .sweep _ => sweepEnd stCoexDenied s
  | _ => s

/-- An ACK that is owed has waited for the grant beyond its deadline (R279, R282). -/
def ackDenied (s : State) : Bool :=
  s.link.ackDue.isSome && (match s.radio.lHold with | some h => reached s.reel.cnt (coexDeadline h.req s) | none => false)

/-- COEX_WAIT_EXPIRY (R279): the first request whose deadline has come without the grant. -/
def execCoexWaitExpiry (now : Tick) (s : State) : Host.Outcome State Fault Refusal :=
  let s := advanceTo now s
  if s.radio.gnt then .next s
  else match s.radio.waiters.find? (fun r => r.gnt && reached s.reel.cnt (coexDeadline r s)) with
    | some r => .next (coexDenied r s)
    | none =>
      if ackDenied s then .next (ackOver (setRadio (fun q => { q with denied := satInc 255 q.denied }) s)) else .next s

end Sys2Proof.Machine
end

