-- ==== Sys2Proof/Machine/Ecdsa.lean ====
section
/-!
DEFINITION. The check of a patch signature (Table 5-5, R171): ECDSA over P-256 with SHA-256. PRESUMED (log entry 71): the
algorithms are those of FIPS 180-4 and FIPS 186-4, which the table names.
-/
namespace Sys2Proof.Machine

-- ------------------------------------------------------------------ SHA-256

/-- The round constants: the first 32 bits of the fractional parts of the cube roots of the first 64 primes. -/
def shaKHigh : List Reg32 :=
  [0x428a2f98, 0x71374491, 0xb5c0fbcf, 0xe9b5dba5, 0x3956c25b, 0x59f111f1, 0x923f82a4, 0xab1c5ed5,
   0xd807aa98, 0x12835b01, 0x243185be, 0x550c7dc3, 0x72be5d74, 0x80deb1fe, 0x9bdc06a7, 0xc19bf174,
   0xe49b69c1, 0xefbe4786, 0x0fc19dc6, 0x240ca1cc, 0x2de92c6f, 0x4a7484aa, 0x5cb0a9dc, 0x76f988da,
   0x983e5152, 0xa831c66d, 0xb00327c8, 0xbf597fc7, 0xc6e00bf3, 0xd5a79147, 0x06ca6351, 0x14292967]
def shaKLow : List Reg32 :=
  [0x27b70a85, 0x2e1b2138, 0x4d2c6dfc, 0x53380d13, 0x650a7354, 0x766a0abb, 0x81c2c92e, 0x92722c85,
   0xa2bfe8a1, 0xa81a664b, 0xc24b8b70, 0xc76c51a3, 0xd192e819, 0xd6990624, 0xf40e3585, 0x106aa070,
   0x19a4c116, 0x1e376c08, 0x2748774c, 0x34b0bcb5, 0x391c0cb3, 0x4ed8aa4a, 0x5b9cca4f, 0x682e6ff3,
   0x748f82ee, 0x78a5636f, 0x84c87814, 0x8cc70208, 0x90befffa, 0xa4506ceb, 0xbef9a3f7, 0xc67178f2]

/-- The initial hash value. -/
def shaInit : List Reg32 :=
  [0x6a09e667, 0xbb67ae85, 0x3c6ef372, 0xa54ff53a, 0x510e527f, 0x9b05688c, 0x1f83d9ab, 0x5be0cd19]

def shaS (a b c : Nat) (x : Reg32) : Reg32 := x.rotateRight a ^^^ x.rotateRight b ^^^ x.rotateRight c
def shaT (a b c : Nat) (x : Reg32) : Reg32 := x.rotateRight a ^^^ x.rotateRight b ^^^ (x >>> c)

/-- The message schedule, newest word first: n more words. -/
def shaSchedule : Nat → List Reg32 → List Reg32
  | 0, w => w
  | n + 1, w =>
    shaSchedule n ((shaT 17 19 10 (w.getD 1 0) + w.getD 6 0 + shaT 7 18 3 (w.getD 14 0) + w.getD 15 0) :: w)

/-- One round on the eight working words. -/
def shaRound (v : List Reg32) (kw : Reg32 × Reg32) : List Reg32 :=
  match v with
  | [a, b, c, d, e, f, g, h] =>
    let t1 := h + shaS 6 11 25 e + ((e &&& f) ^^^ (~~~e &&& g)) + kw.1 + kw.2
    let t2 := shaS 2 13 22 a + ((a &&& b) ^^^ (a &&& c) ^^^ (b &&& c))
    [t1 + t2, a, b, c, d + t1, e, f, g]
  | v => v

/-- A word of four bytes, most significant first. -/
def beWord (b : Bytes) : Reg32 := BitVec.ofNat 32 (leNat b.reverse)

/-- One block of 64 bytes. -/
def shaBlock (h : List Reg32) (b : Bytes) : List Reg32 :=
  let w := (shaSchedule 48 ((chunks 4 16 b).map beWord).reverse).reverse
  let v := ((shaKHigh ++ shaKLow).zip w).foldl shaRound h
  List.zipWith (· + ·) h v

/-- SHA-256: the message, a 1 bit, zeros to 8 bytes short of a block, and the length in bits. -/
def sha256 (m : Bytes) : Bytes :=
  let z := (119 - m.length % 64) % 64
  let p := m ++ (0x80 :: List.replicate z 0) ++ beBytes 8 (8 * m.length)
  let h := (chunks 64 (p.length / 64) p).foldl shaBlock shaInit
  (h.map fun x => beBytes 4 x.toNat).flatten

-- ------------------------------------------------------------------ P-256

def p256P : Nat := 0xffffffff00000001000000000000000000000000ffffffffffffffffffffffff
def p256N : Nat := 0xffffffff00000000ffffffffffffffffbce6faada7179e84f3b9cac2fc632551
/-- The base point. -/
def p256G : Nat × Nat :=
  (0x6b17d1f2e12c4247f8bce6e563a440f277037d812deb33a0f4a13945d898c296,
   0x4fe342e2fe1a7f9b8ee7eb4a7c0f9e162bce33576b315ececbb6406837bf51f5)

/-- a to the e mod m, over so many bits of e, the most significant first. -/
def powMod (m a e : Nat) : Nat → Nat
  | 0 => 1
  | n + 1 =>
    let r := powMod m a (e / 2) n
    if e % 2 = 0 then r * r % m else r * r % m * a % m

/-- The inverse modulo a prime. -/
def invMod (m a : Nat) : Nat := powMod m (a % m) (m - 2) 256

/-- The sum of two points of the curve; none is the point at infinity. -/
def ecAdd (a b : Option (Nat × Nat)) : Option (Nat × Nat) :=
  match a, b with
  | none, b => b
  | a, none => a
  | some (x1, y1), some (x2, y2) =>
    let p := p256P
    if x1 = x2 ∧ (y1 + y2) % p = 0 then none
    else
      let l := if x1 = x2 then (3 * x1 * x1 + (p - 3)) * invMod p (2 * y1) % p
               else (y2 + p - y1) * invMod p (x2 + p - x1) % p
      let x3 := (l * l + 2 * p - x1 - x2) % p
      some (x3, (l * (x1 + p - x3) + p - y1) % p)

/-- k times a point, over so many bits of k. -/
def ecMul (q : Option (Nat × Nat)) (k : Nat) : Nat → Option (Nat × Nat)
  | 0 => none
  | n + 1 =>
    let r := ecMul q (k / 2) n
    let r := ecAdd r r
    if k % 2 = 0 then r else ecAdd r q

/-- ECDSA: r and s over the hash of a message verify under a public key. -/
def ecdsaOk (key : Nat × Nat) (msg : Bytes) (r s : Nat) : Bool :=
  if r = 0 ∨ s = 0 ∨ p256N ≤ r ∨ p256N ≤ s then false
  else
    let w := invMod p256N s
    let u := ecAdd (ecMul (some p256G) (beNat (sha256 msg) * w % p256N) 256) (ecMul (some key) (r * w % p256N) 256)
    match u with
    | none => false
    | some (x, _) => x % p256N == r

/-- A patch image's signature verifies under the key in ROM (Table 5-5, R171): SIG, r then s with 32 bytes each, over all that stands
before it. -/
def patchSigOk (image : Bytes) : Bool :=
  let n := image.length - 64
  ecdsaOk Config.patchKey (image.take n) (beNat ((image.drop n).take 32)) (beNat (image.drop (n + 32)))

end Sys2Proof.Machine
end

