-- ==== Sys2Proof/Machine/Tenants.lean ====
section
/-!
DEFINITION. The SYS and TEN commands (chapter 5; 6.2, 6.3) but for SYS.RESET, and the answer to an unassigned opcode.
-/
namespace Sys2Proof.Machine

/-- SYS_CLKSTAT (3.10). -/
def clkStat (s : State) : Nat :=
  let p := s.power
  p.boosts % 4 * 32 + bitAt 4 p.untrusted + bitAt 3 p.coreRc + bitAt 2 p.aonRc + bitAt 1 p.xo32Ok + bitAt 0 p.xo24Ok

/-- SYS_RSTCAUSE (3.10). -/
def rstCause (s : State) : Nat := bitAt 3 s.power.commitSkipped + s.power.cause.toNat

/-- KEEL 3.2.0 (Table 5-5). -/
def keelRelease : Bytes := [0x03, 0x02, 0x00, 0x00]

/-- SYS.INFO (6.2). -/
def execSysInfo (c : Cmd) (s : State) : Host.Outcome State Fault Refusal :=
  .next (keelRun 0x0100 c (fun s =>
    if c.args.length ≠ 0 then refuse c.t stBadArg s
    else reply c.t stOk ([0x40, 0x4C, 0xB1] ++ keelRelease ++ leBytes 2 s.store.level ++ leBytes 2 (rstCause s) ++
      leBytes 2 (clkStat s) ++ leBytes 2 (mendLevel s)) s) s)

/-- SYS.SLEEP (6.2): the caller's sleep vote goes to IDLE. -/
def execSysSleep (c : Cmd) (s : State) : Host.Outcome State Fault Refusal :=
  .next (keelRun 0x0101 c (fun s =>
    if c.args.length ≠ 0 then refuse c.t stBadArg s
    else reply c.t stOk [] (setPower (fun p => { p with votes := vmod p.votes c.t (fun _ => false) }) s)) s)

/-- The form of a patch image (R172, Table 5-5): its slot and LEVEL, or none where it is not as the table says.
Log entry 55 DEDUCED. -/
def patchForm (b : Bytes) : Option (Nat × Nat) :=
  let len := fld b 10 2
  if fld b 0 2 = 0x4B50 ∧ fld b 2 1 < 8 ∧ fld b 3 1 = 0 ∧ (b.drop 4).take 4 = keelRelease ∧ len ≤ 944 ∧
     b.length = 76 + len ∧ 1 ≤ fld b 8 2
  then some (fld b 2 1, fld b 8 2) else none

/-- The LEVEL that a slot holds, 0 with none. -/
def slotLevel (s : State) (slot : Nat) : Nat :=
  match s.store.patches.toList[slot]? with
  | some (some p) => p.level
  | _ => 0

/-- SYS.PATCH (R171 to R173): an accepted patch completes with its commit. The patch that counts as already in a slot is the one whose
commit landed there last, not one that still waits for its commit: log entry 70 DESIGN CHOICE. Log entry 63 DEDUCED. -/
def execSysPatch (c : Cmd) (s : State) : Host.Outcome State Fault Refusal :=
  .next (keelRun 0x0103 c (fun s =>
    match patchForm c.args, s.tens[c.t].exec with
    | none, _ => refuse c.t stBadArg s
    | some _, none => s
    | some (slot, level), some job =>
      if level ≤ slotLevel s slot then refuse c.t stBadArg s
      else if !patchSigOk c.args then refuse c.t stAuthFail s
      else queueCommit (.patch c.t job slot { level := level, image := c.args }) ((c.args.length + 63) / 64) s) s)

/-- The tenant that a TEN.BIND map gives to port p. -/
def mapPort (m : Nat) (p : Fin 4) : Fin 4 := Fin.ofNat 4 (m / 4 ^ p.val)

/-- A map is one-to-one (R136, R137). -/
def mapOneToOne (m : Nat) : Bool := tenants.all fun t => tenants.any fun p => mapPort m p == t

/-- Apply a new binding (R139, R140): a port whose tenant changes goes to HUNT, counts the partial frame that it discards in
PORTn_ABORT, reads ATTACHED 0 and begins its delivery anew. Log entry 55 DEDUCED. -/
def rebind (m : Nat) (s : State) : State :=
  let new : Vector (Fin 4) 4 := Vector.ofFn (mapPort m)
  { s with
    binding := new
    ports := Vector.ofFn fun p =>
      let q := s.ports[p]
      let o := s.ports[portOf s new[p]]
      if new[p] = s.binding[p] then q
      else { q with attached := false, moved := o.attached || o.moved, presFrom := s.reel.cnt, txPart := 0, ring := [],
                      abort := if q.ring.isEmpty then q.abort else satInc 0xFFFF q.abort } }

/-- The response to a TEN.BIND that moved its own tenant leaves on the port that carried it, ahead of that port's frames
(R139). Log entry 55 DEDUCED. -/
def replyAhead (t : Tenant) (s : State) : State :=
  match s.tens[t].exec with
  | none => s
  | some j =>
    modTen t (fun q => { q with exec := none, front := some (j.port, .resp j.seq j.op stOk [] j.orphan) }) s

/-- TEN.BIND (R137 to R141, R145). -/
def execTenBind (c : Cmd) (s : State) : Host.Outcome State Fault Refusal :=
  .next (keelRun 0x0300 c (fun s =>
    let m := fld c.args 0 1
    if c.args.length ≠ 1 then refuse c.t stBadArg s
    else if !isT0 c then refuse c.t stDenied s
    else if !mapOneToOne m then refuse c.t stBadArg s
    else if s.bindLock then refuse c.t stLocked s
    else
      let movers := tenants.filter fun p => mapPort m p != s.binding[p]
      let busy := movers.any fun p =>
        let t := s.binding[p]
        decide ((if t = c.t then 1 else 0) < outstanding s.tens[t])
      if busy then refuse c.t stBusy s
      else if movers.any (fun p => s.binding[p] == c.t) then replyAhead c.t (rebind m s)
      else reply c.t stOk [] (rebind m s)) s)

/-- TEN.LOCK (R141, R145). -/
def execTenLock (c : Cmd) (s : State) : Host.Outcome State Fault Refusal :=
  .next (keelRun 0x0301 c (fun s =>
    let w := fld c.args 0 1
    if c.args.length ≠ 1 then refuse c.t stBadArg s
    else if !isT0 c then refuse c.t stDenied s
    else if w < 1 ∨ 3 < w then refuse c.t stBadArg s
    else reply c.t stOk [] { s with bindLock := s.bindLock || w % 2 == 1, shareLock := s.shareLock || decide (2 ≤ w) }) s)

/-- TEN.SHARE (R145, R151, R141). -/
def execTenShare (c : Cmd) (s : State) : Host.Outcome State Fault Refusal :=
  .next (keelRun 0x0302 c (fun s =>
    let w := fun (i : Nat) => fld c.args i 1
    if c.args.length ≠ 4 then refuse c.t stBadArg s
    else if !isT0 c then refuse c.t stDenied s
    else if w 0 + w 1 + w 2 + w 3 ≠ 100 then refuse c.t stBadArg s
    else if s.shareLock then refuse c.t stLocked s
    else reply c.t stOk [] { s with tens := Vector.ofFn fun t => { s.tens[t] with share := w t.val } }) s)

/-- The opcodes that chapter 6 assigns. -/
def assignedOpcodes : List Nat :=
  [0x0100, 0x0101, 0x0102, 0x0103, 0x0110, 0x0111, 0x0300, 0x0301, 0x0302,
   0x1000, 0x1001, 0x1002, 0x1003, 0x1004, 0x1010, 0x10F0, 0x1100, 0x1101, 0x1102, 0x1200, 0x1201, 0x1202, 0x1203] ++
  [0x2000, 0x2001, 0x2002, 0x2003, 0x2010, 0x20F0, 0x2100, 0x2101, 0x2800, 0x2801, 0x2802,
   0x3000, 0x3001, 0x3002, 0x3003, 0x3004, 0x3005] ++
  [0x4000, 0x4001, 0x4002, 0x4003, 0x4004, 0x4010, 0x4800, 0x4801, 0x4802, 0x4803, 0x48F0,
   0x5000, 0x5001, 0x5002, 0x5003, 0x5004, 0x5005, 0x6000, 0x6001] ++
  [0x7000, 0x7001, 0x7002, 0x7003, 0x7400, 0x7401, 0x7402, 0x7403, 0x7404, 0x7410,
   0x8000, 0x8001, 0x8002, 0x8003, 0x8800, 0x8801, 0x9000, 0x9001, 0x9002, 0x9003, 0x90F0]

/-- UNASSIGNED_OPCODE (R176): ST_BAD_OPCODE, and nothing else; an assigned opcode does not come this way. -/
def execUnassignedOpcode (c : Cmd) (op : BitVec 16) (s : State) : Host.Outcome State Fault Refusal :=
  if assignedOpcodes.contains op.toNat then .next s
  else .next (keelRun op c (fun s => refuse c.t stBadOpcode s) s)

end Sys2Proof.Machine
end

