-- ==== Sys2Proof/Machine/Regs.lean ====
section
/-!
DEFINITION. The register map (chapter 25): what each address reads, who may read and write it, what a write does, and the
commands REG.READ and REG.WRITE.
-/
namespace Sys2Proof.Machine

-- ------------------------------------------------------------------ parts of words

/-- Half m of a 32-bit value. -/
def half (v m : Nat) : Nat := v / 2 ^ (16 * m) % 65536
/-- A signed value in the low n bits. -/
def lowBits (n : Nat) (v : Int) : Nat := (v % (2 ^ n : Nat)).toNat

/-- An entry of a vector by a number that may lie outside it. -/
def nth {α : Type} {n : Nat} (v : Vector α n) (i : Nat) (d : α) : α := v.toList.getD i d

-- ------------------------------------------------------------------ SYS, PORT and TEN (2.10, 3.10, 4.10, 5.10, 23.9, 27.5)

/-- Some core is above STANDBY: ACTIVE (Table 3-4). -/
def partActive (s : State) : Bool :=
  let up := fun (c : CoreSt) => !(c == .standby || c == .sleep)
  up (coreState .reader s) || up (coreState .link s)

/-- The code of SYS_PWRSTAT.STATE. -/
def stateCode (s : State) : Nat := if inLimp s then 4 else if partActive s then 3 else 2

/-- One bit per tenant. -/
def bits4 (f : Tenant → Bool) : Nat := bitAt 0 (f 0) + bitAt 1 (f 1) + bitAt 2 (f 2) + bitAt 3 (f 3)

/-- Free buffers of a list. -/
def freeCount (l : List (Fin 32)) (s : State) : Nat := (l.filter fun h => !s.bufs[h].used).length

def readSys (a : Nat) (s : State) : Nat :=
  match a with
  | 0x00 => 0x4C40
  | 0x01 => 0xB1
  | 0x02 => 0x0203
  | 0x04 => s.store.level
  | 0x06 => bitAt 2 s.power.strapV1 + s.power.strapAddr.toNat
  | 0x08 | 0x09 | 0x0A | 0x0B => half s.serial.toNat (a - 8)
  | 0x10 => bitAt 9 s.power.pwrfail + bitAt 8 s.power.vpaLow + 16 * bits4 (fun t => s.power.votes[t]) + stateCode s
  | 0x11 => clkStat s
  | 0x12 => rstCause s
  | 0x13 => s.power.wakeRun * 256 + s.power.wakeFails
  | 0x20 => freeCount sharedBufs s * 2048 + s.bufPtr.val * 256 + freeCount (reserveOf 4) s * 16 + freeCount (reserveOf 5) s
  | 0x21 => s.epoch.rxdrop
  | 0x22 => s.epoch.stale
  | 0x24 => s.epoch.rdr.toNat
  | 0x25 => s.epoch.lnk.toNat
  | 0x26 => s.epoch.cry.toNat
  | _ => 0

/-- A response marked ORPHAN waits on a tenant's queues. -/
def orphanWaits (q : TenantSt) : Bool :=
  q.outQ.any (fun o => match o with | .resp _ _ _ _ b => b | _ => false) ||
  (match q.refusal with | some (_, _, b) => b | none => false)

/-- A tenant has an outgoing frame pending (R121), the response to a TEN.BIND on its old port included (R139). -/
def outPending (s : State) (t : Tenant) : Bool :=
  let q := s.tens[t]
  !q.outQ.isEmpty || q.refusal.isSome || q.front.isSome

/-- The response to a TEN.BIND that leaves on a port ahead of its tenant's frames (R139): only T0 binds ports (R137). -/
def frontOf (p : Port) (s : State) : Option Out := (s.tens[0].front.filter fun f => f.1 == p).map (·.2)

/-- PORTn_STATUS. -/
def portStatus (p : Port) (s : State) : Nat :=
  let t := s.binding[p]
  let q := s.tens[t]
  let front := match frontOf p s with | some (.resp _ _ _ _ b) => b | _ => false
  bitAt 3 (orphanWaits q || front) + bitAt 2 (!q.outQ.isEmpty || q.refusal.isSome || (frontOf p s).isSome) + bitAt 1 (p == 0 && s.power.strapV1) +
  bitAt 0 s.ports[p].attached

def readPort (a : Nat) (s : State) : Nat :=
  if a < 0x140 then
    let p : Port := Fin.ofNat 4 (a / 16 % 16)
    let q := s.ports[p]
    match a % 16 with
    | 0 => q.cfg.toNat
    | 1 => portStatus p s
    | 2 => q.badframe
    | 3 => q.abort
    | 4 => q.rxdrop
    | 5 => q.resets
    | 6 => if p = 3 then (match s.divNew.getLast? with | some e => e.1.toNat | none => s.div.toNat) else 0
    | _ => 0
  else
    let b := fun (p : Port) => (s.binding[p]).val
    let sh := fun (t : Tenant) => s.tens[t].share
    if a = 0x180 then b 3 * 64 + b 2 * 16 + b 1 * 4 + b 0
    else if a = 0x181 then bitAt 1 s.shareLock + bitAt 0 s.bindLock
    else if a = 0x182 then sh 1 * 256 + sh 0
    else if a = 0x183 then sh 3 * 256 + sh 2
    else if 0x190 ≤ a ∧ a < 0x19C then
      let q := s.tens[(Fin.ofNat 4 a : Tenant)]
      if a < 0x194 then
        bitAt 15 q.refusal.isSome + (q.outQ.filter Out.isEvent).length % 128 * 256 + outstanding q % 16
      else if a < 0x198 then q.evLost else q.refused
    else 0

-- ------------------------------------------------------------------ RADIO, RDR, TAG/SEC, LNK (9.8, 10.10, 11.9, 12.9, 13.11, 14.10, 21.9)

/-- An owner code and class of RAD_ARB. -/
def arbField (h : Option Hold) : Nat :=
  match h with
  | none => 0
  | some h =>
    let own := match h.req.who with
      | .lantern => 5
      | w => (match chargedTo w with | some t => t.val | none => 4)
    128 + h.req.cls % 8 * 16 + own

def readRadio (t : Tenant) (a : Nat) (s : State) : Nat :=
  match a with
  | 0x400 =>
    coreIndex (coreState .link s) * 256 + coreIndex (coreState .reader s) * 32 + bitAt 4 (singleSyn s) + bitAt 3 (concurrent s) +
      bitAt 2 s.radio.gnt + bitAt 1 (coexReq s) + bitAt 0 (coexPri s)
  | 0x401 => calFailWord s
  | 0x402 => arbField s.radio.lHold * 256 + arbField s.radio.rHold
  | 0x410 => s.prof[t].coex.toNat
  | 0x411 => s.radio.denied * 256 + s.radio.withdrawn
  | _ => 0

/-- The aerial at the pins: one selected for a tick to come is not there yet (R337). -/
def aerialNow (s : State) : Fin 4 :=
  match s.rdr.aerialWas with
  | some (t, a) => if reached s.reel.cnt t then s.rdr.aerial else a
  | none => s.rdr.aerial

def readRdr (t : Tenant) (a : Nat) (s : State) : Nat :=
  let p := s.prof[t]
  let r := s.rdr
  match a with
  | 0x800 => p.fwd.toNat
  | 0x801 => bitAt 15 (nonStd (profileSet p)) + p.back.toNat
  | 0x802 => p.q.toNat
  | 0x810 => r.roundCnt.toNat
  | 0x811 => bitAt 15 r.running + r.owner.val * 1024 + (aerialNow s).val * 256 + r.qNow % 16 * 16
  | 0x812 => s.radio.rFreq % 8192
  | 0x813 => r.emptyRun
  | 0x814 => r.decErr
  | 0x820 => p.pa.toNat
  | 0x821 => p.pacpl.toNat
  | 0x826 => p.sniff.toNat
  | 0x828 => r.pset.toNat
  | 0x829 => lowBits 8 (r.compTemp / 10) * 256 + lowBits 8 r.comp
  | 0x82A =>
    bitAt 15 r.pafbLo + bitAt 14 r.pafbHi + bitAt 13 (decide (20 ≤ r.dpd[dpdGroup s.radio.rFreq])) + r.trips
  | 0x82B => lowBits 16 r.paGain
  | 0x82C => bitAt 15 r.convR + bitAt 14 r.satR + bitAt 13 r.convL + r.noconc.toNat * 256 + r.suppR.toNat
  | 0x82D => r.clcSat
  | 0x82E => r.clips * 256 + r.gain % 8
  | 0x82F =>
    bitAt 15 r.sniff.isSome + (match r.sniff with | some n => n.owner.val * 8192 + bitAt 12 n.armed | none => 0) +
      256 * bits4 (fun n => r.base[n].isSome) + r.skip
  | 0x830 => p.feed.toNat
  | 0x831 => p.rlband.toNat
  | _ => 0

def readTag (a : Nat) (s : State) : Nat :=
  let g := s.tag
  match a with
  | 0xC00 =>
    bitAt 15 g.enabled + g.owner.val * 8192 + bitAt 12 g.field + bitAt 11 g.fd + bitAt 10 g.session +
      bitAt 9 g.backoff.isSome
  | 0xC01 => g.level.toNat
  | 0xC02 => g.failRun % 256 * 256 + g.failTotal
  | 0xC03 => half g.msgs 0
  | 0xC04 => half g.msgs 1
  | 0xC10 | 0xC11 | 0xC12 | 0xC13 =>
    let q := s.sess[(Fin.ofNat 4 a : Tenant)]
    bitAt 15 q.opened + q.sid.toNat
  | _ => 0

/-- Tenths of a percent of the hourly duty budget (LNK_DUTY). -/
def dutyTenths (s : State) : Nat :=
  if s.link.region = 1 ∧ dutyBudget s ≠ 0 then min 1000 (100000 * dutyUsed s / dutyBudget s) else 0

def readLnk (t : Tenant) (a : Nat) (s : State) : Nat :=
  let p := s.prof[t]
  let l := s.link
  match a with
  | 0x1000 => p.phycfg.toNat
  | 0x1001 => p.txpwr.toNat
  | 0x1002 => p.cca.toNat
  | 0x1010 => bitAt 5 l.searchLkb + bitAt 4 l.demod + l.lane.val
  | 0x1011 => l.lanesHealthy * 256 + l.uses.toNat
  | 0x1012 => l.lastRssi.toNat * 256 + l.lastLqi
  | 0x1013 => l.lastEvm
  | 0x1014 => l.errFalse * 256 + l.errHdr
  | 0x1015 => lowBits 8 (l.compTemp / 10) * 256 + lowBits 8 l.comp
  | 0x1020 => l.maccfg.toNat
  | 0x1021 => l.pan.toNat
  | 0x1022 => l.addr.toNat
  | 0x1030 => l.nbrs.length * 256 + bitAt 7 l.isolated + bitAt 6 l.nbrFull + l.noackRun % 32
  | 0x1031 => dutyTenths s
  | 0x1032 => l.secMic * 256 + l.secReplay
  | 0x1033 => l.macFormat * 256 + l.macNokey
  | 0x1034 => l.txNoack * 256 + l.txCaf
  | 0x1035 => l.rxdrop
  | _ => 0

-- ------------------------------------------------------------------ REEL, BRIDLE (15.10, 16.11)

/-- The code of a compare's STATE. -/
def cmpCode : CmpSt → Nat
  | .disabled => 0
  | .held => 1
  | .armed => 2
  | .fired => 3

/-- The code of a down counter's STATE. -/
def dcCode : DcSt → Nat
  | .held => 0
  | .running => 1
  | .gated => 2

def readReel (a : Nat) (s : State) : Nat :=
  let r := s.reel
  if a < 0x1803 then half r.cnt.toNat (a - 0x1800)
  else if a = 0x1803 then bitAt 2 (inLimp s) + bitAt 1 s.power.aonRc + bitAt 0 s.power.untrusted
  else if a < 0x1810 then 0
  else if a < 0x1840 then
    let q := nth r.cmps ((a - 0x1810) / 4) .reset
    if a % 4 < 3 then half q.val.toNat (a % 4)
    else cmpCode q.st * 16384 + bitAt 13 q.hold + bitAt 12 q.late + q.act.toNat
  else if a < 0x1860 then
    let d := nth r.dcs ((a - 0x1840) / 8) .reset
    match a % 8 with
    | 0 => d.cfg.toNat
    | 1 => half d.rld.toNat 0
    | 2 => half d.rld.toNat 1
    | 3 => half d.cnt.toNat 0
    | 4 => d.cnt1Latch.toNat
    | 5 => dcCode d.st * 16384 + bitAt 13 d.slept + d.miss
    | _ => 0
  else if a < 0x1870 then
    let q := nth r.caps ((a - 0x1860) / 4) .reset
    if a % 4 < 3 then half q.val.toNat (a % 4)
    else bitAt 15 q.ovr + bitAt 14 q.full + bitAt 2 q.arm + q.edge.toNat
  else if a < 0x1874 then
    let o := nth r.touts (a - 0x1870) .reset
    bitAt 15 (toutPin r.cnt o) + o.pw.toNat * 8
  else 0

/-- The slot and word of a slot register. -/
def slotReg (a : Nat) : Option (Fin 48 × Nat) := (slotNo ((a - 0x1C10) / 5)).map fun k => (k, (a - 0x1C10) % 5)

def readBri (a : Nat) (s : State) : Nat :=
  let b := s.bri
  if a = 0x1C00 then
    bitAt 15 b.rootOk + bitAt 14 b.armed + bitAt 13 b.seen + bitAt 12 b.drbgOk + bitAt 11 b.entLost +
      b.helper.toNat * 256 + b.retries % 4 * 64
  else if 0x1C04 ≤ a ∧ a < 0x1C08 then b.roots[(Fin.ofNat 4 a : Tenant)].toNat
  else if a = 0x1C08 then b.entFail
  else if a < 0x1C10 then 0
  else match slotReg a with
    | none => 0
    | some (k, m) =>
      let sl := b.slots[k]
      match m with
      | 0 => attrWord s k
      | 1 => slotUses sl / 65536 * 256 + parentByte sl
      | 2 => slotPgen sl
      | 3 => sl.gen.toNat
      | _ => sl.usesLatch.toNat

-- ------------------------------------------------------------------ GONDOLA, CVU, NVM, LEDGER, SURVEY, MEND, SPOOL

def readGdl (a : Nat) (s : State) : Nat :=
  if a < 0x2040 then
    let ch := nth s.gdl.chans ((a - 0x2000) / 4) .reset
    match a % 4 with
    | 0 => (match ch.bound with | some e => 32768 + e.1 * 16 + e.2 | none => 0)
    | 1 =>
      bitAt 15 ch.msg.isSome + bitAt 14 ch.coll +
        (match ch.msg with
          | some m => bitAt 13 m.hand.isSome + m.words.length % 16 * 256 + m.mseq.toNat
          | none => ch.last.toNat)
    | 2 => ch.next.toNat * 256 + ch.ccnt
    | _ => 0
  else if a = 0x2040 then bitAt 0 s.gdl.locked
  else if 0x2080 ≤ a ∧ a < 0x2088 then
    let q := nth s.gdl.sems (a - 0x2080) .reset
    bitAt 15 q.holder.isSome + bitAt 14 q.broken + (match q.holder with | some t => t.val | none => 0)
  else 0

def readCvu (a : Nat) (s : State) : Nat :=
  if a = 0x2400 then s.cvuLink * 256 + s.cvuRdr
  else if 0x2410 ≤ a ∧ a < 0x2430 then
    let p := nth s.cvu ((a - 0x2410) / 8) .reset
    match a % 8 with
    | 0 => p.preset * 8192 + bitAt 9 p.reflOut + bitAt 8 p.reflIn + p.width
    | 1 | 2 => half p.poly.toNat (a % 8 - 1)
    | 3 | 4 => half p.init.toNat (a % 8 - 3)
    | 5 | 6 => half p.xorout.toNat (a % 8 - 5)
    | _ => 0
  else 0

def readNvm (a : Nat) (s : State) : Nat :=
  let w := s.store
  match a with
  | 0x2800 =>
    (8 - w.retired.length) * 4096 + bitAt 11 w.degraded + bitAt 10 (w.balC == 0) + bitAt 9 w.replay +
      bitAt 8 w.moving.isSome + min 255 (queuedPages w)
  | 0x2801 => w.defer
  | 0x2802 | 0x2803 => half w.commits (a - 0x2802)
  | 0x2804 | 0x2805 => half (maxWear w) (a - 0x2804)
  | 0x2810 | 0x2811 => half w.balC (a - 0x2810)
  | 0x2812 => w.vmin
  | 0x2813 => w.vhu
  | 0x2814 => w.eavail
  | _ => 0

def readLdg (a : Nat) (s : State) : Nat :=
  let l := s.ldg
  match a with
  | 0x2C00 =>
    l.owner.val * 16384 + bitAt 13 l.wall.isSome + bitAt 12 l.cur.isSome + bitAt 11 l.ckpt.isSome +
      l.cfg.cls.length % 32 * 64 + l.cfg.ivl
  | 0x2C01 | 0x2C02 => half (l.lastSeq + 1) (a - 0x2C01)
  | 0x2C03 | 0x2C04 => half (oldestSeq l) (a - 0x2C03)
  | 0x2C05 => l.held.length
  | 0x2C06 => l.lost
  | 0x2C07 => l.cfg.dedupe
  | 0x2C08 => l.evict
  | _ => 0

def readSvy (a : Nat) (s : State) : Nat :=
  let v := s.svy
  let g := fun (i : Nat) => nth v.targets i .reset
  match a with
  | 0x3000 => v.smp.vin
  | 0x3001 => v.smp.vpa
  | 0x3002 => v.smp.vio
  | 0x3003 => v.smp.vhu
  | 0x3004 => lowBits 16 v.smp.temp
  | 0x3005 => bitAt 15 v.sweep.isSome + v.target.val * 4096 + bitAt 11 v.hot + v.period
  | 0x3020 => (g 3).cls * 4096 + (g 2).cls * 256 + (g 1).cls * 16 + (g 0).cls
  | 0x3021 => (g 5).cls * 16 + (g 4).cls
  | 0x3022 => v.paCur
  | 0x3024 | 0x3025 => half v.tagCap.toNat (a - 0x3024)
  | _ =>
    if 0x3010 ≤ a ∧ a < 0x3016 then (g (a - 0x3010)).rl
    else if 0x3018 ≤ a ∧ a < 0x301C then (g (a - 0x3018)).len
    else 0

/-- Spare rows of a bank in use, and its rows in DISROW. -/
def bankWord (m : MendSt) (b : Nat) : Nat := (m.disrow.filter fun e => e.1 == b).length * 256 + bankUsed m b

def readMend (a : Nat) (s : State) : Nat :=
  let m := s.mend
  match a with
  | 0x3400 => mendLevel s
  | 0x3401 => m.ship
  | 0x3402 => m.lost.toNat
  | 0x3403 => bitAt 15 m.running + bitAt 14 m.overdue + m.mapOk.toNat * 2048 + m.step
  | 0x3404 => m.winStart
  | 0x3405 => m.winLen
  | 0x3406 => m.days
  | _ =>
    if 0x3410 ≤ a ∧ a < 0x3418 then sparesLeft s (a - 0x3410)
    else if 0x3420 ≤ a ∧ a < 0x3430 then bankWord m (a - 0x3420)
    else 0

/-- The code of a context's state (Table 7-2): EMPTY with no image or an open load. Between its waits a built-in program reads RUNNING.
Log entry 84 DESIGN CHOICE. -/
def ctxCode (k : Ctx) (s : State) : Nat :=
  match k.run with
  | .running => 2
  | .waiting => if isBuiltin k && k.pend.isNone && (romNow s).2.2.2 then 2 else 3
  | .faulted => 4
  | .idle => if k.codeLen = 0 ∨ k.load.isSome then 0 else 1

def readSpl (t : Tenant) (a : Nat) (s : State) : Nat :=
  let k := s.ctxs[t]
  let rom := inRun k && isBuiltin k
  let depth := if rom then (romNow s).2.1.val else k.stack.length
  if a < 0x4400 then
    match a with
    | 0x4000 => k.fault * 256 + bitAt 7 rom + depth % 8 * 16 + bitAt 3 (depth == 8) + ctxCode k s
    | 0x4001 => pcNow k s % 1024
    | 0x4002 => k.held.length * 16 + (if rom then (romNow s).2.2.1.toNat else bitAt 2 k.n + bitAt 1 k.c + bitAt 0 k.z)
    | 0x4003 | 0x4004 => half (cycNow k s) (a - 0x4003)
    | 0x4005 => k.epoch.toNat
    | _ => 0
  else if a < 0x4600 then leNat (memGetAll k.data (2 * (a - 0x4400)) 2)
  else if 0x4800 ≤ a ∧ a < 0x5000 then leNat (memGetAll k.code (2 * (a - 0x4800)) 2)
  else 0

-- ------------------------------------------------------------------ reading (R614, R617, R618)

/-- What a word address reads for a tenant that may see it; an unassigned address reads 0 (R614). -/
def regValue (t : Tenant) (a : Nat) (s : State) : Nat :=
  if a < 0x100 then readSys a s
  else if a < 0x200 then readPort a s
  else if a < 0x400 then 0
  else if a < 0x800 then readRadio t a s
  else if a < 0xC00 then readRdr t a s
  else if a < 0xE00 then readTag a s
  else if a < 0x1000 then 0
  else if a < 0x1400 then readLnk t a s
  else if a < 0x1800 then 0
  else if a < 0x1900 then readReel a s
  else if a < 0x1C00 then 0
  else if a < 0x1D00 then readBri a s
  else if a < 0x2000 then 0
  else if a < 0x2100 then readGdl a s
  else if a < 0x2400 then 0
  else if a < 0x2500 then readCvu a s
  else if a < 0x2800 then 0
  else if a < 0x2900 then readNvm a s
  else if a < 0x2C00 then 0
  else if a < 0x2D00 then readLdg a s
  else if a < 0x3000 then 0
  else if a < 0x3100 then readSvy a s
  else if a < 0x3400 then 0
  else if a < 0x3500 then readMend a s
  else if a < 0x4000 then 0
  else if a < 0x5000 then readSpl t a s
  else 0

/-- A tenant, or its Spool context, is this end. -/
def isEnd (t : Tenant) (e : Option End) : Bool := e == some (.tenant t) || e == some (.spool t)

/-- A tenant may read an address (Tables 5-3, 25-3). -/
def canRead (t : Tenant) (a : Nat) (s : State) : Bool :=
  if 0x1810 ≤ a ∧ a < 0x1840 then (a - 0x1810) / 12 == t.val
  else if 0x1840 ≤ a ∧ a < 0x1860 then decide (6 ≤ a % 8) || (a - 0x1840) / 8 == t.val
  else if 0x1860 ≤ a ∧ a < 0x1870 then (a - 0x1860) / 4 == t.val
  else if 0x1870 ≤ a ∧ a < 0x1874 then a - 0x1870 == t.val
  else if 0x1C04 ≤ a ∧ a < 0x1C08 then a - 0x1C04 == t.val
  else if 0x1C10 ≤ a ∧ a < 0x1D00 then (a - 0x1C10) / 60 == t.val
  else if 0x2000 ≤ a ∧ a < 0x2040 then
    let g : Fin 16 := Fin.ofNat 16 ((a - 0x2000) / 4)
    let ch := s.gdl.chans[g]
    match a % 4 with
    | 1 => isEnd t (receiverOf g ch)
    | 3 => true
    | _ => isEnd t (receiverOf g ch) || isEnd t (senderOf g ch)
  else if 0x2410 ≤ a ∧ a < 0x2430 then a % 8 == 7 || (a - 0x2410) / 8 == t.val
  else true

/-- A tenant's write to an address is not denied (R134, R149, R192, Table 25-3). -/
def canWrite (t : Tenant) (a : Nat) (s : State) : Bool :=
  canRead t a s &&
  (if a = 0x100 ∨ a = 0x110 ∨ a = 0x120 ∨ a = 0x130 then s.binding[(Fin.ofNat 4 (a / 16) : Port)] == t
   else if a = 0x136 then s.binding[3] == t
   else if a = 0x1020 ∨ a = 0x1021 then s.link.holder == some t
   else true)

/-- The key slot that a write of LNK_MACCFG names for the beacons is another tenant's: only the tenant of a slot's block may use its key
(R6, R7). Log entry 55 DEDUCED. -/
def badKeySlot (t : Tenant) (a v : Nat) : Bool :=
  let k := bits (BitVec.ofNat 16 v) 13 8
  a == 0x1020 && decide (k < 48) && k / 12 != t.val

/-- What a read does besides: DCn_CNT0 latches CNT1, CAPn_V2 reads the capture, KSLOTk_LINK latches USES (R456, R618). Each word of Reel
is taken at its own moment, all within 1 µs: how many ticks lie between two is free (R437). Log entry 66 DESIGN CHOICE. -/
def readEffect (a : Nat) (s : State) : State :=
  if 0x1840 ≤ a ∧ a < 0x1860 ∧ a % 8 = 3 then
    modDc (Fin.ofNat 4 ((a - 0x1840) / 8)) (fun d => { d with cnt1Latch := BitVec.ofNat 8 (d.cnt.toNat / 65536) }) s
  else if 0x1860 ≤ a ∧ a < 0x1870 ∧ a % 4 = 2 then
    modCap (Fin.ofNat 4 ((a - 0x1860) / 4)) (fun q => { q with full := false, ovr := false }) s
  else if a = 0x1800 ∨ a = 0x1801 then
    let (n, s) := drawNat s
    advanceTo (s.reel.cnt + BitVec.ofNat 48 (n % 13)) s
  else if 0x1C10 ≤ a ∧ a < 0x1D00 then
    match slotReg a with
    | some (k, 1) => modSlot k (fun sl => { sl with usesLatch := BitVec.ofNat 16 (slotUses sl) }) s
    | _ => s
  else s

/-- Read n words from an address on, in ascending order (R184, R617). -/
def readRun (t : Tenant) : Nat → Nat → State → List Nat × State
  | 0, _, s => ([], s)
  | n + 1, a, s =>
    let v := regValue t a s
    let (r, s') := readRun t n (a + 1) (readEffect a s)
    (v :: r, s')

/-- The addresses of a run. -/
def runOf (a n : Nat) : List Nat := (List.range n).map (a + ·)

/-- A REG.READ of a tenant: form, run, visibility, and the words (R149, R184). -/
def regRead (c : Cmd) (s : State) : State :=
  let a := fld c.args 0 2
  let n := fld c.args 2 1
  if c.args.length ≠ 3 ∨ n < 1 ∨ 64 < n ∨ 0x10000 < a + n then refuse c.t stBadArg s
  else if !(runOf a n).all (fun i => canRead c.t i s) then refuse c.t stDenied s
  else
    let (ws, s) := readRun c.t n a s
    reply c.t stOk (ws.map (leBytes 2)).flatten s

-- ------------------------------------------------------------------ writing (R184, R615, R616, R619)

/-- The writable bits of a profile register (R615). -/
def profMask (a : Nat) : Option Nat :=
  match a with
  | 0x410 => some 0xBFFF
  | 0x800 | 0x820 | 0x830 => some 0xFFFF
  | 0x801 => some 0x00FB
  | 0x802 => some 0xFFF8
  | 0x821 | 0x1001 | 0x1002 => some 0x00FF
  | 0x826 => some 0x1FFF
  | 0x831 => some 0x7F7F
  | 0x1000 => some 0x003F
  | _ => none

/-- A profile register takes a value; COEX_CFG clamps WAIT (R285, R616). -/
def profWrite (t : Tenant) (a : Nat) (v : Reg16) : State → State :=
  modProf t fun p => match a with
    | 0x410 => { p with coex := coexWord (bits v 13 0) (bit v 15) }
    | 0x800 => { p with fwd := v }
    | 0x801 => { p with back := v }
    | 0x802 => { p with q := v }
    | 0x820 => { p with pa := v }
    | 0x821 => { p with pacpl := v }
    | 0x826 => { p with sniff := v }
    | 0x830 => { p with feed := v }
    | 0x831 => { p with rlband := v }
    | 0x1000 => { p with phycfg := v }
    | 0x1001 => { p with txpwr := v }
    | 0x1002 => { p with cca := v }
    | _ => p

/-- A value that no writable field of its register may take (R616, R447). Log entry 55 DEDUCED. -/
def badValue (a v : Nat) : Bool :=
  let w := BitVec.ofNat 16 v
  if 0x1810 ≤ a ∧ a < 0x1840 ∧ a % 4 = 3 then actBad (v % 64)
  else if 0x1840 ≤ a ∧ a < 0x1860 ∧ a % 8 = 0 then dcCfgBad w
  else if 0x1870 ≤ a ∧ a < 0x1874 then decide (4 < v % 8)
  else if a = 0x1020 then
    decide (4 < v % 8) || decide (47 < bits w 13 8 ∧ bits w 13 8 ≠ 63)
  else false

/-- REEL_GO names a timer that the tenant does not own (R452). Log entry 55 DEDUCED. -/
def badGo (t : Tenant) (a v : Nat) : Bool := a == 0x1804 && v &&& ownMask t != v

/-- Put half m of a 48-bit value. -/
def putHalf (v : Tick) (m : Nat) (w : Reg16) : Tick :=
  v &&& ~~~((0xFFFF : Tick) <<< (16 * m)) ||| (w.setWidth 48 <<< (16 * m))

/-- PORT3_DIV takes 16 to 417; written from the UART, the rate changes after the response has left (R106), and the register reads
what was written at once (R78). Log entry 55 DEDUCED. -/
def writeDiv (t : Tenant) (w : Reg16) (s : State) : State :=
  let d := w.setWidth 9
  if d.toNat < 16 ∨ 417 < d.toNat then s
  else match s.tens[t].exec with
    | some j => if j.port = 3 then { s with divNew := s.divNew ++ [(d, j.seq)] } else { s with div := d, divNew := [] }
    | none => { s with div := d }

/-- A register of Reel takes a value. Log entry 55 DEDUCED. -/
def writeReel (a : Nat) (w : Reg16) (s : State) : State :=
  if a = 0x1804 then goRelease w.toNat s
  else if a < 0x1810 then s
  else if a < 0x1840 then
    match cmpNo ((a - 0x1810) / 4) with
    | none => s
    | some k =>
      if a % 4 < 3 then modCmp k (fun q => { q with val := putHalf q.val (a % 4) w }) s
      else modCmp k (cmpSet (w.setWidth 6) (bit w 13)) s
  else if a < 0x1860 then
    let n : Tenant := Fin.ofNat 4 ((a - 0x1840) / 8)
    match a % 8 with
    | 0 => modDc n (fun d => { d with cfg := w &&& 0xFFCF, phase := if bit w 10 then d.phase else 0 }) s
    | 1 => modDc n (fun d => { d with rld := d.rld &&& 0xFF0000 ||| w.setWidth 24 }) s
    | 2 => modDc n (fun d => { d with rld := d.rld &&& 0x00FFFF ||| (w.setWidth 24 <<< 16) }) s
    | 5 => modDc n (fun d => { d with slept := d.slept && !bit w 13 }) s
    | _ => s
  else if a < 0x1870 then
    if a % 4 = 3 then
      modCap (Fin.ofNat 4 ((a - 0x1860) / 4))
        (fun q => { q with ovr := q.ovr && !bit w 15, arm := bit w 2, edge := w.setWidth 2 }) s
    else s
  else if a < 0x1874 then
    let n : Tenant := Fin.ofNat 4 (a - 0x1870)
    toutAct n (w.toNat % 8) s.reel.cnt (modTout n (fun o => { o with pw := BitVec.ofNat 5 (bits w 7 3) }) s)
  else s

/-- One word is written: RO registers, RO fields and reserved bits take nothing (R149, R614, R615). -/
def regPut (t : Tenant) (a v : Nat) (s : State) : State :=
  let w := BitVec.ofNat 16 v
  match profMask a with
  | some m => profWrite t a (w &&& BitVec.ofNat 16 m) s
  | none =>
    if a = 0x100 ∨ a = 0x110 ∨ a = 0x120 then
      modPort (Fin.ofNat 4 (a / 16)) (fun p => { p with cfg := w &&& 0xFF00 }) s
    else if a = 0x130 then modPort 3 (fun p => { p with cfg := w &&& 0xFF01 }) s
    else if a = 0x136 then writeDiv t w s
    else if a = 0x1020 then setLink (fun l => { l with maccfg := w &&& 0x3F07 }) s
    else if a = 0x1021 then setLink (fun l => { l with pan := w }) s
    else if 0x1800 ≤ a ∧ a < 0x1900 then writeReel a w s
    else if 0x2000 ≤ a ∧ a < 0x2040 ∧ a % 4 = 1 then
      modChan (Fin.ofNat 16 ((a - 0x2000) / 4)) (fun ch => { ch with coll := ch.coll && !bit w 14 }) s
    else if 0x4400 ≤ a ∧ a < 0x4600 then
      modCtx t (fun k => { k with data := memPutAll k.data (2 * (a - 0x4400)) (leBytes 2 w.toNat) }) s
    else s

/-- Write a run of words in ascending order. -/
def writeRun (t : Tenant) : Nat → List Nat → State → State
  | _, [], s => s
  | a, v :: r, s => writeRun t (a + 1) r (regPut t a v s)

/-- A REG.WRITE of a tenant: form and run, then permission, then values; a refused run writes nothing (R184, R616).
Log entry 55 DEDUCED. -/
def regWrite (c : Cmd) (s : State) : State :=
  let a := fld c.args 0 2
  let n := fld c.args 2 1
  let ws := (List.range n).map fun i => fld c.args (3 + 2 * i) 2
  if c.args.length < 3 ∨ n < 1 ∨ 64 < n ∨ c.args.length ≠ 3 + 2 * n ∨ 0x10000 < a + n then refuse c.t stBadArg s
  else if !(runOf a n).all (fun i => canWrite c.t i s) || ((runOf a n).zip ws).any (fun e => badGo c.t e.1 e.2 || badKeySlot c.t e.1 e.2) then
    refuse c.t stDenied s
  else if ((runOf a n).zip ws).any (fun e => badValue e.1 e.2) then refuse c.t stBadArg s
  else reply c.t stOk [] (writeRun c.t a ws s)

/-- REG.READ (6.2, chapter 25). -/
def execRegRead (c : Cmd) (s : State) : Host.Outcome State Fault Refusal := .next (keelRun 0x0110 c (regRead c) s)

/-- REG.WRITE (6.2, chapter 25). -/
def execRegWrite (c : Cmd) (s : State) : Host.Outcome State Fault Refusal := .next (keelRun 0x0111 c (regWrite c) s)

end Sys2Proof.Machine
end

