-- ==== Sys2Proof/Machine/Ports.lean ====
section
/-!
DEFINITION. The host ports (chapter 4): host frames, aborts, delivery of outgoing frames, port resets and presence.
-/
namespace Sys2Proof.Machine

/-- A port's inputs are heard: the ports are live, VIO is there, and SPI-A does not speak V1 (R37, R63, R70, R130). -/
def portHears (p : Port) (s : State) : Bool := live s && !s.power.vioLost && !(p == 0 && s.power.strapV1)

/-- Add 1 to a port's counter. -/
def countBad (p : Port) : State → State := modPort p fun q => { q with badframe := satInc 0xFFFF q.badframe }
def countAbort (p : Port) : State → State := modPort p fun q => { q with abort := satInc 0xFFFF q.abort }
def countPortDrop (p : Port) : State → State := modPort p fun q => { q with rxdrop := satInc 0xFFFF q.rxdrop }

-- ------------------------------------------------------------------ receiving (4.5)

/-- What accepting a frame does besides its command (R116, R126, R140): the vote goes to AWAKE, the port is attached, its
presence timer restarts. Log entry 56 DEDUCED. -/
def acceptFrame (p : Port) (s : State) : State :=
  let t := s.binding[p]
  let q := s.ports[p]
  let s := setPower (fun w => { w with votes := vmod w.votes t (fun _ => true) }) s
  let s := modPort p (fun q => { q with attached := true, moved := false, presFrom := s.reel.cnt, polled := true }) s
  if q.attached || q.moved then s else raise 0 evPortAttach [BitVec.ofNat 8 p.val] s

/-- A command frame is queued, or refused while 8 commands are outstanding (R154, R155). -/
def acceptCommand (p : Port) (op seq : BitVec 16) (args : Bytes) : Tenant → State → State :=
  fun t => modTen t (queueJob { op := op, seq := seq, args := args, orphan := false, port := p })

/-- The receive ring of a port in bytes (R118). -/
def ringSize : Nat := 2080

/-- The part of the ring that is free where the frame that arrives has not yet begun: what accepted frames that Keel has not taken
leave (R119). -/
def ringFree (q : PortSt) : Nat := ringSize - q.untaken.sum

/-- Keel takes frames from the ring in order until at most so many are left (R118). -/
def keelTakes (lag : Nat) (q : PortSt) : PortSt := { q with untaken := q.untaken.drop (q.untaken.length - lag) }

/-- Frames in a run of bytes (R113, R117 to R119): the hunt for SYNC, the checks, and the hunt after each frame. A frame that the
run does not complete stays in the ring, from its SYNC on. Keel takes accepted frames from the ring so that at most `lag` stand
in it; `judged` tells that the space for the first frame was judged when its LEN came. The first number bounds the frames.
Log entry 56 DEDUCED. -/
def takeFrames (p : Port) (lag : Nat) : Nat → Bool → Bytes → State → State
  | 0, _, _, s => s
  | f + 1, judged, b, s =>
    let b := b.dropWhile (· != 0x5A)
    let len := fld b 4 2
    if b.length < 6 then modPort p (fun q => { q with ring := b }) s
    else if 1024 < len then takeFrames p lag f false (b.drop 6) (countBad p s)
    else if !judged && decide (ringFree s.ports[p] < len + 8) then takeFrames p lag f false (b.drop 6) (countPortDrop p s)
    else if b.length < len + 8 then modPort p (fun q => { q with ring := b }) s
    else
      let rest := b.drop (len + 8)
      let body := (b.drop 1).take (5 + len)
      if hlfCrc body = fld b (6 + len) 2 ∧ fld b 1 1 = 0 ∧ len ≠ 1 then
        let s := modPort p (fun q => keelTakes lag { q with untaken := q.untaken ++ [len + 8] }) (acceptFrame p s)
        takeFrames p lag f false rest
          (if len = 0 then s
           else acceptCommand p (BitVec.ofNat 16 (fld b 6 2)) (BitVec.ofNat 16 (fld b 2 2)) ((b.drop 8).take (len - 2))
             s.binding[p] s)
      else takeFrames p lag f false rest (countBad p s)

-- ------------------------------------------------------------------ bytes on the lines (4.2 to 4.4)

/-- The bits of a byte in the order in which a port shifts them: most significant first on SPI and I2C (R98), least significant
first on UART (4.4). Log entry 56 DEDUCED. -/
def lineByte (p : Port) (b : Byte) : List Bool :=
  let up := (List.range 8).map fun i => b.getLsbD i
  if p = 3 then up else up.reverse

/-- The byte of eight bits in the order in which a port shifts them (R98, 4.4). -/
def bitsByte (p : Port) (l : List Bool) : Byte :=
  let up := if p = 3 then l else l.reverse
  BitVec.ofNat 8 (up.foldr (fun b n => 2 * n + b.toNat) 0)

/-- The data bits of bytes on a port's line. -/
def lineBits (p : Port) (b : Bytes) : List Bool := (b.map (lineByte p)).flatten

/-- The bytes of data bits on a port's line; bits short of a byte are no byte. -/
def lineBytes (p : Port) : List Bool → Bytes
  | a :: b :: c :: d :: e :: f :: g :: h :: r => bitsByte p [a, b, c, d, e, f, g, h] :: lineBytes p r
  | _ => []

/-- The I2C address (R46): 0x5C + 2 × ADDR1 + ADDR0 as the straps were latched. -/
def i2cAddr (s : State) : BitVec 7 := 0x5C + s.power.strapAddr.setWidth 7

/-- A transaction is for the part: on I2C it carries the part's address, the general call and 10-bit addressing being answered by a
NACK (R46, 4.3). -/
def addressed (p : Port) (bus : Bus) (s : State) : Bool := p != 2 || bus.addr == i2cAddr s

/-- A half-duplex reply is in progress: UA_DE is high and the UART does not receive (R107, R110). -/
def uartSending (s : State) : Bool :=
  match s.ports[3].burst with
  | some t => !reached s.reel.cnt t
  | none => false

/-- The port takes the bytes of a transaction. -/
def busTaken (p : Port) (bus : Bus) (s : State) : Bool := portHears p s && addressed p bus s && !(p == 3 && uartSending s)

/-- What the part puts on the bus while it takes n bytes: 0xFF on SDO (Table 4-3), an ACK for the address and each byte on I2C (R104);
SPI latches the mode (R98). -/
def busEcho (p : Port) (bus : Bus) (n : Nat) (q : PortSt) : PortSt :=
  if p.val < 2 then { q with mode3 := bus.sckHigh, line := lineBits p (List.replicate n 0xFF) }
  else if p = 2 then { q with acks := List.replicate (n + 1) true }
  else q

/-- A transaction that the part does not take gets no ACK on I2C (R63, R70). -/
def busNack (p : Port) (s : State) : State := if p = 2 then modPort 2 (fun q => { q with acks := [false] }) s else s

/-- HOST_FRAME (R98, R104, R110, R112 to R119): data bits arrive at a port within one transaction or burst, Keel being at most `lag`
frames behind in taking frames from the ring. Log entry 56 DEDUCED. -/
def execHostFrame (p : Port) (bus : Bus) (data : List Bool) (lag : Nat) (s : State) : Host.Outcome State Fault Refusal :=
  if busTaken p bus s then
    let got := lineBytes p data
    let old := s.ports[p].ring
    let b := old ++ got
    .next (takeFrames p lag (b.length + 1) (decide (6 ≤ old.length)) b
      (modPort p (fun q => { busEcho p bus got.length q with ring := [] }) s))
  else .next (busNack p s)

/-- SPI_INVALID_TRANSACTION (R99): the first byte is neither that of a write nor of a read. Log entry 56 DEDUCED. -/
def execSpiInvalidTransaction (p : Port) (first : Byte) (s : State) : Host.Outcome State Fault Refusal :=
  if portHears p s && decide (p.val < 2) && first != 0x5A && first != 0x00 then .next (countBad p s) else .next s

/-- The frame in progress, if there is one, is discarded and counted (R100, R102, R108, Table 4-8). -/
def cutFrame (p : Port) (s : State) : State :=
  if s.ports[p].ring.isEmpty then s else modPort p (fun q => { q with ring := [] }) (countAbort p s)

/-- FRAME_ABORT (R100, R102): NCS, STOP or a repeated START cuts a frame on SPI or I2C. Log entry 56 DEDUCED. -/
def execFrameAbort (p : Port) (s : State) : Host.Outcome State Fault Refusal :=
  if portHears p s && p != 3 then .next (cutFrame p s) else .next s

/-- UART_GAP_TIMEOUT (R108). -/
def execUartGapTimeout (s : State) : Host.Outcome State Fault Refusal :=
  if portHears 3 s then .next (cutFrame 3 s) else .next s

/-- UART_FRAMING_ERROR (R108): it ends the frame in progress, if there is one. -/
def execUartFramingError (s : State) : Host.Outcome State Fault Refusal :=
  if portHears 3 s then .next (cutFrame 3 s) else .next s

-- ------------------------------------------------------------------ delivering (4.6)

/-- An outgoing frame's payload (Table 4-7); EV_EVENT_LOST carries its running count (R162).
Log entries 56 DEDUCED, 57 DEDUCED. -/
def outPayload (q : TenantSt) : Out → Bytes
  | .resp _ op st r _ => leBytes 2 op.toNat ++ st :: r
  | .evt _ code t d => leBytes 2 code.toNat ++ tickBytes t ++ d
  | .lost _ t => leBytes 2 evEventLost.toNat ++ tickBytes t ++ leBytes 2 q.lostRun

/-- SEQ and FLAGS but for MORE of an outgoing frame (Tables 4-5, 4-6). Log entry 57 DEDUCED. -/
def outHead : Out → BitVec 16 × Nat
  | .resp q _ _ _ o => (q, 128 + bitAt 5 o)
  | .evt q _ _ _ => (q, 192)
  | .lost q _ => (q, 192)

/-- A Host Link Frame around a payload (Table 4-5, R112). -/
def hostFrame (flags : Nat) (seq : BitVec 16) (payload : Bytes) : Bytes :=
  let body := BitVec.ofNat 8 flags :: (leBytes 2 seq.toNat ++ leBytes 2 payload.length ++ payload)
  0x5A :: (body ++ leBytes 2 (hlfCrc body))

/-- The refusal of R155 as a response. -/
def refusalOut (q : TenantSt) : Option Out := q.refusal.map fun (seq, op, o) => .resp seq op stBusy [] o

/-- The frame that leaves a port next: a TEN.BIND response ahead of everything (R139), then the refusal (R155), then the
frames in the order in which they became ready (R160). -/
def nextOut (p : Port) (s : State) : Option Out :=
  let q := s.tens[s.binding[p]]
  ((frontOf p s).orElse fun _ => refusalOut q).orElse fun _ => q.outQ.head?

/-- The tenant whose frame leaves a port next: only T0 binds ports (R137). -/
def outTenant (p : Port) (s : State) : Tenant := if (frontOf p s).isSome then 0 else s.binding[p]

/-- The frames that a tenant has pending. -/
def pendingOut (t : Tenant) (s : State) : Nat :=
  let q := s.tens[t]
  q.outQ.length + (if q.refusal.isSome then 1 else 0) + (if q.front.isSome then 1 else 0)

/-- The bytes of a port's next frame. Log entry 56 DEDUCED. -/
def nextFrame (p : Port) (o : Out) (s : State) : Bytes :=
  let (seq, fl) := outHead o
  hostFrame (fl + bitAt 4 (decide (1 < pendingOut (outTenant p s) s))) seq (outPayload s.tens[outTenant p s] o)

/-- Take a delivered frame off its queue (R120, R155, R164). -/
def dequeueOut (p : Port) (s : State) : State :=
  if (frontOf p s).isSome then modTen 0 (fun q => { q with front := none }) s
  else modTen s.binding[p] (fun q =>
    if q.refusal.isSome then { q with refusal := none }
    else match q.outQ with
      | [] => q
      | .lost _ _ :: r => { q with outQ := r, lostRun := 0 }
      | _ :: r => { q with outQ := r }) s

/-- The UART rate changes once the response to the oldest PORT3_DIV write that waits has left (R106); a tenant's responses leave in
the order of its commands (R159). -/
def divSwitch (o : Out) (s : State) : State :=
  match s.divNew, o with
  | (d, q) :: r, .resp seq op _ _ _ => if seq = q ∧ op = 0x0111 then { s with div := d, divNew := r } else s
  | _, _ => s

/-- What goes before the first frame of a read transaction: on SPI the control byte, during which SDO gives 0xFF (Table 4-3). -/
def readLead (p : Port) (bus : Bus) : Bytes := if p.val < 2 ∧ bus.first then [0xFF] else []

/-- A port clocks out its next frame whole. -/
def deliverToHost (p : Port) (bus : Bus) (s : State) : State :=
  match nextOut p s with
  | none => s
  | some o =>
    let b := nextFrame p o s
    divSwitch o (modPort p (fun q => { q with
      sent := b, txPart := 0, line := lineBits p (readLead p bus ++ b), mode3 := if p.val < 2 then bus.sckHigh else q.mode3 })
      (dequeueOut p s))

/-- Half duplex: the UART sends only in answer to a frame (R109). -/
def halfDuplex (s : State) : Bool := bit s.ports[3].cfg 0

/-- OUTGOING_FRAME_DELIVERED (R101, R120, R122, R164). -/
def execOutgoingFrameDelivered (p : Port) (bus : Bus) (s : State) : Host.Outcome State Fault Refusal :=
  if portHears p s && addressed p bus s && !(p == 3 && halfDuplex s) then .next (deliverToHost p bus s) else .next s

/-- PARTIAL_DELIVERY (R101, R120): only n bytes of the next frame were clocked out, and it starts again from SYNC. With no frame
pending, the n bytes that the host reads on SPI or I2C are 0xFF. -/
def execPartialDelivery (p : Port) (bus : Bus) (n : Nat) (s : State) : Host.Outcome State Fault Refusal :=
  if portHears p s && addressed p bus s then
    match nextOut p s with
    | none =>
      if p = 3 then .next s
      else .next (modPort p (fun q => { q with line := lineBits p (readLead p bus ++ List.replicate n 0xFF) }) s)
    | some o =>
      let b := nextFrame p o s
      if n < b.length then
        .next (modPort p (fun q => { q with txPart := n, line := lineBits p (readLead p bus ++ b.take n) }) s)
      else .next s
  else .next s

/-- Deliver up to n frames on the UART; the number counts their bytes. -/
def deliverMany : Nat → State → Nat × State
  | 0, s => (0, s)
  | n + 1, s =>
    match nextOut 3 s with
    | none => (0, s)
    | some o =>
      let k := (nextFrame 3 o s).length
      let (m, s) := deliverMany n (deliverToHost 3 { sckHigh := false, addr := 0, first := false } s)
      (k + m, s)

/-- Ticks of so many UART bits at a divisor: a bit takes DIV / 48,000,000 s (4.4). -/
def uartTicks (bits_ div : Nat) : Nat := (bits_ * div + 1) / 2

/-- UART_HDX_REPLY (R107, R109): after a valid host frame, n and at most 4 pending frames are sent; UA_DE is high from a bit time
before the first start bit to the end of the last stop bit. -/
def execUartHdxReply (n : Nat) (s : State) : Host.Outcome State Fault Refusal :=
  if portHears 3 s && halfDuplex s && s.ports[3].polled then
    let (k, r) := deliverMany (min n 4) s
    let till := if k = 0 then none else some (s.reel.cnt + BitVec.ofNat 48 (uartTicks (1 + 10 * k) s.div.toNat))
    .next (modPort 3 (fun q => { q with polled := false, burst := till }) r)
  else .next s

-- ------------------------------------------------------------------ port reset and presence (4.7)

/-- A port detaches (R125, R192, R368): its tenant's semaphores break, its vote goes to IDLE, T0 hears of it, the lantern tag
and the node are given up. Log entry 56 DEDUCED. -/
def detach (p : Port) (reason : Byte) (s : State) : State :=
  let t := s.binding[p]
  let q := s.ports[p]
  let s := setPower (fun w => { w with votes := vmod w.votes t (fun _ => false) }) (breakSems t s)
  if !(q.attached || q.moved) then s
  else
    let s := modPort p (fun q => { q with attached := false, moved := false }) s
    let s := raise 0 evPortDetach [BitVec.ofNat 8 p.val, reason] s
    let s := if s.tag.enabled && s.tag.owner == t then tagOff s else s
    if s.link.holder = some t then setLink (fun l => { l with holder := none }) s else s

/-- A response marked ORPHAN; events carry no mark (R124). -/
def Out.orphaned : Out → Out
  | .resp a b c d _ => .resp a b c d true
  | o => o

/-- Mark what a tenant's earlier commands will answer as ORPHAN (R124, R598). -/
def orphanAll (q : TenantSt) : TenantSt :=
  { q with
    cmdQ := q.cmdQ.map fun j => { j with orphan := true }
    exec := q.exec.map fun j => { j with orphan := true }
    outQ := q.outQ.map Out.orphaned
    refusal := q.refusal.map fun r => (r.1, r.2.1, true) }

/-- A TEN.BIND response that leaves on a port is one to a command accepted before the port's reset (R124, R139). -/
def orphanFront (p : Port) (q : TenantSt) : TenantSt :=
  { q with front := q.front.map fun f => if f.1 = p then (f.1, f.2.orphaned) else f }

/-- A port reset (R123, R124, Table 3-10): a frame in progress is discarded and counted. -/
def portReset (p : Port) (s : State) : State :=
  let s := modPort p (fun q => { q with
    txPart := 0, polled := false, resets := satInc 0xFFFF q.resets, burst := none }) (cutFrame p s)
  detach p 0 (modTen 0 (orphanFront p) (modTen s.binding[p] orphanAll s))

/-- SPI_PORT_RESET_SEQUENCE (Table 4-9, R129): in V1 mode too. -/
def execSpiPortResetSequence (p : Port) (s : State) : Host.Outcome State Fault Refusal :=
  if live s && !s.power.vioLost && decide (p.val < 2) then .next (portReset p s) else .next s

/-- I2C_STUCK_BUS (Table 4-9). -/
def execI2cStuckBus (s : State) : Host.Outcome State Fault Refusal :=
  if portHears 2 s then .next (portReset 2 s) else .next s

/-- UART_BREAK (Table 4-9): the end of a break of 2 ms or more. -/
def execUartBreak (s : State) : Host.Outcome State Fault Refusal :=
  if portHears 3 s then .next (portReset 3 s) else .next s

/-- VIO_LOSS (R37): the inputs of its domain are ignored until it returns. -/
def execVioLoss (s : State) : Host.Outcome State Fault Refusal :=
  if s.power.mode == .reset then .next s else .next (setPower (fun p => { p with vioLost := true }) s)

/-- VIO_RETURN (R37, Table 4-9): every port receives a port reset. -/
def execVioReturn (s : State) : Host.Outcome State Fault Refusal :=
  if s.power.vioLost then
    let s := setPower (fun p => { p with vioLost := false }) s
    .next (portReset 3 (portReset 2 (portReset 1 (portReset 0 s))))
  else .next s

/-- PRESENCE_TIMEOUT (4.7, R125, R140): no frame for PRES_TMO seconds, in STANDBY or ACTIVE. Log entry 56 DEDUCED. -/
def execPresenceTimeout (p : Port) (now : Tick) (s : State) : Host.Outcome State Fault Refusal :=
  let s := advanceTo now s
  let q := s.ports[p]
  let n := bits q.cfg 15 8
  if s.power.mode == .run && n != 0 && (q.attached || q.moved) &&
      reached s.reel.cnt (q.presFrom + BitVec.ofNat 48 (n * 24000000)) then .next (detach p 1 s)
  else .next s

end Sys2Proof.Machine
end

