-- ==== Sys2Proof/Machine/Power.lean ====
section
/-!
DEFINITION. Power, resets, start, sleep, wake, LIMP and the PWRFAIL drill (chapter 3): what each reset class clears and keeps
(Table 3-10), the start sequence, the sleep and wake state table (Table 3-12), and SYS.RESET.
-/
namespace Sys2Proof.Machine

-- ------------------------------------------------------------------ what a reset clears and keeps (Table 3-10)

/-- Power after a reset: `warm` for Keel watchdog and SYS.RESET, which keep straps, XO32's selection, REEL_UNTRUSTED and the wake
counts; the levels of the pins stand. -/
def powerAfter (cause : BitVec 3) (warm : Bool) (p : PowerSt) : PowerSt :=
  if warm then
    { PowerSt.reset with
      cause := cause, strapV1 := p.strapV1, strapAddr := p.strapAddr, pwrfail := p.pwrfail, vioLost := p.vioLost
      xo32Ok := p.xo32Ok, aonRc := p.aonRc, xo32Gone := p.xo32Gone, untrusted := p.untrusted, wakeFails := p.wakeFails
      wakeRun := p.wakeRun }
  else { PowerSt.reset with cause := cause, pwrfail := p.pwrfail, vioLost := p.vioLost }

/-- Reel after a reset: the count is kept through Keel watchdog and SYS.RESET, the timers never; Keel's day counter stands in the
store (R529). -/
def reelAfter (warm : Bool) (r : ReelSt) : ReelSt :=
  { ReelSt.reset with
    cnt := if warm then r.cnt else 0
    keeper := if warm then r.keeper else 0
    day := r.day, dayFrom := if warm then r.dayFrom else 0
    caps := Vector.ofFn fun i => { Capture.reset with level := r.caps[i].level } }

/-- Gondola after a reset: the binding table and its lock are kept through Keel watchdog and SYS.RESET. -/
def gondolaAfter (warm : Bool) (g : GondolaSt) : GondolaSt :=
  if warm then
    { GondolaSt.reset with
      locked := g.locked
      chans := Vector.ofFn fun i => { Chan.reset with bound := g.chans[i].bound } }
  else .reset

/-- Bridle after a reset: generations as their commits landed (R475), TAMPER's arming, and an assertion not yet applied, through Keel
watchdog and SYS.RESET (R194), the slots for the start to rebuild. -/
def bridleAfter (warm : Bool) (b : BridleSt) : BridleSt :=
  { BridleSt.reset with
    armed := warm && b.armed, latched := warm && b.latched, roots := b.rootsLanded, dead := b.deadLanded, rootsLanded := b.rootsLanded
    deadLanded := b.deadLanded, rootUses := b.rootUses, slots := b.slots, copies := b.copies }

/-- The store after a reset: its contents are kept, what was queued is lost, and the values in force are those whose commits
landed (R576, R635, R636). -/
def storeAfter (m : MendMap) (w : StoreSt) : StoreSt :=
  { w with
    level := 0, balC := w.prov.balC, vmin := w.prov.vmin, vhu := 0, eavail := 0, queue := [], deferred := [], defer := 0
    degraded := false, replay := false, wear := m.wear, sectors := m.sectors, retired := m.retired, moving := none
    logBuf := [], logDone := 0 }

/-- The ledger after a reset (R540, R546, R547, R635): the open interval in RAM is lost. Log entry 48 DEDUCED. -/
def ledgerAfter (warm : Bool) (p : Provision) (l : LedgerSt) : LedgerSt :=
  { LedgerSt.reset with
    owner := p.owner, cfg := p.cfg, nextCfg := p.nextCfg, wall := if warm then l.wall else none, lastSeq := l.lastLanded
    lastLanded := l.lastLanded, held := l.held, lost := l.lost, ckpt := l.ckpt, restart := l.restart || l.cur.isSome }

/-- Mend after a reset: what the map saved (R576), the window that the store holds (22.3). -/
def mendAfter (p : Provision) (m : MendSt) : MendSt :=
  let k := m.saved
  { MendSt.reset with
    rowmap := k.rowmap, disrow := k.disrow, lanes := k.lanes, adc := k.adc, lna := k.lna, syn := k.syn, keyram := k.keyram
    ship := m.ship, lost := k.lost &&& ~~~0x200, mapSeq := k.seq, winStart := p.winStart, winLen := p.winLen, saved := k }

/-- The part after a reset of a class, before its start (Table 3-10); power-on reset alone resets the TAP (2.7). Log entry 48
DEDUCED. -/
def clearFor (cause : BitVec 3) (warm : Bool) (s : State) : State :=
  { State.reset with
    pending := s.pending
    power := powerAfter cause warm s.power
    binding := if warm then s.binding else State.reset.binding
    bindLock := warm && s.bindLock
    shareLock := warm && s.shareLock
    tens := Vector.ofFn fun t => { TenantSt.reset with share := if warm then s.tens[t].share else 25 }
    radio := { RadioSt.reset with
      gnt := s.radio.gnt, window := windowOf (reelAfter warm s.reel).cnt
      deepAtR := if warm then s.radio.deepAtR else 0, deepAtL := if warm then s.radio.deepAtL else 0 }
    reel := reelAfter warm s.reel
    gdl := gondolaAfter warm s.gdl
    bri := bridleAfter warm s.bri
    store := storeAfter s.mend.saved s.store
    ldg := ledgerAfter warm s.store.prov s.ldg
    mend := mendAfter s.store.prov s.mend
    serial := s.serial
    tap := if cause = 1 then .reset else s.tap
    free := s.free }

-- ------------------------------------------------------------------ the start (3.2)

/-- Rows that event-log entries of code 0xF003 name since the last commit of the Mend map (R568). -/
def loggedRows (s : State) : List MendRes :=
  (s.store.log.take s.store.sinceMap).filterMap fun e =>
    if e.code = 0xF003 then
      some (.row (Fin.ofNat 16 (fld e.data 0 1)) (BitVec.ofNat 8 (fld e.data 1 1)))
    else none

/-- A fault already has its place in the map. -/
def rowMapped (r : MendRes) (m : MendSt) : Bool :=
  match r with
  | .row b row => m.rowmap.contains (b.val, row.toNat) || m.disrow.contains (b.val, row.toNat)
  | _ => false

/-- With no good copy there is no map: nothing is known of repairs made, and MEND_LOST.MAP is set (R577). -/
def mapGone (m : MendSt) : MendSt :=
  { m with rowmap := [], disrow := [], lanes := 0, adc := 0, lna := 0, syn := 0, keyram := 0, lost := 0x400 }

/-- Mend at a start (R567, R568, R576, R577): the newest good copy of the map, the self-test's faults and the logged rows.
Log entry 51 DEDUCED. -/
def mendStart (f : StartFinds) (s : State) : State :=
  let good := s.mend.saved.copies &&& f.mapCopies
  let s := setMend (fun m => { m with mapOk := good, saved := { m.saved with copies := good } }) s
  let s := if good = 0 then setMend mapGone s else s
  let logged := (loggedRows s).filter fun r => !rowMapped r s.mend
  let s := f.faults.foldl (fun s r => startRepair r s) s
  let s := logged.foldl (fun s r => if rowMapped r s.mend then s else startRepair r s) s
  let s := lanesApply s
  if s.mend.startChanges.isEmpty then s else queueMap false s

/-- The root is reconstructed (R460 to R462, R577): at most 3 retries. With the root there, every helper copy whose CRC is bad is
rewritten from a good one (R463). Log entry 51 DEDUCED. -/
def rootStart (f : StartFinds) (s : State) : State :=
  let good := s.bri.copies &&& f.helper
  let ok := decide (f.rootFails ≤ 3) && good != 0 && !bit s.mend.lost 10
  setBri (fun b => { b with rootOk := ok, helper := good, copies := if ok then 7 else good, retries := min 3 f.rootFails }) s

/-- A reserved counter whose two records are both bad stays at its limit until the key is erased (R529); its value is not
known. Log entry 41 DEDUCED. -/
def counterLost (s : State) : Reserved × State :=
  let (v, s) := drawNat s
  ({ now := v % 0xFFFFFF, limit := v % 0xFFFFFF, queued := true }, s)

/-- A use counter at a start: it resumes at its limit, never above LIFE, and reserves anew (R475, R527, R529).
Log entry 41 DEDUCED. -/
def useResume (k : Fin 48) (key : Key) (s : State) : State :=
  let r := s.bri.slots[k].useRes
  let top := if key.life = 0 then 0xFFFFFF else key.life
  let v := min top r.limit
  let more := decide (v < top)
  let s := modSlot k (fun sl => { sl with useRes := { now := v, limit := r.limit, queued := more } }) s
  if more then queueCommit (.useRes k v) 1 s else s

/-- A frame counter at a start: one that has been used resumes at its limit and reserves anew (R411, R527, R529).
Log entry 41 DEDUCED. -/
def frameResume (k : Fin 48) (s : State) : State :=
  let r := s.bri.slots[k].frame
  if r.now = 0 ∧ r.limit = 1024 then modSlot k (fun sl => { sl with frame := .reset 1024 }) s
  else
    queueCommit (.frameRes k r.limit) 1
      (modSlot k (fun sl => { sl with frame := { now := r.limit, limit := r.limit, queued := true } }) s)

/-- One slot at a start (R472, R476, R480): a key that expires is erased, every other stands as its last record says.
Log entry 40 DEDUCED. -/
def slotStart (f : StartFinds) (k : Fin 48) (s : State) : State :=
  let sl := s.bri.slots[k]
  let expired := match sl.key with | some key => key.expire | none => false
  let s := modSlot k (fun sl =>
    if expired then
      { sl with key := none, stored := none, gen := if sl.gen = 0xFFFF then sl.gen else sl.gen + 1, unsaved := false,
                cached := false, usesLatch := 0, useRes := .reset 256, bad := false }
    else
      { sl with key := sl.stored, unsaved := false, cached := false, usesLatch := 0,
                bad := sl.stored.isSome && (sl.bad || f.badRecs.contains k) }) s
  let s := if f.badFrames.contains k then
      let (r, s) := counterLost s
      logEntry evMend [3, BitVec.ofNat 8 (sparesLeft s 3), 1] (modSlot k (fun sl => { sl with frame := r }) s)
    else frameResume k s
  match s.bri.slots[k].key with
  | none => s
  | some key =>
    if f.badUses.contains k then
      let (r, s) := counterLost s
      logEntry evMend [3, BitVec.ofNat 8 (sparesLeft s 3), 1] (modSlot k (fun sl => { sl with useRes := r }) s)
    else useResume k key s

/-- A complete journal is replayed and discarded before any store command is served (R520); without a sector map there is
nothing to write to (R577). Log entry 51 DEDUCED. -/
def journalReplay (s : State) : State :=
  match s.store.journal with
  | some (t, off, data) =>
    if bit s.mend.lost 10 then s
    else setStore (fun w => { w with
      areas := vmod w.areas t (fun m => memPutAll m off data), journal := none, replay := true })
      (writePages ((pagesOf off data.length).map fun p => 16 + 16 * t.val + p / 16) s)
  | none => setStore (fun w => { w with replay := false }) s

/-- The highest LEVEL of the patches that check out (R174). Log entry 63 DEDUCED. -/
def patchLevel (s : State) : Nat :=
  s.store.patches.toList.foldl (fun n o => match o with
    | some p => if (patchForm p.image).isSome && patchSigOk p.image then max n p.level else n
    | none => n) 0

/-- Keel's day counter resumes ahead by its block, which the spec does not give (R529). Log entry 45 DESIGN CHOICE. -/
def dayResume (s : State) : State :=
  let (n, s) := drawNat s
  { s with reel := { s.reel with day := s.reel.day + n } }

/-- The start sequence (Table 3-3, R460, R476, R488, R520, R545, R567): Mend, root, slots, journal, patches, DRBG, ledger. More than
128 disabled rows keep the part in START for good (R581). Log entry 51 DEDUCED. -/
def startWork (f : StartFinds) (s : State) : State :=
  let s := dayResume s
  let s := setPower (fun p => { p with mode := .start, startedAt := s.reel.cnt }) s
  let s := mendStart f s
  if 128 < s.mend.disrow.length then setPower (fun p => { p with mode := .stuck }) s
  else
    let s := rootStart f s
    let s := (List.finRange 48).foldl (fun s k => slotStart f k s) s
    let s := journalReplay s
    let s := setStore (fun w => { w with
      badPages := w.badPages ++ f.badPages.filter (fun e => !w.badPages.contains e), level := patchLevel s }) s
    let s := if f.entropyOk then drbgStart s
      else setBri (fun b => { b with entRun := 1, entFail := 1 }) s
    ledgerStart s

/-- A reset of class Keel watchdog or SYS.RESET starts at once, on the straps it has (3.2). Log entry 48 DEDUCED. -/
def warmStart (cause : BitVec 3) (f : StartFinds) (s : State) : State := startWork f (clearFor cause true s)

/-- EV_RESET is a tenant's first event and carries SEQ 0 (R163); what the start itself raised follows it, in its order. -/
def resetFirst (now : Tick) (d : Bytes) (q : TenantSt) : TenantSt :=
  q.outQ.foldl (fun q o => match o with
    | .evt _ code stamp data => pushEvent stamp code data q
    | _ => q) (pushEvent now evReset d { q with outQ := [], evSeq := 0, evLost := 0, lostRun := 0 })

/-- The ports become live after a start (R64, R163, R566, R569, R576): EV_RESET, the repairs of the self-test, bad copies of the map
written anew. Log entry 51 DEDUCED. -/
def startLive (s : State) : State :=
  let d : Bytes := [BitVec.ofNat 8 s.power.cause.toNat, if s.power.commitSkipped then 1 else 0]
  let s := setPower (fun p => { p with started := true }) s
  let s := logEntry evReset d (forTenants (fun t => modTen t (resetFirst s.reel.cnt d)) s)
  let ch := s.mend.startChanges
  let s := ([0, 1, 2, 4, 5, 6] : List Nat).foldl (fun s i =>
    if ch.any (fun e => e.1 == i) then mendEvent i (ch.contains (i, true)) s else s) s
  if s.mend.mapOk ≠ 7 ∧ s.mend.mapOk ≠ 0 ∧ s.mend.startChanges.isEmpty then queueMap false s else s

/-- POWER_ON_RESET (R31, R58, R80): VIN falls below 2.45 V. -/
def execPowerOnReset (s : State) : Host.Outcome State Fault Refusal := .next (clearFor 1 false s)

/-- NRESET (R31, R37, R48, R80): a pulse of 1 µs or more resets, one below 200 ns does not, and one between may or may not.
Log entry 47 DESIGN CHOICE. -/
def execNreset (ns : Nat) (s : State) : Host.Outcome State Fault Refusal :=
  if s.power.vioLost || decide (ns < 200) then .next s
  else if 1000 ≤ ns then .next (clearFor 2 false s)
  else
    let (b, s) := drawBool s
    .next (if b then clearFor 2 false s else s)

/-- RESET_RELEASE (R41, R43, R46, R47): the straps are latched; TEST high enters factory test mode, otherwise the start
begins. Log entry 48 DEDUCED. -/
def execResetRelease (spaSdo addr1 addr0 test : Bool) (f : StartFinds) (s : State) : Host.Outcome State Fault Refusal :=
  if s.power.mode == .reset then
    let s := setPower (fun p => { p with
      strapV1 := !spaSdo, strapAddr := BitVec.ofNat 2 (bitAt 1 addr1 + bitAt 0 addr0) }) s
    if test then .next (setPower (fun p => { p with mode := .factory }) s) else .next (startWork f s)
  else .next s

/-- A latched assertion of TAMPER is applied, before any key is used (R485). -/
def tamperIfLatched (s : State) : State := if s.bri.latched then tamperApply s else s

/-- START_COMPLETE (R62, R64, R435): the part is in STANDBY with its ports live. Reel has counted since XO24 became ready, within the
32 ms of R62; for how long is free. Log entry 48 DESIGN CHOICE. -/
def execStartComplete (s : State) : Host.Outcome State Fault Refusal :=
  if s.power.mode == .start then
    let (n, s) := drawNat s
    let s := advanceTo (s.reel.cnt + BitVec.ofNat 48 (n % 768001)) s
    .next (tamperIfLatched (startLive (setPower (fun p => { p with mode := .run, xo24Ok := true }) s)))
  else .next s

/-- Keel runs: its watchdog counts. -/
def keelRuns (s : State) : Bool := live s || s.power.mode == .start || s.power.mode == .drill

/-- KEEL_WATCHDOG_EXPIRY (R79, R80). -/
def execKeelWatchdogExpiry (f : StartFinds) (s : State) : Host.Outcome State Fault Refusal :=
  if keelRuns s then .next (warmStart 3 f s) else .next s

-- ------------------------------------------------------------------ the emergency set (19.4)

/-- Counter commits that the emergency set can take (R526, R485). -/
def isCounter : CommitKind → Bool
  | .useRes .. | .frameRes .. | .tamperGens => true
  | _ => false

/-- Take counter commits from a queue into so many pages. Log entry 50 DEDUCED. -/
def takePages : Nat → List Commit → List Commit × List Commit
  | _, [] => ([], [])
  | n, c :: r =>
    if isCounter c.kind ∧ c.pages ≤ n then
      let (a, b) := takePages (n - c.pages) r
      (c :: a, b)
    else
      let (a, b) := takePages n r
      (a, c :: b)

/-- TAMPER's generations come before all other changes. -/
def tamperFirst (l : List Commit) : List Commit :=
  l.filter (fun c => c.kind == .tamperGens) ++ l.filter (fun c => c.kind != .tamperGens)

/-- Write a commit of the emergency set: it has been checked already. -/
def landNow (s : State) (c : Commit) : State := runCommit c 0 s

/-- The emergency set (R526, R545, Table 19-3): one Ballast check for 6 pages; passing, the checkpoint of the open interval and four
pages of counter records, the oldest change first. The answer is DONE. Log entry 50 DEDUCED. -/
def emergencySet (vhu : Nat) (s : State) : Bool × State :=
  let ok := ballastOk s.store vhu 6
  let s := ballastSample vhu s
  if !ok then (false, s)
  else
    let s := match checkpointOf s with
      | some r => landNow s { kind := .checkpoint r, pages := 2 }
      | none => s
    let (a, rest) := takePages 4 (tamperFirst (s.store.deferred ++ s.store.queue))
    let s := setStore (fun w => { w with deferred := w.deferred.filter rest.contains, queue := w.queue.filter rest.contains }) s
    (true, a.foldl landNow s)

/-- SYS.RESET (R81, R182): no response; the emergency set, or COMMIT_SKIPPED, then the reset. -/
def execSysReset (c : Cmd) (vhu : Nat) (f : StartFinds) (s : State) : Host.Outcome State Fault Refusal :=
  .next (keelRun 0x0102 c (fun s =>
    if c.args.length ≠ 0 then refuse c.t stBadArg s
    else if !isT0 c then refuse c.t stDenied s
    else
      let (done, s) := emergencySet vhu s
      setPower (fun p => { p with commitSkipped := !done }) (warmStart 4 f s)) s)

/-- The event log's page buffer is committed at once, with the log pages that still wait, unless Ballast defers it (R636).
Log entry 46 DEDUCED. -/
def logCommitNow (vhu : Nat) (s : State) : State :=
  let s := logPartial s
  let isLog := fun (c : Commit) => match c.kind with | .logPage _ => true | _ => false
  if ballastOk s.store vhu (queuedPages s.store) then
    let mine := (s.store.deferred ++ s.store.queue).filter isLog
    mine.foldl landNow (setStore (fun w => { w with
      deferred := w.deferred.filter (fun c => !isLog c), queue := w.queue.filter (fun c => !isLog c) }) (ballastSample vhu s))
  else ballastSample vhu s

/-- UNCORRECTABLE_SRAM_ERROR (R580, R636): the row is logged and the part resets as by the Keel watchdog. -/
def execUncorrectableSramError (bank : Fin 16) (row : BitVec 8) (vhu : Nat) (f : StartFinds) (s : State) :
    Host.Outcome State Fault Refusal :=
  if live s then
    .next (warmStart 3 f (logCommitNow vhu (logEntry 0xF003 [BitVec.ofNat 8 bank.val, BitVec.ofNat 8 row.toNat] s)))
  else .next s

-- ------------------------------------------------------------------ the clocks (3.5)

/-- XO32_TIMEOUT (R75): 2 s after power-on reset or NRESET without XO32. -/
def execXo32Timeout (s : State) : Host.Outcome State Fault Refusal :=
  if s.power.xo32Ok || s.power.mode == .reset then .next s
  else .next (setPower (fun p => { p with aonRc := true, xo32Gone := true }) s)

/-- XO32_STOP (R75): the RC takes over until the next power-on reset or NRESET. -/
def execXo32Stop (s : State) : Host.Outcome State Fault Refusal :=
  if s.power.xo32Ok then .next (setPower (fun p => { p with xo32Ok := false, aonRc := true, xo32Gone := true }) s)
  else .next s

/-- XO32_READY (R75): the crystal has started. -/
def execXo32Ready (s : State) : Host.Outcome State Fault Refusal :=
  if s.power.xo32Gone || s.power.xo32Ok || s.power.mode == .reset then .next s
  else .next (setPower (fun p => { p with xo32Ok := true, aonRc := false }) s)

/-- Reel as the keeper has it after so many always-on cycles since it was loaded (R438). -/
def keeperAt (n : Nat) (s : State) : Tick := s.reel.keeper + BitVec.ofNat 48 (46875 * n / 64)

/-- Reel was kept or counted by an RC (R76): it is not trusted, and a change of the open interval's UNTRUSTED flag is one that the next
SLEEP entry commits (R67). -/
def untrust (rc : Bool) (s : State) : State :=
  if rc && !s.power.untrusted then
    setLdg (fun l => { l with cur := l.cur.map fun iv => { iv with dirty := true } })
      (setPower (fun p => { p with untrusted := true }) s)
  else s

/-- Both cores go to a state together (Table 3-4). -/
def coresTo (x : CoreSt) (s : State) : State :=
  setCore .link x (setCore .reader x (setRadio (fun r => { r with calR := false, calL := false }) s))

/-- Reel takes the keeper's count (R436, R438, R451): counters that ran have slept, presence timers did not run, and the
fair-sharing window is that of the new count. Log entry 48 DEDUCED. -/
def reelResume (now : Tick) (s : State) : State :=
  let s := { s with ports := presenceShift (ticksBetween s.reel.cnt now) s }
  let s := { s with reel := { s.reel with
    cnt := now
    dcs := s.reel.dcs.map fun (d : DownCnt) => if d.st == .running then { d with slept := true } else d } }
  let w := windowOf now
  if w = s.radio.window then s else setRadio (fun r => { r with window := w, charged := Vector.replicate 4 0 }) s

/-- LIMP (R84, R343, R369): the RC clocks the core, the radios, sniff and the lantern tag are off, every tenant hears of it.
Log entry 48 DEDUCED. -/
def limpEntry (s : State) : State :=
  let s := setPower (fun p => { p with mode := .limp, coreRc := true, xo24Ok := false, wake := none }) s
  let s := coresTo .standby (untrust true s)
  let s := if s.power.started then s else startLive s
  let s := sniffStop (tagOff s)
  let s := logEntry evWakeFault [2, 1] (raiseAll evWakeFault [2, 1] s)
  tamperIfLatched s

/-- XO24_TIMEOUT (R83, R84, R435): two boosted attempts, then LIMP. At a start Reel has counted nothing yet; on a wake it comes to
what the keeper has then, which the spec leaves open. -/
def execXo24Timeout (s : State) : Host.Outcome State Fault Refusal :=
  let boost := setPower (fun p => { p with boosts := p.boosts + 1 }) s
  match s.power.mode with
  | .start =>
    if s.power.boosts < 2 then .next boost
    else .next (limpEntry { s with reel := { s.reel with cnt := s.power.startedAt } })
  | .waking =>
    if s.power.boosts < 2 then .next boost
    else
      let (n, s) := drawNat s
      .next (limpEntry (reelResume (keeperAt n s) s))
  | _ => .next s

-- ------------------------------------------------------------------ sleep (3.3)

/-- An ARMED compare that wakes, or an internal compare of Keel's, lies less than the wake lead ahead (R68, R445). -/
def soon (now v : Tick) : Bool := decide (0 < (v - now).toNat ∧ (v - now).toNat < 76800)

/-- The moments of Keel's scheduled work, each a compare of its own that wakes (R68): presence sniff, beacon, interval boundary,
telemetry snapshot, daily test. Log entry 49 DEDUCED. -/
def keelCompares (s : State) : List Tick :=
  let now := s.reel.cnt
  let day := 1440 * minTicks
  (match s.rdr.sniff with | some n => [n.due] | none => []) ++
  (match s.link.beaconAt with | some b => if s.link.beacon = 0 then [] else [b.2] | none => []) ++
  (match s.ldg.cur with | some iv => [iv.endsAt] | none => []) ++
  (let p := s.svy.period * 24000000
   [now + BitVec.ofNat 48 (p - now.toNat % p)]) ++
  [now + BitVec.ofNat 48 ((s.mend.winStart * minTicks + day - dayTicks s % day) % day)]

/-- A tenant's compares that wake. -/
def wakeCompares (s : State) : List Tick :=
  (s.reel.cmps.toList.filter fun q => q.st == .armed && bit q.act 4).map (·.val)

/-- An activity that needs a radio runs or waits for air, or a crew reader's field holds the part awake (R372, R422).
Log entry 49 DEDUCED. -/
def radioBusy (s : State) : Bool :=
  s.radio.rHold.isSome || s.radio.lHold.isSome || !s.radio.waiters.isEmpty || s.tag.field || !s.link.sends.isEmpty ||
  s.svy.sweep.isSome || tenants.any fun t =>
    s.rdr.inv[t].isSome || s.rdr.acc[t].isSome || s.sess[t].opened || s.link.listens[t].isSome

/-- The conditions of R66 and R445 but for the commits that SLEEP entry itself makes; the full self-test keeps the part awake
(R572). Log entry 49 DEDUCED. -/
def maySleep (s : State) : Bool :=
  let now := s.reel.cnt
  s.power.mode == .run && s.power.votes.toList.all (fun v => !v) &&
  tenants.all (fun t => outstanding s.tens[t] == 0 && s.ctxs[t].run != .running && s.ctxs[t].run != .waiting) &&
  s.store.queue.isEmpty && s.store.deferred.isEmpty && !radioBusy s && !s.mend.winOpen &&
  !(wakeCompares s ++ keelCompares s).any (soon now)

/-- Run the queued commits one after the other, each by its own check (R525). -/
def flushQueue (vhu : Nat) : Nat → State → State
  | 0, s => s
  | n + 1, s =>
    match s.store.queue with
    | [] => s
    | c :: rest =>
      let ok := ballastOk s.store vhu (queuedPages s.store)
      let s := setStore (fun w => { w with queue := rest }) (ballastSample vhu s)
      flushQueue vhu n (if ok then runCommit c 0 s else deferCommit c s)

/-- The commits before SLEEP (R67, R636): the changed checkpoint, and the event log's page buffer.
Log entry 49 DEDUCED. -/
def sleepCommits (vhu : Nat) (s : State) : State :=
  let s := match s.ldg.cur, checkpointOf s with
    | some iv, some r => if iv.dirty then queueCommit (.checkpoint r) 2 s else s
    | _, _ => s
  flushQueue vhu 2 (logPartial s)

/-- PAEN, PABIAS and TRSW are low, with no ramp (R38, R90). -/
def rfWiresLow (s : State) : State :=
  setLink (fun l => { l with trsw := none, onAir := none })
    (setRdr (fun r => { r with paen := none, pabias := 0, opening := none, aerialWas := none }) s)

/-- A timer output as the part falls asleep, 40 µs on: every action has come, and a pulse in progress ends low (15.8). -/
def toutAsleep (now : Tick) (o : TimerOut) : TimerOut :=
  let o := toutAt (now + 960) o
  if o.pulseEnd.isSome then { o with level := false, pulseEnd := none } else o

/-- SLEEP is entered (R38, R438, 15.7): the keeper takes Reel, a pulse in progress ends low. Log entry 49 DEDUCED. -/
def enterSleep (s : State) : State :=
  let s := { s with reel := { s.reel with
    keeper := s.reel.cnt
    touts := s.reel.touts.map fun (o : TimerOut) => toutAsleep s.reel.cnt o } }
  untrust s.power.aonRc (setPower (fun p => { p with mode := .sleep, xo24Ok := false }) (coresTo .sleep (rfWiresLow s)))

/-- SLEEP_ENTRY (R66, R67, R445, R636): a commit that Ballast defers keeps the part awake. Log entry 49 DEDUCED. -/
def execSleepEntry (now : Tick) (vhu : Nat) (s : State) : Host.Outcome State Fault Refusal :=
  let s := advanceTo now s
  if maySleep s then
    let s := sleepCommits vhu s
    .next (if s.store.queue.isEmpty && s.store.deferred.isEmpty then enterSleep s else s)
  else .next s

-- ------------------------------------------------------------------ wake (3.7)

/-- WAKE_PIN (R37, R69). -/
def execWakePin (s : State) : Host.Outcome State Fault Refusal :=
  if s.power.vioLost then .next s else .next (startWake .wakePin s)

/-- The port that an edge belongs to (Table 4-2). -/
def edgePort : Edge → Port
  | .spaNcs => 0
  | .spbNcs => 1
  | .i2cStart => 2
  | .uaRxd => 3

/-- PORT_WAKE_EDGE (R37, R46, R69, R71): the cause names the tenant of the port; an I2C START wakes the part with its own address
only. -/
def execPortWakeEdge (e : Edge) (addr : BitVec 7) (s : State) : Host.Outcome State Fault Refusal :=
  if s.power.vioLost || (e == .i2cStart && addr != i2cAddr s) then .next s else .next (startWake (.port s.binding[edgePort e]) s)

/-- COMPARE_WAKE_LEAD (R68, R444): the keeper has come within 76,800 ticks of a tenant's compare that wakes, or of Keel's own
work. -/
def execCompareWakeLead (aonCycles : Nat) (s : State) : Host.Outcome State Fault Refusal :=
  let due := fun (v : Tick) => reached (keeperAt aonCycles s) (v - 76800)
  if (wakeCompares s).any due then .next (startWake .reelCmp s)
  else if (keelCompares s).any due then .next (startWake .keel s)
  else .next s

/-- The CAUSE of EV_WAKE (Table 6-23). -/
def wakeCode : WakeCause → Byte
  | .wakePin => 1
  | .field => 2
  | .reelCmp => 3
  | .port _ => 4
  | .tamper => 5
  | .pwrfailClear => 6
  | .keel => 0

/-- EV_WAKE goes to the tenant whose port woke the part, otherwise to every tenant; Keel's own wakes are not told (R71). -/
def tellWake (c : Option WakeCause) (s : State) : State :=
  match c with
  | none | some .keel => s
  | some (.port t) => raise t evWake [4] s
  | some c => raiseAll evWake [wakeCode c] s

/-- WAKE_COMPLETE (R68, R71, R76, R88, R372, R376, R438, R485): STANDBY is reached so many always-on cycles after the keeper was
loaded. -/
def execWakeComplete (aonCycles : Nat) (s : State) : Host.Outcome State Fault Refusal :=
  if s.power.mode == .waking then
    let c := s.power.wake
    let s := untrust s.power.aonRc (coresTo .standby (reelResume (keeperAt aonCycles s) s))
    let s := setPower (fun p => { p with mode := .run, wake := none, wakeRun := 0, xo24Ok := true, coreRc := false }) s
    let s := if s.power.started then s else startLive s
    let s := tellWake c s
    let s := tamperIfLatched s
    if s.tag.enabled && s.tag.field then
      let s := if s.tag.owed then evFieldTo 1 s.tag.level s else s
      .next (lanternHold (setTag (fun g => { g with owed := false }) s))
    else .next s
  else .next s

/-- REGULATOR_TIMEOUT (R76, R88, R89): back to SLEEP, LOCKOUT at the eighth in a row; on the RC the keeper is not trusted.
Log entry 48 DEDUCED. -/
def execRegulatorTimeout (s : State) : Host.Outcome State Fault Refusal :=
  if s.power.mode == .waking || s.power.mode == .start then
    let s := if s.power.mode == .start then { s with reel := { s.reel with keeper := s.reel.cnt } } else s
    .next (untrust s.power.aonRc (setPower (fun p => { p with
      mode := if 8 ≤ p.wakeRun + 1 then .lockout else .sleep, wake := none, wakeFails := satInc 255 p.wakeFails
      wakeRun := p.wakeRun + 1 }) s))
  else .next s

-- ------------------------------------------------------------------ PWRFAIL (3.8)

/-- Complete every outstanding command of a tenant with ST_ABORTED_RESET (R93). -/
def abortCommands (t : Tenant) (s : State) : State :=
  let s := refuse t stAbortedReset s
  modTen t (fun q => { q.cmdQ.foldl (fun q j => pushResponse j stAbortedReset [] q) q with cmdQ := [] }) s

/-- What a tenant runs on the air or in its context ends in ST_ABORTED_RESET (R90, R221); a session loses its tag.
Log entry 50 DEDUCED. -/
def abortTenant (t : Tenant) (s : State) : State :=
  let s := listenEnd t stAbortedReset s
  let s := closeSession t 1 (endAcc t stAbortedReset 0 0 (invDone t stAbortedReset s))
  let k := s.ctxs[t]
  if k.run == .running || k.run == .waiting then endProgram t stAbortedReset s else s

/-- A send ends wherever it is. -/
def abortSend (s : State) (e : Send) : State :=
  if sendActive e s then sendEnd stAbortedReset s else sendDrop e stAbortedReset s

/-- All RF ends (R90): activities end, the cores go to STANDBY, COEX_REQ and COEX_PRI fall. -/
def rfOff (s : State) : State :=
  let s := s.link.sends.foldl abortSend s
  let s := setLink (fun l => { l with step := .idle, ackDue := none, ackEnd := none }) s
  let s := forTenants abortTenant s
  let s := match s.svy.sweep with
    | some w => setSvy (fun v => { v with sweep := none }) (sweepTold w stAbortedReset 0xFFFF 0xFFFF (sweepRelease s))
    | none => s
  let s := closeTagSession 1 (lanternRelease s)
  let s := releaseAir .link (releaseAir .reader s)
  coexTrack (rfWiresLow (setRadio (fun r => { r with waiters := [], pri := false }) s))

/-- The NVM.WRITE in progress whose journal header has landed leaves its journal (R519, R526); a command's commits go with it.
Log entry 50 DEDUCED. -/
def cutWrites (headerLanded : Bool) (s : State) : State :=
  let j := match s.store.queue with
    | c :: _ => (match c.kind with
      | .nvmWrite t _ off data => if headerLanded then some (t, off, data) else none
      | _ => none)
    | [] => none
  setStore (fun w => { w with
    journal := j.orElse fun _ => w.journal, moving := none, queue := w.queue.filter fun c => !ofCommand c.kind }) s

/-- HOLD is entered from SLEEP or WAKING without a commit (R92). -/
def holdFromSleep (s : State) : State :=
  logEntry evPwrfail [1] (raiseAll evPwrfail [1] (setPower (fun p => { p with mode := .hold, wake := none }) s))

/-- PWRFAIL is high for so many ns (R37, R90 to R93, R96, R221, R380): a pulse shorter than 1 µs is ignored. In STANDBY, ACTIVE and LIMP the drill runs to the emergency set; in SLEEP and
WAKING the part enters HOLD. Log entry 50 DEDUCED. -/
def execPwrfail (now : Tick) (ns vhu : Nat) (headerLanded : Bool) (s : State) : Host.Outcome State Fault Refusal :=
  if s.power.vioLost || decide (ns < 1000) then .next s
  else
    let s := setPower (fun p => { p with pwrfail := true }) (advanceTo now s)
    match s.power.mode with
    | .run | .limp =>
      let s := rfOff (forTenants abortCommands (setPower (fun p => { p with mode := .drill }) s))
      let (done, s) := emergencySet vhu (cutWrites headerLanded s)
      let d : Bytes := [if done then 1 else 0]
      .next (logEntry evPwrfail d (raiseAll evPwrfail d s))
    | .sleep | .waking => .next (holdFromSleep s)
    | _ => .next s

/-- HOLD_ENTRY (R91, R438): the drill is over. Log entry 50 DEDUCED. -/
def execHoldEntry (s : State) : Host.Outcome State Fault Refusal :=
  if s.power.mode == .drill then
    let s := { s with reel := { s.reel with keeper := s.reel.cnt } }
    .next (untrust s.power.aonRc (coresTo .sleep
      (setPower (fun p => { p with mode := .hold, xo24Ok := false, coreRc := false }) s)))
  else .next s

/-- PWRFAIL_CLEAR (R87, R94, R520): after 10 ms low the part wakes from HOLD, the journal first.
Log entry 50 DEDUCED. -/
def execPwrfailClear (s : State) : Host.Outcome State Fault Refusal :=
  if s.power.vioLost then .next s
  else
    let s := setPower (fun p => { p with pwrfail := false }) s
    if s.power.mode == .hold then
      .next (setPower (fun p => { p with mode := .waking, wake := some .pwrfailClear, boosts := 0 }) (journalReplay s))
    else .next s

end Sys2Proof.Machine
end

