-- ==== Sys2Proof/Machine/RegRows.lean ====
section
/-!
DEFINITION. The register accesses that the table lists as rows of their own: each is the REG.READ or REG.WRITE whose run
touches the register it names.
-/
namespace Sys2Proof.Machine

/-- A REG command's run touches an address of a kind. Log entry 7 DESIGN CHOICE. -/
def runTouches (c : Cmd) (p : Nat → Bool) : Bool := (runOf (fld c.args 0 2) (fld c.args 2 1)).any p

/-- A REG.WRITE whose run touches such a register; any other run is not this row. Log entry 7 DESIGN CHOICE. -/
def regWriteRow (p : Nat → Bool) (c : Cmd) (s : State) : State :=
  if runTouches c p then keelRun 0x0111 c (regWrite c) s else s

/-- A REG.READ whose run touches such a register; any other run is not this row. Log entry 7 DESIGN CHOICE. -/
def regReadRow (p : Nat → Bool) (c : Cmd) (s : State) : State :=
  if runTouches c p then keelRun 0x0110 c (regRead c) s else s

/-- CMP_REGISTER_WRITE (R440 to R442): a run that writes a compare's registers. -/
def execCmpRegisterWrite (c : Cmd) (s : State) : Host.Outcome State Fault Refusal :=
  .next (regWriteRow (fun a => decide (0x1810 ≤ a ∧ a < 0x1840)) c s)

/-- REEL_GO_WRITE (R452): a run that writes REEL_GO. -/
def execReelGoWrite (c : Cmd) (s : State) : Host.Outcome State Fault Refusal :=
  .next (regWriteRow (fun a => a == 0x1804) c s)

/-- DC_CFG_WRITE (R447): a run that writes a DCn_CFG. -/
def execDcCfgWrite (c : Cmd) (s : State) : Host.Outcome State Fault Refusal :=
  .next (regWriteRow (fun a => decide (0x1840 ≤ a ∧ a < 0x1860) && a % 8 == 0) c s)

/-- DC_RLD_WRITE (R449): a run that writes a reload buffer. -/
def execDcRldWrite (c : Cmd) (s : State) : Host.Outcome State Fault Refusal :=
  .next (regWriteRow (fun a => decide (0x1840 ≤ a ∧ a < 0x1860) && (a % 8 == 1 || a % 8 == 2)) c s)

/-- DC_SLEPT_CLEAR (R451, R619): a run that writes a DCn_STAT. -/
def execDcSleptClear (c : Cmd) (s : State) : Host.Outcome State Fault Refusal :=
  .next (regWriteRow (fun a => decide (0x1840 ≤ a ∧ a < 0x1860) && a % 8 == 5) c s)

/-- CAP_OVR_CLEAR (R619): a run that writes a CAPn_CTL. -/
def execCapOvrClear (c : Cmd) (s : State) : Host.Outcome State Fault Refusal :=
  .next (regWriteRow (fun a => decide (0x1860 ≤ a ∧ a < 0x1870) && a % 4 == 3) c s)

/-- TOUT_CTL_ACT_WRITE (R458): a run that writes a TOUTn_CTL. -/
def execToutCtlActWrite (c : Cmd) (s : State) : Host.Outcome State Fault Refusal :=
  .next (regWriteRow (fun a => decide (0x1870 ≤ a ∧ a < 0x1874)) c s)

/-- CAP_V2_READ (R456): a run that reads a CAPn_V2. -/
def execCapV2Read (c : Cmd) (s : State) : Host.Outcome State Fault Refusal :=
  .next (regReadRow (fun a => decide (0x1860 ≤ a ∧ a < 0x1870) && a % 4 == 2) c s)

/-- DC_CNT0_READ (R618): a run that reads a DCn_CNT0. -/
def execDcCnt0Read (c : Cmd) (s : State) : Host.Outcome State Fault Refusal :=
  .next (regReadRow (fun a => decide (0x1840 ≤ a ∧ a < 0x1860) && a % 8 == 3) c s)

/-- KSLOT_LINK_READ (R618): a run that reads a KSLOTk_LINK. -/
def execKslotLinkRead (c : Cmd) (s : State) : Host.Outcome State Fault Refusal :=
  .next (regReadRow (fun a => decide (0x1C10 ≤ a ∧ a < 0x1D00) && (a - 0x1C10) % 5 == 1) c s)

/-- GDL_COLL_CLEAR (R499, R619): a run that writes a GDL_CHk_STAT. -/
def execGdlCollClear (c : Cmd) (s : State) : Host.Outcome State Fault Refusal :=
  .next (regWriteRow (fun a => decide (0x2000 ≤ a ∧ a < 0x2040) && a % 4 == 1) c s)

/-- PORT3_DIV_WRITE (R106): a run that writes PORT3_DIV. -/
def execPort3DivWrite (c : Cmd) (s : State) : Host.Outcome State Fault Refusal :=
  .next (regWriteRow (fun a => a == 0x136) c s)

/-- COEX_CFG_WRITE (R285, R620): a run that writes COEX_CFG. -/
def execCoexCfgWrite (c : Cmd) (s : State) : Host.Outcome State Fault Refusal :=
  .next (regWriteRow (fun a => a == 0x410) c s)

/-- SPL_DATA_ACCESS (R224): a run that reads or writes the data RAM window. -/
def execSplDataAccess (c : Cmd) (write : Bool) (s : State) : Host.Outcome State Fault Refusal :=
  .next ((if write then regWriteRow else regReadRow) (fun a => decide (0x4400 ≤ a ∧ a < 0x4600)) c s)

end Sys2Proof.Machine
end

