-- ==== Sys2Proof/Machine/SpoolAlu.lean ====
section
/-!
DEFINITION. The Spool instructions that reach nothing outside their context: ALU, jumps, waits, time, data RAM and YIELD
(8.2 to 8.5, 8.8).
-/
namespace Sys2Proof.Machine

/-- ADD (Table 8-4, R228): D := A + B. -/
def execSpAdd (x : Tenant) (d a b : Fin 16) (s : State) : Host.Outcome State Fault Refusal :=
  .next (issue x (wordA 0x00 d a b 0) (aluStep x d 1 fun k => aluAdd (rd k a) (rd k b)) s)

/-- SUB (Table 8-4, R228): D := A − B. -/
def execSpSub (x : Tenant) (d a b : Fin 16) (s : State) : Host.Outcome State Fault Refusal :=
  .next (issue x (wordA 0x01 d a b 0) (aluStep x d 1 fun k => aluSub (rd k a) (rd k b)) s)

/-- AND (Table 8-4, R228): D := A and B. -/
def execSpAnd (x : Tenant) (d a b : Fin 16) (s : State) : Host.Outcome State Fault Refusal :=
  .next (issue x (wordA 0x02 d a b 0) (aluStep x d 1 fun k => aluAnd (rd k a) (rd k b)) s)

/-- OR (Table 8-4, R228): D := A or B. -/
def execSpOr (x : Tenant) (d a b : Fin 16) (s : State) : Host.Outcome State Fault Refusal :=
  .next (issue x (wordA 0x03 d a b 0) (aluStep x d 1 fun k => aluOr (rd k a) (rd k b)) s)

/-- XOR (Table 8-4, R228): D := A xor B. -/
def execSpXor (x : Tenant) (d a b : Fin 16) (s : State) : Host.Outcome State Fault Refusal :=
  .next (issue x (wordA 0x04 d a b 0) (aluStep x d 1 fun k => aluXor (rd k a) (rd k b)) s)

/-- SHL (Table 8-4, R228): D := A << B[4:0]. -/
def execSpShl (x : Tenant) (d a b : Fin 16) (s : State) : Host.Outcome State Fault Refusal :=
  .next (issue x (wordA 0x05 d a b 0) (aluStep x d 1 fun k => aluShl (rd k a) (rd k b)) s)

/-- SHR (Table 8-4, R228): D := A >> B[4:0], zero fill. -/
def execSpShr (x : Tenant) (d a b : Fin 16) (s : State) : Host.Outcome State Fault Refusal :=
  .next (issue x (wordA 0x06 d a b 0) (aluStep x d 1 fun k => aluShr (rd k a) (rd k b)) s)

/-- ASR (Table 8-4, R228): D := A >> B[4:0], sign fill. -/
def execSpAsr (x : Tenant) (d a b : Fin 16) (s : State) : Host.Outcome State Fault Refusal :=
  .next (issue x (wordA 0x07 d a b 0) (aluStep x d 1 fun k => aluAsr (rd k a) (rd k b)) s)

/-- MUL (Table 8-4, R228): D := low 32 bits of A × B, in 2 cycles. -/
def execSpMul (x : Tenant) (d a b : Fin 16) (s : State) : Host.Outcome State Fault Refusal :=
  .next (issue x (wordA 0x08 d a b 0) (aluStep x d 2 fun k => aluMul (rd k a) (rd k b)) s)

/-- CMP (Table 8-4): A − B, flags only. -/
def execSpCmp (x : Tenant) (a b : Fin 16) (s : State) : Host.Outcome State Fault Refusal :=
  .next (issue x (wordA 0x09 0 a b 0) (cmpStep x fun k => aluSub (rd k a) (rd k b)) s)

/-- ADDI (Table 8-4): the immediate sign-extended. -/
def execSpAddi (x : Tenant) (d a : Fin 16) (imm : BitVec 18) (s : State) : Host.Outcome State Fault Refusal :=
  .next (issue x (wordI 0x0A d a imm) (aluStep x d 1 fun k => aluAdd (rd k a) (immS imm)) s)

/-- ANDI (Table 8-4): the immediate zero-extended. -/
def execSpAndi (x : Tenant) (d a : Fin 16) (imm : BitVec 18) (s : State) : Host.Outcome State Fault Refusal :=
  .next (issue x (wordI 0x0B d a imm) (aluStep x d 1 fun k => aluAnd (rd k a) (immZ imm)) s)

/-- ORI (Table 8-4): the immediate zero-extended. -/
def execSpOri (x : Tenant) (d a : Fin 16) (imm : BitVec 18) (s : State) : Host.Outcome State Fault Refusal :=
  .next (issue x (wordI 0x0C d a imm) (aluStep x d 1 fun k => aluOr (rd k a) (immZ imm)) s)

/-- XORI (Table 8-4): the immediate zero-extended. -/
def execSpXori (x : Tenant) (d a : Fin 16) (imm : BitVec 18) (s : State) : Host.Outcome State Fault Refusal :=
  .next (issue x (wordI 0x0D d a imm) (aluStep x d 1 fun k => aluXor (rd k a) (immZ imm)) s)

/-- CMPI (Table 8-4): A − IMM, flags only. -/
def execSpCmpi (x : Tenant) (a : Fin 16) (imm : BitVec 18) (s : State) : Host.Outcome State Fault Refusal :=
  .next (issue x (wordI 0x0E 0 a imm) (cmpStep x fun k => aluSub (rd k a) (immS imm)) s)

/-- LUI (Table 8-4): D := IMM << 14. -/
def execSpLui (x : Tenant) (d : Fin 16) (imm : BitVec 18) (s : State) : Host.Outcome State Fault Refusal :=
  .next (issue x (wordI 0x0F d 0 imm) (aluStep x d 1 fun _ => aluLui imm) s)

/-- J (Table 8-4, R229): jump to TARGET if COND holds. -/
def execSpJ (x : Tenant) (cond : Fin 8) (target : BitVec 10) (s : State) : Host.Outcome State Fault Refusal :=
  .next (issue x (wordJ 0x10 cond target) (fun s =>
    if condHolds cond s.ctxs[x] then jumpTo x target.toNat s else retire x 1 s) s)

/-- CALL (R234): if COND holds push PC + 1 and jump; 8 entries in use fault with code 2, before a bad target's code 5. At word
1,023 PC + 1 does not fit the 10 bits of an entry (Table 7-4): 0 is pushed. Log entry 72 DESIGN CHOICE. -/
def execSpCall (x : Tenant) (cond : Fin 8) (target : BitVec 10) (s : State) : Host.Outcome State Fault Refusal :=
  .next (issue x (wordJ 0x11 cond target) (fun s =>
    let k := s.ctxs[x]
    if !condHolds cond k then retire x 1 s
    else if 8 ≤ k.stack.length then spoolFault x 2 s
    else if targetOk k target.toNat then
      retireTo x target.toNat 2 (modCtx x (fun k => { k with stack := BitVec.ofNat 10 (k.pc + 1) :: k.stack }) s)
    else spoolFault x 5 s) s)

/-- RET (R234): if COND holds pop the PC; an empty stack faults with code 3. -/
def execSpRet (x : Tenant) (cond : Fin 8) (s : State) : Host.Outcome State Fault Refusal :=
  .next (issue x (wordJ 0x12 cond 0) (fun s =>
    let k := s.ctxs[x]
    if !condHolds cond k then retire x 1 s
    else match k.stack with
      | [] => spoolFault x 3 s
      | r :: rest =>
        if targetOk k r.toNat then retireTo x r.toNat 2 (modCtx x (fun k => { k with stack := rest }) s)
        else spoolFault x 5 s) s)

/-- JR (Table 8-4): jump to A[9:0]. -/
def execSpJr (x : Tenant) (a : Fin 16) (s : State) : Host.Outcome State Fault Refusal :=
  .next (issue x (wordA 0x13 0 a 0 0) (fun s => jumpTo x ((rd s.ctxs[x] a).toNat % 1024) s) s)

/-- DJNZ (Table 8-4): D := D − 1; jump to IMM if D is not 0; a target out of slot faults with code 5 (R205).
Log entry 17 DEDUCED. -/
def execSpDjnz (x : Tenant) (d : Fin 16) (imm : BitVec 18) (s : State) : Host.Outcome State Fault Refusal :=
  .next (issue x (wordI 0x14 d 0 imm) (fun s =>
    let v := rd s.ctxs[x] d - 1
    let v := if d = 0 then 0 else v
    if v = 0 then retire x 1 (modCtx x (wr d v) s)
    else if targetOk s.ctxs[x] (immS imm).toNat then retireTo x (immS imm).toNat 2 (modCtx x (wr d v) s)
    else spoolFault x 5 s) s)

/-- WAITT's target: ({B[15:0], A} + FN sign-extended) mod 2^48 (R236). -/
def waittTarget (k : Ctx) (a b : Fin 16) (off : BitVec 14) : Tick :=
  ((rd k b).setWidth 16 ++ rd k a) + off.signExtend 48

/-- WAITT (R236): wait for Reel tick t. -/
def execSpWaitt (x : Tenant) (d a b : Fin 16) (off : BitVec 14) (s : State) : Host.Outcome State Fault Refusal :=
  .next (issue x (wordA 0x18 d a b off) (fun s =>
    let k := s.ctxs[x]
    enterWait x { op := .waitt, d := d, a := 0, b := 0, fn := 0, issued := k.cursor, until_ := waittTarget k a b off,
                  noAir := false, epoch := 0 } s) s)

/-- WAITD (R237): wait n = (A + IMM) mod 2^32 ticks from the cursor; n of 0, or 2^31 or more, releases at once with the
cursor unchanged and clears the watchdog (R217). Log entry 17 DEDUCED. -/
def execSpWaitd (x : Tenant) (a : Fin 16) (imm : BitVec 18) (s : State) : Host.Outcome State Fault Refusal :=
  .next (issue x (wordI 0x19 0 a imm) (fun s =>
    let k := s.ctxs[x]
    let n := rd k a + immS imm
    if n = 0 ∨ 2 ^ 31 ≤ n.toNat then
      finishStart x stOk (modCtx x (fun k => { k with pc := k.pc + 1, cyc := min 0xFFFFFFFF (k.cyc + 1), wdog := 0,
                                                      issues := k.issues + 1 }) s)
    else enterWait x { op := .waitd, d := 0, a := n, b := 0, fn := 0, issued := k.cursor,
                       until_ := k.cursor + n.setWidth 48, noAir := false, epoch := 0 } s) s)

/-- A WAITE release: D takes the selected latches that are set, Z shows a timeout, and the latches told are cleared (R238,
R239). -/
def waiteCtx (d : Fin 16) (src : BitVec 4) (k : Ctx) : Ctx :=
  let hit := k.latch &&& src
  wr d (hit.setWidth 32) { k with z := decide (hit = 0), latch := k.latch &&& ~~~hit }

/-- WAITE (R238): wait on the selected sources or the timeout of B ticks; a selected latch already set releases at once
(R239), and so does a timeout of 2^31 ticks or more, which counts as WAITD counts (R237). -/
def execSpWaite (x : Tenant) (d a b : Fin 16) (src : BitVec 4) (s : State) : Host.Outcome State Fault Refusal :=
  .next (issue x (wordA 0x1A d a b (src.setWidth 14)) (fun s =>
    let k := s.ctxs[x]
    let p : Pend := { op := .waite, d := d, a := rd k b, b := 0, fn := src.setWidth 14, issued := k.cursor,
                      until_ := k.cursor + (rd k b).setWidth 48, noAir := false, epoch := 0 }
    if k.latch &&& src != 0 || decide (2 ^ 31 ≤ (rd k b).toNat) then wAtOnce x (waiteCtx d src) s
    else enterWait x p s) s)

/-- GETT (R240): the cursor's low or high part, Reel's low part with the high part into the shadow, or the shadow. -/
def execSpGett (x : Tenant) (d a b : Fin 16) (part : BitVec 2) (s : State) : Host.Outcome State Fault Refusal :=
  .next (issue x (wordA 0x1B d a b (part.setWidth 14)) (fun s =>
    let now := s.reel.cnt
    retire x 1 (modCtx x (fun k =>
      match bits part 1 0 with
      | 0 => wr d (k.cursor.setWidth 32) k
      | 1 => wr d ((k.cursor >>> (32 : Nat)).setWidth 32) k
      | 2 => wr d (now.setWidth 32) { k with shadow := (now >>> (32 : Nat)).setWidth 16 }
      | _ => wr d (k.shadow.setWidth 32) k) s)) s)

/-- LD (R235): D := data[A + IMM]; a word address above 255 faults with code 5. -/
def execSpLd (x : Tenant) (d a : Fin 16) (imm : BitVec 18) (s : State) : Host.Outcome State Fault Refusal :=
  .next (issue x (wordI 0x34 d a imm) (fun s =>
    let w := (rd s.ctxs[x] a + immS imm).toNat
    if 255 < w then spoolFault x 5 s else retire x 1 (modCtx x (fun k => wr d (memWord k.data w) k) s)) s)

/-- ST (R235): data[A + IMM] := D. -/
def execSpSt (x : Tenant) (d a : Fin 16) (imm : BitVec 18) (s : State) : Host.Outcome State Fault Refusal :=
  .next (issue x (wordI 0x35 d a imm) (fun s =>
    let k := s.ctxs[x]
    let w := (rd k a + immS imm).toNat
    if 255 < w then spoolFault x 5 s
    else retire x 1 (modCtx x (fun k => { k with data := memPutWord k.data w (rd k d) }) s)) s)

/-- YIELD (R258): nothing but a clear budget watchdog. -/
def execSpYield (x : Tenant) (d a b : Fin 16) (s : State) : Host.Outcome State Fault Refusal :=
  .next (issue x (wordA 0x3F d a b 0) (fun s => modCtx x (fun k => { k with wdog := 0 }) (retire x 1 s)) s)

/-- HALT (R258): the carrier ramps down, held cores go to STANDBY, the buffers return, the run ends with ST_OK and w1.
Log entry 17 DEDUCED. -/
def execSpHalt (x : Tenant) (d a b : Fin 16) (s : State) : Host.Outcome State Fault Refusal :=
  .next (issue x (wordA 0x3F d a b 1) (fun s => endProgram x stOk (retire x 1 s)) s)

/-- WAITT_RELEASE (R210, R236): Reel has reached t under the half-range rule; the cursor takes t. -/
def execWaittRelease (x : Tenant) (now : Tick) (s : State) : Host.Outcome State Fault Refusal :=
  let s := advanceTo now s
  match pendIs x .waitt s with
  | some p => if reached s.reel.cnt p.until_ then .next (endWait x p.until_ id s) else .next s
  | none => .next s

/-- WAITD_RELEASE (R210, R237): release at cursor + n, to which the cursor moves. -/
def execWaitdRelease (x : Tenant) (now : Tick) (s : State) : Host.Outcome State Fault Refusal :=
  let s := advanceTo now s
  match pendIs x .waitd s with
  | some p => if reached s.reel.cnt p.until_ then .next (endWait x p.until_ id s) else .next s
  | none => .next s

/-- WAITE_RELEASE (R238, R239): a selected latch is set, or the timeout has come (B = 0 means none). -/
def execWaiteRelease (x : Tenant) (now : Tick) (s : State) : Host.Outcome State Fault Refusal :=
  let s := advanceTo now s
  match pendIs x .waite s with
  | some p =>
    let src : BitVec 4 := p.fn.setWidth 4
    if s.ctxs[x].latch &&& src != 0 then .next (endWait x s.reel.cnt (waiteCtx p.d src) s)
    else if p.a != 0 && reached s.reel.cnt p.until_ then .next (endWait x p.until_ (waiteCtx p.d src) s)
    else .next s
  | none => .next s

end Sys2Proof.Machine
end

