-- ==== Sys2Proof/Machine/SpoolCmds.lean ====
section
/-!
DEFINITION. The SPOOL commands (6.18), and RDR.RUN_SPOOL and LNK.RUN_SPOOL: loading an image, starting, stopping, resetting a
context.
-/
namespace Sys2Proof.Machine

/-- The largest .spl image (7.7). -/
def maxImage : Nat := 5156

/-- The header of an image holds what Table 7-5 allows, its length and its CRC-32 are right (R223). -/
def imageOk (b : Bytes) : Bool :=
  let code := fld b 8 2
  let data := fld b 10 2
  let n := fld b 12 1
  let entry := fun (i : Nat) => fld b (16 + 2 * i) 2
  decide (36 ≤ b.length ∧ fld b 0 4 = 0x1A4C5053 ∧ fld b 4 2 = 2 ∧ fld b 6 2 = 0 ∧ 1 ≤ code ∧ code ≤ 1024 ∧ data ≤ 256 ∧
    1 ≤ n ∧ n ≤ 8 ∧ fld b 13 3 = 0 ∧ b.length = 36 + 4 * (code + data)) &&
  (List.range 8).all (fun i => if i < n then decide (entry i < code) else entry i == 0xFFFF) &&
  fld b (b.length - 4) 4 == checkValue (cvuPreset 4) (b.take (b.length - 4))

/-- An empty slot: no image, program and data RAM of zeros, no load open (R200). -/
def emptySlot (k : Ctx) : Ctx :=
  { k with run := .idle, load := none, codeLen := 0, entries := [], code := [], data := [] }

/-- A checked image goes into the slot (R223). -/
def placeImage (b : Bytes) (k : Ctx) : Ctx :=
  let code := fld b 8 2
  { emptySlot k with
    codeLen := code
    entries := (List.range (fld b 12 1)).map fun i => fld b (16 + 2 * i) 2
    code := memPutAll [] 0 ((b.drop 32).take (4 * code))
    data := memPutAll [] 0 ((b.drop (32 + 4 * code)).take (4 * fld b 10 2)) }

/-- SPOOL.LOAD (R200, R206, R223). -/
def execSpoolLoad (c : Cmd) (s : State) : Host.Outcome State Fault Refusal :=
  .next (keelRun 0x9000 c (fun s =>
    let a := c.args
    let off := fld a 0 2
    let flags := fld a 2 1
    let len := fld a 3 2
    let k := s.ctxs[c.t]
    let got := k.load.getD []
    if a.length < 5 ∨ a.length ≠ 5 + len ∨ len < 1 ∨ 1000 < len ∨ 1 < flags then refuse c.t stBadArg s
    else if k.run == .running || k.run == .waiting then refuse c.t stBusy s
    else if off ≠ got.length ∨ maxImage < off + len then refuse c.t stBadArg s
    else
      let b := got ++ a.drop 5
      if flags = 0 then
        reply c.t stOk [] (modCtx c.t (fun k => { (if off = 0 then emptySlot k else k) with load := some b }) s)
      else if imageOk b then reply c.t stOk [BitVec.ofNat 8 (fld b 12 1)] (modCtx c.t (placeImage b) s)
      else refuse c.t stBadArg (modCtx c.t emptySlot s)) s)

/-- The registers of a context as a run begins (Table 7-4, R201, R209, R239). -/
def startCtx (how : Starter) (seq : BitVec 16) (pc : Nat) (w : Nat → Reg32) (k : Ctx) : Ctx :=
  { k with
    run := .running, starter := how, tseq := seq, pc := pc, fresh := true
    regs := Vector.ofFn fun i => if 1 ≤ i.val ∧ i.val ≤ 4 then w (i.val - 1) else 0
    z := false, c := false, n := false, stack := [], held := [], power := 0, cyc := 0, wdog := 0, latch := 0, ksel := none
    pend := none, fault := 0, lostR := false, lostL := false, tunedR := false, tunedL := false, ackTx := none
    start := some seq, issues := 0, stopping := none, early := [], wipe := false }

/-- Start the tenant's own program (R201, R207 to R209): the response waits for the program's first moments; `down` refuses for
the air that the command needs, `prof` loads its profile. -/
def startProgram (how : Starter) (c : Cmd) (down : State → Option Byte) (prof : Profile → Profile → Profile) (s : State) :
    State :=
  let e := fld c.args 0 1
  let k := s.ctxs[c.t]
  if c.args.length ≠ 17 ∨ 7 < e then refuse c.t stBadArg s
  else match down s with
    | some st => refuse c.t st s
    | none =>
      if ctxBusy k then refuse c.t stBusy s
      else match k.entries[e]? with
        | none => refuse c.t stBadArg s
        | some pc =>
          modCtx c.t (startCtx how c.seq pc fun i => BitVec.ofNat 32 (fld c.args (1 + 4 * i) 4))
            { s with loaded := vmod s.loaded c.t (prof s.prof[c.t]) }

/-- SPOOL.START (R201). -/
def execSpoolStart (c : Cmd) (s : State) : Host.Outcome State Fault Refusal :=
  .next (keelRun 0x9001 c (startProgram .spoolStart c (fun _ => none) (fun _ q => q)) s)

/-- RDR.RUN_SPOOL (R60, R85, R201, R290, R346, R557). -/
def execRdrRunSpool (c : Cmd) (s : State) : Host.Outcome State Fault Refusal :=
  .next (keelRun 0x1010 c (startProgram .rdrRunSpool c
    (fun s => match readerDown s with
      | some st => some st
      | none =>
        let p := s.prof[c.t]
        if paSniffBad p || feedBad p || readerProfileBad p then some stBadArg else none) loadReader) s)

/-- LNK.RUN_SPOOL (R85, R201, R404, R583). -/
def execLnkRunSpool (c : Cmd) (s : State) : Host.Outcome State Fault Refusal :=
  .next (keelRun 0x2010 c (startProgram .lnkRunSpool c
    (fun s => if inLimp s then some stLimp else if noSyn s then some stDegraded
      else if linkProfileBad s.prof[c.t] then some stBadArg else none) loadLink) s)

/-- The context runs a program of its tenant's own. -/
def ownRuns (k : Ctx) : Bool := inRun k && !isBuiltin k

/-- SPOOL.STOP (R181, R219). -/
def execSpoolStop (c : Cmd) (s : State) : Host.Outcome State Fault Refusal :=
  .next (keelRun 0x9002 c (fun s =>
    if c.args.length ≠ 0 ∨ !ownRuns s.ctxs[c.t] then refuse c.t stBadArg s
    else
      let st := if progCommitted c.t s then stLateCancel else stCancelled
      stopProgram c.t st (refuse c.t st s)) s)

/-- SPOOL.STATUS (6.18, R216). -/
def execSpoolStatus (c : Cmd) (s : State) : Host.Outcome State Fault Refusal :=
  .next (keelRun 0x9003 c (fun s =>
    let k := s.ctxs[c.t]
    if c.args.length ≠ 0 then refuse c.t stBadArg s
    else reply c.t stOk ([BitVec.ofNat 8 (ctxCode k s)] ++ leBytes 2 (pcNow k s) ++ [BitVec.ofNat 8 k.fault] ++
      leBytes 4 (cycNow k s)) s) s)

/-- SPOOL.RESET (R82, R220): what runs in the context ends, its epoch advances, its data RAM is zeroed once nothing runs there any more,
and its program is kept. -/
def execSpoolReset (c : Cmd) (s : State) : Host.Outcome State Fault Refusal :=
  .next (keelRun 0x90F0 c (fun s =>
    let t := c.t
    if c.args.length ≠ 0 then refuse t stBadArg s
    else
      let s := modCtx t (fun k => { k with
        load := none, data := if inRun k then k.data else [], wipe := inRun k, epoch := k.epoch + 1
        fault := 0, run := if k.run == .faulted then .idle else k.run })
        (reply t stOk [] s)
      let k := s.ctxs[t]
      if ownRuns k then stopProgram t stAbortedReset s
      else if inRun k then builtinReset t s
      else s) s)

end Sys2Proof.Machine
end

