-- ==== Sys2Proof/Machine/V1.lean ====
section
/-!
DEFINITION. V1 register mode on SPI-A (4.8): the registers of Table 4-10 and the rounds that V1_CTRL starts and stops.
-/
namespace Sys2Proof.Machine

/-- SPI-A speaks V1 (R43, R127). -/
def v1On (s : State) : Bool := s.power.strapV1 && live s

/-- The inventory that V1_CTRL started, if it runs. -/
def v1Inv (s : State) : Option Inv := (s.rdr.inv[0]).filter fun i => i.v1

/-- V1_STAT; FIFO_OVF and ERR show the flags of V1_IRQFLG. Log entry 29 DEDUCED. -/
def v1Stat (s : State) : Nat :=
  bitAt 0 (v1Inv s).isSome + bitAt 1 (!s.v1.fifo.isEmpty) + bitAt 2 (bit s.v1.irqflg 2) + bitAt 3 (bit s.v1.irqflg 3)

/-- Take a byte from V1_FIFO: the entries' bytes in order, 0 when it is empty (R132). -/
def v1Pop (s : State) : Byte × State :=
  match s.v1.fifo with
  | [] => (0, s)
  | [] :: r => (0, setV1 (fun v => { v with fifo := r }) s)
  | [b] :: r => (b, setV1 (fun v => { v with fifo := r }) s)
  | (b :: e) :: r => (b, setV1 (fun v => { v with fifo := e :: r }) s)

/-- What a V1 address reads (Table 4-10); an unlisted one reads 0 (R129). -/
def v1Reg (a : Nat) (s : State) : Byte :=
  let v := s.v1
  match a with
  | 0x00 => 0x20
  | 0x01 => 0x40
  | 0x03 => BitVec.ofNat 8 (v1Stat s)
  | 0x04 => v.irqen
  | 0x05 => v.irqflg
  | 0x06 => v.region
  | 0x07 => v.power
  | 0x08 => v.q
  | 0x09 => v.sess
  | 0x0A => v.link
  | 0x0B => v.asel
  | 0x0C => v.dwell
  | 0x10 => BitVec.ofNat 8 v.fifo.length
  | 0x12 => v.err
  | _ => 0

/-- Start rounds for T0 with the settings of the V1 registers; a refusal is kept in V1_ERR. -/
def v1Begin (single : Bool) (s : State) : State :=
  match rdrRefusal 0 false s with
  | some st => v1Error st s
  | none =>
    let v := s.v1
    let a : InvArgs :=
      { region := v.region.toNat, pset := BitVec.ofInt 16 (clampPower s.prof[0] v.power.toNat s), dur := 0,
        asel := BitVec.ofNat 4 (2 ^ (v.asel.toNat % 4)), sess := v.sess, sbank := 0, sptr := 0, slen := 0, smask := [] }
    invStart 0 a 0 true single (setV1 (fun v => { v with dwellFrom := s.reel.cnt }) s)

/-- Rounds end: at once before the slot's commit point, after the slot otherwise (R181). Log entry 29 DEDUCED. -/
def v1End (s : State) : State :=
  match v1Inv s with
  | none => s
  | some i =>
    if i.stage = .over ∨ (i.running ∧ pastCommit .reader s ∧ holds (.ctx 0) .reader s) then
      setInv 0 (some { i with ending := some (i.ending.getD stOk) }) s
    else invDone 0 stOk s

/-- V1_CTRL: the bits act from the lowest up. Log entry 29 DEDUCED. -/
def v1Ctrl (w : Byte) (s : State) : State :=
  let s := if bit w 0 then v1Begin false s else s
  let s := if bit w 1 then v1End s else s
  if bit w 2 then v1Begin true s else s

/-- V1_REGION: 0 or 1; another value is an error and is not taken. Log entry 29 DEDUCED. -/
def v1Region (w : Byte) (s : State) : State :=
  if w.toNat < 2 then setV1 (fun v => { v with region := w }) s else v1Error stBadArg s

/-- V1_LINK: a reserved code is an error and leaves the register (R133). Log entry 29 DEDUCED. -/
def v1Link (w : Byte) (s : State) : State :=
  if bits w 4 2 < 6 ∧ bits w 6 5 < 3 then setV1 (fun v => { v with link := w &&& 0x7F }) s else v1Error stBadArg s

/-- V1_POWER: above +20 dBm it stops there; the ceiling of R61 applies as a carrier starts. -/
def v1Power (w : Byte) : State → State := setV1 fun v => { v with power := if 0x50 < w.toNat then 0x50 else w }

/-- V1_IRQFLG: ones clear (R131, R619). -/
def v1Clear (w : Byte) : State → State := setV1 fun v => { v with irqflg := v.irqflg &&& ~~~w }

/-- A V1 address takes a byte; RO and unlisted ones ignore it (R129). -/
def v1Put (a : Nat) (w : Byte) (s : State) : State :=
  match a with
  | 0x02 => v1Ctrl w s
  | 0x04 => setV1 (fun v => { v with irqen := w &&& 0x0F }) s
  | 0x05 => v1Clear w s
  | 0x06 => v1Region w s
  | 0x07 => v1Power w s
  | 0x08 => setV1 (fun v => { v with q := w &&& 0x1F }) s
  | 0x09 => setV1 (fun v => { v with sess := w &&& 0x07 }) s
  | 0x0A => v1Link w s
  | 0x0B => setV1 (fun v => { v with asel := w &&& 0x03 }) s
  | 0x0C => setV1 (fun v => { v with dwell := w }) s
  | _ => s

/-- The next address of a transaction: it stays at V1_FIFO (R127). The spec does not say what follows 0xFF; the 8-bit address goes
on at 0x00: log entry 29 DESIGN CHOICE. -/
def v1Next (a : Nat) : Nat := if a = 0x11 then a else (a + 1) % 256

/-- Write the data bytes of a transaction. -/
def v1Writes : Nat → Bytes → State → State
  | _, [], s => s
  | a, b :: r, s => v1Writes (v1Next a) r (v1Put a b s)

/-- Read n data bytes. -/
def v1Reads : Nat → Nat → State → Bytes × State
  | 0, _, s => ([], s)
  | n + 1, a, s =>
    let (b, s) := if a = 0x11 then v1Pop s else (v1Reg a s, s)
    let (r, s) := v1Reads n (v1Next a) s
    (b :: r, s)

/-- V1_TRANSACTION (R127, R129): control byte, address, data. -/
def execV1Transaction (sdi : Bytes) (s : State) : Host.Outcome State Fault Refusal :=
  if !v1On s then .next s
  else match sdi with
  | ctl :: a :: data =>
    if ctl = 0x02 then .next (v1Writes a.toNat data s)
    else if ctl = 0x03 then
      let (out, s) := v1Reads data.length a.toNat s
      .next (setV1 (fun v => { v with out := out }) s)
    else .next s
  | _ => .next s

/-- V1_START: bit 0 of V1_CTRL. -/
def execV1Start (s : State) : Host.Outcome State Fault Refusal := .next (if v1On s then v1Begin false s else s)

/-- V1_STOP: bit 1 of V1_CTRL. -/
def execV1Stop (s : State) : Host.Outcome State Fault Refusal := .next (if v1On s then v1End s else s)

/-- V1_SINGLE: bit 2 of V1_CTRL. -/
def execV1Single (s : State) : Host.Outcome State Fault Refusal := .next (if v1On s then v1Begin true s else s)

/-- V1_FIFO_READ (R132): one byte is read at V1_FIFO. -/
def execV1FifoRead (s : State) : Host.Outcome State Fault Refusal :=
  if v1On s then
    let (b, s) := v1Pop s
    .next (setV1 (fun v => { v with out := [b] }) s)
  else .next s

/-- V1_IRQFLG_CLEAR (R131). -/
def execV1IrqflgClear (mask : Byte) (s : State) : Host.Outcome State Fault Refusal :=
  .next (if v1On s then v1Clear mask s else s)

/-- V1_REGION_WRITE (Table 4-10). -/
def execV1RegionWrite (v : Byte) (s : State) : Host.Outcome State Fault Refusal :=
  .next (if v1On s then v1Region v s else s)

/-- V1_LINK_WRITE (R133). -/
def execV1LinkWrite (v : Byte) (s : State) : Host.Outcome State Fault Refusal :=
  .next (if v1On s then v1Link v s else s)

/-- V1_POWER_WRITE (Table 4-10). -/
def execV1PowerWrite (v : Byte) (s : State) : Host.Outcome State Fault Refusal :=
  .next (if v1On s then v1Power v s else s)

/-- V1_DWELL_EXPIRY: continuous rounds have run for V1_DWELL times 10 ms since they were started.
Log entry 29 DEDUCED. -/
def execV1DwellExpiry (now : Tick) (s : State) : Host.Outcome State Fault Refusal :=
  let s := advanceTo now s
  match v1Inv s with
  | none => .next s
  | some i =>
    let n := s.v1.dwell.toNat
    .next (if !i.single && n != 0 && reached s.reel.cnt (s.v1.dwellFrom + BitVec.ofNat 48 (n * 240000)) then v1End s else s)

end Sys2Proof.Machine
end

