-- ==== Sys2Proof/Machine/Dispatch.lean ====
section
/-!
DEFINITION. One arm per row of the table: each calls the meaning of its row.
-/
namespace Sys2Proof.Machine

def exec (i : Instr) (s : State) : Host.Outcome State Fault Refusal :=
  match i with
  | .sysInfo c => Sys2Proof.Machine.execSysInfo c s
  | .sysSleep c => Sys2Proof.Machine.execSysSleep c s
  | .sysReset c vhu f => Sys2Proof.Machine.execSysReset c vhu f s
  | .sysPatch c => Sys2Proof.Machine.execSysPatch c s
  | .regRead c => Sys2Proof.Machine.execRegRead c s
  | .regWrite c => Sys2Proof.Machine.execRegWrite c s
  | .tenBind c => Sys2Proof.Machine.execTenBind c s
  | .tenLock c => Sys2Proof.Machine.execTenLock c s
  | .tenShare c => Sys2Proof.Machine.execTenShare c s
  | .rdrInventory c => Sys2Proof.Machine.execRdrInventory c s
  | .rdrStop c => Sys2Proof.Machine.execRdrStop c s
  | .rdrAccess c => Sys2Proof.Machine.execRdrAccess c s
  | .rdrSniff c => Sys2Proof.Machine.execRdrSniff c s
  | .rdrBaseline c bursts => Sys2Proof.Machine.execRdrBaseline c bursts s
  | .rdrRunSpool c => Sys2Proof.Machine.execRdrRunSpool c s
  | .rdrReset c => Sys2Proof.Machine.execRdrReset c s
  | .tagEnable c => Sys2Proof.Machine.execTagEnable c s
  | .tagDisable c => Sys2Proof.Machine.execTagDisable c s
  | .tagPublish c => Sys2Proof.Machine.execTagPublish c s
  | .secTam1 c => Sys2Proof.Machine.execSecTam1 c s
  | .secFarzOpen c => Sys2Proof.Machine.execSecFarzOpen c s
  | .secFarzSend c => Sys2Proof.Machine.execSecFarzSend c s
  | .secClose c => Sys2Proof.Machine.execSecClose c s
  | .lnkNode c => Sys2Proof.Machine.execLnkNode c s
  | .lnkSend c => Sys2Proof.Machine.execLnkSend c s
  | .lnkListen c => Sys2Proof.Machine.execLnkListen c s
  | .lnkCancel c => Sys2Proof.Machine.execLnkCancel c s
  | .lnkRunSpool c => Sys2Proof.Machine.execLnkRunSpool c s
  | .lnkReset c => Sys2Proof.Machine.execLnkReset c s
  | .nbrList c => Sys2Proof.Machine.execNbrList c s
  | .nbrForget c => Sys2Proof.Machine.execNbrForget c s
  | .radioStatus c => Sys2Proof.Machine.execRadioStatus c s
  | .coexConfig c => Sys2Proof.Machine.execCoexConfig c s
  | .radioHoptable c => Sys2Proof.Machine.execRadioHoptable c s
  | .tmrRead c => Sys2Proof.Machine.execTmrRead c s
  | .tmrCmp c => Sys2Proof.Machine.execTmrCmp c s
  | .tmrDc c => Sys2Proof.Machine.execTmrDc c s
  | .tmrGo c => Sys2Proof.Machine.execTmrGo c s
  | .tmrCap c => Sys2Proof.Machine.execTmrCap c s
  | .tmrOut c => Sys2Proof.Machine.execTmrOut c s
  | .keyDerive c => Sys2Proof.Machine.execKeyDerive c s
  | .keyUnwrap c => Sys2Proof.Machine.execKeyUnwrap c s
  | .keyErase c => Sys2Proof.Machine.execKeyErase c s
  | .keyInvalidate c => Sys2Proof.Machine.execKeyInvalidate c s
  | .keyInfo c => Sys2Proof.Machine.execKeyInfo c s
  | .keyTamper c pinHigh => Sys2Proof.Machine.execKeyTamper c pinHigh s
  | .rngGet c => Sys2Proof.Machine.execRngGet c s
  | .cryptoAes c => Sys2Proof.Machine.execCryptoAes c s
  | .cryptoCcm c => Sys2Proof.Machine.execCryptoCcm c s
  | .cryptoCmac c => Sys2Proof.Machine.execCryptoCmac c s
  | .cryptoReset c => Sys2Proof.Machine.execCryptoReset c s
  | .mbxBind c => Sys2Proof.Machine.execMbxBind c s
  | .mbxLock c => Sys2Proof.Machine.execMbxLock c s
  | .mbxWrite c => Sys2Proof.Machine.execMbxWrite c s
  | .mbxRead c => Sys2Proof.Machine.execMbxRead c s
  | .semTake c => Sys2Proof.Machine.execSemTake c s
  | .semGive c => Sys2Proof.Machine.execSemGive c s
  | .cvuSet c => Sys2Proof.Machine.execCvuSet c s
  | .cvuRun c => Sys2Proof.Machine.execCvuRun c s
  | .nvmRead c => Sys2Proof.Machine.execNvmRead c s
  | .nvmWrite c => Sys2Proof.Machine.execNvmWrite c s
  | .nvmBallast c => Sys2Proof.Machine.execNvmBallast c s
  | .nvmStatus c => Sys2Proof.Machine.execNvmStatus c s
  | .ledgerConfig c => Sys2Proof.Machine.execLedgerConfig c s
  | .ledgerOwner c => Sys2Proof.Machine.execLedgerOwner c s
  | .ledgerRead c => Sys2Proof.Machine.execLedgerRead c s
  | .ledgerAck c => Sys2Proof.Machine.execLedgerAck c s
  | .ledgerStatus c => Sys2Proof.Machine.execLedgerStatus c s
  | .clockSet c => Sys2Proof.Machine.execClockSet c s
  | .measSnapshot c smp => Sys2Proof.Machine.execMeasSnapshot c smp s
  | .measSweep c => Sys2Proof.Machine.execMeasSweep c s
  | .measSubscribe c => Sys2Proof.Machine.execMeasSubscribe c s
  | .measPartners c => Sys2Proof.Machine.execMeasPartners c s
  | .mendStatus c => Sys2Proof.Machine.execMendStatus c s
  | .mendWindow c => Sys2Proof.Machine.execMendWindow c s
  | .spoolLoad c => Sys2Proof.Machine.execSpoolLoad c s
  | .spoolStart c => Sys2Proof.Machine.execSpoolStart c s
  | .spoolStop c => Sys2Proof.Machine.execSpoolStop c s
  | .spoolStatus c => Sys2Proof.Machine.execSpoolStatus c s
  | .spoolReset c => Sys2Proof.Machine.execSpoolReset c s
  | .cmpRegisterWrite c => Sys2Proof.Machine.execCmpRegisterWrite c s
  | .reelGoWrite c => Sys2Proof.Machine.execReelGoWrite c s
  | .dcCfgWrite c => Sys2Proof.Machine.execDcCfgWrite c s
  | .dcRldWrite c => Sys2Proof.Machine.execDcRldWrite c s
  | .dcSleptClear c => Sys2Proof.Machine.execDcSleptClear c s
  | .capOvrClear c => Sys2Proof.Machine.execCapOvrClear c s
  | .toutCtlActWrite c => Sys2Proof.Machine.execToutCtlActWrite c s
  | .capV2Read c => Sys2Proof.Machine.execCapV2Read c s
  | .dcCnt0Read c => Sys2Proof.Machine.execDcCnt0Read c s
  | .kslotLinkRead c => Sys2Proof.Machine.execKslotLinkRead c s
  | .gdlCollClear c => Sys2Proof.Machine.execGdlCollClear c s
  | .port3DivWrite c => Sys2Proof.Machine.execPort3DivWrite c s
  | .coexCfgWrite c => Sys2Proof.Machine.execCoexCfgWrite c s
  | .splDataAccess c write => Sys2Proof.Machine.execSplDataAccess c write s
  | .v1Transaction sdi => Sys2Proof.Machine.execV1Transaction sdi s
  | .v1Start => Sys2Proof.Machine.execV1Start s
  | .v1Stop => Sys2Proof.Machine.execV1Stop s
  | .v1Single => Sys2Proof.Machine.execV1Single s
  | .v1FifoRead => Sys2Proof.Machine.execV1FifoRead s
  | .v1IrqflgClear mask => Sys2Proof.Machine.execV1IrqflgClear mask s
  | .v1RegionWrite v => Sys2Proof.Machine.execV1RegionWrite v s
  | .v1LinkWrite v => Sys2Proof.Machine.execV1LinkWrite v s
  | .v1PowerWrite v => Sys2Proof.Machine.execV1PowerWrite v s
  | .v1DwellExpiry now => Sys2Proof.Machine.execV1DwellExpiry now s
  | .spAdd x d a b => Sys2Proof.Machine.execSpAdd x d a b s
  | .spSub x d a b => Sys2Proof.Machine.execSpSub x d a b s
  | .spAnd x d a b => Sys2Proof.Machine.execSpAnd x d a b s
  | .spOr x d a b => Sys2Proof.Machine.execSpOr x d a b s
  | .spXor x d a b => Sys2Proof.Machine.execSpXor x d a b s
  | .spShl x d a b => Sys2Proof.Machine.execSpShl x d a b s
  | .spShr x d a b => Sys2Proof.Machine.execSpShr x d a b s
  | .spAsr x d a b => Sys2Proof.Machine.execSpAsr x d a b s
  | .spMul x d a b => Sys2Proof.Machine.execSpMul x d a b s
  | .spCmp x a b => Sys2Proof.Machine.execSpCmp x a b s
  | .spAddi x d a imm => Sys2Proof.Machine.execSpAddi x d a imm s
  | .spAndi x d a imm => Sys2Proof.Machine.execSpAndi x d a imm s
  | .spOri x d a imm => Sys2Proof.Machine.execSpOri x d a imm s
  | .spXori x d a imm => Sys2Proof.Machine.execSpXori x d a imm s
  | .spCmpi x a imm => Sys2Proof.Machine.execSpCmpi x a imm s
  | .spLui x d imm => Sys2Proof.Machine.execSpLui x d imm s
  | .spJ x cond target => Sys2Proof.Machine.execSpJ x cond target s
  | .spCall x cond target => Sys2Proof.Machine.execSpCall x cond target s
  | .spRet x cond => Sys2Proof.Machine.execSpRet x cond s
  | .spJr x a => Sys2Proof.Machine.execSpJr x a s
  | .spDjnz x d imm => Sys2Proof.Machine.execSpDjnz x d imm s
  | .spWaitt x d a b off => Sys2Proof.Machine.execSpWaitt x d a b off s
  | .spWaitd x a imm => Sys2Proof.Machine.execSpWaitd x a imm s
  | .spWaite x d a b src => Sys2Proof.Machine.execSpWaite x d a b src s
  | .spGett x d a b part => Sys2Proof.Machine.execSpGett x d a b part s
  | .spHop x d a noWait => Sys2Proof.Machine.execSpHop x d a noWait s
  | .spPwr x d a noWait => Sys2Proof.Machine.execSpPwr x d a noWait s
  | .spAsel x d a noWait => Sys2Proof.Machine.execSpAsel x d a noWait s
  | .spTxcw x d on noWait => Sys2Proof.Machine.execSpTxcw x d on noWait s
  | .spTxsym x d a b src pre qry noWait => Sys2Proof.Machine.execSpTxsym x d a b src pre qry noWait s
  | .spRxwin x d a b count pclen crc noWait => Sys2Proof.Machine.execSpRxwin x d a b count pclen crc noWait s
  | .spRssi x d noWait => Sys2Proof.Machine.execSpRssi x d noWait s
  | .spSniff x d noWait => Sys2Proof.Machine.execSpSniff x d noWait s
  | .spRfoff x d noWait => Sys2Proof.Machine.execSpRfoff x d noWait s
  | .spLch x d a txi noWait => Sys2Proof.Machine.execSpLch x d a txi noWait s
  | .spLtx x d a sf smode ack fcs noWait => Sys2Proof.Machine.execSpLtx x d a sf smode ack fcs noWait s
  | .spLrx x d a b lanes noWait => Sys2Proof.Machine.execSpLrx x d a b lanes noWait s
  | .spLcca x d txi noWait => Sys2Proof.Machine.execSpLcca x d txi noWait s
  | .spLoff x d noWait => Sys2Proof.Machine.execSpLoff x d noWait s
  | .spLd x d a imm => Sys2Proof.Machine.execSpLd x d a imm s
  | .spSt x d a imm => Sys2Proof.Machine.execSpSt x d a imm s
  | .spBufAlloc x d => Sys2Proof.Machine.execSpBufAlloc x d s
  | .spBufFree x d a => Sys2Proof.Machine.execSpBufFree x d a s
  | .spBufRdw x d a b => Sys2Proof.Machine.execSpBufRdw x d a b s
  | .spBufWrw x d a b => Sys2Proof.Machine.execSpBufWrw x d a b s
  | .spBufLen x d a => Sys2Proof.Machine.execSpBufLen x d a s
  | .spBufSetlen x d a b => Sys2Proof.Machine.execSpBufSetlen x d a b s
  | .spKsel x d a b => Sys2Proof.Machine.execSpKsel x d a b s
  | .spAesb x d a b decrypt => Sys2Proof.Machine.execSpAesb x d a b decrypt s
  | .spCrc x d a b preset mode => Sys2Proof.Machine.execSpCrc x d a b preset mode s
  | .spRng x d a b => Sys2Proof.Machine.execSpRng x d a b s
  | .spPost x d a b n hand => Sys2Proof.Machine.execSpPost x d a b n hand s
  | .spEvt x d a kind => Sys2Proof.Machine.execSpEvt x d a kind s
  | .spTout x d act => Sys2Proof.Machine.execSpTout x d act s
  | .spYield x d a b => Sys2Proof.Machine.execSpYield x d a b s
  | .spHalt x d a b => Sys2Proof.Machine.execSpHalt x d a b s
  | .spMread x d a b => Sys2Proof.Machine.execSpMread x d a b s
  | .spIllegal x word => Sys2Proof.Machine.execSpIllegal x word s
  | .waittRelease x now => Sys2Proof.Machine.execWaittRelease x now s
  | .waitdRelease x now => Sys2Proof.Machine.execWaitdRelease x now s
  | .waiteRelease x now => Sys2Proof.Machine.execWaiteRelease x now s
  | .hopComplete x now cal => Sys2Proof.Machine.execHopComplete x now cal s
  | .txcwComplete x now pafb pacur => Sys2Proof.Machine.execTxcwComplete x now pafb pacur s
  | .txsymComplete x now => Sys2Proof.Machine.execTxsymComplete x now s
  | .rxwinComplete x now reply => Sys2Proof.Machine.execRxwinComplete x now reply s
  | .sniffComplete x now g => Sys2Proof.Machine.execSniffComplete x now g s
  | .rfoffComplete x now => Sys2Proof.Machine.execRfoffComplete x now s
  | .lchComplete x now cal => Sys2Proof.Machine.execLchComplete x now cal s
  | .ltxComplete x now => Sys2Proof.Machine.execLtxComplete x now s
  | .lrxComplete x now frame => Sys2Proof.Machine.execLrxComplete x now frame s
  | .lccaComplete x now dbm => Sys2Proof.Machine.execLccaComplete x now dbm s
  | .loffComplete x now => Sys2Proof.Machine.execLoffComplete x now s
  | .kselComplete x now => Sys2Proof.Machine.execKselComplete x now s
  | .aesbComplete x now => Sys2Proof.Machine.execAesbComplete x now s
  | .rngComplete x now => Sys2Proof.Machine.execRngComplete x now s
  | .airGrant now => Sys2Proof.Machine.execAirGrant now s
  | .noWaitAirDenied x now => Sys2Proof.Machine.execNoWaitAirDenied x now s
  | .budgetWatchdog x => Sys2Proof.Machine.execBudgetWatchdog x s
  | .hostFrame p bus data lag => Sys2Proof.Machine.execHostFrame p bus data lag s
  | .spiInvalidTransaction p first => Sys2Proof.Machine.execSpiInvalidTransaction p first s
  | .frameAbort p => Sys2Proof.Machine.execFrameAbort p s
  | .uartGapTimeout => Sys2Proof.Machine.execUartGapTimeout s
  | .uartFramingError => Sys2Proof.Machine.execUartFramingError s
  | .outgoingFrameDelivered p bus => Sys2Proof.Machine.execOutgoingFrameDelivered p bus s
  | .uartHdxReply n => Sys2Proof.Machine.execUartHdxReply n s
  | .spiPortResetSequence p => Sys2Proof.Machine.execSpiPortResetSequence p s
  | .i2cStuckBus => Sys2Proof.Machine.execI2cStuckBus s
  | .uartBreak => Sys2Proof.Machine.execUartBreak s
  | .vioReturn => Sys2Proof.Machine.execVioReturn s
  | .presenceTimeout p now => Sys2Proof.Machine.execPresenceTimeout p now s
  | .powerOnReset => Sys2Proof.Machine.execPowerOnReset s
  | .nreset ns => Sys2Proof.Machine.execNreset ns s
  | .resetRelease spaSdo addr1 addr0 test f => Sys2Proof.Machine.execResetRelease spaSdo addr1 addr0 test f s
  | .startComplete => Sys2Proof.Machine.execStartComplete s
  | .keelWatchdogExpiry f => Sys2Proof.Machine.execKeelWatchdogExpiry f s
  | .xo24Timeout => Sys2Proof.Machine.execXo24Timeout s
  | .xo32Timeout => Sys2Proof.Machine.execXo32Timeout s
  | .xo32Stop => Sys2Proof.Machine.execXo32Stop s
  | .wakePin => Sys2Proof.Machine.execWakePin s
  | .portWakeEdge e addr => Sys2Proof.Machine.execPortWakeEdge e addr s
  | .wakeComplete aonCycles => Sys2Proof.Machine.execWakeComplete aonCycles s
  | .regulatorTimeout => Sys2Proof.Machine.execRegulatorTimeout s
  | .sleepEntry now vhu => Sys2Proof.Machine.execSleepEntry now vhu s
  | .pwrfail now ns vhu headerLanded => Sys2Proof.Machine.execPwrfail now ns vhu headerLanded s
  | .holdEntry => Sys2Proof.Machine.execHoldEntry s
  | .pwrfailClear => Sys2Proof.Machine.execPwrfailClear s
  | .deepCalibration core now temp => Sys2Proof.Machine.execDeepCalibration core now temp s
  | .coexGntChange now ns level => Sys2Proof.Machine.execCoexGntChange now ns level s
  | .coexLeadElapsed now => Sys2Proof.Machine.execCoexLeadElapsed now s
  | .coexWaitExpiry now => Sys2Proof.Machine.execCoexWaitExpiry now s
  | .roundEnd x now => Sys2Proof.Machine.execRoundEnd x now s
  | .inventoryDurExpiry x now => Sys2Proof.Machine.execInventoryDurExpiry x now s
  | .fccBudgetWaitEnd x now => Sys2Proof.Machine.execFccBudgetWaitEnd x now s
  | .etsiReturnWaitEnd x now => Sys2Proof.Machine.execEtsiReturnWaitEnd x now s
  | .sniffBurstDue now => Sys2Proof.Machine.execSniffBurstDue now s
  | .paIlimTrip now => Sys2Proof.Machine.execPaIlimTrip now s
  | .compensationRecompute smp => Sys2Proof.Machine.execCompensationRecompute smp s
  | .linkCompensation smp => Sys2Proof.Machine.execLinkCompensation smp s
  | .cancellerConverged tapL jammerDbm suppHalfDb => Sys2Proof.Machine.execCancellerConverged tapL jammerDbm suppHalfDb s
  | .tapLSaturation => Sys2Proof.Machine.execTapLSaturation s
  | .rxGainStep now levelDbm => Sys2Proof.Machine.execRxGainStep now levelDbm s
  | .adcClip now => Sys2Proof.Machine.execAdcClip now s
  | .fieldQualified now levelDbm => Sys2Proof.Machine.execFieldQualified now levelDbm s
  | .fieldDrop now => Sys2Proof.Machine.execFieldDrop now s
  | .tagSelect target action bank ptr mask => Sys2Proof.Machine.execTagSelect target action bank ptr mask s
  | .tagQuery sel sess targetB dr m trext trcal => Sys2Proof.Machine.execTagQuery sel sess targetB dr m trext trcal s
  | .tagAck rn16 => Sys2Proof.Machine.execTagAck rn16 s
  | .tagRead handle bank ptr count => Sys2Proof.Machine.execTagRead handle bank ptr count s
  | .fz1Received handle msg now => Sys2Proof.Machine.execFz1Received handle msg now s
  | .fz3Received handle msg now => Sys2Proof.Machine.execFz3Received handle msg now s
  | .tam1Received handle msg => Sys2Proof.Machine.execTam1Received handle msg s
  | .sessionMessage handle msg => Sys2Proof.Machine.execSessionMessage handle msg s
  | .readoutRead off len => Sys2Proof.Machine.execReadoutRead off len s
  | .readoutInfo now => Sys2Proof.Machine.execReadoutInfo now s
  | .readoutClose => Sys2Proof.Machine.execReadoutClose s
  | .authBackoffExpiry now => Sys2Proof.Machine.execAuthBackoffExpiry now s
  | .fz2Reply x msg rateHz now => Sys2Proof.Machine.execFz2Reply x msg rateHz now s
  | .fz3Reply x msg rateHz now => Sys2Proof.Machine.execFz3Reply x msg rateHz now s
  | .sessionReply x msg rateHz now => Sys2Proof.Machine.execSessionReply x msg rateHz now s
  | .tam1Response x msg rateHz now => Sys2Proof.Machine.execTam1Response x msg rateHz now s
  | .tagReplyTimeout x now => Sys2Proof.Machine.execTagReplyTimeout x now s
  | .sessionIdleTimeout x now => Sys2Proof.Machine.execSessionIdleTimeout x now s
  | .sessionDwellHop x now cal => Sys2Proof.Machine.execSessionDwellHop x now cal s
  | .laneDetection found now => Sys2Proof.Machine.execLaneDetection found now s
  | .diversityDecision here there => Sys2Proof.Machine.execDiversityDecision here there s
  | .sfdTimeout now => Sys2Proof.Machine.execSfdTimeout now s
  | .phrReceived len hcs asksAck => Sys2Proof.Machine.execPhrReceived len hcs asksAck s
  | .linkFrameReceived f now => Sys2Proof.Machine.execLinkFrameReceived f now s
  | .ackTransmit now => Sys2Proof.Machine.execAckTransmit now s
  | .beaconDue now => Sys2Proof.Machine.execBeaconDue now s
  | .sendTimeDue now => Sys2Proof.Machine.execSendTimeDue now s
  | .csmaBackoffEnd now => Sys2Proof.Machine.execCsmaBackoffEnd now s
  | .ccaResult now dbm => Sys2Proof.Machine.execCcaResult now dbm s
  | .linkTxEnd now => Sys2Proof.Machine.execLinkTxEnd now s
  | .ackReceived now f => Sys2Proof.Machine.execAckReceived now f s
  | .ackWindowExpiry now => Sys2Proof.Machine.execAckWindowExpiry now s
  | .nbrAgeing now => Sys2Proof.Machine.execNbrAgeing now s
  | .listenDurExpiry x now => Sys2Proof.Machine.execListenDurExpiry x now s
  | .compareFire k now => Sys2Proof.Machine.execCompareFire k now s
  | .compareWakeLead aonCycles => Sys2Proof.Machine.execCompareWakeLead aonCycles s
  | .dcFire n now => Sys2Proof.Machine.execDcFire n now s
  | .captureEdge n rising now => Sys2Proof.Machine.execCaptureEdge n rising now s
  | .toutPulseEnd n now => Sys2Proof.Machine.execToutPulseEnd n now s
  | .tamperAssertion now => Sys2Proof.Machine.execTamperAssertion now s
  | .drbgReseed passed => Sys2Proof.Machine.execDrbgReseed passed s
  | .entropyRetry passed => Sys2Proof.Machine.execEntropyRetry passed s
  | .blockReply block x epoch => Sys2Proof.Machine.execBlockReply block x epoch s
  | .storeCommit vhu badWrites => Sys2Proof.Machine.execStoreCommit vhu badWrites s
  | .ballastRecheck now vhu badWrites => Sys2Proof.Machine.execBallastRecheck now vhu badWrites s
  | .wearMoveStep => Sys2Proof.Machine.execWearMoveStep s
  | .coldSectorMove sector => Sys2Proof.Machine.execColdSectorMove sector s
  | .intervalBoundary now => Sys2Proof.Machine.execIntervalBoundary now s
  | .ledgerSealLanded => Sys2Proof.Machine.execLedgerSealLanded s
  | .surveySample now smp => Sys2Proof.Machine.execSurveySample now smp s
  | .scheduledSweep now => Sys2Proof.Machine.execScheduledSweep now s
  | .sweepTimeout now => Sys2Proof.Machine.execSweepTimeout now s
  | .sweepComplete now => Sys2Proof.Machine.execSweepComplete now s
  | .telemetrySnapshot now smp => Sys2Proof.Machine.execTelemetrySnapshot now smp s
  | .daylightWindowOpen now => Sys2Proof.Machine.execDaylightWindowOpen now s
  | .mendStep now found => Sys2Proof.Machine.execMendStep now found s
  | .daylightWindowEnd => Sys2Proof.Machine.execDaylightWindowEnd s
  | .sramCorrection bank row now => Sys2Proof.Machine.execSramCorrection bank row now s
  | .uncorrectableSramError bank row vhu f => Sys2Proof.Machine.execUncorrectableSramError bank row vhu f s
  | .synthCheckCalibration core passed => Sys2Proof.Machine.execSynthCheckCalibration core passed s
  | .mendResourceSwitch r => Sys2Proof.Machine.execMendResourceSwitch r s
  | .unassignedOpcode c op => Sys2Proof.Machine.execUnassignedOpcode c op s
  | .xo32Ready => Sys2Proof.Machine.execXo32Ready s
  | .vioLoss => Sys2Proof.Machine.execVioLoss s
  | .partialDelivery p bus n => Sys2Proof.Machine.execPartialDelivery p bus n s
  | .sweepPointDone now g => Sys2Proof.Machine.execSweepPointDone now g s

end Sys2Proof.Machine
end

