-- ==== Sys2Proof/Machine/Step.lean ====
section
/-!
DEFINITION. One step of the part: the command at the front of the queue is taken and carried out; with no command waiting
the part idles for one Reel tick.
-/
namespace Sys2Proof.Machine

/-- Take the front command and run it with the queue's rest; on an empty queue let one Reel tick pass.
Log entries 2 DESIGN CHOICE, 62 DESIGN CHOICE. -/
def step (s : State) : Host.Outcome State Fault Refusal :=
  match s.pending with
  | [] => .next (idleTick s)
  | c :: rest => exec c { s with pending := rest }

/-- The command that a word spells, put at the front of the queue; no word spells one. Log entry 62 DESIGN CHOICE. -/
def State.withFetchWord (s : State) (nbits w : Nat) : State :=
  match decodeTableWord nbits w with
  | some c => { s with pending := c :: s.pending }
  | none => s

end Sys2Proof.Machine
end

