-- ==== Sys2Proof/Machine/SpoolWords.lean ====
section
/-!
DEFINITION. Spool's instruction decoder (R225, R226): the word of every Spool row, and the row that a word spells.
-/
namespace Sys2Proof.Machine

/-- A register field of a word, from bit `lo` on (Table 8-2). -/
def regField (w : BitVec 32) (lo : Nat) : Fin 16 := ⟨w.toNat / 2 ^ lo % 16, Nat.mod_lt _ (by decide)⟩

/-- The word of a Spool row, with the context it issues in (Tables 8-2, 8-4 to 8-8); no other row is a word. -/
def spoolWord : Instr → Option (Tenant × BitVec 32)
  | .spAdd x d a b => some (x, wordA 0x00 d a b 0)
  | .spSub x d a b => some (x, wordA 0x01 d a b 0)
  | .spAnd x d a b => some (x, wordA 0x02 d a b 0)
  | .spOr x d a b => some (x, wordA 0x03 d a b 0)
  | .spXor x d a b => some (x, wordA 0x04 d a b 0)
  | .spShl x d a b => some (x, wordA 0x05 d a b 0)
  | .spShr x d a b => some (x, wordA 0x06 d a b 0)
  | .spAsr x d a b => some (x, wordA 0x07 d a b 0)
  | .spMul x d a b => some (x, wordA 0x08 d a b 0)
  | .spCmp x a b => some (x, wordA 0x09 0 a b 0)
  | .spAddi x d a imm => some (x, wordI 0x0A d a imm)
  | .spAndi x d a imm => some (x, wordI 0x0B d a imm)
  | .spOri x d a imm => some (x, wordI 0x0C d a imm)
  | .spXori x d a imm => some (x, wordI 0x0D d a imm)
  | .spCmpi x a imm => some (x, wordI 0x0E 0 a imm)
  | .spLui x d imm => some (x, wordI 0x0F d 0 imm)
  | .spJ x cond target => some (x, wordJ 0x10 cond target)
  | .spCall x cond target => some (x, wordJ 0x11 cond target)
  | .spRet x cond => some (x, wordJ 0x12 cond 0)
  | .spJr x a => some (x, wordA 0x13 0 a 0 0)
  | .spDjnz x d imm => some (x, wordI 0x14 d 0 imm)
  | .spWaitt x d a b off => some (x, wordA 0x18 d a b off)
  | .spWaitd x a imm => some (x, wordI 0x19 0 a imm)
  | .spWaite x d a b src => some (x, wordA 0x1A d a b (src.setWidth 14))
  | .spGett x d a b part => some (x, wordA 0x1B d a b (part.setWidth 14))
  | .spHop x d a nw => some (x, wordA 0x20 d a 0 (fnNoWait nw))
  | .spPwr x d a nw => some (x, wordA 0x21 d a 0 (fnNoWait nw))
  | .spAsel x d a nw => some (x, wordA 0x22 d a 0 (fnNoWait nw))
  | .spTxcw x d on nw => some (x, wordA 0x23 d 0 0 (fnBit 0 on ||| fnNoWait nw))
  | .spTxsym x d a b src pre qry nw =>
    some (x, wordA 0x24 d a b (BitVec.ofNat 14 src.val ||| fnBit 2 pre ||| fnBit 3 qry ||| fnNoWait nw))
  | .spRxwin x d a b count pclen crc nw =>
    some (x, wordA 0x25 d a b (count.setWidth 14 ||| fnBit 10 pclen ||| fnBit 11 crc ||| fnNoWait nw))
  | .spRssi x d nw => some (x, wordA 0x26 d 0 0 (fnNoWait nw))
  | .spSniff x d nw => some (x, wordA 0x27 d 0 0 (fnNoWait nw))
  | .spRfoff x d nw => some (x, wordA 0x28 d 0 0 (fnNoWait nw))
  | .spLch x d a txi nw => some (x, wordA 0x2C d a 0 (fnBit 12 txi ||| fnNoWait nw))
  | .spLtx x d a sf smode ack fcs nw =>
    some (x, wordA 0x2D d a 0 (BitVec.ofNat 14 sf.val ||| fnBit 7 smode ||| fnBit 8 ack ||| fnBit 9 fcs ||| fnNoWait nw))
  | .spLrx x d a b lanes nw => some (x, wordA 0x2E d a b (lanes.setWidth 14 ||| fnNoWait nw))
  | .spLcca x d txi nw => some (x, wordA 0x2F d 0 0 (fnBit 12 txi ||| fnNoWait nw))
  | .spLoff x d nw => some (x, wordA 0x30 d 0 0 (fnNoWait nw))
  | .spLd x d a imm => some (x, wordI 0x34 d a imm)
  | .spSt x d a imm => some (x, wordI 0x35 d a imm)
  | .spBufAlloc x d => some (x, wordBuf d 0 0 0)
  | .spBufFree x d a => some (x, wordBuf d a 0 1)
  | .spBufRdw x d a b => some (x, wordBuf d a b 2)
  | .spBufWrw x d a b => some (x, wordBuf d a b 3)
  | .spBufLen x d a => some (x, wordBuf d a 0 4)
  | .spBufSetlen x d a b => some (x, wordBuf d a b 5)
  | .spKsel x d a b => some (x, wordA 0x38 d a b 0)
  | .spAesb x d a b dec => some (x, wordA 0x39 d a b (fnBit 0 dec))
  | .spCrc x d a b preset mode => some (x, wordA 0x3A d a b (BitVec.ofNat 14 (preset.val + 8 * mode.val)))
  | .spRng x d a b => some (x, wordA 0x3B d a b 0)
  | .spPost x d a b n hand => some (x, wordA 0x3C d a b (BitVec.ofNat 14 n.val ||| fnBit 4 hand))
  | .spEvt x d a kind => some (x, wordA 0x3D d a 0 (BitVec.ofNat 14 kind.val))
  | .spTout x d act => some (x, wordA 0x3E d 0 0 (BitVec.ofNat 14 act.val))
  | .spYield x d a b => some (x, wordA 0x3F d a b 0)
  | .spHalt x d a b => some (x, wordA 0x3F d a b 1)
  | .spMread x d a b => some (x, wordA 0x3F d a b 2)
  | .spIllegal x w => some (x, w)
  | _ => none

/-- Operands of a Spool row that its encoding admits (Tables 8-4 to 8-8): RXWIN's count is 0 with PCLEN, LTX's SF code is 0
in S-mode, a CRC preset is 1 to 4, a TOUT action 1 to 4, and the illegal row stands for unassigned words only. -/
def spoolFormOk : Instr → Bool
  | .spRxwin _ _ _ _ count pclen _ _ => !(pclen && count != 0)
  | .spLtx _ _ _ sf smode _ _ _ => !(smode && sf != 0)
  | .spCrc _ _ _ _ preset _ => preset != 0
  | .spTout _ _ act => act != 0
  | .spIllegal _ w => !spoolLegal w
  | _ => true

/-- A small field as an index: n is above every assigned value. -/
def fieldFin (n : Nat) [NeZero n] (v : Nat) : Fin n := Fin.ofNat n v

/-- The Spool row that a word spells in a context (R225); an unassigned word is the illegal row (R226). -/
def spoolDecode (x : Tenant) (w : BitVec 32) : Instr :=
  if !spoolLegal w then .spIllegal x w
  else
    let d := regField w 22
    let a := regField w 18
    let b := regField w 14
    let imm : BitVec 18 := w.setWidth 18
    let fn : BitVec 14 := w.setWidth 14
    let f := fn.toNat
    let nw := bit fn 13
    let cond : Fin 8 := fieldFin 8 d.val
    let target : BitVec 10 := w.setWidth 10
    match bits w 31 26 with
    | 0x00 => .spAdd x d a b
    | 0x01 => .spSub x d a b
    | 0x02 => .spAnd x d a b
    | 0x03 => .spOr x d a b
    | 0x04 => .spXor x d a b
    | 0x05 => .spShl x d a b
    | 0x06 => .spShr x d a b
    | 0x07 => .spAsr x d a b
    | 0x08 => .spMul x d a b
    | 0x09 => .spCmp x a b
    | 0x0A => .spAddi x d a imm
    | 0x0B => .spAndi x d a imm
    | 0x0C => .spOri x d a imm
    | 0x0D => .spXori x d a imm
    | 0x0E => .spCmpi x a imm
    | 0x0F => .spLui x d imm
    | 0x10 => .spJ x cond target
    | 0x11 => .spCall x cond target
    | 0x12 => .spRet x cond
    | 0x13 => .spJr x a
    | 0x14 => .spDjnz x d imm
    | 0x18 => .spWaitt x d a b fn
    | 0x19 => .spWaitd x a imm
    | 0x1A => .spWaite x d a b (fn.setWidth 4)
    | 0x1B => .spGett x d a b (fn.setWidth 2)
    | 0x20 => .spHop x d a nw
    | 0x21 => .spPwr x d a nw
    | 0x22 => .spAsel x d a nw
    | 0x23 => .spTxcw x d (bit fn 0) nw
    | 0x24 => .spTxsym x d a b (fieldFin 3 (f % 4)) (bit fn 2) (bit fn 3) nw
    | 0x25 => .spRxwin x d a b (fn.setWidth 10) (bit fn 10) (bit fn 11) nw
    | 0x26 => .spRssi x d nw
    | 0x27 => .spSniff x d nw
    | 0x28 => .spRfoff x d nw
    | 0x2C => .spLch x d a (bit fn 12) nw
    | 0x2D => .spLtx x d a (fieldFin 5 (f % 8)) (bit fn 7) (bit fn 8) (bit fn 9) nw
    | 0x2E => .spLrx x d a b (fn.setWidth 6) nw
    | 0x2F => .spLcca x d (bit fn 12) nw
    | 0x30 => .spLoff x d nw
    | 0x34 => .spLd x d a imm
    | 0x35 => .spSt x d a imm
    | 0x36 =>
      match f with
      | 0 => .spBufAlloc x d
      | 1 => .spBufFree x d a
      | 2 => .spBufRdw x d a b
      | 3 => .spBufWrw x d a b
      | 4 => .spBufLen x d a
      | _ => .spBufSetlen x d a b
    | 0x38 => .spKsel x d a b
    | 0x39 => .spAesb x d a b (bit fn 0)
    | 0x3A => .spCrc x d a b (fieldFin 5 (f % 8)) (fieldFin 3 (f / 8))
    | 0x3B => .spRng x d a b
    | 0x3C => .spPost x d a b (fieldFin 9 (f % 16)) (bit fn 4)
    | 0x3D => .spEvt x d a (fieldFin 3 f)
    | 0x3E => .spTout x d (fieldFin 5 f)
    | _ =>
      match f with
      | 0 => .spYield x d a b
      | 1 => .spHalt x d a b
      | _ => .spMread x d a b

end Sys2Proof.Machine
end

