-- ==== Sys2Proof/Safety.lean ====
section
/-!
DEFINITION. What a safe step is, and the conditions under which the claims speak: a command that is taken up, an own
program's word at issue, a port that is live.
-/
namespace Sys2Proof.Machine

/-- The step of a state answers a next state. -/
def Safe (s : State) : Prop := ∃ t, step s = .next t

/-- The command is taken up in s as opcode op: its handler runs in u. -/
def Taken (op : BitVec 16) (c : Cmd) (s u : State) : Prop := takeUp op c s = some u

/-- An own program of context x runs in s, no stop waits for it, and the word stands at its PC, inside the code. -/
def AtWord (x : Tenant) (w : BitVec 32) (s : State) : Prop :=
  live s = true ∧ s.ctxs[x].run = .running ∧ isBuiltin s.ctxs[x] = false ∧ s.ctxs[x].stopping = none ∧
    s.ctxs[x].pc < s.ctxs[x].codeLen ∧ memWord s.ctxs[x].code s.ctxs[x].pc = w

/-- An own program of context x runs in s and the word of a Spool row stands at its PC (Tables 8-4 to 8-8). -/
def AtInstr (x : Tenant) (i : Instr) (s : State) : Prop := ∃ w, spoolWord i = some (x, w) ∧ AtWord x w s

/-- A calibration of a core that a grant began has no result yet. -/
def calOpen (core : CoreId) (s : State) : Bool := match core with | .reader => s.radio.calR | .link => s.radio.calL

/-- Nothing keeps an air instruction of x off the air as it issues: no block of R231, and no calibration of a core that it holds
whose result is not known. -/
def AirClear (x : Tenant) (core : CoreId) (bad : Profile → Bool) (s : State) : Prop :=
  airBlock x core bad s = none ∧ (holds (.ctx x) core s = true → calOpen core s = false)

/-- The words of a REG.WRITE. -/
def regWords (c : Cmd) : List Nat := (List.range (fld c.args 2 1)).map fun i => fld c.args (3 + 2 * i) 2

/-- A REG.WRITE that R184 carries out: its form is right, the tenant may write every address, and every value is one that its
register may take. -/
def regWriteOk (c : Cmd) (u : State) : Prop :=
  1 ≤ fld c.args 2 1 ∧ fld c.args 2 1 ≤ 64 ∧ c.args.length = 3 + 2 * fld c.args 2 1 ∧
  fld c.args 0 2 + fld c.args 2 1 ≤ 0x10000 ∧
  (∀ i, i < fld c.args 2 1 → canWrite c.t (fld c.args 0 2 + i) u = true) ∧
  (∀ e ∈ (runOf (fld c.args 0 2) (fld c.args 2 1)).zip (regWords c), badGo c.t e.1 e.2 = false ∧
    badKeySlot c.t e.1 e.2 = false ∧ badValue e.1 e.2 = false)

/-- A row that is a Keel command, with its opcode (Tables 6-3 to 6-19). The register rows of 25.2 are REG commands, which
stand here under their own names. -/
def cmdOf : Instr → Option (BitVec 16 × Cmd)
  | .sysInfo c => some (0x0100, c)
  | .sysSleep c => some (0x0101, c)
  | .sysReset c _ _ => some (0x0102, c)
  | .sysPatch c => some (0x0103, c)
  | .tenBind c => some (0x0300, c)
  | .tenLock c => some (0x0301, c)
  | .tenShare c => some (0x0302, c)
  | .regRead c => some (0x0110, c)
  | .regWrite c => some (0x0111, c)
  | .rdrInventory c => some (0x1000, c)
  | .rdrStop c => some (0x1001, c)
  | .rdrAccess c => some (0x1002, c)
  | .rdrSniff c => some (0x1003, c)
  | .rdrBaseline c _ => some (0x1004, c)
  | .rdrRunSpool c => some (0x1010, c)
  | .rdrReset c => some (0x10F0, c)
  | .tagEnable c => some (0x1100, c)
  | .tagDisable c => some (0x1101, c)
  | .tagPublish c => some (0x1102, c)
  | .secTam1 c => some (0x1200, c)
  | .secFarzOpen c => some (0x1201, c)
  | .secFarzSend c => some (0x1202, c)
  | .secClose c => some (0x1203, c)
  | .lnkNode c => some (0x2000, c)
  | .lnkSend c => some (0x2001, c)
  | .lnkListen c => some (0x2002, c)
  | .lnkCancel c => some (0x2003, c)
  | .lnkRunSpool c => some (0x2010, c)
  | .lnkReset c => some (0x20F0, c)
  | .nbrList c => some (0x2100, c)
  | .nbrForget c => some (0x2101, c)
  | .radioStatus c => some (0x2800, c)
  | .coexConfig c => some (0x2801, c)
  | .radioHoptable c => some (0x2802, c)
  | .tmrRead c => some (0x3000, c)
  | .tmrCmp c => some (0x3001, c)
  | .tmrDc c => some (0x3002, c)
  | .tmrGo c => some (0x3003, c)
  | .tmrCap c => some (0x3004, c)
  | .tmrOut c => some (0x3005, c)
  | .keyDerive c => some (0x4000, c)
  | .keyUnwrap c => some (0x4001, c)
  | .keyErase c => some (0x4002, c)
  | .keyInvalidate c => some (0x4003, c)
  | .keyInfo c => some (0x4004, c)
  | .keyTamper c _ => some (0x4010, c)
  | .rngGet c => some (0x4800, c)
  | .cryptoAes c => some (0x4801, c)
  | .cryptoCcm c => some (0x4802, c)
  | .cryptoCmac c => some (0x4803, c)
  | .cryptoReset c => some (0x48F0, c)
  | .mbxBind c => some (0x5000, c)
  | .mbxLock c => some (0x5001, c)
  | .mbxWrite c => some (0x5002, c)
  | .mbxRead c => some (0x5003, c)
  | .semTake c => some (0x5004, c)
  | .semGive c => some (0x5005, c)
  | .cvuSet c => some (0x6000, c)
  | .cvuRun c => some (0x6001, c)
  | .nvmRead c => some (0x7000, c)
  | .nvmWrite c => some (0x7001, c)
  | .nvmBallast c => some (0x7002, c)
  | .nvmStatus c => some (0x7003, c)
  | .ledgerConfig c => some (0x7400, c)
  | .ledgerOwner c => some (0x7401, c)
  | .ledgerRead c => some (0x7402, c)
  | .ledgerAck c => some (0x7403, c)
  | .ledgerStatus c => some (0x7404, c)
  | .clockSet c => some (0x7410, c)
  | .measSnapshot c _ => some (0x8000, c)
  | .measSweep c => some (0x8001, c)
  | .measSubscribe c => some (0x8002, c)
  | .measPartners c => some (0x8003, c)
  | .mendStatus c => some (0x8800, c)
  | .mendWindow c => some (0x8801, c)
  | .spoolLoad c => some (0x9000, c)
  | .spoolStart c => some (0x9001, c)
  | .spoolStop c => some (0x9002, c)
  | .spoolStatus c => some (0x9003, c)
  | .spoolReset c => some (0x90F0, c)
  | _ => none

/-- The argument length that the layout of an opcode's entry gives, variable fields by the counts that precede them (R175). -/
def argLen (op : BitVec 16) (a : Bytes) : Nat :=
  match op.toNat with
  | 0x0300 | 0x0301 | 0x1004 | 0x1203 | 0x4002 | 0x4003 | 0x4004 | 0x4010 | 0x5004 | 0x5005 | 0x7401 => 1
  | 0x1001 | 0x2002 | 0x2003 | 0x2100 | 0x2101 | 0x2801 | 0x3003 | 0x3004 | 0x3005 | 0x4800 | 0x5003 | 0x8001 | 0x8002 => 2
  | 0x0110 | 0x5000 => 3
  | 0x0302 | 0x7000 | 0x7403 | 0x8801 => 4
  | 0x7402 => 5
  | 0x1003 | 0x3002 | 0x7002 => 6
  | 0x3001 | 0x7410 => 8
  | 0x2000 => 13
  | 0x6000 => 15
  | 0x1010 | 0x2010 | 0x9001 => 17
  | 0x0103 => 76 + fld a 10 2
  | 0x0111 => 3 + 2 * fld a 2 1
  | 0x1000 => 11 + (fld a 10 1 + 7) / 8
  | 0x1002 => 11 + 2 * fld a 10 1 + (if fld a 0 1 = 1 then 2 * fld a 9 1 else 0)
  | 0x1100 => 3 + 2 * fld a 2 1
  | 0x1102 => 4 + fld a 2 2
  | 0x1200 => 4 + 2 * fld a 3 1
  | 0x1201 => 3 + 2 * fld a 2 1
  | 0x1202 => 3 + fld a 1 2
  | 0x2001 => 15 + fld a 13 2
  | 0x2802 => 3 + 2 * fld a 0 1
  | 0x4000 => 9 + fld a 7 1 + fld a (8 + fld a 7 1) 1
  | 0x4001 => 8 + fld a 7 1
  | 0x4801 => 20 + fld a 18 2
  | 0x4802 => 8 + fld a 2 1 + fld a (4 + fld a 2 1) 2 + fld a (6 + fld a 2 1 + fld a (4 + fld a 2 1) 2) 2
  | 0x4803 => 5 + fld a 3 2 + (if fld a 0 1 = 1 then fld a 2 1 else 0)
  | 0x5002 => 2 + 4 * fld a 1 1
  | 0x6001 => 3 + fld a 1 2
  | 0x7001 => 4 + fld a 2 2
  | 0x7400 => 4 + 8 * fld a 3 1
  | 0x9000 => 5 + fld a 3 2
  | _ => 0

/-- A response stands last in a tenant's outgoing queue. -/
def LastOut (t : Tenant) (o : Out) (s : State) : Prop := s.tens[t].outQ.getLast? = some o

/-- The binding of ports to tenants is one-to-one (R136). -/
def OneToOne (s : State) : Prop := ∀ p q : Fin 4, s.binding[p] = s.binding[q] → p = q

/-- Every memory of the part is in canonical form: contexts, buffers, the readout area, the tenants' areas. -/
def MemoriesCanonical (s : State) : Prop :=
  (∀ x : Tenant, Memory.wf s.ctxs[x].code = true ∧ Memory.wf s.ctxs[x].data = true) ∧
  (∀ h : Fin 32, Memory.wf s.bufs[h].bytes = true) ∧ Memory.wf s.tag.area = true ∧
  (∀ t : Tenant, Memory.wf s.store.areas[t] = true)

end Sys2Proof.Machine
end

