-- ==== Sys2Proof/Certificates/Slice0/Obligations.lean ====
section
/-!
DEFINITION. The statements for the provers. Each `def Obligations.X : Prop` says in its docstring which rule of the spec
it follows or, where it rests on a choice of the model, which.
-/
open Sys2Proof Sys2Proof.Machine

/-- SYS.INFO, SYS.SLEEP, SYS.RESET and SYS.PATCH complete (6.2, R66, R81, R171): the identity words, the withdrawn vote, the
emergency set and the reset, and the image queued for its slot or turned away. -/
def Obligations.SystemCommandsComplete : Prop :=
  (∀ (c : Cmd) (s u : State), Taken 0x0100 c s u → c.args = [] →
    exec (.sysInfo c) s = .next (reply c.t stOk ([0x40, 0x4C, 0xB1] ++ keelRelease ++ leBytes 2 u.store.level ++
      leBytes 2 (rstCause u) ++ leBytes 2 (clkStat u) ++ leBytes 2 (mendLevel u)) u)) ∧
  (∀ (c : Cmd) (s u : State), Taken 0x0101 c s u → c.args = [] →
    ∃ t, exec (.sysSleep c) s = .next t ∧ t.power.votes[c.t] = false ∧ (∀ w, w ≠ c.t → t.power.votes[w] = u.power.votes[w]) ∧
      t = reply c.t stOk [] { u with power := t.power }) ∧
  (∀ (c : Cmd) (vhu : Nat) (f : StartFinds) (s u : State), Taken 0x0102 c s u → c.args = [] → c.t = 0 →
    exec (.sysReset c vhu f) s = .next (setPower (fun p => { p with commitSkipped := !(emergencySet vhu u).1 })
      (warmStart 4 f (emergencySet vhu u).2))) ∧
  (∀ (c : Cmd) (s u : State) (slot level : Nat) (job : Job), Taken 0x0103 c s u → patchForm c.args = some (slot, level) →
    u.tens[c.t].exec = some job → slotLevel u slot < level →
    exec (.sysPatch c) s = .next (if patchSigOk c.args = true then
      queueCommit (.patch c.t job slot { level := level, image := c.args }) ((c.args.length + 63) / 64) u
      else refuse c.t stAuthFail u))

/-- REG.READ and REG.WRITE of a run of addresses that the tenant may use, with values that the registers may take, act on
every word in ascending order and answer ST_OK (R184). -/
def Obligations.RegisterCommandsComplete : Prop :=
  (∀ (c : Cmd) (s u : State), Taken 0x0110 c s u → c.args.length = 3 → 1 ≤ fld c.args 2 1 → fld c.args 2 1 ≤ 64 →
    fld c.args 0 2 + fld c.args 2 1 ≤ 0x10000 →
    (∀ i, i < fld c.args 2 1 → canRead c.t (fld c.args 0 2 + i) u = true) →
    exec (.regRead c) s = .next (reply c.t stOk ((readRun c.t (fld c.args 2 1) (fld c.args 0 2) u).1.map (leBytes 2)).flatten
      (readRun c.t (fld c.args 2 1) (fld c.args 0 2) u).2)) ∧
  (∀ (c : Cmd) (s u : State), Taken 0x0111 c s u → regWriteOk c u →
    exec (.regWrite c) s = .next (reply c.t stOk [] (writeRun c.t (fld c.args 0 2) (regWords c) u)))

/-- The register accesses that are rows of their own act as the REG.WRITE or REG.READ whose run touches the register (25.2):
CMPk, REEL_GO, DCn_CFG, DCn_RLD, DCn_STAT, CAPn_CTL, TOUTn_CTL, GDL_CHk_STAT, PORT3_DIV and COEX_CFG writes, and writes of
the data RAM window. The register reads that are rows of their own: CAPn_V2, DCn_CNT0, KSLOTk_LINK and the data RAM window
(R224, R456, R618). -/
def Obligations.RegisterRowsComplete : Prop :=
  (∀ (c : Cmd) (s u : State), Taken 0x0111 c s u → regWriteOk c u →
    let done : Host.Outcome State Fault Refusal := .next (reply c.t stOk [] (writeRun c.t (fld c.args 0 2) (regWords c) u))
    (runTouches c (fun a => decide (0x1810 ≤ a ∧ a < 0x1840)) = true → exec (.cmpRegisterWrite c) s = done) ∧
    (runTouches c (fun a => a == 0x1804) = true → exec (.reelGoWrite c) s = done) ∧
    (runTouches c (fun a => decide (0x1840 ≤ a ∧ a < 0x1860) && a % 8 == 0) = true → exec (.dcCfgWrite c) s = done) ∧
    (runTouches c (fun a => decide (0x1840 ≤ a ∧ a < 0x1860) && (a % 8 == 1 || a % 8 == 2)) = true →
      exec (.dcRldWrite c) s = done) ∧
    (runTouches c (fun a => decide (0x1840 ≤ a ∧ a < 0x1860) && a % 8 == 5) = true → exec (.dcSleptClear c) s = done) ∧
    (runTouches c (fun a => decide (0x1860 ≤ a ∧ a < 0x1870) && a % 4 == 3) = true → exec (.capOvrClear c) s = done) ∧
    (runTouches c (fun a => decide (0x1870 ≤ a ∧ a < 0x1874)) = true → exec (.toutCtlActWrite c) s = done) ∧
    (runTouches c (fun a => decide (0x2000 ≤ a ∧ a < 0x2040) && a % 4 == 1) = true → exec (.gdlCollClear c) s = done) ∧
    (runTouches c (fun a => a == 0x136) = true → exec (.port3DivWrite c) s = done) ∧
    (runTouches c (fun a => a == 0x410) = true → exec (.coexCfgWrite c) s = done) ∧
    (runTouches c (fun a => decide (0x4400 ≤ a ∧ a < 0x4600)) = true → exec (.splDataAccess c true) s = done)) ∧
  (∀ (c : Cmd) (s u : State), Taken 0x0110 c s u → c.args.length = 3 → 1 ≤ fld c.args 2 1 → fld c.args 2 1 ≤ 64 →
    fld c.args 0 2 + fld c.args 2 1 ≤ 0x10000 →
    (∀ i, i < fld c.args 2 1 → canRead c.t (fld c.args 0 2 + i) u = true) →
    let done : Host.Outcome State Fault Refusal :=
      .next (reply c.t stOk ((readRun c.t (fld c.args 2 1) (fld c.args 0 2) u).1.map (leBytes 2)).flatten
        (readRun c.t (fld c.args 2 1) (fld c.args 0 2) u).2)
    (runTouches c (fun a => decide (0x1860 ≤ a ∧ a < 0x1870) && a % 4 == 2) = true → exec (.capV2Read c) s = done) ∧
    (runTouches c (fun a => decide (0x1840 ≤ a ∧ a < 0x1860) && a % 8 == 3) = true → exec (.dcCnt0Read c) s = done) ∧
    (runTouches c (fun a => decide (0x1C10 ≤ a ∧ a < 0x1D00) && (a - 0x1C10) % 5 == 1) = true →
      exec (.kslotLinkRead c) s = done) ∧
    (runTouches c (fun a => decide (0x4400 ≤ a ∧ a < 0x4600)) = true → exec (.splDataAccess c false) s = done))

/-- TEN.BIND, TEN.LOCK and TEN.SHARE from T0 with values that they may take (R137, R141, R151): each port takes the tenant
that the map names, the locks close, the shares are replaced. -/
def Obligations.TenantCommandsComplete : Prop :=
  (∀ (c : Cmd) (s u : State), Taken 0x0300 c s u → c.t = 0 → c.args.length = 1 → mapOneToOne (fld c.args 0 1) = true →
    u.bindLock = false →
    (∀ p : Fin 4, mapPort (fld c.args 0 1) p ≠ u.binding[p] →
      outstanding u.tens[u.binding[p]] ≤ (if u.binding[p] = c.t then 1 else 0)) →
    ∃ t, exec (.tenBind c) s = .next t ∧ (∀ p : Fin 4, t.binding[p] = mapPort (fld c.args 0 1) p) ∧
      t.tens[c.t].exec = none) ∧
  (∀ (c : Cmd) (s u : State), Taken 0x0301 c s u → c.t = 0 → c.args.length = 1 → 1 ≤ fld c.args 0 1 → fld c.args 0 1 ≤ 3 →
    exec (.tenLock c) s = .next (reply c.t stOk [] { u with
      bindLock := u.bindLock || fld c.args 0 1 % 2 == 1, shareLock := u.shareLock || decide (2 ≤ fld c.args 0 1) })) ∧
  (∀ (c : Cmd) (s u : State), Taken 0x0302 c s u → c.t = 0 → c.args.length = 4 →
    fld c.args 0 1 + fld c.args 1 1 + fld c.args 2 1 + fld c.args 3 1 = 100 → u.shareLock = false →
    exec (.tenShare c) s = .next (reply c.t stOk [] { u with
      tens := Vector.ofFn fun t => { u.tens[t] with share := fld c.args t.val 1 } }))

/-- What retiring an instruction does to the machine (R210, R217, R229): the PC goes where it is told, the cursor moves on
by two ticks a cycle (six in LIMP), the cycle count and the budget watchdog move on; nothing else of the context changes but
the count of instructions of the starting command, and no other context, tenant or part of the machine changes. -/
def Obligations.SpoolRetirement : Prop :=
  ∀ (x : Tenant) (pc n : Nat) (u : State),
    (retireTo x pc n u).ctxs[x] = { u.ctxs[x] with
      pc := pc, cursor := u.ctxs[x].cursor + BitVec.ofNat 48 (n * (if u.power.mode = .limp then 6 else 2)),
      cyc := min 0xFFFFFFFF (u.ctxs[x].cyc + n), wdog := u.ctxs[x].wdog + n, issues := u.ctxs[x].issues + 1,
      start := if u.ctxs[x].issues + 1 < 16 then u.ctxs[x].start else none,
      early := if u.ctxs[x].issues + 1 < 16 ∨ u.ctxs[x].start = none then u.ctxs[x].early else [] } ∧
    (∀ y, y ≠ x → (retireTo x pc n u).ctxs[y] = u.ctxs[y] ∧ (retireTo x pc n u).tens[y] = u.tens[y]) ∧
    ((u.ctxs[x].start = none ∨ u.ctxs[x].issues + 1 < 16) → (retireTo x pc n u).tens = u.tens) ∧
    retireTo x pc n u = { u with ctxs := (retireTo x pc n u).ctxs, tens := (retireTo x pc n u).tens }

/-- The ALU instructions complete with the results, the flags and the cycles of Table 8-4 and R228: Z and N show the result,
C is the carry of an addition, the borrow of a subtraction, the last bit that a shift by B[4:0] pushes out (0 for a shift by
0), and stays for the others; immediates are sign-extended, those of ANDI, ORI and XORI zero-extended, and LUI shifts by 14;
MUL takes two cycles. CMP and CMPI write flags only. -/
def Obligations.SpoolAluCompletes : Prop :=
  ∀ (x : Tenant) (d a b : Fin 16) (imm : BitVec 18) (s : State),
    let u := issueMoment x s
    let p := rd u.ctxs[x] a
    let q := rd u.ctxs[x] b
    let n := q.toNat % 32
    let old := u.ctxs[x].c
    let done := fun (i : Instr) (cycles : Nat) (v : Reg32) (cy : Bool) =>
      exec i s = .next (retire x cycles (modCtx x (fun k => wr d v { k with z := decide (v = 0), n := v.msb, c := cy }) u))
    let flags := fun (i : Instr) (v : Reg32) (cy : Bool) =>
      exec i s = .next (retire x 1 (modCtx x (fun k => { k with z := decide (v = 0), n := v.msb, c := cy }) u))
    (AtWord x (wordA 0x00 d a b 0) s → done (.spAdd x d a b) 1 (p + q) (decide (2 ^ 32 ≤ p.toNat + q.toNat))) ∧
    (AtWord x (wordA 0x01 d a b 0) s → done (.spSub x d a b) 1 (p - q) (decide (p.toNat < q.toNat))) ∧
    (AtWord x (wordA 0x02 d a b 0) s → done (.spAnd x d a b) 1 (p &&& q) old) ∧
    (AtWord x (wordA 0x03 d a b 0) s → done (.spOr x d a b) 1 (p ||| q) old) ∧
    (AtWord x (wordA 0x04 d a b 0) s → done (.spXor x d a b) 1 (p ^^^ q) old) ∧
    (AtWord x (wordA 0x05 d a b 0) s → done (.spShl x d a b) 1 (p <<< n) (n != 0 && p.getLsbD (32 - n))) ∧
    (AtWord x (wordA 0x06 d a b 0) s → done (.spShr x d a b) 1 (p >>> n) (n != 0 && p.getLsbD (n - 1))) ∧
    (AtWord x (wordA 0x07 d a b 0) s → done (.spAsr x d a b) 1 (p.sshiftRight n) (n != 0 && p.getLsbD (n - 1))) ∧
    (AtWord x (wordA 0x08 d a b 0) s → done (.spMul x d a b) 2 (p * q) old) ∧
    (AtWord x (wordA 0x09 0 a b 0) s → flags (.spCmp x a b) (p - q) (decide (p.toNat < q.toNat))) ∧
    (AtWord x (wordI 0x0A d a imm) s → done (.spAddi x d a imm) 1 (p + imm.signExtend 32)
      (decide (2 ^ 32 ≤ p.toNat + (imm.signExtend 32).toNat))) ∧
    (AtWord x (wordI 0x0B d a imm) s → done (.spAndi x d a imm) 1 (p &&& imm.setWidth 32) old) ∧
    (AtWord x (wordI 0x0C d a imm) s → done (.spOri x d a imm) 1 (p ||| imm.setWidth 32) old) ∧
    (AtWord x (wordI 0x0D d a imm) s → done (.spXori x d a imm) 1 (p ^^^ imm.setWidth 32) old) ∧
    (AtWord x (wordI 0x0E 0 a imm) s → flags (.spCmpi x a imm) (p - imm.signExtend 32)
      (decide (p.toNat < (imm.signExtend 32).toNat))) ∧
    (AtWord x (wordI 0x0F d 0 imm) s → done (.spLui x d imm) 1 (imm.setWidth 32 <<< (14 : Nat)) old)

/-- The jumps complete (Table 8-4, R229, R234): J, CALL and RET where their condition holds and a target lies in the slot
and the code, in two cycles, CALL with room on the return stack and RET with an entry on it; where the condition fails they
retire in one cycle and nothing happens. JR jumps to A[9:0]; DJNZ subtracts 1 and jumps while D is not 0. -/
def Obligations.SpoolJumpsComplete : Prop :=
  ∀ (x : Tenant) (d a : Fin 16) (cond : Fin 8) (target : BitVec 10) (imm : BitVec 18) (s : State),
    let u := issueMoment x s
    let k := u.ctxs[x]
    (AtWord x (wordJ 0x10 cond target) s →
      (condHolds cond k = true → target.toNat < k.codeLen → exec (.spJ x cond target) s = .next (retireTo x target.toNat 2 u)) ∧
      (condHolds cond k = false → exec (.spJ x cond target) s = .next (retire x 1 u))) ∧
    (AtWord x (wordJ 0x11 cond target) s →
      (condHolds cond k = true → k.stack.length < 8 → target.toNat < k.codeLen →
        exec (.spCall x cond target) s = .next (retireTo x target.toNat 2
          (modCtx x (fun k => { k with stack := BitVec.ofNat 10 (k.pc + 1) :: k.stack }) u))) ∧
      (condHolds cond k = false → exec (.spCall x cond target) s = .next (retire x 1 u))) ∧
    (AtWord x (wordJ 0x12 cond 0) s →
      (∀ r rest, condHolds cond k = true → k.stack = r :: rest → r.toNat < k.codeLen →
        exec (.spRet x cond) s = .next (retireTo x r.toNat 2 (modCtx x (fun k => { k with stack := rest }) u))) ∧
      (condHolds cond k = false → exec (.spRet x cond) s = .next (retire x 1 u))) ∧
    (AtWord x (wordA 0x13 0 a 0 0) s → (rd k a).toNat % 1024 < k.codeLen →
      exec (.spJr x a) s = .next (retireTo x ((rd k a).toNat % 1024) 2 u)) ∧
    (AtWord x (wordI 0x14 d 0 imm) s → d ≠ 0 →
      (rd k d = 1 → exec (.spDjnz x d imm) s = .next (retire x 1 (modCtx x (wr d 0) u))) ∧
      (rd k d ≠ 1 → (imm.signExtend 32).toNat < k.codeLen → (imm.signExtend 32).toNat < 1024 →
        exec (.spDjnz x d imm) s = .next (retireTo x (imm.signExtend 32).toNat 2 (modCtx x (wr d (rd k d - 1)) u))))

/-- The conditions of Table 8-3. Register w0 reads as 0 and discards what is written to it; the other registers keep what
was written last (Table 7-4, R227). A word stored in the data RAM reads back, every other byte reads as before, and the
memory keeps its canonical form. LD and ST complete for a word address up to 255 (R235); D of LD takes the data word, ST
stores D. -/
def Obligations.SpoolRegistersAndData : Prop :=
  (∀ k : Ctx, condHolds 0 k = true ∧ condHolds 1 k = k.z ∧ condHolds 2 k = !k.z ∧ condHolds 3 k = k.c ∧
    condHolds 4 k = !k.c ∧ condHolds 5 k = k.n ∧ condHolds 6 k = !k.n ∧ condHolds 7 k = (!k.c && !k.z)) ∧
  (∀ (k : Ctx) (v : Reg32), rd k 0 = 0 ∧ wr 0 v k = k ∧
    ∀ d : Fin 16, d ≠ 0 → rd (wr d v k) d = v ∧ (∀ r, r ≠ d → rd (wr d v k) r = rd k r) ∧
      wr d v k = { k with regs := (wr d v k).regs }) ∧
  (∀ (m : Memory) (w : Nat) (v : Reg32), Memory.wf m = true →
    memWord (memPutWord m w v) w = v ∧ Memory.wf (memPutWord m w v) = true ∧
    (∀ a, a < 4 * w ∨ 4 * w + 4 ≤ a → memGet (memPutWord m w v) a = memGet m a)) ∧
  (∀ (x : Tenant) (d a : Fin 16) (imm : BitVec 18) (s : State),
    let u := issueMoment x s
    let w := (rd u.ctxs[x] a + imm.signExtend 32).toNat
    w ≤ 255 →
    (AtWord x (wordI 0x34 d a imm) s → exec (.spLd x d a imm) s =
      .next (retire x 1 (modCtx x (fun k => wr d (memWord k.data w) k) u))) ∧
    (AtWord x (wordI 0x35 d a imm) s → exec (.spSt x d a imm) s =
      .next (retire x 1 (modCtx x (fun k => { k with data := memPutWord k.data w (rd k d) }) u))))

/-- A context's faults by code (R205, R216, R234, R235): a fetch at or above CODELEN, a taken jump out of the code, and an
LD or ST above word 255 fault with code 5, CALL on a full return stack with code 2 and RET on an empty one with code 3, and
an unassigned word inside the code with code 1 where the context runs it; BUDGET_WATCHDOG faults a running context with code 6.
A faulted context keeps its PC and its registers, holds no buffer, waits for nothing, and its tenant is told: EV_SPOOL_FAULT
with TSEQ, the code and the PC is the last thing queued where its queue has room (R216, R218). -/
def Obligations.SpoolFaults : Prop :=
  (∀ (x : Tenant) (d a : Fin 16) (cond : Fin 8) (target : BitVec 10) (imm : BitVec 18) (w : BitVec 32) (s : State),
    let u := issueMoment x s
    let k := u.ctxs[x]
    (AtWord x w s → spoolLegal w = false → exec (.spIllegal x w) s = .next (spoolFault x 1 u)) ∧
    (live s = true → s.ctxs[x].run = .running → isBuiltin s.ctxs[x] = false → s.ctxs[x].stopping = none →
      s.ctxs[x].codeLen ≤ s.ctxs[x].pc → spoolLegal w = false → exec (.spIllegal x w) s = .next (spoolFault x 5 u)) ∧
    (AtWord x (wordJ 0x10 cond target) s → condHolds cond k = true → k.codeLen ≤ target.toNat →
      exec (.spJ x cond target) s = .next (spoolFault x 5 u)) ∧
    (AtWord x (wordJ 0x11 cond target) s → condHolds cond k = true → 8 ≤ k.stack.length →
      exec (.spCall x cond target) s = .next (spoolFault x 2 u)) ∧
    (AtWord x (wordJ 0x12 cond 0) s → condHolds cond k = true → k.stack = [] →
      exec (.spRet x cond) s = .next (spoolFault x 3 u)) ∧
    (AtWord x (wordI 0x34 d a imm) s → 255 < (rd k a + imm.signExtend 32).toNat →
      exec (.spLd x d a imm) s = .next (spoolFault x 5 u)) ∧
    (AtWord x (wordI 0x35 d a imm) s → 255 < (rd k a + imm.signExtend 32).toNat →
      exec (.spSt x d a imm) s = .next (spoolFault x 5 u)) ∧
    (s.ctxs[x].run = .running → 1000000 ≤ s.ctxs[x].wdog → exec (.budgetWatchdog x) s = .next (spoolFault x 6 s))) ∧
  (∀ (x : Tenant) (code : Nat) (u : State),
    (spoolFault x code u).ctxs[x].run = .faulted ∧ (spoolFault x code u).ctxs[x].fault = code ∧
    (spoolFault x code u).ctxs[x].pc = pcNow u.ctxs[x] u ∧ (spoolFault x code u).ctxs[x].regs = u.ctxs[x].regs ∧
    (spoolFault x code u).ctxs[x].held = [] ∧ (spoolFault x code u).ctxs[x].pend = none ∧
    (u.ctxs[x].start = none → (u.tens[x].outQ.filter Out.isOrdinary).length < 63 →
      LastOut x (.evt u.tens[x].evSeq evSpoolFault u.reel.cnt
        (leBytes 2 u.ctxs[x].tseq.toNat ++ [BitVec.ofNat 8 code] ++ leBytes 2 (pcNow u.ctxs[x] u))) (spoolFault x code u))) ∧
  (∀ (k : Ctx) (u : State), isBuiltin k = false → pcNow k u = k.pc)

/-- The instructions of time and waiting complete (R217, R230, R236 to R240, R258): WAITT, WAITD and WAITE enter WAITING
with their target, WAITD of 0 or of 2^31 and more goes on at once with the cursor unchanged and the watchdog cleared, WAITE
goes on at once, at the issue tick, on a latch that is set or with a timeout of 2^31 and more; GETT reads the cursor, Reel or
the shadow; YIELD clears the watchdog; HALT ends the run with ST_OK. BUDGET_WATCHDOG does its work (R217): a running context at
1,000,000 cycles without YIELD or wait ends FAULTED with fault code 6, its buffers and its wait gone. -/
def Obligations.SpoolTimeComplete : Prop :=
  ∀ (x : Tenant) (d a b : Fin 16) (off : BitVec 14) (imm : BitVec 18) (src : BitVec 4) (part : BitVec 2) (s : State),
    let u := issueMoment x s
    let k := u.ctxs[x]
    let n := rd k a + imm.signExtend 32
    let wait := fun (op : WaitOp) (d : Fin 16) (v : Reg32) (fn : BitVec 14) (till : Tick) =>
      enterWait x { op := op, d := d, a := v, b := 0, fn := fn, issued := k.cursor, until_ := till, noAir := false, epoch := 0 } u
    (s.ctxs[x].run = .running → 1000000 ≤ s.ctxs[x].wdog → ∃ t, exec (.budgetWatchdog x) s = .next t ∧
      t.ctxs[x].run = .faulted ∧ t.ctxs[x].fault = 6 ∧ t.ctxs[x].held = [] ∧ t.ctxs[x].pend = none) ∧
    (AtWord x (wordA 0x18 d a b off) s → exec (.spWaitt x d a b off) s = .next (wait .waitt d 0 0
      (((rd k b).setWidth 16 ++ rd k a) + off.signExtend 48))) ∧
    (AtWord x (wordI 0x19 0 a imm) s →
      (n ≠ 0 → n.toNat < 2 ^ 31 → exec (.spWaitd x a imm) s = .next (wait .waitd 0 n 0 (k.cursor + n.setWidth 48))) ∧
      ((n = 0 ∨ 2 ^ 31 ≤ n.toNat) → ∃ t, exec (.spWaitd x a imm) s = .next t ∧ t.ctxs[x].pc = k.pc + 1 ∧
        t.ctxs[x].cursor = k.cursor ∧ t.ctxs[x].wdog = 0 ∧ t.ctxs[x].regs = k.regs ∧ t.ctxs[x].run = k.run)) ∧
    (AtWord x (wordA 0x1A d a b (src.setWidth 14)) s →
      (k.latch &&& src = 0 → (rd k b).toNat < 2 ^ 31 → exec (.spWaite x d a b src) s =
        .next (wait .waite d (rd k b) (src.setWidth 14) (k.cursor + (rd k b).setWidth 48))) ∧
      (k.latch &&& src ≠ 0 ∨ 2 ^ 31 ≤ (rd k b).toNat → ∃ t, exec (.spWaite x d a b src) s = .next t ∧ t.ctxs[x].pc = k.pc + 1 ∧
        t.ctxs[x].run = k.run ∧ t.ctxs[x].cursor = u.reel.cnt ∧ t.ctxs[x].wdog = 0 ∧ rd t.ctxs[x] d = (if d = 0 then 0 else (k.latch &&& src).setWidth 32) ∧
        t.ctxs[x].z = decide (k.latch &&& src = 0) ∧ t.ctxs[x].latch = k.latch &&& ~~~(k.latch &&& src))) ∧
    (AtWord x (wordA 0x1B d a b (part.setWidth 14)) s → exec (.spGett x d a b part) s = .next (retire x 1 (modCtx x (fun k =>
      if part = 0 then wr d (k.cursor.setWidth 32) k
      else if part = 1 then wr d ((k.cursor >>> (32 : Nat)).setWidth 32) k
      else if part = 2 then wr d (u.reel.cnt.setWidth 32) { k with shadow := (u.reel.cnt >>> (32 : Nat)).setWidth 16 }
      else wr d (k.shadow.setWidth 32) k) u))) ∧
    (AtWord x (wordA 0x3F d a b 0) s → exec (.spYield x d a b) s = .next (modCtx x (fun k => { k with wdog := 0 }) (retire x 1 u))) ∧
    (AtWord x (wordA 0x3F d a b 1) s → exec (.spHalt x d a b) s = .next (endProgram x stOk (retire x 1 u)))

/-- The waits end (R210, R236 to R239): WAITT and WAITD when Reel has reached their target, to which the cursor moves; WAITE
on a selected latch, which D shows and which clears, or at its timeout with Z set. What the end of a wait does (R210, R217,
R230): the context runs on at the next instruction, its cursor at the tick of the completion, its watchdog cleared; nothing
but the context changes. -/
def Obligations.SpoolWaits : Prop :=
  (∀ (x : Tenant) (now : Tick) (p : Pend) (s : State),
    let u := advanceTo now s
    u.ctxs[x].run = .waiting → u.ctxs[x].pend = some p → p.noAir = false →
    (p.op = .waitt → reached u.reel.cnt p.until_ = true → exec (.waittRelease x now) s = .next (endWait x p.until_ id u)) ∧
    (p.op = .waitd → reached u.reel.cnt p.until_ = true → exec (.waitdRelease x now) s = .next (endWait x p.until_ id u)) ∧
    (p.op = .waite → (∀ hit, hit = u.ctxs[x].latch &&& p.fn.setWidth 4 → hit ≠ 0 →
      exec (.waiteRelease x now) s = .next (endWait x u.reel.cnt
        (fun k => wr p.d (hit.setWidth 32) { k with z := false, latch := k.latch &&& ~~~hit }) u)) ∧
      (u.ctxs[x].latch &&& p.fn.setWidth 4 = 0 → p.a ≠ 0 → reached u.reel.cnt p.until_ = true →
        exec (.waiteRelease x now) s = .next (endWait x p.until_ (fun k => wr p.d 0 { k with z := true }) u)))) ∧
  (∀ (x : Tenant) (now : Tick) (u : State),
    (endWait x now id u).ctxs[x] = { u.ctxs[x] with
      run := .running, pend := none, pc := u.ctxs[x].pc + 1, cursor := now, wdog := 0,
      cyc := (endWait x now id u).ctxs[x].cyc } ∧
    (∀ y, y ≠ x → (endWait x now id u).ctxs[y] = u.ctxs[y]) ∧
    endWait x now id u = { u with ctxs := (endWait x now id u).ctxs })

/-- The BUF functions complete on a buffer that the context holds (R215, R251): ALLOC takes a free buffer while fewer than
four are held, and otherwise answers all ones with C set; FREE returns one; RDW and WRW move four bytes within the 256; LEN
reads and SETLEN sets the length, 256 at most. CRC, POST, MREAD, EVT and TOUT complete (R254, R256, R257, R259, R458): the
check value of the first B bytes of a held buffer in 1 cycle and one for every 4 bytes; up to 8 data words into a channel
that the context sends on; the message of a channel that it receives into its data words; EV_SPOOL with w1 to w4; an action
on the tenant's own timer output 3 ticks after the cursor. -/
def Obligations.SpoolBuffersAndServices : Prop :=
  (∀ (x : Tenant) (d a b : Fin 16) (h : Fin 32) (s : State),
    let u := issueMoment x s
    let k := u.ctxs[x]
    let o := (rd k b).toNat
    (AtWord x (wordA 0x36 d 0 0 0) s →
      (k.held.length < 4 → findBuf (posOf x) u = some h → exec (.spBufAlloc x d) s = .next (retire x 1
        (modCtx x (fun k => wr d (BitVec.ofNat 32 h.val) { k with held := k.held ++ [h], c := false }) (serveBuf (posOf x) true h u)))) ∧
      (4 ≤ k.held.length → findBuf (posOf x) u = some h → exec (.spBufAlloc x d) s =
        .next (retire x 1 (modCtx x (fun k => wr d 0xFFFFFFFF { k with c := true }) u))) ∧
      (findBuf (posOf x) u = none → exec (.spBufAlloc x d) s =
        .next (retire x 1 (modCtx x (fun k => wr d 0xFFFFFFFF { k with c := true }) (missBuf (posOf x) true u))))) ∧
    (rd k a = BitVec.ofNat 32 h.val → h ∈ k.held →
      (AtWord x (wordA 0x36 d a 0 1) s → exec (.spBufFree x d a) s = .next (retire x 1
        (modCtx x (fun k => { k with held := k.held.filter (· != h), c := false }) (freeBuf h u)))) ∧
      (AtWord x (wordA 0x36 d a b 2) s → o ≤ 252 → exec (.spBufRdw x d a b) s = .next (retire x 1
        (modCtx x (fun k => wr d (BitVec.ofNat 32 (leNat (memGetAll u.bufs[h].bytes o 4))) { k with c := false }) u))) ∧
      (AtWord x (wordA 0x36 d a b 3) s → o ≤ 252 → exec (.spBufWrw x d a b) s = .next (retire x 1
        (modCtx x (fun k => { k with c := false })
          (modBuf h (fun q => { q with bytes := memPutAll q.bytes o (leBytes 4 (rd k d).toNat), mark := .plain }) u)))) ∧
      (AtWord x (wordA 0x36 d a 0 4) s → exec (.spBufLen x d a) s = .next (retire x 1
        (modCtx x (fun k => wr d (BitVec.ofNat 32 u.bufs[h].len) { k with c := false }) u))) ∧
      (AtWord x (wordA 0x36 d a b 5) s → o ≤ 256 → exec (.spBufSetlen x d a b) s = .next (retire x 1
        (modCtx x (fun k => { k with c := false }) (modBuf h (fun q => { q with len := o, mark := .plain }) u)))))) ∧
  (∀ (x : Tenant) (d a b : Fin 16) (h : Fin 32) (preset : Fin 5) (n : Fin 9) (act : Fin 5) (g : Fin 16) (s : State),
    let u := issueMoment x s
    let k := u.ctxs[x]
    let o := (rd k b).toNat
    (AtWord x (wordA 0x3A d a b (BitVec.ofNat 14 preset.val)) s → preset ≠ 0 → rd k a = BitVec.ofNat 32 h.val → h ∈ k.held →
      o ≤ 256 → exec (.spCrc x d a b preset 0) s = .next (retire x (1 + (o + 3) / 4) (modCtx x (fun k =>
        wr d (BitVec.ofNat 32 (checkValue (cvuPreset preset.val) (bufBytes u.bufs[h] o))) { k with c := false }) u))) ∧
    (AtWord x (wordA 0x3C d a b (BitVec.ofNat 14 n.val)) s → (rd k a).toNat % 16 = g.val →
      senderOf g u.gdl.chans[g] = some (.spool x) → (n.val = 0 ∨ o + n.val ≤ 256) →
      exec (.spPost x d a b n false) s = .next (retire x (1 + n.val)
        (modCtx x (fun k => wr d (if u.gdl.chans[g].msg.isSome then 1 else 0) { k with c := false })
          (writeChan g 5 ((List.range n.val).map fun i => memWord k.data (o + i)) none u)))) ∧
    (AtWord x (wordA 0x3F d a b 2) s → (rd k a).toNat % 16 = g.val → receiverOf g u.gdl.chans[g] = some (.spool x) →
      ∀ m, u.gdl.chans[g].msg = some m → m.hand = none → o + m.words.length ≤ 256 →
      exec (.spMread x d a b) s = .next (retire x 1 (modCtx x (fun k => wr d (BitVec.ofNat 32 m.words.length)
        { k with
          c := false
          data := m.words.zipIdx.foldl (fun mem q => memPutWord mem (o + q.2) q.1) k.data })
          (modChan g (fun ch => { ch with msg := none }) u)))) ∧
    (AtWord x (wordA 0x3D d a 0 0) s → exec (.spEvt x d a 0) s = .next (retire x 1 (modCtx x (fun k => { k with c := false })
      (raiseFrom x evSpool (leBytes 2 ((rd k a).toNat % 65536) ++ leBytes 4 (rd k 1).toNat ++ leBytes 4 (rd k 2).toNat ++
        leBytes 4 (rd k 3).toNat ++ leBytes 4 (rd k 4).toNat) u)))) ∧
    (AtWord x (wordA 0x3E d 0 0 (BitVec.ofNat 14 act.val)) s → act ≠ 0 →
      exec (.spTout x d act) s = .next (retire x 1 (toutAct x act.val (k.cursor + 3) u))))

/-- KSEL, AESB and RNG wait for Bridle (R252, R253, R255): AESB with a key selected and a held buffer at a place that is a
multiple of 16 up to 240, RNG while the DRBG is instantiated; RNG without one reads 0 with C set (R489). Bridle's answers
(R252, R253, R255, R481): KSEL selects a key that its checks pass, AESB changes 16 bytes of the buffer in place under the
selected key, RNG writes 32 bits of the DRBG, those that its request was given where a request of a lower class came after it
(R486); D shows the status of KSEL and AESB, and C is clear. That the first of RNG's four bytes is the least significant of D is
the model's choice (log entry 74). -/
def Obligations.SpoolEngine : Prop :=
  (∀ (x : Tenant) (d a b : Fin 16) (h : Fin 32) (dec : Bool) (s : State),
    let u := issueMoment x s
    let k := u.ctxs[x]
    (AtWord x (wordA 0x38 d a b 0) s → exec (.spKsel x d a b) s = .next (engineWait x .ksel d (rd k a) 0 0 u)) ∧
    (AtWord x (wordA 0x39 d a b (if dec then 1 else 0)) s → rd k a = BitVec.ofNat 32 h.val → h ∈ k.held →
      (rd k b).toNat % 16 = 0 → (rd k b).toNat ≤ 240 →
      (k.ksel.isSome = true → exec (.spAesb x d a b dec) s =
        .next (engineWait x .aesb d (rd k a) (rd k b) (if dec then 1 else 0) u)) ∧
      (k.ksel = none → exec (.spAesb x d a b dec) s =
        .next (wAtOnce x (fun k => wr d (stBadArg.setWidth 32) { k with c := true }) u))) ∧
    (AtWord x (wordA 0x3B d a b 0) s →
      (u.bri.drbgOk = true → exec (.spRng x d a b) s = .next (engineWait x .rng d 0 0 0 u)) ∧
      (u.bri.drbgOk = false → exec (.spRng x d a b) s = .next (wAtOnce x (fun k => wr d 0 { k with c := true }) u)))) ∧
  (∀ (x : Tenant) (now : Tick) (p : Pend) (s : State),
    let u := advanceTo now s
    let v := engineDone x u
    u.ctxs[x].run = .waiting → u.ctxs[x].pend = some p → p.noAir = false →
    (∀ k : Fin 48, p.op = .ksel → p.a.toNat % 64 = k.val → keyRefusal x k.val isAes u = none → noUseLeft k 1 u = false →
      exec (.kselComplete x now) s = .next (endWait x (cacheKey k u).reel.cnt (fun q => wr p.d 0
        { q with c := false, ksel := some { slot := k, gone := false } }) (engineDone x (cacheKey k u)))) ∧
    (∀ (q : KeySel) (h : Fin 32) (key : Bytes) (w : State), p.op = .aesb → u.ctxs[x].ksel = some q → q.gone = false →
      heldBuf u.ctxs[x] p.a = some h → useKey x q.slot.val (if bit p.fn 0 then isDec else isEnc) v = .ok (key, w) →
      exec (.aesbComplete x now) s = .next (endWait x w.reel.cnt (fun q => wr p.d 0 { q with c := false })
        (modBuf h (fun b => { b with
          mark := .plain
          bytes := memPutAll b.bytes p.b.toNat
            (if bit p.fn 0 then aesDec key (memGetAll w.bufs[h].bytes p.b.toNat 16)
             else aesEnc key (memGetAll w.bufs[h].bytes p.b.toNat 16)) }) w))) ∧
    (∀ out : Bytes, p.op = .rng → (u.bri.engine.find? fun e => e.who == x && !e.stale).bind (·.out) = some out →
      exec (.rngComplete x now) s = .next (endWait x v.reel.cnt
        (fun q => wr p.d (BitVec.ofNat 32 (leNat out)) { q with c := false }) v)) ∧
    (∀ (out : Bytes) (w : State), p.op = .rng → (u.bri.engine.find? fun e => e.who == x && !e.stale).bind (·.out) = none →
      drbgTake 4 v = some (out, w) → exec (.rngComplete x now) s = .next (endWait x w.reel.cnt
        (fun q => wr p.d (BitVec.ofNat 32 (leNat out)) { q with c := false }) w)))

/-- The reader's air instructions complete in an own program that nothing blocks (R211 to R214, R231, R241 to R246, R317, R320,
R321, R337): HOP asks for its channel's air and waits, a carrier that is on ramping down first; PWR sets the power, clamped; ASEL
switches with the carrier off; TXCW ramps up from a tuned core and down again, or completes at once when the carrier is as asked;
TXSYM sends its bits with the carrier on, its commit point at the action tick; RXWIN and SNIFF wait on a tuned core; RSSI reads
level and phase; RFOFF waits for STANDBY. The instructions that need the air and find it not held ask for it and wait (R214). What
an air instruction finds when it cannot go on air (R231): it completes with N and Z set, C clear and the status in D, in the order
LIMP, a lost resource, lost air, a reserved value of the profile; with a calibration still open, it fails with ST_CAL_FAIL or goes
on. -/
def Obligations.SpoolReaderAirComplete : Prop :=
  (∀ (x : Tenant) (d a b : Fin 16) (nw : Bool) (h : Fin 32) (s : State),
    let i := issueMoment x s
    let u := airClass x .reader (airCursor x i)
    let k := u.ctxs[x]
    let fn : BitVec 14 := if nw then 0x2000 else 0
    (AtInstr x (.spHop x d a nw) s → AirClear x .reader (fun _ => false) i →
      ((rd k a).toNat ≤ 4800 → (u.rdr.carrier = none ∨ holds (.ctx x) .reader u = false) →
        exec (.spHop x d a nw) s = .next (waitAir x .hop d (rd k a) 0 fn
          (ctxRequest x .reader (readerClass x u) (rd k a).toNat nw u) u)) ∧
      ((rd k a).toNat ≤ 4800 → u.rdr.carrier.isSome = true → holds (.ctx x) .reader u = true →
        ∀ v, v = carrierOff (k.cursor + 243) u → exec (.spHop x d a nw) s = .next (waitAir x .hop d (rd v.ctxs[x] a) 240 fn
          (ctxRequest x .reader (readerClass x v) (rd k a).toNat nw v) v)) ∧
      (4800 < (rd k a).toNat → exec (.spHop x d a nw) s = .next (airNothing x u))) ∧
    (AtInstr x (.spPwr x d a nw) s → AirClear x .reader paBad i → holds (.ctx x) .reader u = true →
      ∀ v, v = sWord ((rd k a).toNat % 65536) →
      (-120 ≤ v → ∀ w, w = clampPower u.loaded[x] v u → exec (.spPwr x d a nw) s = .next (retire x 1 (modCtx x (fun k =>
        wr d (BitVec.ofInt 32 w) { k with n := false, c := decide (w < v), power := BitVec.ofInt 16 w }) u))) ∧
      (v < -120 → ∃ t, exec (.spPwr x d a nw) s = .next t ∧ t.ctxs[x].power = k.power ∧ t.ctxs[x].c = true)) ∧
    (AtInstr x (.spAsel x d a nw) s → AirClear x .reader (fun _ => false) i → holds (.ctx x) .reader u = true →
      (u.rdr.carrier = none → exec (.spAsel x d a nw) s = .next (retire x 1 (modCtx x (fun k =>
        wr d 0 { k with n := false, c := false }) (selectAerial (mod4 (rd k a).toNat) (k.cursor + 3) u)))) ∧
      (u.rdr.carrier.isSome = true → exec (.spAsel x d a nw) s =
        .next (retire x 1 (modCtx x (fun k => { k with n := false, c := true }) u)))) ∧
    (AtInstr x (.spTxcw x d true nw) s → AirClear x .reader paBad i → tuned x .reader u = true →
      (u.rdr.carrier = none → exec (.spTxcw x d true nw) s = .next (enterWait x { airPend x .txcw d 0 0 (1 ||| fn) 240 u with
        until_ := leadTick u (k.cursor + 3) + 240 } (rampUp u.loaded[x] k.power (leadTick u (k.cursor + 3)) u))) ∧
      (u.rdr.carrier.isSome = true → exec (.spTxcw x d true nw) s = .next (wAtOnce x (airOkNz d 0) u))) ∧
    (AtInstr x (.spTxcw x d false nw) s → AirClear x .reader (fun _ => false) i → holds (.ctx x) .reader u = true →
      (u.rdr.carrier = none → exec (.spTxcw x d false nw) s = .next (wAtOnce x (airOkNz d 0) u)) ∧
      (u.rdr.carrier.isSome = true → exec (.spTxcw x d false nw) s = .next (enterWait x (airPend x .txcw d 0 0 fn 240 u)
        (compApply (extPa u.loaded[x]) u)))) ∧
    (∀ (src : Fin 3) (pre qry : Bool) (fr : List Bool), AtInstr x (.spTxsym x d a b src pre qry nw) s →
      symCountOk src (rd i.ctxs[x] b).toNat = true →
      symBits x src (rd i.ctxs[x] a) (rd i.ctxs[x] b).toNat i = some fr →
      AirClear x .reader (fun p => fwdBad p || (pre && backBad p)) i → holds (.ctx x) .reader u = true →
      u.rdr.carrier.isSome = true → k.stopping = none →
      ∃ t p, exec (.spTxsym x d a b src pre qry nw) s = .next t ∧ t.ctxs[x].run = .waiting ∧
        t.rdr.onAir = some { set := profileSet u.loaded[x], pre := pre, bits := fr } ∧
        t.radio.rHold = u.radio.rHold.map (fun q => { q with commit := some (k.cursor + 3), ends := none }) ∧
        t.ctxs[x].pend = some p ∧ p.op = .txsym ∧ p.d = d ∧ p.issued = k.cursor ∧ p.noAir = false) ∧
    (∀ (count : BitVec 10) (pclen crc : Bool), AtInstr x (.spRxwin x d a b count pclen crc nw) s →
      (pclen = true → count = 0) → heldBuf i.ctxs[x] (rd i.ctxs[x] a) = some h → AirClear x .reader backBad i →
      lostReaderRx u = false → tuned x .reader u = true →
      (rd k b ≠ 0 → ∃ t p, exec (.spRxwin x d a b count pclen crc nw) s = .next t ∧ t.ctxs[x].run = .waiting ∧
        t.ctxs[x].pend = some p ∧ p.op = .rxwin ∧ p.d = d ∧ p.a = rd k a ∧ p.b = rd k b ∧
        p.until_ = k.cursor + 3 + BitVec.ofNat 48 (rd k b).toNat ∧ p.noAir = false) ∧
      (rd k b = 0 → exec (.spRxwin x d a b count pclen crc nw) s =
        .next (wAtOnce x (fun k => { airOkCtx d 0 k with z := true }) u))) ∧
    (AtInstr x (.spRssi x d nw) s → AirClear x .reader (fun _ => false) i → holds (.ctx x) .reader u = true →
      exec (.spRssi x d nw) s = .next (retire x 1 (modCtx x (fun k =>
        wr d ((k.phase ++ k.rssi).setWidth 32) { k with n := false }) u))) ∧
    (AtInstr x (.spSniff x d nw) s → AirClear x .reader paBad i → tuned x .reader u = true → u.rdr.carrier = none →
      ∀ act, act = leadTick u (k.cursor + 3) → exec (.spSniff x d nw) s = .next (enterWait x
        { airPend x .sniff d 0 0 fn 0 u with until_ := act + 960 }
        (setCommit .reader (some act) (setCore .reader .tx (burstDrive u.loaded[x] act u))))) ∧
    (AtInstr x (.spRfoff x d nw) s → AirClear x .reader (fun _ => false) i → holds (.ctx x) .reader u = true →
      exec (.spRfoff x d nw) s = .next (enterWait x
        (airPend x .rfoff d 0 0 fn (if u.rdr.carrier.isSome then 240 else 0) u) u)) ∧
    (holds (.ctx x) .reader u = false →
      (AtInstr x (.spPwr x d a nw) s → AirClear x .reader paBad i →
        exec (.spPwr x d a nw) s = .next (airFirst x .reader d fn id u)) ∧
      (AtInstr x (.spAsel x d a nw) s → AirClear x .reader (fun _ => false) i →
        exec (.spAsel x d a nw) s = .next (airFirst x .reader d fn id u)) ∧
      (AtInstr x (.spTxcw x d false nw) s → AirClear x .reader (fun _ => false) i →
        exec (.spTxcw x d false nw) s = .next (airFirst x .reader d fn id u)) ∧
      (AtInstr x (.spRssi x d nw) s → AirClear x .reader (fun _ => false) i →
        exec (.spRssi x d nw) s = .next (airFirst x .reader d fn id u)) ∧
      (AtInstr x (.spRfoff x d nw) s → AirClear x .reader (fun _ => false) i →
        exec (.spRfoff x d nw) s = .next (airFirst x .reader d fn id u)))) ∧
  (∀ (w : Bool) (x : Tenant) (core : CoreId) (d : Fin 16) (bad : Profile → Bool) (st : Byte) (body : State → State) (u t : State),
    airBlock x core bad u = some st → airIssue w x core d bad body u = t →
    t.ctxs[x].n = true ∧ t.ctxs[x].z = true ∧ t.ctxs[x].c = false ∧
      rd t.ctxs[x] d = (if d = 0 then 0 else st.setWidth 32) ∧ t.ctxs[x].pc = u.ctxs[x].pc + 1 ∧
      (inLimp u = true → st = stLimp) ∧ (inLimp u = false → noSyn u = true → st = stDegraded) ∧
      (inLimp u = false → noSyn u = false → core = .link → u.ctxs[x].lostL = true → st = stAirtime)) ∧
  (∀ (w : Bool) (x : Tenant) (core : CoreId) (d : Fin 16) (bad : Profile → Bool) (body : State → State) (u : State),
    airBlock x core bad u = none → holds (.ctx x) core u = true →
    airIssue w x core d bad body u = airFail w x d stCalFail (calResult core u).2 ∨
    airIssue w x core d bad body u = body (airClass x core (airCursor x (calResult core u).2)))

/-- The link's air instructions complete in an own program that nothing blocks (R212 to R214, R233, R247 to R250, R274): LCH asks
for its channel; LTX asks for the air of a frame of 1 to 255 bytes, 127 in S-mode, from SYNTH; LRX and LCCA ask for the receiver
on a tuned core; LOFF waits for STANDBY while the core is held, and asks for the air otherwise. -/
def Obligations.SpoolLinkAirComplete : Prop :=
  ∀ (x : Tenant) (d a b : Fin 16) (nw : Bool) (h : Fin 32) (s : State),
    let i := issueMoment x s
    let u := airCursor x i
    let k := u.ctxs[x]
    let fn : BitVec 14 := if nw then 0x2000 else 0
    (∀ txi : Bool, AtInstr x (.spLch x d a txi nw) s → AirClear x .link linkProfileBad i →
      ((rd k a).toNat ≤ 4800 → exec (.spLch x d a txi nw) s = .next (waitAir x .lch d (rd k a) 0 (fnBit 12 txi ||| fn)
        (ctxRequest x .link (lchClass x txi u) (rd k a).toNat nw u) u)) ∧
      (4800 < (rd k a).toNat → exec (.spLch x d a txi nw) s = .next (airNothing x u))) ∧
    (∀ (sf : Fin 5) (smode ack fcs : Bool) (psdu : Bytes) (lane : Fin 6), AtInstr x (.spLtx x d a sf smode ack fcs nw) s →
      (smode = true → sf = 0) → heldBuf i.ctxs[x] (rd i.ctxs[x] a) = some h → AirClear x .link linkProfileBad i →
      psdu = (if fcs then withFcs (bufBytes u.bufs[h] u.bufs[h].len) else bufBytes u.bufs[h] u.bufs[h].len) →
      lane = (if smode then 5 else ⟨sf.val, by omega⟩) →
      1 ≤ psdu.length → psdu.length ≤ (if smode then 127 else 255) → holds (.ctx x) .link u = true →
      coreState .link u = .synth →
      ∀ (f : LinkTx) (w : State), f = { lane := lane, slow := slowChips u.loaded[x] u, lkb := txLkb u.loaded[x] u, first := 0,
                                        power := BitVec.ofNat 8 (bits u.loaded[x].txpwr 7 0) } →
      w = setLink (fun l => { l with sentPsdu := psdu, onAir := some f }) u →
      exec (.spLtx x d a sf smode ack fcs nw) s = .next (waitAir x .ltx d (rd w.ctxs[x] a)
        (BitVec.ofNat 32 (432 + airTicks lane (slowChips u.loaded[x] u) psdu.length))
        (BitVec.ofNat 14 sf.val ||| fnBit 7 smode ||| fnBit 8 ack ||| fnBit 9 fcs ||| fn)
        { ctxRequest x .link 3 w.radio.lFreq nw w with gnt := true } w)) ∧
    (∀ lanes : BitVec 6, AtInstr x (.spLrx x d a b lanes nw) s → heldBuf i.ctxs[x] (rd i.ctxs[x] a) = some h →
      AirClear x .link (fun _ => false) i → lostLinkRx u = false →
      (if lanes = 0 then 0x3F else lanes) &&& u.link.uses &&& (if slowChips u.loaded[x] u then 0x1F else 0x3F) ≠ 0 →
      tuned x .link u = true →
      (rd k b ≠ 0 → ∃ cls, (cls = 1 ∨ cls = 5) ∧ exec (.spLrx x d a b lanes nw) s = .next (waitAir x .lrx d (rd k a) (rd k b)
        (lanes.setWidth 14 ||| fn) { ctxRequest x .link cls u.radio.lFreq nw u with gnt := lkbShared x u } u)) ∧
      (rd k b = 0 → exec (.spLrx x d a b lanes nw) s =
        .next (wAtOnce x (fun k => { airOkCtx d 0 k with z := true }) u))) ∧
    (∀ txi : Bool, AtInstr x (.spLcca x d txi nw) s → AirClear x .link (fun _ => false) i → lostLinkRx u = false →
      tuned x .link u = true → exec (.spLcca x d txi nw) s = .next (waitAir x .lcca d 0 0 (fnBit 12 txi ||| fn)
        (ctxRequest x .link (if txi then 3 else 5) u.radio.lFreq nw u) u)) ∧
    (AtInstr x (.spLoff x d nw) s → AirClear x .link (fun _ => false) i →
      (holds (.ctx x) .link u = true → exec (.spLoff x d nw) s = .next (enterWait x (airPend x .loff d 0 0 fn 0 u) u)) ∧
      (holds (.ctx x) .link u = false → exec (.spLoff x d nw) s = .next (airFirst x .link d fn id u)))

/-- The reader's air instructions end in an own program (R241 to R246, R260, R261, R342): HOP on its channel, tuned, or with
ST_CAL_FAIL where both calibrations failed; TXCW when its ramp ends; TXSYM with the tick of its last symbol's end in D; RXWIN at
its window's end with Z set, or with the first 16 bits, the bit count and the CRC verdict in D; SNIFF with DELTA, 0 where its aerial
has no baseline yet; RFOFF with the air released. In a built-in program they hand on to the inventory or the access. The link's air
instructions end (R247 to R250, R260, R261): LCH on its channel, tuned, or with ST_CAL_FAIL; LTX with the tick of its last chip in
D; LRX at its window's end with Z set, or with a frame's length and LQI; LCCA with the power in D and Z where it lies below the
threshold; LOFF with the air released. An instruction whose air was lost ends with ST_AIRTIME (R267). -/
def Obligations.SpoolAirEnds : Prop :=
  (∀ (x : Tenant) (now : Tick) (p : Pend) (pafb : Int) (pacur : Nat) (g : Gamma) (s : State),
    let u := advanceTo now s
    u.ctxs[x].run = .waiting → u.ctxs[x].pend = some p → p.noAir = false → isBuiltin u.ctxs[x] = false →
    u.ctxs[x].lostR = false →
    (p.op = .hop → reached u.reel.cnt (p.until_ + p.b.setWidth 48) = true →
      (∀ v, v = calibrate .reader .failed false (if u.radio.rFreq = p.a.toNat then u else leaveChannel u.reel.cnt u) →
        exec (.hopComplete x now .failed) s = .next (endWait x v.reel.cnt (airFailCtx p.d stCalFail) v)) ∧
      ∃ t, exec (.hopComplete x now .ok) s = .next t ∧ t.radio.rFreq = p.a.toNat ∧ t.ctxs[x].tunedR = true ∧
        t.ctxs[x].run = .running ∧ t.ctxs[x].c = false ∧ rd t.ctxs[x] p.d = 0) ∧
    (p.op = .txcw → reached u.reel.cnt p.until_ = true →
      ∀ v, v = (if bit p.fn 0 then rampDone u.loaded[x] pafb pacur u else carrierOff u.reel.cnt u) →
      exec (.txcwComplete x now pafb pacur) s = .next (endWait x v.reel.cnt (airOkNz p.d 0) v)) ∧
    (p.op = .txsym → u.ctxs[x].stopping = none → reached u.reel.cnt p.until_ = true →
      ∃ t, exec (.txsymComplete x now) s = .next t ∧ t.ctxs[x].run = .running ∧ t.ctxs[x].pc = u.ctxs[x].pc + 1 ∧
        t.ctxs[x].cursor = p.until_ ∧ rd t.ctxs[x] p.d = (if p.d = 0 then 0 else p.until_.setWidth 32)) ∧
    (p.op = .rxwin → u.ctxs[x].stopping = none →
      (reached u.reel.cnt p.until_ = true → ∃ t, exec (.rxwinComplete x now none) s = .next t ∧ t.ctxs[x].run = .running ∧
        t.ctxs[x].pc = u.ctxs[x].pc + 1 ∧ t.ctxs[x].z = true ∧ t.ctxs[x].c = false ∧ rd t.ctxs[x] p.d = 0) ∧
      (∀ (r : Reply) (n : Nat) (good : Bool), reached r.begun (p.until_ - p.b.setWidth 48) = true →
        reached r.begun p.until_ = false → requestStale x .reader u = false → r.decoded = true →
        rateOk (profileSet u.loaded[x]) r = true → n = rxwinLen p.fn r → n ≤ r.bits →
        good = (bit p.fn 11 && crcGood ((byteBits r.bytes).take n)) →
        ∃ t, exec (.rxwinComplete x now (some r)) s = .next t ∧ t.ctxs[x].run = .running ∧ t.ctxs[x].z = false ∧
          t.ctxs[x].c = (bit p.fn 11 && !good) ∧ t.ctxs[x].rssi = r.rssi ∧ t.ctxs[x].phase = r.phase ∧
          rd t.ctxs[x] p.d = (if p.d = 0 then 0 else BitVec.ofNat 32
            (bitsNat (((byteBits r.bytes).take n).take 16) + n % 4096 * 65536 + bitAt 28 good)))) ∧
    (p.op = .sniff → reached u.reel.cnt p.until_ = true → ∀ v, v = slotWithdrawn x (setCore .reader .synth (frameEnd .reader u)) →
      p.epoch = v.epoch.rdr →
      (v.rdr.base[v.rdr.aerial] = none → exec (.sniffComplete (some x) now g) s =
        .next (stopIfDue x (endWait x v.reel.cnt (airOkCtx p.d 0) (setBase v.rdr.aerial g v)))) ∧
      (∀ (b : Gamma) (n : Nat) (w : State), v.rdr.base[v.rdr.aerial] = some b → deltaOf g b v = (n, w) →
        exec (.sniffComplete (some x) now g) s =
          .next (stopIfDue x (endWait x w.reel.cnt (airOkCtx p.d (BitVec.ofNat 32 n)) w)))) ∧
    (p.op = .rfoff → reached u.reel.cnt p.until_ = true →
      exec (.rfoffComplete x now) s = .next (endWait x u.reel.cnt (airOkNz p.d 0)
        (modCtx x (fun k => { k with tunedR := false }) (releaseAir .reader u))))) ∧
  (∀ (x : Tenant) (now : Tick) (p : Pend) (cal : Cal) (pafb : Int) (pacur : Nat) (r : Option Reply) (i : Inv) (s : State),
    let u := advanceTo now s
    u.ctxs[x].run = .waiting → u.ctxs[x].pend = some p → p.noAir = false → isBuiltin u.ctxs[x] = true →
    u.rdr.inv[x] = some i →
    (p.op = .hop → exec (.hopComplete x now cal) s = .next (invTuned x i cal u)) ∧
    (reached u.reel.cnt p.until_ = true →
      (p.op = .txcw → ∃ t j, exec (.txcwComplete x now pafb pacur) s = .next t ∧ t.rdr.inv[x] = some j ∧ j.stage = .settle) ∧
      (p.op = .txsym → exec (.txsymComplete x now) s = .next (invSent x i u)) ∧
      (p.op = .rxwin → exec (.rxwinComplete x now r) s = .next (rxwinBuiltin x r u)))) ∧
  (∀ (x : Tenant) (now : Tick) (p : Pend) (dbm : Int) (s : State),
    let u := advanceTo now s
    u.ctxs[x].run = .waiting → u.ctxs[x].pend = some p → p.noAir = false → u.ctxs[x].lostL = false →
    (p.op = .lch → reached u.reel.cnt p.until_ = true →
      (∀ v, v = calibrate .link .failed false u →
        exec (.lchComplete x now .failed) s = .next (endWait x v.reel.cnt (airFailCtx p.d stCalFail) v)) ∧
      ∃ t, exec (.lchComplete x now .ok) s = .next t ∧ t.radio.lFreq = p.a.toNat ∧ t.ctxs[x].tunedL = true ∧
        t.ctxs[x].run = .running ∧ t.ctxs[x].c = false ∧ rd t.ctxs[x] p.d = 0) ∧
    (p.op = .ltx → ∀ last, last = p.until_ + p.b.setWidth 48 → reached u.reel.cnt last = true →
      exec (.ltxComplete x now) s = .next (stopIfDue x (frameEnd .link (endWait x last (fun k => airOkCtx p.d (last.setWidth 32)
        { k with ackTx := if bit p.fn 8 then some last else none }) (dutyAdd p.until_ p.b.toNat (setCore .link .synth u)))))) ∧
    (p.op = .lrx →
      (reached u.reel.cnt (p.until_ + 576 + p.b.setWidth 48) = true → u.link.demod = false →
        ∀ v, v = frameEnd .link (setCore .link .synth u) → exec (.lrxComplete x now none) s =
          .next (stopIfDue x (endWait x u.reel.cnt (fun k => { airOkCtx p.d 0 k with z := true }) v))) ∧
      (∀ f : RxFrame, (bits p.fn 5 0 = 0 ∨ (bits p.fn 5 0).testBit f.lane.val = true) → sfdInWindow p f.sfd = true →
        requestStale x .link u = false → u.ctxs[x].stopping = none →
        ∃ t, exec (.lrxComplete x now (some f)) s = .next t ∧ t.ctxs[x].run = .running ∧ t.ctxs[x].z = false ∧
          t.ctxs[x].c = !fcsGood f ∧
          rd t.ctxs[x] p.d = (if p.d = 0 then 0 else BitVec.ofNat 32 (f.psdu.length + 65536 * lqiOf f.evm)))) ∧
    (p.op = .lcca → reached u.reel.cnt (p.until_ + 3072) = true →
      exec (.lccaComplete x now dbm) s = .next (endWait x u.reel.cnt (fun k => { airOkNz p.d (BitVec.ofInt 32 dbm) k with
        z := decide (dbm < sByte (bits u.loaded[x].cca 7 0)) }) (setCore .link .synth u))) ∧
    (p.op = .loff → reached u.reel.cnt p.until_ = true →
      exec (.loffComplete x now) s = .next (endWait x u.reel.cnt (airOkNz p.d 0)
        (modCtx x (fun k => { k with tunedL := false }) (releaseAir .link u))))) ∧
  (∀ (x : Tenant) (core : CoreId) (now : Tick) (d : Fin 16) (f : Ctx → Ctx) (u t : State),
    (match core with | .reader => u.ctxs[x].lostR | .link => u.ctxs[x].lostL) = true → airDone x core now d f u = t →
    t.ctxs[x].run = .running ∧ t.ctxs[x].n = true ∧ t.ctxs[x].z = true ∧ t.ctxs[x].c = false ∧
      rd t.ctxs[x] d = (if d = 0 then 0 else stAirtime.setWidth 32))

/-- The reader commands complete (R181, R187, R276, R289, R301, R313, R339, R340): RDR.INVENTORY answers the power set and
the number of the next Query and its inventory starts; RDR.STOP ends it at once before the commit point, and with
ST_LATE_CANCEL after the slot when past it; RDR.ACCESS starts; RDR.SNIFF starts with its first burst one interval later, or
stops at IVL 0; RDR.BASELINE stores the mean of 16 bursts, for which it has the air (R343) and is charged (R153; the time between
its bursts is free, log entry 86). -/
def Obligations.ReaderCommandsComplete : Prop :=
  (∀ (c : Cmd) (s u : State) (a : InvArgs) (power : Int), Taken 0x1000 c s u → invArgsOf c.args = some (a, power) →
    rdrRefusal c.t (a.region == 2) u = none → (a.region = 2 → u.prof[c.t].hop ≠ []) →
    ∀ b, b = { a with pset := BitVec.ofInt 16 (clampPower u.prof[c.t] power u) } →
    exec (.rdrInventory c) s = .next (invStart c.t b c.seq false (a.dur == 0)
      (setRdr (fun r => { r with lastInv := r.lastInv.set c.t.val (some b) c.t.isLt })
        (reply c.t stOk (leBytes 2 b.pset.toNat ++ leBytes 2 (u.rdr.roundCnt + 1).toNat) u)))) ∧
  (∀ (c : Cmd) (s u : State) (i : Inv), Taken 0x1001 c s u → u.rdr.inv[c.t] = some i → c.args.length = 2 →
    fld c.args 0 2 = i.tseq.toNat →
    (pastCommit .reader u = false → exec (.rdrStop c) s = .next (invDone c.t stCancelled (reply c.t stCancelled [] u))) ∧
    (holds (.ctx c.t) .reader u = true → pastCommit .reader u = true → i.stage ≠ .over →
      exec (.rdrStop c) s = .next (setInv c.t (some { i with ending := some (i.ending.getD stLateCancel) })
        (reply c.t stLateCancel [] u)))) ∧
  (∀ (c : Cmd) (s u : State) (g : InvArgs) (n : Nat), Taken 0x1002 c s u → u.rdr.lastInv[c.t] = some g →
    inLimp u = false → rdrRefusal c.t (g.region == 2) u = none → fld c.args 0 1 ≤ 2 → fld c.args 1 1 ≤ 3 → fld c.args 6 1 ≤ 3 →
    (fld c.args 0 1 ≠ 2 → 1 ≤ fld c.args 9 1 ∧ fld c.args 9 1 ≤ 32) → (fld c.args 0 1 = 2 → fld c.args 9 1 ≤ 15) →
    1 ≤ fld c.args 10 1 → fld c.args 10 1 ≤ 31 →
    n = (if fld c.args 0 1 = 1 then fld c.args 9 1 else 0) → c.args.length = 11 + 2 * fld c.args 10 1 + 2 * n →
    exec (.rdrAccess c) s = .next (accTune c.t
      { kind := .access (fld c.args 0 1) (BitVec.ofNat 32 (fld c.args 2 4)) (fld c.args 6 1) (fld c.args 7 2) (fld c.args 9 1)
          ((List.range n).map fun i => BitVec.ofNat 16 (fld c.args (11 + 2 * fld c.args 10 1 + 2 * i) 2)),
        args := g, tseq := c.seq, asel := mod4 (fld c.args 1 1), epc := (c.args.drop 11).take (2 * fld c.args 10 1),
        stage := .tune, step := .select, freq := 0, attempt := 0, rn := 0, handle := 0, tid := [], done := [], ending := none }
      (startBuiltin c.t c.seq (reply c.t stOk [] u)))) ∧
  (∀ (c : Cmd) (s u : State), Taken 0x1003 c s u → c.args.length = 6 → fld c.args 2 1 ≤ 3 → fld c.args 5 1 ≤ 1 →
    sniffDown u = none → (∀ n, u.rdr.sniff = some n → n.owner = c.t) →
    (fld c.args 0 2 = 0 → exec (.rdrSniff c) s = .next (sniffStop (reply c.t stOk [] u))) ∧
    (50 ≤ fld c.args 0 2 → fld c.args 0 2 ≤ 2000 → paSniffBad u.prof[c.t] = false → feedBad u.prof[c.t] = false →
      ∃ t, exec (.rdrSniff c) s = .next t ∧ t.rdr.sniff = some
        { owner := c.t, tseq := c.seq, ivl := fld c.args 0 2, asel := mod4 (fld c.args 2 1), thr := fld c.args 3 2,
          auto := fld c.args 5 1 == 1, armed := true, below := 0, waiting := false,
          due := u.reel.cnt + BitVec.ofNat 48 (fld c.args 0 2 * 24000) })) ∧
  (∀ (c : Cmd) (bursts : List Gamma) (s u : State), Taken 0x1004 c s u → c.args.length = 1 → fld c.args 0 1 ≤ 3 →
    sniffDown u = none → paSniffBad u.prof[c.t] = false → feedBad u.prof[c.t] = false →
    (∀ n, u.rdr.sniff = some n → n.owner = c.t) → airNow (baselineReq c.t u) u = true → bursts.length = 16 →
    exec (.rdrBaseline c bursts) s = .next (reply c.t stOk [] (setBase (mod4 (fld c.args 0 1)) (gammaMean bursts)
      (baselineCharged c.t (releaseAir .reader (grantAir (baselineReq c.t u) u.reel.cnt (takeHalf .reader c.t u)))))))

/-- RDR.RESET, LNK.RESET, CRYPTO.RESET and SPOOL.RESET complete (R82, R186, R220, R326, R333, R486, R588), shown where
nothing runs on the block: the block's epoch advances, the caller's command is answered, and what the reset clears is clear.
The SPOOL commands complete (R200, R201, R206, R209, R216, R219, R223): SPOOL.LOAD takes the next piece of an image, and its
last piece with a good image fills the slot; the three starts begin the program at its entry with W1 to W4 and leave the
response to its first moments; SPOOL.STOP ends a program before its commit point; SPOOL.STATUS reads state, PC, fault and
cycles. -/
def Obligations.BlockResetsAndSpoolCommands : Prop :=
  ((∀ (c : Cmd) (s u : State), Taken 0x10F0 c s u → c.args = [] → (∀ t : Tenant, rdrActive t u = false) →
    u.radio.rHold = none → u.radio.waiters = [] → u.rdr.inv[c.t] = none → u.rdr.acc[c.t] = none →
    u.sess[c.t].opened = false → u.rdr.sniff = none → u.svy.sweep = none →
    ∃ t, exec (.rdrReset c) s = .next t ∧ t.epoch.rdr = u.epoch.rdr + 1 ∧ t.rdr.dpd = Vector.replicate 3 0 ∧
      t.rdr.noconc = 0 ∧ t.tens[c.t].exec = none) ∧
  (∀ (c : Cmd) (s u : State), Taken 0x20F0 c s u → c.args = [] → (∀ t : Tenant, linkActive t u = false) →
    u.radio.lHold = none → u.radio.waiters = [] → u.link.sends = [] → u.link.listens = Vector.replicate 4 none →
    u.link.ackDue = none → u.link.ackEnd = none → u.svy.sweep = none →
    ∃ t, exec (.lnkReset c) s = .next t ∧ t.epoch.lnk = u.epoch.lnk + 1 ∧ t.link.noackRun = 0 ∧ t.link.isolated = false ∧
      t.link.dup = [] ∧ t.tens[c.t].exec = none) ∧
  (∀ (c : Cmd) (s u : State), Taken 0x48F0 c s u → c.args = [] → cryptoBusy c.t u = false →
    u.ctxs[c.t].run ≠ .waiting → u.radio.waiters = [] → u.sess[c.t].opened = false → u.radio.rHold = none →
    ∃ t, exec (.cryptoReset c) s = .next t ∧ t.epoch.cry = u.epoch.cry + 1 ∧ t.bri.drbgOk = false ∧
      t.tens[c.t].exec = none) ∧
  (∀ (c : Cmd) (s u : State), Taken 0x90F0 c s u → c.args = [] → u.ctxs[c.t].run = .idle ∨ u.ctxs[c.t].run = .faulted →
    ∃ t, exec (.spoolReset c) s = .next t ∧ t.ctxs[c.t].epoch = u.ctxs[c.t].epoch + 1 ∧ t.ctxs[c.t].data = [] ∧
      t.ctxs[c.t].code = u.ctxs[c.t].code ∧ t.ctxs[c.t].run = .idle ∧ t.ctxs[c.t].fault = 0 ∧ t.tens[c.t].exec = none)) ∧
  ((∀ (c : Cmd) (s u : State) (got b : Bytes), Taken 0x9000 c s u → 5 ≤ c.args.length →
    c.args.length = 5 + fld c.args 3 2 → 1 ≤ fld c.args 3 2 → fld c.args 3 2 ≤ 1000 →
    (u.ctxs[c.t].run = .idle ∨ u.ctxs[c.t].run = .faulted) → got = u.ctxs[c.t].load.getD [] → fld c.args 0 2 = got.length →
    got.length + fld c.args 3 2 ≤ maxImage → b = got ++ c.args.drop 5 →
    (fld c.args 2 1 = 0 → exec (.spoolLoad c) s = .next (reply c.t stOk []
      (modCtx c.t (fun k => { (if fld c.args 0 2 = 0 then emptySlot k else k) with load := some b }) u))) ∧
    (fld c.args 2 1 = 1 → imageOk b = true → exec (.spoolLoad c) s =
      .next (reply c.t stOk [BitVec.ofNat 8 (fld b 12 1)] (modCtx c.t (placeImage b) u))) ∧
    (fld c.args 2 1 = 1 → imageOk b = false → exec (.spoolLoad c) s = .next (reply c.t stBadArg [] (modCtx c.t emptySlot u)))) ∧
  (∀ (c : Cmd) (s u : State) (how : Starter) (pc : Nat), c.args.length = 17 → fld c.args 0 1 ≤ 7 →
    ctxBusy u.ctxs[c.t] = false → u.ctxs[c.t].entries[fld c.args 0 1]? = some pc →
    let go := fun (p : Profile) => modCtx c.t (startCtx how c.seq pc fun i => BitVec.ofNat 32 (fld c.args (1 + 4 * i) 4))
      { u with loaded := vmod u.loaded c.t fun _ => p }
    let q := u.loaded[c.t]
    let p := u.prof[c.t]
    (how = .spoolStart → Taken 0x9001 c s u → exec (.spoolStart c) s = .next (go q)) ∧
    (how = .rdrRunSpool → Taken 0x1010 c s u → readerDown u = none → paSniffBad p = false → feedBad p = false →
      readerProfileBad p = false →
      exec (.rdrRunSpool c) s = .next (go { p with phycfg := q.phycfg, txpwr := q.txpwr, cca := q.cca })) ∧
    (how = .lnkRunSpool → Taken 0x2010 c s u → inLimp u = false → noSyn u = false → linkProfileBad p = false →
      exec (.lnkRunSpool c) s = .next (go { q with coex := p.coex, phycfg := p.phycfg, txpwr := p.txpwr, cca := p.cca }))) ∧
  (∀ (c : Cmd) (s u : State), Taken 0x9002 c s u → c.args = [] → ownRuns u.ctxs[c.t] = true → progCommitted c.t u = false →
    exec (.spoolStop c) s = .next (stopProgram c.t stCancelled (reply c.t stCancelled [] u))) ∧
  (∀ (c : Cmd) (s u : State), Taken 0x9003 c s u → c.args = [] →
    exec (.spoolStatus c) s = .next (reply c.t stOk ([BitVec.ofNat 8 (ctxCode u.ctxs[c.t] u)] ++
      leBytes 2 (pcNow u.ctxs[c.t] u) ++ [BitVec.ofNat 8 u.ctxs[c.t].fault] ++ leBytes 4 (cycNow u.ctxs[c.t] u)) u)))

/-- The TAG and SEC commands complete (R188 to R191, R195, R347, R357, R362, R366, R369): TAG.ENABLE takes owner, key,
options and EPC; TAG.DISABLE clears what the enabled tag held; TAG.PUBLISH writes the readout area, at the next crew message
where a session is open; SEC.TAM1 and SEC.FARZ_OPEN begin their exchange, the latter under the next SID; SEC.FARZ_SEND sends
or waits for the message before; SEC.CLOSE closes. -/
def Obligations.TagCommandsComplete : Prop :=
  (∀ (c : Cmd) (k : Fin 48) (s u : State), Taken 0x1100 c s u → 2 ≤ fld c.args 2 1 → fld c.args 2 1 ≤ 8 →
    c.args.length = 3 + 2 * fld c.args 2 1 → fld c.args 1 1 ≤ 7 → inLimp u = false →
    (u.tag.enabled = true → u.tag.owner = c.t) → fld c.args 0 1 = k.val → keyRefusal c.t k.val isDerive u = none →
    exec (.tagEnable c) s = .next (reply c.t stOk [] (setTag (fun g => { g with
      enabled := true, owner := c.t, key := k, flags := BitVec.ofNat 8 (fld c.args 1 1), epc := c.args.drop 3 }) u))) ∧
  (∀ (c : Cmd) (s u : State), Taken 0x1101 c s u → c.args = [] → u.tag.enabled = true → u.tag.owner = c.t →
    u.tag.session = false → ∃ t, exec (.tagDisable c) s = .next t ∧ t.tag.enabled = false ∧ t.tag.area = [] ∧
      t.tag.epc = [] ∧ t.tag.field = false ∧ t.tens[c.t].exec = none) ∧
  (∀ (c : Cmd) (s u : State), Taken 0x1102 c s u → c.args.length = 4 + fld c.args 2 2 → u.tag.enabled = true →
    u.tag.owner = c.t → 1 ≤ fld c.args 2 2 → fld c.args 2 2 ≤ 512 → fld c.args 0 2 + fld c.args 2 2 ≤ 2048 →
    (u.tag.session = false → exec (.tagPublish c) s = .next (reply c.t stOk []
      (setTag (fun g => { g with area := memPutAll g.area (fld c.args 0 2) (c.args.drop 4) }) u))) ∧
    (u.tag.session = true → exec (.tagPublish c) s = .next (reply c.t stOk []
      (setTag (fun g => { g with pubNext := g.pubNext ++ [(fld c.args 0 2, c.args.drop 4)] }) u)))) ∧
  (∀ (c : Cmd) (k : Fin 48) (g : InvArgs) (s u : State) (n base : Nat) (kind : AccKind) (note : SecSess → SecSess)
    (res : Bytes), u.rdr.lastInv[c.t] = some g → inLimp u = false → rdrRefusal c.t (g.region == 2) u = none →
    fld c.args 0 1 = k.val → keyRefusal c.t k.val isDerive u = none → u.bri.drbgOk = true → u.sess[c.t].opened = false →
    1 ≤ n → n ≤ 31 → c.args.length = base + 2 * n →
    let begins : Host.Outcome State Fault Refusal := .next (accTune c.t
      { kind := kind, args := g, tseq := c.seq, asel := mod4 (fld c.args (base - 2) 1), epc := c.args.drop base,
        stage := .tune, step := .select, freq := 0, attempt := 0, rn := 0, handle := 0, tid := [], done := [], ending := none }
      (startBuiltin c.t c.seq (modSess c.t note (reply c.t stOk res u))))
    (Taken 0x1200 c s u → base = 4 → fld c.args 2 1 ≤ 3 → n = fld c.args 3 1 →
      kind = .tam1 k (BitVec.ofNat 8 (fld c.args 1 1)) → res = [] → note = (fun q => { q with challenge := [] }) →
      exec (.secTam1 c) s = begins) ∧
    (Taken 0x1201 c s u → base = 3 → fld c.args 1 1 ≤ 3 → n = fld c.args 2 1 → kind = .farz k →
      res = [nextSid u.sess[c.t].sid] →
      note = (fun q => { q with sid := nextSid u.sess[c.t].sid, tseq := c.seq, key := k, keyGone := false, challenge := [],
                                ctx := none }) → exec (.secFarzOpen c) s = begins)) ∧
  (∀ (c : Cmd) (s u : State), Taken 0x1202 c s u → c.args.length = 3 + fld c.args 1 2 → 1 ≤ fld c.args 1 2 →
    fld c.args 1 2 ≤ 256 → u.sess[c.t].opened = true → u.sess[c.t].sid.toNat = fld c.args 0 1 → inLimp u = false →
    u.mend.keyram.getLsbD u.sess[c.t].key.val = false →
    noUseLeft u.sess[c.t].key (if 200 < fld c.args 1 2 then 2 else 1) u = false →
    ∀ v, v = modSess c.t (fun q => { q with idleFrom := u.reel.cnt }) (reply c.t stOk [] u) →
    (u.sess[c.t].busy = none → exec (.secFarzSend c) s = .next (sessSend c.t c.seq (c.args.drop 3) 203 v)) ∧
    (u.sess[c.t].busy.isSome = true → exec (.secFarzSend c) s =
      .next (modSess c.t (fun q => { q with sendQ := q.sendQ ++ [(c.seq, c.args.drop 3)] }) v))) ∧
  (∀ (c : Cmd) (s u : State), Taken 0x1203 c s u → c.args.length = 1 → u.sess[c.t].opened = true →
    u.sess[c.t].sid.toNat = fld c.args 0 1 →
    exec (.secClose c) s = .next (closeSession c.t 0 (reply c.t stOk [] u)))

/-- The lantern tag in a field (R370 to R374, Table 12-7): a field qualifies at -40 dBm with the own carrier off and the
core is held for the tag in STANDBY; it drops; Select works on SL or an inventoried flag; a matching Query is answered with
a fresh RN16, whose value is free; ACK with PC and EPC and their CRC-16; Read with the words asked for, or error 0x04 past
the bank. The lantern tag's exchange (R351, R353, R354, R361, R377 to R379, Table 12-4): a good FZ1 is answered FZ2 under
fresh session keys; FZ3 with the right RPROOF opens the session and is acknowledged, with a wrong one it begins a backoff
and is answered ERR 0x01; TAM1 is answered under FLAGS bit 1; the backoff ends at its time; a malformed message is answered
ERR 0x05. -/
def Obligations.LanternTagOnAir : Prop :=
  ((∀ (now : Tick) (lv : BitVec 8) (s : State), let u := advanceTo now s
    u.tag.enabled = true → u.tag.field = false → u.rdr.carrier = none → -40 ≤ lv.toInt →
    let v := setTag (fun g => { g with field := true, level := lv, fd := bit g.flags 0 }) u
    (u.power.mode = .run → exec (.fieldQualified now lv) s = .next (lanternHold (evFieldTo 1 lv v))) ∧
    (u.power.mode = .sleep → exec (.fieldQualified now lv) s =
      .next (startWake .field (setTag (fun g => { g with owed := true }) v)))) ∧
  (∀ (now : Tick) (s : State), let u := advanceTo now s
    u.tag.field = true → u.rdr.carrier = none → u.tag.session = false → u.tag.owed = false → ∃ t,
      exec (.fieldDrop now) s = .next t ∧ t.tag.field = false ∧ t.tag.fd = false ∧ t.tag.handle = none ∧ t.tag.rn16 = none) ∧
  (∀ (action : BitVec 3) (bank : BitVec 2) (ptr : Nat) (mask : List Bool) (s : State), tagHears s = true →
    exec (.tagSelect 4 action bank ptr mask) s =
      .next (setTag (fun g => { g with sl := selectAction action (tagMatches bank ptr mask s) g.sl }) s)) ∧
  (∀ (sess : BitVec 2) (dr : Bool) (m : BitVec 2) (tr : Bool) (trcal : Nat) (s : State), tagHears s = true →
    bit s.tag.inv sess.toNat = false → blfInReach dr trcal = true →
    exec (.tagQuery 0 sess false dr m tr trcal) s = .next (setTag (fun g => { g with
      rn16 := some (BitVec.ofNat 16 (Config.freeNat s.free)), blfSet := (trcal, dr, m, tr)
      replyOut := .rn16 (BitVec.ofNat 16 (Config.freeNat s.free)) }) { s with free := s.free + 1 })) ∧
  (∀ (rn : BitVec 16) (s : State), tagHears s = true → s.tag.rn16 = some rn →
    exec (.tagAck rn) s = .next (setTag (fun g => { g with
      handle := some rn, replyOut := .epc (tagPcEpc s ++ crcBytes (tagPcEpc s)) }) s)) ∧
  (∀ (h : BitVec 16) (bank : BitVec 2) (ptr count : Nat) (s : State), withHandle h s = true → 0 < count →
    (2 * (ptr + count) ≤ (tagBank bank s).length → exec (.tagRead h bank ptr count) s = .next (setTag (fun g => { g with
      replyOut := .words (((tagBank bank s).drop (2 * ptr)).take (2 * count)) }) s)) ∧
    ((tagBank bank s).length < 2 * (ptr + count) → exec (.tagRead h bank ptr count) s =
      .next (setTag (fun g => { g with replyOut := .error 0x04 }) s)))) ∧
  ((∀ (h : BitVec 16) (msg fk tch : Bytes) (now : Tick) (s v w x : State), let u := advanceTo now s
    withHandle h u = true → msg.length = 10 → msg.take 2 = [0x01, 0x01] → backingOff u = false →
    chargeSession u.tag.key (u.tag.keyGone && u.tag.session) u = .ok v →
    w = setTag (fun g => { g with keyGone := false, ctx := none, fz2Handle := none }) (closeTagSession 0 v) →
    keyRefusal w.tag.owner w.tag.key.val isDerive w = none → keyValue w 5 w.tag.key = some fk →
    drbgTake 8 w = some (tch, x) → ∀ c, c = secKeys (tagKey fk (tagTid x)) (msg.drop 2) tch →
    exec (.fz1Received h msg now) s = .next (tagAnswer ([0x02] ++ tch ++ tproof c)
      (cacheKey x.tag.key (setTag (fun g => { g with ctx := some c, fz2Handle := some h }) x)))) ∧
  (∀ (h : BitVec 16) (msg : Bytes) (now : Tick) (s : State), let u := advanceTo now s
    withHandle h u = true → msg.length ≠ 10 → exec (.fz1Received h msg now) s = .next (tagErr 0x05 u)) ∧
  (∀ (h : BitVec 16) (msg : Bytes) (now : Tick) (c : SecCtx) (s v : State), let u := advanceTo now s
    withHandle h u = true → msg.length = 9 → msg.take 1 = [0x03] → u.tag.ctx = some c → u.tag.fz2Handle = some h →
    (msg.drop 1 = rproof c → chargeSession u.tag.key u.tag.keyGone u = .ok v →
      exec (.fz3Received h msg now) s = .next (tagAnswer [0x04, 0x00] (raise v.tag.owner evTagSession ([1, 0] ++ leBytes 4 0)
        (setTag (fun g => { g with session := true, fz2Handle := none, ctrTx := 0, ctrRx := 0, msgs := 0, part := [],
                                   request := [], failRun := 0, backoff := none }) v)))) ∧
    (msg.drop 1 ≠ rproof c → exec (.fz3Received h msg now) s = .next (tagErr 0x01 (logAuthFail 1 u.tag.owner
      (raise u.tag.owner evTagSession ([0, 3] ++ leBytes 4 0) (setTag (fun g => { g with
        ctx := none, fz2Handle := none, failRun := satInc 255 g.failRun, failTotal := satInc 255 g.failTotal,
        backoff := some (u.reel.cnt + BitVec.ofNat 48 (min (2 ^ (min (g.failRun + 1) 7 - 1)) 64 * 24000000)) }) u)))))) ∧
  (∀ (h : BitVec 16) (msg fk rnd : Bytes) (s v w : State), withHandle h s = true → bit s.tag.flags 1 = true →
    msg.length = 12 → msg.take 2 = [0x00, 0x00] → keyRefusal s.tag.owner s.tag.key.val isDerive s = none →
    keyValue s 5 s.tag.key = some fk → drbgTake 4 s = some (rnd, v) → chargeKey v.tag.key 1 v = some w →
    exec (.tam1Received h msg) s = .next (cacheKey w.tag.key (setTag (fun g => { g with
      replyOut := .msg (aesEnc (tagKey fk (tagTid w)) ([0x96, 0xC5] ++ rnd ++ msg.drop 2)) }) w))) ∧
  (∀ (now : Tick) (s : State) (e : Tick), (advanceTo now s).tag.backoff = some e →
    reached (advanceTo now s).reel.cnt e = true →
    exec (.authBackoffExpiry now) s = .next (setTag (fun g => { g with backoff := none }) (advanceTo now s))))

/-- The lantern tag's session (R355 to R358, R377, Table 12-8): a message whose MIC verifies under a higher counter is
charged and taken, a fragment acknowledged, a request kept; one with a counter not above the last is answered ERR 0x04. READ
is answered from the area, INFO with the area's size, Reel and the messages, CLOSE closes after the reply. -/
def Obligations.LanternSessionCompletes : Prop :=
  (∀ (h : BitVec 16) (msg plain : Bytes) (c : SecCtx) (s v : State), withHandle h s = true → s.tag.session = true →
    s.tag.ctx = some c → 13 ≤ msg.length → msg.length ≤ 213 →
    (msg.getD 0 0 = 0x12 → fld msg 1 4 ≤ s.tag.ctrRx → exec (.sessionMessage h msg) s = .next (tagErr 0x04 s)) ∧
    (msg.getD 0 0 = 0x12 → s.tag.ctrRx < fld msg 1 4 → secOpen c 0x00 msg = some plain →
      chargeSession s.tag.key s.tag.keyGone s = .ok v → ∀ w, w = publishNow (setTag (fun g => { g with ctrRx := fld msg 1 4 }) v) →
      exec (.sessionMessage h msg) s =
        .next (tagSend 0x13 [] (tagCounted (setTag (fun g => { g with part := w.tag.part ++ plain }) w)))) ∧
    (msg.getD 0 0 = 0x10 → s.tag.ctrRx < fld msg 1 4 → secOpen c 0x00 msg = some plain →
      chargeSession s.tag.key s.tag.keyGone s = .ok v → ∀ w y, w = publishNow (setTag (fun g => { g with ctrRx := fld msg 1 4 }) v) →
      y = tagCounted (setTag (fun g => { g with part := [] }) w) → y.tag.session = true →
      readoutForm (w.tag.part ++ plain) = .known →
      exec (.sessionMessage h msg) s = .next (setTag (fun g => { g with request := w.tag.part ++ plain }) y))) ∧
  (∀ (off : BitVec 16) (len : BitVec 8) (s : State), s.tag.session = true →
    s.tag.request = [0x01] ++ leBytes 2 off.toNat ++ [len] →
    (off.toNat + len.toNat ≤ 2048 → exec (.readoutRead off len) s = .next (answerRequest
      ([0x00] ++ memGetAll (publishNow s).tag.area off.toNat len.toNat) (publishNow s))) ∧
    (2048 < off.toNat + len.toNat → exec (.readoutRead off len) s = .next (answerRequest [0x01] (publishNow s)))) ∧
  (∀ (now : Tick) (s : State), let u := advanceTo now s
    u.tag.session = true → u.tag.request = [0x02] → exec (.readoutInfo now) s =
      .next (answerRequest ([0x00] ++ leBytes 2 2048 ++ leBytes 6 u.reel.cnt.toNat ++ leBytes 4 u.tag.msgs) u)) ∧
  (∀ s : State, s.tag.session = true → s.tag.request = [0x03] →
    exec .readoutClose s = .next (closeTagSession 0 (answerRequest [0x00] s)))

/-- The interrogator's side (R292, R350, R352, R355 to R360, R364 to R367): a reply that an exchange awaits is heard unless its rate
is off by more than 25 % or its request is stale; a TAM1 response that carries the challenge ends the command with ST_OK, another
with ST_AUTH_FAIL; FZ2 with a wrong TPROOF fails, with the right one FZ3 follows; FZ3's acknowledgement opens the session; a
session reply whose MIC fails closes it with REASON 3, and a good final one is delivered; no reply within 10 ms closes it
with REASON 1, as do 2 s without a SEC.FARZ_SEND and a dwell limit where no next channel can be had. -/
def Obligations.InterrogatorCompletes : Prop :=
  (∀ (x : Tenant) (step : AccStep) (hz : Nat) (a : Acc) (u : State), exchangeAt x step u = some a →
    requestStale x .reader u = false → rateIn (accSet x a u) hz = true → (exchangeHeard x step hz u).1 = some a) ∧
  (∀ (x : Tenant) (msg : Bytes) (hz : Nat) (now : Tick) (a : Acc) (k : Fin 48) (kid : Byte) (held : SecCtx) (s v : State),
    exchangeHeard x .exchange hz (advanceTo now s) = (some a, v) → a.kind = .tam1 k kid → v.sess[x].ctx = some held →
    ∀ p, p = aesDec held.ktag msg →
    (msg.length = 16 → p.take 2 = [0x96, 0xC5] → p.drop 6 = v.sess[x].challenge → exec (.tam1Response x msg hz now) s =
      .next (endAcc x stOk 0 0 (setSvy (fun v => { v with tagCap := v.tagCap ||| 0x20 }) v))) ∧
    (p.drop 6 ≠ v.sess[x].challenge → exec (.tam1Response x msg hz now) s =
      .next (logAuthFail 0 x (endAcc x stAuthFail 0 3 v)))) ∧
  (∀ (x : Tenant) (msg : Bytes) (hz : Nat) (now : Tick) (a : Acc) (k : Fin 48) (held : SecCtx) (s v : State),
    exchangeHeard x .exchange hz (advanceTo now s) = (some a, v) → a.kind = .farz k → v.sess[x].ctx = some held →
    ∀ c, c = secKeys held.ktag v.sess[x].challenge ((msg.drop 1).take 8) →
    (msg.drop 9 ≠ tproof c → exec (.fz2Reply x msg hz now) s = .next (farzFails x v)) ∧
    (∀ w y z, msg.length = 17 → msg.take 1 = [0x02] → msg.drop 9 = tproof c → chargeSession k v.sess[x].keyGone v = .ok w →
      accFrameOver x a (modSess x (fun q => { q with ctx := some c })
        (setSvy (fun v => { v with tagCap := v.tagCap ||| 0x40 }) w)) = (true, y) →
      chargeSession k y.sess[x].keyGone y = .ok z →
      exec (.fz2Reply x msg hz now) s = .next (accSend x { a with step := .fz3 } (replyGap (accSet x a z)) z))) ∧
  (∀ (x : Tenant) (hz : Nat) (now : Tick) (a : Acc) (k : Fin 48) (s v w : State),
    exchangeHeard x .fz3 hz (advanceTo now s) = (some a, v) → a.kind = .farz k → chargeSession k v.sess[x].keyGone v = .ok w →
    ∃ t, exec (.fz3Reply x [0x04, 0x00] hz now) s = .next t ∧ t.sess[x].opened = true ∧ t.sess[x].handle = a.handle ∧
      t.sess[x].ctrTx = 0 ∧ t.sess[x].ctrRx = 0 ∧ t.sess[x].msgs = 0 ∧ t.rdr.acc[x] = none) ∧
  (∀ (x : Tenant) (msg plain rest : Bytes) (hz : Nat) (tseq : BitVec 16) (now : Tick) (c : SecCtx) (s v : State),
    let u := advanceTo now s
    u.sess[x].opened = true → u.sess[x].ctx = some c → u.sess[x].busy = some (tseq, rest) →
    reached u.reel.cnt u.sess[x].sentAt = true → rateIn (sessSet x u) hz = true →
    (secOpen c 0x01 msg = none → exec (.sessionReply x msg hz now) s = .next (logAuthFail 0 x (closeSession x 3 u))) ∧
    (secOpen c 0x01 msg = some plain → u.sess[x].ctrRx < fld msg 1 4 → rest = [] → msg.getD 0 0 = 0x11 →
      chargeSession u.sess[x].key u.sess[x].keyGone u = .ok v → v.sess[x].msgs + 1 < 1048576 →
      ∀ w, w = frameEnd .reader (raise x evSecData (leBytes 2 tseq.toNat ++ [u.sess[x].sid] ++ leBytes 2 plain.length ++ plain)
        (modSess x (fun q => { q with ctrRx := fld msg 1 4, msgs := q.msgs + 1 }) v)) → w.sess[x].opened = true →
      exec (.sessionReply x msg hz now) s = .next (sessNext x w))) ∧
  (∀ (x : Tenant) (now : Tick) (s : State), let u := advanceTo now s
    u.rdr.acc[x] = none → u.sess[x].opened = true →
    (u.sess[x].busy.isSome = true → reached u.reel.cnt (u.sess[x].sentAt + 240000) = true →
      exec (.tagReplyTimeout x now) s = .next (closeSession x 1 u)) ∧
    (reached u.reel.cnt (u.sess[x].idleFrom + 48000000) = true →
      exec (.sessionIdleTimeout x now) s = .next (closeSession x 1 u))) ∧
  (∀ (x : Tenant) (now : Tick) (a : Acc) (p : Pend) (s : State), let u := advanceTo now s
    u.rdr.acc[x] = some a → a.stage = .window → (a.step = .exchange ∨ a.step = .fz3) → u.ctxs[x].pend = some p →
    reached u.reel.cnt p.until_ = true → exec (.tagReplyTimeout x now) s = .next (endAcc x stTimeout 0 1 u)) ∧
  (∀ (x : Tenant) (now : Tick) (cal : Cal) (n : Nat) (s v : State), let u := advanceTo now s
    u.sess[x].opened = true → holds (.session x) .reader u = true →
    dwellFits x u.sess[x].region u.sess[x].visitFrom 1 u = false →
    v = carrierOff u.reel.cnt (leaveChannel u.reel.cnt u) →
    (nextChannel x u.sess[x].region v = .error n →
      exec (.sessionDwellHop x now cal) s = .next (closeSession x 1 v)) ∧
    (∀ f w h, nextChannel x u.sess[x].region v = .ok (f, w) → holdOf .reader v = some h →
      passes w.reel.cnt { h.req with freq := f } w.radio.lHold w = true →
      ∀ y z g, y = grantAir { h.req with freq := f } w.reel.cnt w →
      z = compHop (calibrate .reader .ok true (compApply (extPa y.loaded[x]) y)) →
      g = carrierOn z.reel.cnt (rampUp z.loaded[x] z.rdr.pset z.reel.cnt z) →
      exec (.sessionDwellHop x now .ok) s = .next (modSess x (fun q => { q with visitFrom := g.reel.cnt }) g)))

/-- The link commands complete (R192, R193, R404, R407, R422, R433): LNK.NODE sets or releases the node configuration,
LNK.SEND takes a buffer, builds its frame and queues the send, LNK.LISTEN opens the receiver, LNK.CANCEL ends a listen or a
send with ST_CANCELLED, or with ST_LATE_CANCEL past the point of no return. NBR.LIST and NBR.FORGET complete (6.7, Table 6-9): the entries from the index on, as far
as there are any; the neighbour is forgotten with reason 1. -/
def Obligations.LinkCommandsComplete : Prop :=
  ((∀ (c : Cmd) (s u : State), Taken 0x2000 c s u → c.args.length = 13 → (∀ h, u.link.holder = some h → h = c.t) →
    (fld c.args 12 1 = 1 → exec (.lnkNode c) s = .next (reply c.t stOk [] (setLink (fun l => { l with holder := none }) u))) ∧
    (fld c.args 12 1 = 0 → fld c.args 0 2 < 0xFFFE → fld c.args 2 2 ≤ 4800 → fld c.args 4 1 ≤ 2 → fld c.args 5 1 ≤ 1 →
      fld c.args 6 2 ≤ 3600 → fld c.args 8 4 < 2 ^ 28 →
      (fld c.args 4 1 = 2 → 2480 ≤ fld c.args 2 2 ∧ fld c.args 2 2 ≤ 3520) →
      bandOk (fld c.args 2 2) (fld c.args 4 1) (fld c.args 5 1) = true → linkBusy u = false →
      ∀ v, v = setLink (fun l => { l with
          configured := true, holder := some c.t, addr := BitVec.ofNat 16 (fld c.args 0 2), freq := fld c.args 2 2,
          rate := fld c.args 4 1, region := fld c.args 5 1, beacon := fld c.args 6 2,
          cap := BitVec.ofNat 28 (fld c.args 8 4), beaconAt := none }) u →
      exec (.lnkNode c) s = .next (reply c.t stOk [] (if fld c.args 6 2 = 0 then v else beaconPlan v.reel.cnt v)))) ∧
  (∀ (c : Cmd) (s u v : State) (kv : Option (Fin 48 × Bytes × Nat)) (h : Fin 32) (smode ar : Bool) (lane : Fin 6) (dst : BitVec 16)
      (mode key time : Nat), Taken 0x2001 c s u → mode = fld c.args 3 1 → key = fld c.args 4 1 → time = fld c.args 7 6 →
    smode = decide (mode = 128) → (mode ≤ 4 ∨ mode = 128) → lane.val = (if mode = 128 then 5 else mode) →
    dst = BitVec.ofNat 16 (fld c.args 0 2) → ar = (decide (fld c.args 6 1 = 1) && decide (dst ≠ 0xFFFF)) →
    c.args.length = 15 + fld c.args 13 2 → fld c.args 0 2 ≠ 0xFFFE → fld c.args 2 1 ≤ 3 → (mode = 128 → fld c.args 2 1 = 0) →
    (key ≤ 47 ∨ key = 0xFF) → -40 ≤ sByte (fld c.args 5 1) → sByte (fld c.args 5 1) ≤ 28 → fld c.args 6 1 ≤ 1 →
    fld c.args 13 2 ≤ payloadMax smode (key != 0xFF) → linkRefusal c.t (ar || time == 0) u = none →
    (mode = 128 → u.link.rate ≠ 1 ∧ 2480 ≤ u.link.freq ∧ u.link.freq ≤ 3520) → (ar = true → bit u.link.uses lane.val = true) →
    sendKey c.t key u = .ok (kv, v) → findBuf (posOf c.t) u = some h →
    let m := (takeMseq (serveBuf (posOf c.t) false h v)).1
    let v1 := (takeMseq (serveBuf (posOf c.t) false h v)).2
    let psdu := buildFrame smode 0 (fld c.args 2 1) ar m dst (c.args.drop 15) kv v1
    ∀ e : Send, e = { owner := some c.t, tseq := c.seq, dst := dst, mseq := m, psdu := psdu, lane := lane, ar := ar,
                      time := if time = 0 then none else some (BitVec.ofNat 48 time), tries := 0, nb := 0, be := 3, tstart := 0,
                      power := BitVec.ofNat 8 (fld c.args 5 1), ending := none, buf := some h, late := false } →
    exec (.lnkSend c) s = .next ((if time = 0 then sendAsk e else id) (reply c.t stOk [m]
      (setLink (fun l => { l with sends := l.sends ++ [e] })
        (modBuf h (fun b => { b with bytes := memPutAll [] 0 psdu, len := psdu.length }) v1))))) ∧
  (∀ (c : Cmd) (s u : State), Taken 0x2002 c s u → c.args.length = 2 → linkRefusal c.t true u = none → u.link.uses ≠ 0 →
    u.link.listens[c.t] = none →
    ∀ l : Listen, l = { tseq := c.seq, dur := fld c.args 0 2, frames := 0, ending := none,
                        from_ := if holds .listen .link u then some u.reel.cnt else none } →
    ∀ v, v = setLink (fun q => { q with listens := q.listens.set c.t.val (some l) c.t.isLt }) (reply c.t stOk [] u) →
    (u.link.listens.toList.all Option.isNone = false → exec (.lnkListen c) s = .next v) ∧
    (u.link.listens.toList.all Option.isNone = true → exec (.lnkListen c) s = .next (requestAir
      { core := .link, who := .listen, cls := 5, freq := v.link.freq, since := v.reel.cnt, gnt := lkbShared c.t v,
        wait := coexWait c.t v, noWait := false } (setLink (fun q => { q with rxHost := c.t }) v)))) ∧
  (∀ (c : Cmd) (seq : BitVec 16) (s u : State), Taken 0x2003 c s u → c.args.length = 2 → seq = BitVec.ofNat 16 (fld c.args 0 2) →
    (∀ l, u.link.listens[c.t] = some l → l.tseq = seq →
      ((holds .listen .link u = false ∨ listenBusy u = false) →
        exec (.lnkCancel c) s = .next (listenEnd c.t stCancelled (reply c.t stCancelled [] u))) ∧
      (holds .listen .link u = true → listenBusy u = true → ∃ t, exec (.lnkCancel c) s = .next t ∧
        t.link.listens[c.t] = some { l with ending := some stLateCancel })) ∧
    (∀ e st, (u.link.listens[c.t]).any (fun l => l.tseq == seq) = false →
      u.link.sends.find? (fun e => e.owner == some c.t && e.tseq == seq) = some e →
      st = (if sendCommitted e u then stLateCancel else stCancelled) →
      exec (.lnkCancel c) s = .next (sendStop e st (reply c.t st [] u))))) ∧
  ((∀ (c : Cmd) (s u : State), Taken 0x2100 c s u → c.args.length = 2 → fld c.args 0 1 ≤ 63 → 1 ≤ fld c.args 1 1 →
    fld c.args 1 1 ≤ 32 →
    ∀ l, l = (u.link.nbrs.drop (fld c.args 0 1)).take (fld c.args 1 1) →
    exec (.nbrList c) s = .next (reply c.t stOk ([BitVec.ofNat 8 l.length] ++ (l.map fun e => nbrEntry e u).flatten) u)) ∧
  (∀ (c : Cmd) (s u : State), Taken 0x2101 c s u → c.args.length = 2 →
    (nbrOf (BitVec.ofNat 16 (fld c.args 0 2)) u).isSome = true →
    exec (.nbrForget c) s = .next (nbrLost (BitVec.ofNat 16 (fld c.args 0 2)) 1 (reply c.t stOk [] u))))

/-- RADIO.STATUS, COEX.CONFIG and RADIO.HOPTABLE complete (6.8, R285, R310): the core states and calibration failures, the
tenant's WAIT stopped at 10,000 µs with its shared bit kept, the tenant's hop table and dwell. The TMR commands complete on
the tenant's own timers (6.9, R440, R442, R447, R452, R456, R458): TMR.READ answers Reel, TMR.CMP sets a channel, TMR.DC
loads a down counter and leaves it HELD, TMR.GO releases, TMR.CAP answers and clears the latch, TMR.OUT acts on the output.
-/
def Obligations.RadioAndTimerCommands : Prop :=
  ((∀ (c : Cmd) (s u : State), Taken 0x2800 c s u → c.args = [] →
    exec (.radioStatus c) s = .next (reply c.t stOk ([BitVec.ofNat 8 (coreIndex (coreState .reader u)),
      BitVec.ofNat 8 (coreIndex (coreState .link u)),
      BitVec.ofNat 8 ((if singleSyn u then 1 else 0) + (if concurrent u then 2 else 0) + (if u.radio.gnt then 4 else 0))] ++
      leBytes 2 (u.radio.calFailL * 256 + u.radio.calFailR)) u)) ∧
  (∀ (c : Cmd) (s u : State), Taken 0x2801 c s u → c.args.length = 2 →
    ∃ w : Reg16, exec (.coexConfig c) s = .next (reply c.t stOk [] (modProf c.t (fun p => { p with coex := w }) u)) ∧
      bits w 14 0 = min 10000 (fld c.args 0 2) ∧ bit w 15 = bit u.prof[c.t].coex 15) ∧
  (∀ (c : Cmd) (s u : State), Taken 0x2802 c s u → 1 ≤ fld c.args 0 1 → fld c.args 0 1 ≤ 64 →
    c.args.length = 3 + 2 * fld c.args 0 1 → 1 ≤ fld c.args 1 2 → fld c.args 1 2 ≤ 4000 →
    (∀ i, i < fld c.args 0 1 → fld c.args (3 + 2 * i) 2 ≤ 4800) →
    (∀ i, u.rdr.inv[c.t] = some i → i.v1 = false → i.args.region ≠ 2) →
    exec (.radioHoptable c) s = .next (reply c.t stOk []
      (setRdr (fun r => { r with tabNext := r.tabNext.set c.t.val 0 c.t.isLt })
        (modProf c.t (fun p => { p with hopDwell := fld c.args 1 2,
                                        hop := (List.range (fld c.args 0 1)).map fun i => fld c.args (3 + 2 * i) 2 }) u))))) ∧
  ((∀ (c : Cmd) (s u : State), Taken 0x3000 c s u → c.args = [] →
    exec (.tmrRead c) s = .next (reply c.t stOk (leBytes 6 u.reel.cnt.toNat) u)) ∧
  (∀ (c : Cmd) (s u : State) (k : Fin 12) (act : BitVec 6), Taken 0x3001 c s u → c.args.length = 8 →
    fld c.args 0 1 = k.val → k.val / 3 = c.t.val → fld c.args 7 1 = act.toNat → act.toNat % 8 ≤ 4 →
    exec (.tmrCmp c) s = .next (reply c.t stOk [] (modCmp k (fun q => { q with
      val := BitVec.ofNat 48 (fld c.args 1 6), act := act,
      st := if bit act 5 then .disabled else if q.hold then .held else .armed }) u))) ∧
  (∀ (c : Cmd) (s u : State), Taken 0x3002 c s u → c.args.length = 6 → fld c.args 0 1 = c.t.val →
    dcCfgBad (BitVec.ofNat 16 (fld c.args 4 2)) = false → bits (BitVec.ofNat 16 (fld c.args 4 2)) 5 4 = 0 →
    exec (.tmrDc c) s = .next (reply c.t stOk [] (modDc c.t (fun d => { d with
      cfg := BitVec.ofNat 16 (fld c.args 4 2), rld := BitVec.ofNat 24 (fld c.args 1 3),
      cnt := BitVec.ofNat 24 (fld c.args 1 3), st := .held, phase := 0, due := false }) u))) ∧
  (∀ (c : Cmd) (s u : State), Taken 0x3003 c s u → c.args.length = 2 →
    (∀ i, (fld c.args 0 2).testBit i = true →
      (3 * c.t.val ≤ i ∧ i < 3 * c.t.val + 3) ∨ i = 12 + c.t.val) →
    exec (.tmrGo c) s = .next (reply c.t stOk [] (goRelease (fld c.args 0 2) u))) ∧
  (∀ (c : Cmd) (s u : State), Taken 0x3004 c s u → c.args.length = 2 → fld c.args 0 1 = c.t.val → fld c.args 1 1 ≤ 1 →
    exec (.tmrCap c) s = .next (reply c.t stOk
      (leBytes 6 u.reel.caps[c.t].val.toNat ++ [if u.reel.caps[c.t].ovr then 1 else 0])
      (modCap c.t (fun q => { q with full := false, ovr := false, arm := fld c.args 1 1 == 1 }) u))) ∧
  (∀ (c : Cmd) (s u : State), Taken 0x3005 c s u → c.args.length = 2 → fld c.args 0 1 = c.t.val → fld c.args 1 1 % 8 ≤ 4 →
    exec (.tmrOut c) s = .next (reply c.t stOk [] (toutAct c.t (fld c.args 1 1 % 8) u.reel.cnt
      (modTout c.t (fun o => { o with pw := BitVec.ofNat 5 (fld c.args 1 1 / 8) }) u)))))

/-- The KEY commands complete (R466, R471, R477, R478, 6.10): KEY.DERIVE and KEY.UNWRAP place a key in a free slot of the
caller's subtree and answer the slot's GEN; KEY.ERASE and KEY.INVALIDATE queue the commit at which they complete; KEY.INFO
answers the slot's words. Shown for derivation from the tenant root and from a slot, and for unwrapping in the clear and
under a key; an unwrapped key is held wrapped anew, under the slot's own key for its generation (R8, R472). -/
def Obligations.KeyCommandsComplete : Prop :=
  (∀ (c : Cmd) (s u : State) (k : Fin 48) (usage ll cl : Nat), Taken 0x4000 c s u →
    usage = fld c.args 2 1 → ll = fld c.args 7 1 → cl = fld c.args (8 + ll) 1 → ll ≤ 16 → cl ≤ 32 →
    c.args.length = 9 + ll + cl → usageBad usage = false → fld c.args 6 1 ≤ 1 → fld c.args 0 1 = k.val →
    targetRefusal c.t k.val u = none →
    ∀ key : Key, key = { cls := usageClass usage, aes256 := decide (16 ≤ usage), expire := fld c.args 6 1 == 1,
                         imported := false, clear := false, level := 2, parent := 48, pgen := u.bri.roots[c.t],
                         life := fld c.args 3 3, uses := 0,
                         src := .recipe ((c.args.drop 8).take ll) ((c.args.drop (9 + ll)).take cl) } →
    (fld c.args 1 1 = 0xFE → rootRefusal c.t u = none →
      exec (.keyDerive c) s = .next (reply c.t stOk (leBytes 2 u.bri.slots[k].gen.toNat) (placeKey k key
        (setBri (fun b => { b with rootUses := vmod b.rootUses c.t (satInc 0xFFFFFF) }) u)))) ∧
    (∀ (p : Fin 48) (v : State), fld c.args 1 1 = p.val → parentRefusal c.t p.val isDerive u = none →
      chargeKey p 1 u = some v →
      exec (.keyDerive c) s = .next (reply c.t stOk (leBytes 2 v.bri.slots[k].gen.toNat) (placeKey k { key with
        level := (match v.bri.slots[p].key with | some q => q.level | none => 2) + 1, parent := p.val,
        pgen := v.bri.slots[p].gen } v)))) ∧
  (∀ (c : Cmd) (s u : State) (k : Fin 48) (usage : Nat) (value : Bytes), Taken 0x4001 c s u → usage = fld c.args 2 1 →
    c.args.length = 8 + fld c.args 7 1 → fld c.args 7 1 = (if 16 ≤ usage then 40 else 24) → usageBad usage = false →
    fld c.args 6 1 ≤ 1 → fld c.args 0 1 = k.val → targetRefusal c.t k.val u = none →
    ∀ key : Key, key = { cls := usageClass usage, aes256 := decide (16 ≤ usage), expire := fld c.args 6 1 == 1,
                         imported := true, clear := true, level := 2, parent := 48, pgen := u.bri.roots[c.t],
                         life := fld c.args 3 3, uses := 0, src := .blob 0 [] } →
    let held := fun (w : State) => KeySrc.blob w.bri.slots[k].gen (kwWrap (blobKey k w.bri.slots[k].gen w) value)
    (fld c.args 1 1 = 0xFF → rootRefusal c.t u = none → kwUnwrap (List.replicate 16 0) (c.args.drop 8) = some value →
      exec (.keyUnwrap c) s = .next (reply c.t stOk (leBytes 2 u.bri.slots[k].gen.toNat) (placeKey k { key with src := held u } u))) ∧
    (∀ (p : Fin 48) (wk : Bytes) (v : State), fld c.args 1 1 = p.val → parentRefusal c.t p.val isWrap u = none →
      keyValue u 5 p = some wk → chargeKey p 1 u = some v → kwUnwrap wk (c.args.drop 8) = some value →
      exec (.keyUnwrap c) s = .next (reply c.t stOk (leBytes 2 (cacheKey p v).bri.slots[k].gen.toNat) (placeKey k { key with
        src := held (cacheKey p v), clear := false, level := (match v.bri.slots[p].key with | some q => q.level | none => 2) + 1, parent := p.val,
        pgen := v.bri.slots[p].gen } (cacheKey p v))))) ∧
  (∀ (c : Cmd) (s u : State) (k : Fin 48) (job : Job), Taken 0x4002 c s u → c.args.length = 1 → fld c.args 0 1 = k.val →
    slotOwner k = c.t → u.tens[c.t].exec = some job →
    (u.bri.slots[k].key = none → exec (.keyErase c) s = .next (reply c.t stOk [] u)) ∧
    (u.bri.slots[k].key ≠ none → exec (.keyErase c) s = .next (queueCommit (.keyErase c.t job k) 1 u))) ∧
  (∀ (c : Cmd) (s u : State) (job : Job), Taken 0x4003 c s u → c.args.length = 1 → u.tens[c.t].exec = some job →
    (fld c.args 0 1 = 0xFE → u.bri.roots[c.t] ≠ 0xFFFF →
      exec (.keyInvalidate c) s = .next (queueCommit (.rootInval c.t job) 1 u)) ∧
    (∀ k : Fin 48, fld c.args 0 1 = k.val → slotOwner k = c.t → u.bri.slots[k].gen ≠ 0xFFFF →
      exec (.keyInvalidate c) s = .next (queueCommit (.keyInval c.t job k) 1 u))) ∧
  (∀ (c : Cmd) (s u : State) (k : Fin 48), Taken 0x4004 c s u → c.args.length = 1 → fld c.args 0 1 = k.val →
    slotOwner k = c.t →
    exec (.keyInfo c) s = .next (reply c.t stOk (leBytes 2 (attrWord u k) ++ [BitVec.ofNat 8 (parentByte u.bri.slots[k])] ++
      leBytes 2 (slotPgen u.bri.slots[k]) ++ leBytes 2 u.bri.slots[k].gen.toNat ++ leBytes 3 (slotUses u.bri.slots[k])) u))

/-- KEY.TAMPER and TAMPER itself (R194, R483 to R485): arming is answered, and a pin that is high as arming takes effect is
one assertion; an armed assertion is applied in STANDBY, ACTIVE and LIMP, latched in WAKING, HOLD and LOCKOUT, in the drill of
PWRFAIL and in a start, and wakes a part that sleeps. Applying it puts every tenant root's GEN one further, or loses the root for good, and is seen in the
status. -/
def Obligations.TamperCompletes : Prop :=
  (∀ (c : Cmd) (pin : Bool) (s u : State), Taken 0x4010 c s u → c.t = 0 → c.args = [1] → u.bri.armed = false →
    ∀ v, v = reply c.t stOk [] (setBri (fun b => { b with armed := true }) u) →
    exec (.keyTamper c pin) s = .next (if pin = true ∧ v.power.vioLost = false then tamperApply v else v)) ∧
  (∀ (now : Tick) (s u : State), u = advanceTo now s → u.bri.armed = true → u.power.vioLost = false →
    ((u.power.mode = .run ∨ u.power.mode = .limp) → exec (.tamperAssertion now) s = .next (tamperApply u)) ∧
    ((u.power.mode = .waking ∨ u.power.mode = .hold ∨ u.power.mode = .lockout ∨ u.power.mode = .drill ∨
        u.power.mode = .start) → exec (.tamperAssertion now) s = .next (setBri (fun b => { b with latched := true }) u)) ∧
    (u.power.mode = .sleep →
      exec (.tamperAssertion now) s = .next (startWake .tamper (setBri (fun b => { b with latched := true }) u)))) ∧
  (∀ (s : State) (t : Tenant), (tamperApply s).bri.roots[t] = (if s.bri.roots[t] = 0xFFFF then 0xFFFF else s.bri.roots[t] + 1) ∧
    ((tamperApply s).bri.dead[t] = (s.bri.dead[t] || s.bri.roots[t] == 0xFFFF)) ∧ (tamperApply s).bri.seen = true)

/-- RNG.GET and the CRYPTO commands complete (6.11, R486, R488, R634): random bytes of the DRBG, after those of an RNG that waits; AES in ECB, CBC and CTR, CCM both
ways, CMAC both ways, under a key that its checks pass; a verification that fails answers ST_AUTH_FAIL and gives nothing
out. -/
def Obligations.CryptoCommandsComplete : Prop :=
  (∀ (c : Cmd) (s u v : State) (out : Bytes), Taken 0x4800 c s u → c.args.length = 2 → 1 ≤ fld c.args 0 2 →
    fld c.args 0 2 ≤ 512 → drbgTake (fld c.args 0 2) (serveRng u) = some (out, v) →
    exec (.rngGet c) s = .next (reply c.t stOk out v)) ∧
  (∀ (c : Cmd) (s u v : State) (key : Bytes) (mode len : Nat), Taken 0x4801 c s u → mode = fld c.args 0 1 →
    len = fld c.args 18 2 → c.args.length = 20 + len → 1 ≤ len → len ≤ 512 → mode % 128 ≤ 2 →
    (mode % 128 < 2 → len % 16 = 0) →
    useKey c.t (fld c.args 1 1) (if 128 ≤ mode then isDec else isEnc) u = .ok (key, v) →
    exec (.cryptoAes c) s = .next (reply c.t stOk
      (if mode % 128 = 0 then ecb (decide (128 ≤ mode)) key (c.args.drop 20)
       else if mode % 128 = 1 then
         (if 128 ≤ mode then cbcDec key ((c.args.drop 2).take 16) (c.args.drop 20)
          else cbcEnc key ((c.args.drop 2).take 16) (c.args.drop 20))
       else ctrMode key ((c.args.drop 2).take 16) (c.args.drop 20)) v)) ∧
  (∀ (c : Cmd) (s u v : State) (key : Bytes) (nl tl al pl : Nat), Taken 0x4802 c s u → nl = fld c.args 2 1 →
    tl = fld c.args (3 + nl) 1 → al = fld c.args (4 + nl) 2 → pl = fld c.args (6 + nl + al) 2 →
    c.args.length = 8 + nl + al + pl → fld c.args 0 1 ≤ 1 → 7 ≤ nl → nl ≤ 13 → (tl = 4 ∨ tl = 8 ∨ tl = 16) →
    (fld c.args 0 1 = 1 → tl ≤ pl) →
    useKey c.t (fld c.args 1 1) (if fld c.args 0 1 = 1 then isDec else isEnc) u = .ok (key, v) →
    let nonce := (c.args.drop 3).take nl
    let aad := (c.args.drop (6 + nl)).take al
    let data := c.args.drop (8 + nl + al)
    (fld c.args 0 1 = 0 → exec (.cryptoCcm c) s = .next (reply c.t stOk (ccmEnc key nonce aad data tl) v)) ∧
    (fld c.args 0 1 = 1 → ∀ p, ccmDec key nonce aad data tl = some p →
      exec (.cryptoCcm c) s = .next (reply c.t stOk p v)) ∧
    (fld c.args 0 1 = 1 → ccmDec key nonce aad data tl = none →
      exec (.cryptoCcm c) s = .next (refuse c.t stAuthFail v))) ∧
  (∀ (c : Cmd) (s u v : State) (key : Bytes) (tl len : Nat), Taken 0x4803 c s u → tl = fld c.args 2 1 →
    len = fld c.args 3 2 → fld c.args 0 1 ≤ 1 → 4 ≤ tl → tl ≤ 16 → len ≤ 960 →
    c.args.length = 5 + len + (if fld c.args 0 1 = 1 then tl else 0) →
    useKey c.t (fld c.args 1 1) (if fld c.args 0 1 = 1 then isDec else isEnc) u = .ok (key, v) →
    let tag := (cmac key ((c.args.drop 5).take len)).take tl
    (fld c.args 0 1 = 0 → exec (.cryptoCmac c) s = .next (reply c.t stOk tag v)) ∧
    (fld c.args 0 1 = 1 → tag = c.args.drop (5 + len) → exec (.cryptoCmac c) s = .next (reply c.t stOk [] v)) ∧
    (fld c.args 0 1 = 1 → tag ≠ c.args.drop (5 + len) → exec (.cryptoCmac c) s = .next (refuse c.t stAuthFail v)))

/-- Bridle's own events (R487, R488, R489, R587): a reseed with passing tests instantiates or renews the DRBG, the third
passing retry in a row brings a lost source back, a stale reply is counted in EPO_STALE and a live one is not. -/
def Obligations.BridleEventsComplete : Prop :=
  (∀ s : State, s.bri.entLost = false →
    (s.bri.drbgOk = false → exec (.drbgReseed true) s = .next (drbgStart (setBri (fun b => { b with entRun := 0 }) s))) ∧
    (s.bri.drbgOk = true → exec (.drbgReseed true) s = .next (drbgFresh (setBri (fun b => { b with entRun := 0 }) s)))) ∧
  (∀ s : State, s.bri.entLost = true →
    (s.bri.entPass < 2 → exec (.entropyRetry true) s = .next (setBri (fun b => { b with entPass := b.entPass + 1 }) s)) ∧
    (2 ≤ s.bri.entPass → ∃ t, exec (.entropyRetry true) s = .next t ∧ t.bri.entLost = false ∧ t.bri.entPass = 0 ∧
      t.mend.lost = s.mend.lost &&& ~~~0x200)) ∧
  (∀ (x : Tenant) (epoch : BitVec 16) (s : State),
    let counted := setEpoch (fun e => { e with stale := satInc 0xFFFF e.stale }) s
    exec (.blockReply 0 x epoch) s = .next (if epoch = s.epoch.rdr then s else counted) ∧
    exec (.blockReply 1 x epoch) s = .next (if epoch = s.epoch.lnk then s else counted) ∧
    exec (.blockReply 3 x epoch) s = .next (if epoch = s.ctxs[x].epoch then s else counted) ∧
    (∀ e : EngineReq, s.bri.engine = [e] → e.who = x → e.epoch = epoch →
      ∃ t, exec (.blockReply 2 x epoch) s = .next t ∧ t.bri.engine = [] ∧
        t.epoch.stale = (if e.stale then satInc 0xFFFF s.epoch.stale else s.epoch.stale)))

/-- MBX and SEM commands complete (R196, R490 to R504): T0 binds and locks channels; the sender's MBX.WRITE fills the slot
and answers MSEQ and whether it overwrote; the receiver's MBX.READ answers the whole message and empties the slot; a free
semaphore is taken, and its holder gives it back. CVU.SET and CVU.RUN complete (R510, R512 to R514): a preset or an own
parameter set is stored for the tenant; the value is computed, appended, or checked and stripped. -/
def Obligations.GondolaAndCheckValues : Prop :=
  ((∀ (c : Cmd) (s u : State) (g : Fin 16), Taken 0x5000 c s u → c.t = 0 → c.args.length = 3 → fld c.args 0 1 = g.val →
    fld c.args 1 1 ≤ 5 → fld c.args 1 1 ≠ 4 → fld c.args 2 1 ≤ 5 → fld c.args 2 1 ≠ 4 →
    (fld c.args 1 1 = fld c.args 2 1 → 4 ≤ fld c.args 1 1) → u.gdl.locked = false →
    exec (.mbxBind c) s = .next (reply c.t stOk [] (modChan g (fun _ => {
      bound := some (fld c.args 1 1, fld c.args 2 1), msg := none, last := 0, next := 0, coll := false, ccnt := 0 })
      (dropMsg u.gdl.chans[g].msg u)))) ∧
  (∀ (c : Cmd) (s u : State), Taken 0x5001 c s u → c.t = 0 → c.args = [] →
    exec (.mbxLock c) s = .next (reply c.t stOk [] { u with gdl := { u.gdl with locked := true } })) ∧
  (∀ (c : Cmd) (s u : State) (g : Fin 16), Taken 0x5002 c s u → fld c.args 0 1 = g.val → fld c.args 1 1 ≤ 8 →
    c.args.length = 2 + 4 * fld c.args 1 1 → senderOf g u.gdl.chans[g] = some (.tenant c.t) → u.power.strapV1 = false →
    exec (.mbxWrite c) s = .next (reply c.t stOk
      [u.gdl.chans[g].next, if u.gdl.chans[g].msg.isSome then 1 else 0]
      (writeChan g c.t.val ((List.range (fld c.args 1 1)).map fun i => BitVec.ofNat 32 (fld c.args (2 + 4 * i) 4)) none u))) ∧
  (∀ (c : Cmd) (s u : State) (g : Fin 16) (m : Msg), Taken 0x5003 c s u → fld c.args 0 1 = g.val → c.args.length = 2 →
    fld c.args 1 1 ≤ 1 → receiverOf g u.gdl.chans[g] = some (.tenant c.t) → u.gdl.chans[g].msg = some m →
    exec (.mbxRead c) s = .next (reply c.t stOk
      ([BitVec.ofNat 8 m.snd, m.mseq, BitVec.ofNat 8 m.words.length, if u.gdl.chans[g].coll then 3 else 1,
        BitVec.ofNat 8 u.gdl.chans[g].ccnt] ++ (m.words.map fun w => leBytes 4 w.toNat).flatten)
      (modChan g (fun ch => { ch with msg := none, coll := ch.coll && fld c.args 1 1 != 1 }) (dropMsg (some m) u)))) ∧
  (∀ (c : Cmd) (s u : State) (i : Fin 8), Taken 0x5004 c s u → c.args.length = 1 → fld c.args 0 1 = i.val →
    u.gdl.sems[i].holder = none →
    exec (.semTake c) s = .next (reply c.t stOk [if u.gdl.sems[i].broken then 1 else 0]
      (modSem i (fun _ => { holder := some c.t, broken := false }) u))) ∧
  (∀ (c : Cmd) (s u : State) (i : Fin 8), Taken 0x5005 c s u → c.args.length = 1 → fld c.args 0 1 = i.val →
    u.gdl.sems[i].holder = some c.t →
    exec (.semGive c) s = .next (reply c.t stOk [] (modSem i (fun q => { q with holder := none }) u)))) ∧
  ((∀ (c : Cmd) (s u : State), Taken 0x6000 c s u → c.args.length = 15 →
    (fld c.args 0 1 = 0 → 1 ≤ fld c.args 1 1 → fld c.args 1 1 ≤ 32 → fld c.args 2 4 ≠ 0 →
      fld c.args 2 4 < 2 ^ fld c.args 1 1 → fld c.args 6 4 < 2 ^ fld c.args 1 1 → fld c.args 10 4 < 2 ^ fld c.args 1 1 →
      fld c.args 14 1 ≤ 3 →
      ∀ p : CvuPar, p = { preset := 0, width := fld c.args 1 1, poly := BitVec.ofNat 32 (fld c.args 2 4),
                          init := BitVec.ofNat 32 (fld c.args 6 4), xorout := BitVec.ofNat 32 (fld c.args 10 4),
                          reflIn := fld c.args 14 1 % 2 == 1, reflOut := decide (2 ≤ fld c.args 14 1) } →
      exec (.cvuSet c) s = .next (reply c.t stOk [] { u with cvu := u.cvu.set c.t.val p c.t.isLt })) ∧
    (1 ≤ fld c.args 0 1 → fld c.args 0 1 ≤ 4 → (∀ i, 1 ≤ i → i < 15 → fld c.args i 1 = 0) →
      exec (.cvuSet c) s = .next (reply c.t stOk []
        { u with cvu := u.cvu.set c.t.val (cvuPreset (fld c.args 0 1)) c.t.isLt }))) ∧
  (∀ (c : Cmd) (s u : State), Taken 0x6001 c s u → c.args.length = 3 + fld c.args 1 2 → fld c.args 1 2 ≤ 1000 →
    let p := u.cvu[c.t]
    let d := c.args.drop 3
    (fld c.args 0 1 = 0 → exec (.cvuRun c) s = .next (reply c.t stOk (leBytes 4 (checkValue p d)) u)) ∧
    (fld c.args 0 1 = 1 → exec (.cvuRun c) s = .next (reply c.t stOk (d ++ appendedValue p (checkValue p d)) u)) ∧
    (fld c.args 0 1 = 2 → cvuBytes p ≤ fld c.args 1 2 → exec (.cvuRun c) s = .next (reply c.t stOk
      ((if (stripCheck p d).1 then 1 else 0) :: (stripCheck p d).2) u))))

/-- The NVM commands complete (R517, R519, R521, 6.14): NVM.READ answers the bytes of the tenant's own area, NVM.WRITE
queues the commit at which it completes, T0's NVM.BALLAST is in force at once, NVM.STATUS answers the store's counts. -/
def Obligations.StoreCommandsComplete : Prop :=
  (∀ (c : Cmd) (s u : State), Taken 0x7000 c s u → c.args.length = 4 → 1 ≤ fld c.args 2 2 → fld c.args 2 2 ≤ 1000 →
    fld c.args 0 2 + fld c.args 2 2 ≤ 16384 → bit u.mend.lost 10 = false →
    (∀ e ∈ u.store.badPages, e.1 = c.t → e.2 ∉ pagesOf (fld c.args 0 2) (fld c.args 2 2)) →
    exec (.nvmRead c) s = .next (reply c.t stOk (memGetAll u.store.areas[c.t] (fld c.args 0 2) (fld c.args 2 2)) u)) ∧
  (∀ (c : Cmd) (s u : State) (job : Job), Taken 0x7001 c s u → 4 ≤ c.args.length → c.args.length = 4 + fld c.args 2 2 →
    1 ≤ fld c.args 2 2 → fld c.args 2 2 ≤ 512 → fld c.args 0 2 + fld c.args 2 2 ≤ 16384 → bit u.mend.lost 10 = false →
    (∀ e ∈ u.store.badPages, e.1 ≠ c.t) → u.tens[c.t].exec = some job →
    exec (.nvmWrite c) s = .next (queueCommit (.nvmWrite c.t job (fld c.args 0 2) (c.args.drop 4))
      (2 * (pagesOf (fld c.args 0 2) (fld c.args 2 2)).length + 1) u)) ∧
  (∀ (c : Cmd) (s u : State), Taken 0x7002 c s u → c.t = 0 → c.args.length = 6 → fld c.args 0 4 ≤ 100000000 →
    (0 < fld c.args 0 4 → 1000 ≤ fld c.args 4 2 ∧ fld c.args 4 2 ≤ 5500) →
    exec (.nvmBallast c) s = .next (reply c.t stOk [] (queueCommit (.ballast (fld c.args 0 4) (fld c.args 4 2)) 1
      (setStore (fun w => { w with balC := fld c.args 0 4, vmin := fld c.args 4 2 }) u)))) ∧
  (∀ (c : Cmd) (s u : State), Taken 0x7003 c s u → c.args = [] →
    exec (.nvmStatus c) s = .next (reply c.t stOk (BitVec.ofNat 8 (8 - u.store.retired.length) :: (leBytes 2 u.store.defer ++
      leBytes 4 u.store.commits ++ leBytes 4 (min 0xFFFFFFFF (maxWear u.store)))) u))

/-- The ledger owner's commands complete, and LEDGER.OWNER and LEDGER.STATUS for who may send them (R198, R539, R541 to
R544, R635): the next configuration waits and is committed, ownership moves, held intervals are read and freed, and
CLOCK.SET answers the step and closes the open interval on the first setting and on a step of a second or more. -/
def Obligations.LedgerCommandsComplete : Prop :=
  (∀ (c : Cmd) (s u : State), Taken 0x7400 c s u → c.args.length = 4 + 8 * fld c.args 3 1 → c.t = u.ldg.owner →
    1 ≤ fld c.args 0 1 → fld c.args 0 1 ≤ 60 → 1 ≤ fld c.args 1 2 → fld c.args 1 2 ≤ 600 → 1 ≤ fld c.args 3 1 →
    fld c.args 3 1 ≤ 16 → u.bri.rootOk = true →
    ∀ cfg : LedgerCfg, cfg = { ivl := fld c.args 0 1, dedupe := fld c.args 1 2,
                               cls := (List.range (fld c.args 3 1)).map fun i =>
        (BitVec.ofNat 32 (fld c.args (4 + 8 * i) 4), BitVec.ofNat 32 (fld c.args (8 + 8 * i) 4)) } →
    exec (.ledgerConfig c) s = .next (reply c.t stOk [] (queueCommit (.ledgerCfg u.ldg.cfg (some cfg)) 1
      (setLdg (fun l => { l with nextCfg := some cfg }) u)))) ∧
  (∀ (c : Cmd) (s u : State) (t : Tenant), Taken 0x7401 c s u → c.t = 0 → c.args.length = 1 → fld c.args 0 1 = t.val →
    exec (.ledgerOwner c) s = .next (reply c.t stOk [] (queueCommit (.owner t) 1
      (setLdg (fun l => { l with owner := t }) u)))) ∧
  (∀ (c : Cmd) (s u : State), Taken 0x7402 c s u → c.args.length = 5 → u.power.strapV1 = false → c.t = u.ldg.owner →
    1 ≤ fld c.args 4 1 → fld c.args 4 1 ≤ 8 → u.bri.rootOk = true →
    ∀ rs, rs = (u.ldg.held.filter fun r => decide (fld c.args 0 4 ≤ r.seq)).take (fld c.args 4 1) →
    exec (.ledgerRead c) s = .next (reply c.t stOk (BitVec.ofNat 8 rs.length :: (rs.map (recordBytes u)).flatten) u)) ∧
  (∀ (c : Cmd) (s u : State), Taken 0x7403 c s u → c.args.length = 4 → c.t = u.ldg.owner → u.bri.rootOk = true →
    fld c.args 0 4 ≤ u.ldg.lastSeq →
    exec (.ledgerAck c) s = .next (reply c.t stOk []
      (setLdg (fun l => { l with held := l.held.filter fun r => decide (fld c.args 0 4 < r.seq) }) u))) ∧
  (∀ (c : Cmd) (s u : State), Taken 0x7404 c s u → c.args = [] →
    exec (.ledgerStatus c) s = .next (reply c.t stOk (leBytes 4 (u.ldg.lastSeq + 1) ++ leBytes 4 (oldestSeq u.ldg) ++
      leBytes 2 u.ldg.held.length ++ leBytes 2 u.ldg.lost ++ [BitVec.ofNat 8 u.ldg.cfg.ivl, BitVec.ofNat 8 u.ldg.owner.val,
      BitVec.ofNat 8 ((if u.ldg.wall.isSome then 1 else 0) + (if u.bri.rootOk then 0 else 2))]) u)) ∧
  (∀ (c : Cmd) (s u : State), Taken 0x7410 c s u → c.args.length = 8 → c.t = u.ldg.owner → u.bri.rootOk = true →
    let v := boundaryIfDue u
    let now := v.reel.cnt
    let new : Int := fld c.args 0 8
    let set := setLdg fun l => { l with wall := some (now, new) }
    (v.ldg.wall = none → exec (.clockSet c) s = .next (openInterval now (set
      (sealOpen lfFirstWall (ledgerMs v now) (reply c.t stOk (leInt 8 0) v))))) ∧
    (v.ldg.wall ≠ none → new - ledgerMs v now ≤ -1000 → exec (.clockSet c) s = .next (openInterval now (set
      (sealOpen lfBack (ledgerMs v now) (reply c.t stOk (leInt 8 (new - ledgerMs v now)) v))))) ∧
    (v.ldg.wall ≠ none → 1000 ≤ new - ledgerMs v now → exec (.clockSet c) s = .next (openInterval now (set
      (sealOpen lfFwd (ledgerMs v now) (reply c.t stOk (leInt 8 (new - ledgerMs v now)) v))))) ∧
    (v.ldg.wall ≠ none → -1000 < new - ledgerMs v now → new - ledgerMs v now < 1000 →
      ∃ t, exec (.clockSet c) s = .next t ∧ t.ldg.wall = some (now, new) ∧ t.ldg.lastSeq = v.ldg.lastSeq))

/-- MEAS and MEND commands complete (R199, R553, R563, R565, R635): the telemetry record with a fresh sample, a sweep that
starts, the period in force, the partners, Mend's counts, and the daylight window in force at once. -/
def Obligations.SurveyMendCommandsComplete : Prop :=
  (∀ (c : Cmd) (smp : Sample) (s u : State), Taken 0x8000 c s u → c.args = [] →
    exec (.measSnapshot c smp) s = .next (reply c.t stOk (telemetry (takeSample smp u)) (takeSample smp u))) ∧
  (∀ (c : Cmd) (s u : State) (n : Fin 6), Taken 0x8001 c s u → c.args.length = 2 → fld c.args 0 1 = n.val →
    fld c.args 1 1 ≤ 1 → inLimp u = false → noSyn u = false → (n.val < 4 → lostReaderRx u = false) →
    (n.val < 4 → feedBad u.prof[c.t] = false) → u.svy.sweep = none →
    exec (.measSweep c) s = .next (sweepBegin (some c.t) c.seq n (fld c.args 1 1 == 1) [] (reply c.t stOk [] u))) ∧
  (∀ (c : Cmd) (s u : State), Taken 0x8002 c s u → c.args.length = 2 →
    (fld c.args 0 2 = 0 ∨ (10 ≤ fld c.args 0 2 ∧ fld c.args 0 2 ≤ 3600)) →
    ∀ subs, subs = u.svy.subs.set c.t.val (fld c.args 0 2) c.t.isLt →
    exec (.measSubscribe c) s = .next (reply c.t stOk (leBytes 2 (periodOf subs))
      (setSvy (fun v => { v with subs := subs, period := periodOf subs }) u))) ∧
  (∀ (c : Cmd) (s u : State), Taken 0x8003 c s u → c.args = [] →
    exec (.measPartners c) s = .next (reply c.t stOk ([portsByte u, BitVec.ofNat 8 u.link.nbrs.length] ++
      leBytes 4 u.svy.tagCap.toNat) u)) ∧
  (∀ (c : Cmd) (s u : State), Taken 0x8800 c s u → c.args = [] →
    exec (.mendStatus c) s = .next (reply c.t stOk (leBytes 2 (mendLevel u) ++
      ((List.range 8).map fun i => BitVec.ofNat 8 (sparesLeft u i)) ++ leBytes 2 u.mend.lost.toNat) u)) ∧
  (∀ (c : Cmd) (s u : State), Taken 0x8801 c s u → c.t = 0 → c.args.length = 4 → fld c.args 0 2 ≤ 1439 →
    1 ≤ fld c.args 2 2 → fld c.args 2 2 ≤ 720 →
    exec (.mendWindow c) s = .next (reply c.t stOk [] (queueCommit (.window (fld c.args 0 2) (fld c.args 2 2)) 1
      (setMend (fun m => { m with winStart := fld c.args 0 2, winLen := fld c.args 2 2 }) u))))

/-- Reel's events take place (R77, R441, R443, R448, R450, R455 to R458): an ARMED channel that Reel has reached fires, drives
its output one tick later, tells its tenant if asked and reaches the master; a due down counter reloads; a taken edge
latches in the capture the Reel value of 2 or 3 ticks after it, sets OVR over a full one, and with ARM is told in EV_CAP,
which counts as the read; a pulse whose width is over ends. -/
def Obligations.ReelEventsComplete : Prop :=
  (∀ (k : Fin 12) (now : Tick) (s : State), (s.power.mode = .run ∨ s.power.mode = .limp) →
    let u := advanceTo now s
    let t := cmpOwner k
    u.reel.cmps[k].st = .armed → reached u.reel.cnt u.reel.cmps[k].val = true →
    ∀ v, v = toutAct t (bits u.reel.cmps[k].act 2 0) (u.reel.cnt + 1)
        (modCmp k (fun q => { q with st := .fired, late := u.reel.cnt != q.val }) u) →
    exec (.compareFire k now) s = .next (masterEvent t (k.val % 3) (modCtx t (fun x => { x with latch := x.latch ||| 1 })
      (if bit u.reel.cmps[k].act 3 then raise t evTmr [0, BitVec.ofNat 8 k.val] v else v)))) ∧
  (∀ (n : Tenant) (now : Tick) (s : State), (s.power.mode = .run ∨ s.power.mode = .limp) →
    (advanceTo now s).reel.dcs[n].due = true → exec (.dcFire n now) s = .next (dcFired n (advanceTo now s))) ∧
  (∀ (n : Tenant) (rising : Bool) (now : Tick) (s : State), (s.power.mode = .run ∨ s.power.mode = .limp) →
    let u := advanceTo now s
    let q := u.reel.caps[n]
    edgeTaken q rising = true →
    ∃ (v : Tick) (w : State), (v = u.reel.cnt + 2 ∨ v = u.reel.cnt + 3) ∧
      w = modCap n (fun c => { c with val := v, full := !q.arm, ovr := q.ovr || q.full })
        (drawBool (modCap n (fun c => { c with level := rising }) u)).2 ∧
      exec (.captureEdge n rising now) s = .next (masterEvent n 3 (modCtx n (fun x => { x with latch := x.latch ||| 2 })
        (if q.arm then raise n evCap ([BitVec.ofNat 8 n.val] ++ tickBytes v ++ [if q.ovr || q.full then 1 else 0]) w
         else w)))) ∧
  (∀ (n : Tenant) (now : Tick) (s : State), ∃ t, exec (.toutPulseEnd n now) s = .next t ∧
    let u := advanceTo now s
    let o := toutAt u.reel.cnt u.reel.touts[n]
    t.reel.touts[n] = toutPulseOver u.reel.cnt o ∧
    (∀ e, o.pulseEnd = some e → reached u.reel.cnt e = true → t.reel.touts[n] = { o with level := false, pulseEnd := none }))

/-- The store's events take place (R518, R522, R525, R530, R532): the commit at the head of the queue is checked against
Ballast's energy and runs or is deferred; a deferred one that passes runs next; a wear move copies 8 pages a step while no
commit of a command waits, and its map commit follows the second; the move of a sector not written for 1,461 days begins, to a
spare that the spec leaves open (log entry 12), and one written later stays. The ledger's events take place (R533, R538, R540):
at its boundary the open interval is sealed and the next one opens there; a seal that has landed is told to the owner. -/
def Obligations.StoreAndLedgerEvents : Prop :=
  ((∀ (vhu bad : Nat) (s : State) (c : Commit) (rest : List Commit), live s = true → s.store.queue = c :: rest →
    let v := setStore (fun w => { w with queue := rest }) (ballastSample vhu s)
    (ballastOk s.store vhu (queuedPages s.store) = true → exec (.storeCommit vhu bad) s = .next (runCommit c bad v)) ∧
    (ballastOk s.store vhu (queuedPages s.store) = false → exec (.storeCommit vhu bad) s = .next (deferCommit c v))) ∧
  (∀ (now : Tick) (vhu bad : Nat) (s : State) (c : Commit) (rest : List Commit),
    let u := advanceTo now s
    live u = true → u.store.deferred = c :: rest →
    (ballastOk u.store vhu (queuedPages u.store) = true → exec (.ballastRecheck now vhu bad) s =
      .next (runCommit c bad (setStore (fun w => { w with deferred := rest }) (ballastSample vhu u)))) ∧
    (ballastOk u.store vhu (queuedPages u.store) = false →
      exec (.ballastRecheck now vhu bad) s = .next (ballastSample vhu u))) ∧
  (∀ (s : State) (m : Move), live s = true → s.store.queue.any (fun c => ofCommand c.kind) = false →
    bit s.mend.lost 10 = false → (s.store.moving.orElse fun _ => wearMove s.store) = some m → m.steps < 2 →
    let v := countWrites m.target 8 (setStore (fun w => { w with moving := some { m with steps := m.steps + 1 } }) s)
    exec .wearMoveStep s = .next (if m.steps = 1 then queueMap false v else v)) ∧
  (∀ (n : Nat) (s : State), live s = true → s.store.moving = none → 3 ≤ n → n ≤ 127 → bit s.mend.lost 10 = false →
    (s.store.written.getD (physOf s.store n) 0 + 1461 ≤ s.reel.day → spareSectors s.store ≠ [] →
      ∃ t m, exec (.coldSectorMove n) s = .next t ∧ t.store.moving = some m ∧ m.logical = n ∧
        m.target ∈ spareSectors s.store ∧ m.steps = 0) ∧
    (s.reel.day < s.store.written.getD (physOf s.store n) 0 + 1461 → exec (.coldSectorMove n) s = .next s))) ∧
  ((∀ (now : Tick) (s : State) (iv : Interval), (s.power.mode = .run ∨ s.power.mode = .limp) →
    let u := advanceTo now s
    u.ldg.cur = some iv → reached u.reel.cnt iv.endsAt = true →
    exec (.intervalBoundary now) s = .next (openInterval iv.endsAt (sealOpen 0 (ledgerMs u iv.endsAt) u))) ∧
  (∀ (s : State) (e : Nat × BitVec 16) (rest : List (Nat × BitVec 16)), s.ldg.toTell = e :: rest →
    exec .ledgerSealLanded s = .next (raise s.ldg.owner evLedgerSealed (leBytes 4 e.1 ++ leBytes 2 e.2.toNat)
      (setLdg (fun l => { l with toTell := rest }) s))))

/-- What each kind of commit changes when it lands (R477, R478, R480, R517, R521, R538, R545): a tenant's bytes and no other
byte of its area, a slot's GEN and key, a root's GEN, Ballast's values, the record held in the ledger. -/
def Obligations.CommitsLand : Prop :=
  ∀ (s : State) (t : Tenant) (job : Job) (k : Fin 48),
    (Memory.wf s.store.areas[t] = true → ∀ (off : Nat) (data : Bytes) (a : Nat), (∀ i, (h : i < data.length) → memGet
        ((landCommit (.nvmWrite t job off data) s).store.areas[t]) (off + i) = data[i]) ∧
      ((a < off ∨ off + data.length ≤ a) →
        memGet ((landCommit (.nvmWrite t job off data) s).store.areas[t]) a = memGet s.store.areas[t] a)) ∧
    (landCommit (.keyErase t job k) s).bri.slots[k].key = none ∧
    (landCommit (.keyErase t job k) s).bri.slots[k].gen =
      (if s.bri.slots[k].gen = 0xFFFF then 0xFFFF else s.bri.slots[k].gen + 1) ∧
    (landCommit (.keyInval t job k) s).bri.slots[k].gen = s.bri.slots[k].gen + 1 ∧
    (landCommit (.rootInval t job) s).bri.roots[t] = s.bri.roots[t] + 1 ∧
    (landCommit (.rootInval t job) s).bri.rootsLanded[t] = s.bri.roots[t] + 1 ∧
    (∀ a b, (landCommit (.ballast a b) s).store.prov = { s.store.prov with balC := a, vmin := b }) ∧
    (∀ r, (landCommit (.record r) s).ldg.held = s.ldg.held ++ [r] ∧ (landCommit (.record r) s).ldg.lastLanded = r.seq)

/-- Survey's events take place (R261, R548, R551 to R556, R561, R564): samples are taken while the part runs, telemetry goes to
every subscribed tenant at a multiple of the period, sweeps start on schedule with the aerials used, LKA, and LKB while
diversity is in service, go on point by point, end where a point's calibration fails or 2 s have passed, and complete with
the return loss, length and class of their points. -/
def Obligations.SurveyEventsComplete : Prop :=
  (∀ (now : Tick) (smp : Sample) (s : State), s.power.mode = .run →
    exec (.surveySample now smp) s = .next (takeSample smp (advanceTo now s))) ∧
  (∀ (now : Tick) (smp : Sample) (s : State), (s.power.mode = .run ∨ s.power.mode = .limp) →
    let u := advanceTo now s
    u.reel.cnt.toNat % (u.svy.period * 24000000) = 0 → ∀ v, v = takeSample smp u →
    exec (.telemetrySnapshot now smp) s =
      .next (forTenants (fun t w => if w.svy.subs[t] = 0 then w else raise t evTelemetry (telemetry v) w) v)) ∧
  (∀ (now : Tick) (s : State) (t : Fin 6) (r : List (Fin 6)),
    let u := advanceTo now s
    u.power.mode = .run → u.reel.cnt.toNat % 21600000000 = 0 → u.svy.sweep = none → noSyn u = false →
    (([0, 1, 2, 3] : List (Fin 6)).filter fun i => bit u.svy.used i.val) ++ [4] ++
      (if bit u.mend.lost 4 = false ∧ bit u.prof[linkHost u].phycfg 1 = true then [5] else []) = t :: r →
    exec (.scheduledSweep now) s = .next (sweepBegin none 0 t true r u)) ∧
  (∀ (now : Tick) (g : Option Gamma) (s : State) (w : Sweep),
    let u := advanceTo now s
    u.svy.sweep = some w → sweepHolds (sweepCore w) u = true →
    let v := (calResult (sweepCore w) u).2
    ((calResult (sweepCore w) u).1 = true → exec (.sweepPointDone now g) s = .next (sweepEnd stDegraded v)) ∧
    ((calResult (sweepCore w) u).1 = false →
      (∀ p, g = some p → exec (.sweepPointDone now g) s = .next (sweepNext (setSvy (fun y => { y with
        sweep := some { w with points := w.points ++ [(w.next, p)], next := w.next + 1 } }) (releaseAir (sweepCore w) v)))) ∧
      (g = none → exec (.sweepPointDone now g) s = .next (sweepNext (releaseAir (sweepCore w) v))))) ∧
  (∀ (now f : Tick) (s : State) (w : Sweep),
    let u := advanceTo now s
    u.svy.sweep = some w → w.from_ = some f → w.next < 49 → reached u.reel.cnt (f + 48000000) = true →
    exec (.sweepTimeout now) s = .next (sweepEnd stAirtime u)) ∧
  (∀ (now : Tick) (s : State) (w : Sweep),
    let u := advanceTo now s
    u.svy.sweep = some w → 49 ≤ w.next →
    (sweepSilent w = true → exec (.sweepComplete now) s = .next (sweepRest w (sweepTold w stOk 0xFFFF 0xFFFF
      (setSvy (fun v => { v with targets := vmod v.targets w.target fun g => { g with rl := 0xFFFF, len := 0xFFFF } }) u)))) ∧
    (sweepSilent w = false → ∀ rl len v cls, lowestLoss (w.points.filter fun p => inBand w p.1 u) u = (rl, v) →
      len = (if w.length = true ∧ w.target.val < 4 then feederLength w.prof w.points else 0xFFFF) → cls = classify w rl len v →
      exec (.sweepComplete now) s = .next (sweepRest w (reportClass w.target cls (sweepTold w stOk rl len
        (setSvy (fun y => { y with targets := vmod y.targets w.target fun g =>
          { g with
            rl := rl
            len := len
            refRl := if g.refRl.isNone ∧ (cls = 0 ∨ cls = 4) then some (rl, len) else g.refRl } }) v))))))

/-- Mend's events take place (R570 to R574, R579, R582, R583): the window opens once and closes, and Keel wakes a sleeping part
for it; a step of the self-test advances and the last one completes it; the second correction of a row within 24 h has it
spared, an earlier one is kept; a failed check calibration loses its synthesizer, at once while idle and else once it is; a
failing resource is switched while nothing uses it. -/
def Obligations.MendEventsComplete : Prop :=
  (∀ (now : Tick) (s : State),
    let u := advanceTo now s
    (u.power.mode = .sleep → exec (.daylightWindowOpen now) s = .next (startWake .keel u)) ∧
    (u.power.mode = .run → inWindow u = true → u.mend.winOpen = false →
      (∀ t, u.mend.openedAt = some t → u.mend.winLen * minTicks ≤ ticksBetween t u.reel.cnt) →
      ∃ t, exec (.daylightWindowOpen now) s = .next t ∧ t.mend.winOpen = true ∧ t.mend.openedAt = some u.reel.cnt ∧
        t.mend.days = satInc 0xFFFF u.mend.days ∧ t.mend.overdue = (u.mend.overdue || decide (3 ≤ t.mend.days)))) ∧
  (∀ s : State, exec .daylightWindowEnd s = .next (setMend (fun m => { m with winOpen := false, running := false }) s)) ∧
  (∀ (now : Tick) (found : Option MendRes) (s : State),
    let u := advanceTo now s
    u.power.mode = .run → u.mend.winOpen = true → stepIdle u.mend.step u = true →
    let v := stepRepair u.mend.step found (keyTested u.mend.step
      (setMend (fun m => { m with running := true, step := m.step + 1 }) u))
    exec (.mendStep now found) s = .next (if v.mend.step < 586 then v else testDone v)) ∧
  (∀ (bank : Fin 16) (row : BitVec 8) (now : Tick) (s : State),
    let u := advanceTo now s
    let rest := u.mend.scrub.filter fun e => !(e.1 == bank.val && e.2.1 == row.toNat)
    live u = true →
    ((∃ at_ : Tick, (bank.val, row.toNat, at_) ∈ u.mend.scrub ∧ ticksBetween at_ u.reel.cnt ≤ 1440 * minTicks) →
      exec (.sramCorrection bank row now) s = .next (mendRepair (.row bank row) (setMend (fun m => { m with scrub := rest }) u))) ∧
    ((∀ at_ : Tick, (bank.val, row.toNat, at_) ∈ u.mend.scrub → 1440 * minTicks < ticksBetween at_ u.reel.cnt) →
      exec (.sramCorrection bank row now) s =
        .next (setMend (fun m => { m with scrub := rest ++ [(bank.val, row.toNat, u.reel.cnt)] }) u))) ∧
  (∀ (core : CoreId) (s : State), s.power.mode = .run →
    (match core with | .reader => s.mend.checkR | .link => s.mend.checkL) = true → coreIdle core s = true →
    s.radio.waiters.any (fun r => r.core == core) = false →
    let v := setMend (fun m => match core with
      | .reader => { m with checkR := false }
      | .link => { m with checkL := false }) s
    exec (.synthCheckCalibration core true) s = .next v ∧
    (resIdle (.syn core) v = true → exec (.synthCheckCalibration core false) s = .next (mendRepair (.syn core) v)) ∧
    (resIdle (.syn core) v = false →
      exec (.synthCheckCalibration core false) s = .next (setMend (fun m => { m with owed := m.owed ++ [.syn core] }) v))) ∧
  (∀ (r : MendRes) (s : State), s.power.mode = .run → switchDue r s = true → resIdle r s = true →
    exec (.mendResourceSwitch r) s =
      .next (mendRepair r (setMend (fun m => { m with owed := m.owed.filter (· != r) }) s)))

/-- The arbiter's and the coexistence events take place (R214, R262, R269, R279, R280, R282 to R284): the first grantable request
is granted; a due deep calibration runs in STANDBY with no request for its core; a change of COEX_GNT that has held for 500 ns
sets every context's latch, a rise lets diversity return, and a fall withdraws the grant from what holds air under it, while a
shorter pulse is ignored; the lead runs out; a request that waited too long is denied; a no-wait instruction still waiting at
its action tick faults with code 4. -/
def Obligations.ArbitrationEventsComplete : Prop :=
  (∀ (now : Tick) (s : State) (r : AirReq),
    let u := advanceTo now s
    firstGrantable u.reel.cnt u [] (orderedWaiters u) = some r →
    exec (.airGrant now) s = .next (grantAir r u.reel.cnt u)) ∧
  (∀ (core : CoreId) (now : Tick) (temp : Int) (s : State),
    let u := advanceTo now s
    u.power.mode = .run → deepDue core u = true → coreState core u = .standby → holdOf core u = none →
    u.radio.waiters.any (fun r => r.core == core) = false →
    exec (.deepCalibration core now temp) s = .next (deepRan core temp u)) ∧
  (∀ (now : Tick) (ns : Nat) (level : Bool) (s : State),
    let u := advanceTo now s
    let v := setRadio (fun r => { r with gnt := level }) (forTenants (fun t => modCtx t fun k => { k with latch := k.latch ||| 8 }) u)
    ((ns < 500 ∨ level = u.radio.gnt) → exec (.coexGntChange now ns level) s = .next u) ∧
    (500 ≤ ns → level = true → u.radio.gnt = false →
      exec (.coexGntChange now ns level) s = .next (setRadio (fun r => { r with lkbDue := r.lkbGiven }) v)) ∧
    (500 ≤ ns → level = false → u.radio.gnt = true →
      exec (.coexGntChange now ns level) s = .next (linkWithdrawn (readerWithdrawn
        (setRadio (fun r => { r with leadDone := false, lkbDue := false, waiters := r.waiters.map fun (q : AirReq) =>
          if q.gnt then { q with since := v.reel.cnt } else q }) v))))) ∧
  (∀ (now rose : Tick) (s : State),
    let u := advanceTo now s
    u.radio.reqRose = some rose → u.radio.gnt = true → reached u.reel.cnt (rose + 1200) = true →
    exec (.coexLeadElapsed now) s = .next (setRadio (fun r => { r with leadDone := true }) u)) ∧
  (∀ (now : Tick) (s : State),
    let u := advanceTo now s
    u.radio.gnt = false →
    (∀ r, u.radio.waiters.find? (fun r => r.gnt && reached u.reel.cnt (coexDeadline r u)) = some r →
      exec (.coexWaitExpiry now) s = .next (coexDenied r u)) ∧
    (u.radio.waiters.find? (fun r => r.gnt && reached u.reel.cnt (coexDeadline r u)) = none → ackDenied u = true →
      exec (.coexWaitExpiry now) s = .next (ackOver (setRadio (fun q => { q with denied := satInc 255 q.denied }) u)))) ∧
  (∀ (x : Tenant) (now : Tick) (s : State) (p : Pend),
    let u := advanceTo now s
    u.ctxs[x].run = .waiting → u.ctxs[x].pend = some p → p.noAir = true → bit p.fn 13 = true →
    reached u.reel.cnt p.until_ = true → exec (.noWaitAirDenied x now) s = .next (spoolFault x 4 u))

/-- The reader's round and region events take place (R295, R298, R307, R308, R313, R342): a round that is over is told and
the inventory goes on, its air given back where the grant has been withdrawn; an inventory whose DUR is spent ends with ST_OK,
after the slot that is past its commit point; a wait of the region's rule that is over moves to the next channel; a sniff burst
that is due asks for air at class 6, and one that still waited is skipped and counted. The RF chain's events take place (R320,
R325, R329, R330, R333 to R336, R403): the current limit ends the reader's activity in ST_DEGRADED with PAEN low; the
compensations are computed anew while their transmitter may run; the canceller converges, and a tap above +5 dBm counts a
saturation; gain steps by one, held back while a window receives. -/
def Obligations.ReaderRadioEvents : Prop :=
  ((∀ (x : Tenant) (now : Tick) (s : State) (i : Inv),
    let u := advanceTo now s
    let v := roundTold x i u
    u.rdr.inv[x] = some i → i.stage = .over →
    (i.withdrawn = false → exec (.roundEnd x now) s = .next (invNext x (roundClosed i) v)) ∧
    (i.withdrawn = true → exec (.roundEnd x now) s =
      .next (invNext x (roundClosed i) (if holds (.ctx x) .reader v then releaseAir .reader v else v)))) ∧
  (∀ (x : Tenant) (now : Tick) (s : State) (i : Inv),
    let u := advanceTo now s
    let past := pastCommit .reader u = true ∧ holds (.ctx x) .reader u = true
    u.rdr.inv[x] = some i → durOver i u = true →
    (i.stage ≠ .over → ¬ past → exec (.inventoryDurExpiry x now) s = .next (invDone x stOk u)) ∧
    ((i.stage = .over ∨ past) → exec (.inventoryDurExpiry x now) s =
      .next (setInv x (some { i with ending := some (i.ending.getD stOk) }) u))) ∧
  (∀ (x : Tenant) (now till : Tick) (s : State),
    let u := advanceTo now s
    reached u.reel.cnt till = true →
    (∀ i, u.rdr.inv[x] = some i → i.stage = .regionWait till →
      (i.args.region = 0 → exec (.fccBudgetWaitEnd x now) s = .next (invHop x i u)) ∧
      (i.args.region = 1 → exec (.etsiReturnWaitEnd x now) s = .next (invHop x i u))) ∧
    (∀ a, u.rdr.inv[x] = none → u.rdr.acc[x] = some a → a.stage = .regionWait till →
      (a.args.region = 0 → exec (.fccBudgetWaitEnd x now) s = .next (accTune x a u)) ∧
      (a.args.region = 1 → exec (.etsiReturnWaitEnd x now) s = .next (accTune x a u)))) ∧
  (∀ (now : Tick) (s : State) (n : Sniff),
    let u := advanceTo now s
    let v := dropWaiters (.sniff n.owner) u
    let auto := match u.rdr.inv[n.owner] with
      | some i => i.tseq == n.tseq && holds (.ctx n.owner) .reader u
      | none => false
    let told := fun (ask : Bool) => setRdr (fun r => { r with
      skip := if n.waiting then satInc 255 v.rdr.skip else v.rdr.skip
      sniff := some { n with due := n.due + BitVec.ofNat 48 (n.ivl * 24000), waiting := ask } }) v
    u.power.mode = .run → u.rdr.sniff = some n → reached u.reel.cnt n.due = true →
    ((auto = true ∨ (sniffDown v).isSome = true ∨ holds (.sniff n.owner) .reader v = true) →
      exec (.sniffBurstDue now) s = .next (told false)) ∧
    (auto = false → sniffDown v = none → holds (.sniff n.owner) .reader v = false →
      exec (.sniffBurstDue now) s = .next (requestAir
        { core := .reader, who := .sniff n.owner, cls := 6, freq := bits (told true).prof[n.owner].sniff 12 0,
          since := (told true).reel.cnt, gnt := true, wait := coexWait n.owner (told true), noWait := false } (told true))))) ∧
  ((∀ (now : Tick) (s : State),
    let u := advanceTo now s
    paenHigh u = true → exec (.paIlimTrip now) s =
      .next (readerFails stDegraded (setRdr (fun r => { r with trips := satInc 255 r.trips, paen := none }) u))) ∧
  (∀ (smp : Sample) (s : State), s.rdr.carrier.isSome = true → exec (.compensationRecompute smp) s = .next (compReady smp s)) ∧
  (∀ (smp : Sample) (s : State), s.power.mode = .run → exec (.linkCompensation smp) s = .next (linkCompReady smp s)) ∧
  (∀ (dbm : Int) (supp : BitVec 8) (s : State), s.rdr.carrier.isSome = true →
    (coreState .link s = .rx → exec (.cancellerConverged true dbm supp) s =
      .next (tapWarm true (setRdr (fun r => { r with convL := true }) s))) ∧
    (let v := tapWarm false (setRdr (fun r => { r with
        convR := true
        satR := decide (5 < dbm)
        suppR := supp
        clcSat := if 5 < dbm then satInc 0xFFFF r.clcSat else r.clcSat }) s)
     ((∀ h x, s.radio.rHold = some h → h.req.who = .ctx x → (∀ i, s.rdr.inv[x] = some i → i.stage ≠ .settle) ∧
        (∀ a, s.rdr.acc[x] = some a → a.stage ≠ .settle)) → exec (.cancellerConverged false dbm supp) s = .next v) ∧
     (∀ h x, s.radio.rHold = some h → h.req.who = .ctx x →
        (∀ i, s.rdr.inv[x] = some i → i.stage = .settle → exec (.cancellerConverged false dbm supp) s = .next (invSettled x i v)) ∧
        (∀ a, s.rdr.inv[x] = none → s.rdr.acc[x] = some a → a.stage = .settle →
          exec (.cancellerConverged false dbm supp) s = .next (accSend x { a with step := .select } 203 v)))) ∧
    exec .tapLSaturation s = .next (setRdr (fun r => { r with noconc := r.noconc ||| BitVec.ofNat 4 (2 ^ r.aerial.val) }) s)) ∧
  (∀ (now : Tick) (dbm : Int) (s : State),
    let u := advanceTo now s
    let held := fun (v : State) => if rxOpen v then v else gainApply v
    96000 ≤ ticksBetween u.rdr.gainAt u.reel.cnt →
    (-40 + 6 * (u.rdr.gain : Int) < dbm → u.rdr.gain < 7 →
      exec (.rxGainStep now dbm) s = .next (held (setRdr (fun r => { r with gainDue := 1 }) u))) ∧
    (dbm < -49 + 6 * (u.rdr.gain : Int) → 0 < u.rdr.gain →
      exec (.rxGainStep now dbm) s = .next (held (setRdr (fun r => { r with gainDue := -1 }) u)))) ∧
  (∀ (now : Tick) (s : State),
    let v := setRdr (fun r => { r with clips := satInc 255 r.clips, gainDue := r.gainDue + 1 }) (advanceTo now s)
    exec (.adcClip now) s = .next (if rxOpen v then v else gainApply v)))

/-- The link receiver's events take place (R261, R266, R281, R386, R387, R391 to R398, R419, R422, R426). Of the lanes that
search, the one that correlates strongest takes the frame and the search stops, or a listen whose calibration failed ends. The
aerial with the stronger correlation is kept, which of two equals is free (log entry 38). No SFD in time is counted, and the
search goes on; a good header passes the SFD and the commit point and, asking this node's MAC for an ACK, drives COEX_PRI, a
bad one is counted and dropped. A frame that has ended is heard; one with a good FCS is acknowledged, checked in the order of
R419 and delivered, one that fails its FCS is dropped; with no ACK owed a listen's air may pass on. A listen whose DUR has run
out ends once no frame is in hand; neighbours age, and those that missed four beacons leave the table. -/
def Obligations.LinkReceptionComplete : Prop :=
  (∀ (found : List (Fin 6 × Nat)) (now : Tick) (s : State) (d : Fin 6 × Nat),
    let u := advanceTo now s
    let c := calResult .link u
    coreState .link u = .rx → u.link.demod = false → d ∈ found → bit (searchLanes u) d.1.val = true →
    (c.1 = true → exec (.laneDetection found now) s = .next (forTenants (fun x => listenEnd x stCalFail) c.2)) ∧
    (c.1 = false → ∃ w t, exec (.laneDetection found now) s = .next t ∧ t = laneTaken w.1 c.2 ∧ w ∈ found ∧
      bit (searchLanes u) w.1.val = true ∧ d.2 ≤ w.2 ∧ (d.2 = w.2 → w.1.val ≤ d.1.val) ∧
      t.link.demod = true ∧ t.link.afterSfd = false ∧ t.link.lane = w.1 ∧ t.link.detAt = c.2.reel.cnt)) ∧
  (∀ (a b : Nat) (s : State), s.link.demod = true → s.link.measuring = true →
    (b ≤ a → a ≠ b → exec (.diversityDecision a b) s = .next (aerialKept s.link.keptLkb s)) ∧
    (a < b → exec (.diversityDecision a b) s = .next (aerialKept (!s.link.keptLkb) s)) ∧
    (a = b → ∃ k, exec (.diversityDecision a b) s = .next (aerialKept k (drawBool s).2))) ∧
  (∀ (now : Tick) (s : State),
    let u := advanceTo now s
    u.link.demod = true → u.link.afterSfd = false → reached u.reel.cnt (u.link.detAt + BitVec.ofNat 48 (if u.link.lane = 5
      then 3840 else 48 * sfChips u.link.lane.val * chipTicks (rxSlow u))) = true →
    ∃ t, exec (.sfdTimeout now) s = .next t ∧ t = searchAgain (setLink (fun l => { l with errFalse := satInc 255 l.errFalse }) u) ∧
      t.link.demod = false ∧ t.link.errFalse = satInc 255 u.link.errFalse) ∧
  (∀ (len hcs : Byte) (asksAck : Bool) (s : State), s.link.demod = true → s.link.afterSfd = false →
    let good := if s.link.lane = 5 then len.toNat % 128 ≠ 0 else len ≠ 0 ∧ hcs.toNat = hcsOf len.toNat
    let v := setCommit .link (some s.reel.cnt) (sfdFound s)
    (good → v.link.afterSfd = true ∧ exec (.phrReceived len hcs asksAck) s =
      .next (if asksAck && macReceives v then coexTrack (setRadio (fun r => { r with pri := true }) v) else v)) ∧
    (¬ good → ∃ t, exec (.phrReceived len hcs asksAck) s = .next t ∧
      t = searchAgain (setLink (fun l => { l with errHdr := satInc 255 l.errHdr }) s) ∧
      t.link.demod = false ∧ t.link.errHdr = satInc 255 s.link.errHdr)) ∧
  (∀ (f g : RxFrame) (now : Tick) (s : State),
    let u := advanceTo now s
    let h := linkHeard g u
    let v := if fcsGood g then macProcess g (ackOwe g h) else coexTrack (setRadio (fun r => { r with pri := false }) h)
    coreState .link u = .rx → bit (searchLanes u) f.lane.val = true → (holds .listen .link u = true ∨ u.link.step = .ackWait) →
    1 ≤ f.psdu.length → f.psdu.length ≤ (if f.lane = 5 then 127 else 255) → g = rssiReported f →
    exec (.linkFrameReceived f now) s = .next (if v.link.ackDue = none ∧ holds .listen .link v = true
      then listensDue (frameEnd .link v) else v)) ∧
  (∀ (f : RxFrame) (u : State), (rawAck f).1 = true → (rawAck f).2.1 = u.link.addr → (ackOwe f u).link.ackDue =
    some (u.reel.cnt + 4608, if f.lane = 5 then ackS (rawAck f).2.2.2 else ackT (rawAck f).2.2.2 (rawAck f).2.2.1 u.link.addr,
      f.lane, f.lkb)) ∧
  (∀ (f : RxFrame) (u : State),
    (parseMac u.link.pan f.lane f.psdu = none →
      macProcess f u = setLink (fun l => { l with macFormat := satInc 255 l.macFormat }) u) ∧
    (∀ m, parseMac u.link.pan f.lane f.psdu = some m →
      ((m.ftype = 1 ∨ (m.dst ≠ u.link.addr ∧ m.dst ≠ 0xFFFF)) → macProcess f u = u) ∧
      (m.ftype ≠ 1 → (m.dst = u.link.addr ∨ m.dst = 0xFFFF) →
        (∀ d, secCheck m (beaconLike m) u = .error d → macProcess f u = countDrop d u) ∧
        (m.smode = false → m.ftype = 0 → ∀ p, secCheck m false u = .ok p →
          macProcess f u = deliver f m p (nbrHeard f m u))))) ∧
  (∀ (f : RxFrame) (m : MacFrame) (p : Bytes) (t : Tenant) (u : State), m.smode = false → t.val = m.dten → isDup m u = false →
    findBuf 4 u ≠ none → (u.tens[t].outQ.filter Out.isOrdinary).length < 63 →
    LastOut t (.evt u.tens[t].evSeq evLnkRx u.reel.cnt (lnkRxData f m.src m.sec p)) (deliver f m p u)) ∧
  (∀ (x : Tenant) (now : Tick) (s : State) (l : Listen),
    let u := advanceTo now s
    u.link.listens[x] = some l → listenOver l u = true → listenBusy u = false →
    exec (.listenDurExpiry x now) s = .next (listenEnd x stOk u)) ∧
  (∀ (now : Tick) (s : State),
    let u := advanceTo now s
    let v := setLink (fun l => { l with nbrs := l.nbrs.map fun n => { n with missed := nbrMissed n u } }) u
    u.power.mode = .run → exec (.nbrAgeing now) s =
      .next ((v.link.nbrs.filter fun n => decide (4 ≤ n.missed)).foldl (fun w n => nbrLost n.addr 0 w) v))

/-- The transmit side of the MAC (Table 14-4, R193, R261, R405, R412, R414 to R418, R423, R428, R431 to R433): a backoff of 0 to
2^BE - 1 units ends in the CCA, in ST_CAL_FAIL where the attempt's calibration failed, or in ST_AIRTIME where the duty cycle
refuses it; a clear channel puts the frame on air within 24 µs, a busy one backs off again, the fifth ends the send; the
last chip opens the ACK window at class 1 or ends the send; an ACK in time ends it with ST_OK; a window that is over without one
is followed by a retry at class 3, the fourth by ST_NO_ACK. An owed ACK goes out at its tick with TRSW high, unless the
budget of REGION 1 is spent. A send with TIME whose first chip does not go on air then ends in ST_AIRTIME; one that holds the air, the
grant and its lead 432 ticks before goes on air at it. A beacon is built, secured where BKEY tells, and asks for the air at class
3; one that cannot be secured is skipped and counted. -/
def Obligations.LinkTransmitEvents : Prop :=
  (∀ (now : Tick) (s : State) (e : Send) (r : List Send) (k : Nat),
    let u := advanceTo now s
    let v := match drbgTake 1 u with | some (_, w) => w | none => u
    let c := calResult .link v
    u.link.sends = e :: r → u.link.step = .backoff → k < 2 ^ e.be → ticksBetween u.link.timer u.reel.cnt = k * backoffUnit u →
    holds (sendWho e) .link u = true →
    (c.1 = true → exec (.csmaBackoffEnd now) s = .next (sendEnd stCalFail c.2)) ∧
    (c.1 = false → dutyShort (frameTicks e.lane e.psdu.length c.2) c.2 = true →
      exec (.csmaBackoffEnd now) s = .next (sendEnd stAirtime c.2)) ∧
    (c.1 = false → dutyShort (frameTicks e.lane e.psdu.length c.2) c.2 = false → ∃ t, exec (.csmaBackoffEnd now) s = .next t ∧
      t = setCore .link .rx (setLink (fun l => { l with step := .cca, timer := c.2.reel.cnt }) c.2) ∧
      t.link.step = .cca ∧ t.radio.lState = .rx)) ∧
  (∀ (now : Tick) (dbm : Int) (s : State) (e : Send) (r : List Send),
    let u := advanceTo now s
    u.link.sends = e :: r → u.link.step = .cca → reached u.reel.cnt (u.link.timer + 3072) = true →
    (dbm < ccaThr u.prof[linkHost u] → ∃ k, exec (.ccaResult now dbm) s = .next (transmit e
      (leadTick (drawNat u).2 u.reel.cnt + BitVec.ofNat 48 k) (drawNat u).2) ∧ k ≤ 576) ∧
    (ccaThr u.prof[linkHost u] ≤ dbm → 4 ≤ e.nb → exec (.ccaResult now dbm) s =
      .next (sendEnd stAirtime (setLink (fun l => { l with txCaf := satInc 255 l.txCaf }) u))) ∧
    (ccaThr u.prof[linkHost u] ≤ dbm → e.nb < 4 → exec (.ccaResult now dbm) s =
      .next (setCore .link .synth (setLink (fun l => { l with
        step := .backoff, timer := u.reel.cnt, sends := { e with nb := e.nb + 1, be := min (e.be + 1) 5 } :: r }) u)))) ∧
  (∀ (e : Send) (first : Tick) (u : State), (transmit e first u).link.step = .tx ∧ (transmit e first u).link.sentPsdu = e.psdu ∧
    (transmit e first u).link.timer = first + BitVec.ofNat 48 (frameTicks e.lane e.psdu.length u) ∧
    (transmit e first u).radio.lState = .tx ∧
    ∃ f, (transmit e first u).link.onAir = some f ∧ f.first = first ∧ f.lane = e.lane ∧ f.power = e.power) ∧
  (∀ (now : Tick) (s : State),
    let u := advanceTo now s
    (∀ till, u.link.ackEnd = some till → reached u.reel.cnt till = true → exec (.linkTxEnd now) s = .next (ackOver u)) ∧
    (∀ (e g : Send) (r : List Send) (n : Nat) (v : State), u.link.ackEnd = none → u.link.sends = e :: r → u.link.step = .tx →
      reached u.reel.cnt u.link.timer = true → n = frameTicks e.lane e.psdu.length u →
      g = { e with tries := e.tries + 1, tstart := u.link.timer - BitVec.ofNat 48 n, time := none } →
      v = dutyAdd g.tstart n (setCore .link .synth (setLink (fun l => { l with sends := g :: r }) u)) →
      let w := setLink (fun l => { l with step := .ackWait, timer := u.link.timer + BitVec.ofNat 48 (ackWaitTicks v) }) v
      let listen := e.ar = true ∧ e.dst ≠ 0xFFFF ∧ e.ending ≠ some stAbortedReset
      (listen → exec (.linkTxEnd now) s = .next (setCore .link .rx (match w.radio.lHold with
        | some h => setHold .link (some { h with req := { h.req with cls := 1 }, commit := none, ends := none }) w
        | none => w))) ∧
      (¬ listen → exec (.linkTxEnd now) s = .next (sendEnd (e.ending.getD stOk) v)))) ∧
  (∀ (now : Tick) (f : RxFrame) (m : MacFrame) (s : State) (e : Send) (r : List Send),
    let u := advanceTo now s
    u.link.sends = e :: r → u.link.step = .ackWait → f.lane = e.lane → fcsGood f = true →
    parseMac u.link.pan f.lane f.psdu = some m → m.ftype = 1 → m.mseq = e.mseq → (m.smode = true ∨ m.dst = u.link.addr) →
    reached u.link.timer (u.reel.cnt - BitVec.ofNat 48 (frameTicks f.lane f.psdu.length u) +
      BitVec.ofNat 48 (if f.lane = 5 then 1536 else 4 * sfChips f.lane.val * chipTicks (linkSlow u))) = true →
    exec (.ackReceived now f) s =
      .next (sendEnd stOk (setLink (fun l => { l with noackRun := 0 }) (linkHeard (rssiReported f) u)))) ∧
  (∀ (now : Tick) (s : State) (e : Send) (r : List Send),
    let u := advanceTo now s
    u.link.sends = e :: r → u.link.step = .ackWait → reached u.reel.cnt u.link.timer = true → u.link.demod = false →
    u.link.ackEnd = none →
    (∀ st, e.ending = some st → exec (.ackWindowExpiry now) s = .next (sendEnd st u)) ∧
    (e.ending = none → 4 ≤ e.tries → exec (.ackWindowExpiry now) s = .next (noAck (sendEnd stNoAck u))) ∧
    (e.ending = none → e.tries < 4 → ∀ v, v = setCore .link .synth (setLink (fun l => { l with
        step := .backoff, timer := u.reel.cnt, sends := { e with nb := 0, be := 3 } :: r }) u) →
      exec (.ackWindowExpiry now) s = .next (frameEnd .link (match v.radio.lHold with
        | some h => setHold .link (some { h with req := { h.req with cls := 3 } }) v
        | none => v)))) ∧
  (∀ (now at_ : Tick) (psdu : Bytes) (lane : Fin 6) (lkb : Bool) (s : State),
    let u := advanceTo now s
    u.link.ackDue = some (at_, psdu, lane, lkb) → u.link.ackEnd = none → u.radio.lHold.isSome = true →
    reached u.reel.cnt at_ = true → u.radio.gnt = true → leadTick u u.reel.cnt = u.reel.cnt →
    psdu.length ≤ 255 →
    ((u.link.region ≠ 1 ∨ dutyUsed u < dutyBudget u) → ∃ t, exec (.ackTransmit now) s = .next t ∧ t.link.ackDue = none ∧
      t.link.sentPsdu = psdu ∧ trswHigh t = true ∧ t.radio.lState = .tx ∧
      t.link.ackEnd = some (u.reel.cnt + BitVec.ofNat 48 (frameTicks lane psdu.length u)) ∧
      ∃ f, t.link.onAir = some f ∧ f.first = u.reel.cnt ∧ f.lane = lane ∧ f.lkb = lkb) ∧
    (u.link.region = 1 → dutyBudget u ≤ dutyUsed u → exec (.ackTransmit now) s = .next (ackOver u))) ∧
  (∀ (now : Tick) (s : State) (e : Send),
    let u := advanceTo now s
    u.link.sends.find? (fun e => match e.time with | some t => reached u.reel.cnt t && !sendActive e u | none => false) = some e →
    exec (.sendTimeDue now) s =
      .next (if holds (sendWho e) .link u then sendEnd stAirtime u else sendDrop e stAirtime u)) ∧
  (∀ (e : Send) (u : State),
    let c := calResult .link u
    let may := holds (sendWho e) .link u = true ∧ u.radio.gnt = true ∧ leadTick u u.reel.cnt = u.reel.cnt ∧
      dutyShort (frameTicks e.lane e.psdu.length u) u = false
    (may → c.1 = false → sendGo e u = transmit e (c.2.reel.cnt + 432) c.2) ∧
    (may → c.1 = true → sendGo e u = sendMissed e c.2) ∧ (¬ may → sendGo e u = sendMissed e u)) ∧
  (∀ (now start at_ : Tick) (s : State),
    let u := advanceTo now s
    u.link.beaconAt = some (start, at_) → u.power.mode = .run → u.link.beacon ≠ 0 → reached u.reel.cnt at_ = true →
    ∀ v, v = beaconPlan (start + BitVec.ofNat 48 (beaconIvl u * 24000000)) u →
    let smode := v.link.rate == 2
    let built := fun (key : Option (Fin 48 × Bytes × Nat)) (w : State) (e : Send) =>
      e.owner = none ∧ e.mseq = w.link.mseq ∧ e.dst = 0xFFFF ∧ e.ar = false ∧ e.time = none ∧
      e.lane.val = (if smode then 5 else bits v.link.maccfg 2 0 % 5) ∧
      e.psdu = buildFrame smode 2 (match key with | some k => (slotOwner k.1).val | none => 0) false w.link.mseq 0xFFFF
        ((if smode then [0x4B, 0x42] else []) ++ beaconPayload v) key (takeMseq w).2 ∧
      exec (.beaconDue now) s = .next (sendAsk e (setLink (fun l => { l with sends := l.sends ++ [e] }) (takeMseq w).2))
    ((noSyn v = true ∨ ∃ e ∈ v.link.sends, e.owner = none) → exec (.beaconDue now) s = .next v) ∧
    (noSyn v = false → (∀ e ∈ v.link.sends, e.owner ≠ none) →
      (slotNo (bits v.link.maccfg 13 8) = none → ∃ e, built none v e) ∧
      (∀ k, slotNo (bits v.link.maccfg 13 8) = some k →
        (∀ key f w, beaconKey k v = some (key, f, w) → ∃ e, built (some (k, key, f)) w e) ∧
        (beaconKey k v = none → exec (.beaconDue now) s =
          .next (setLink (fun l => { l with macNokey := satInc 255 l.macNokey }) v)))))

/-- V1 mode works while its strap is set and the part is live (R127 to R133, Table 4-10): transactions read and write
registers, V1_CTRL starts and stops rounds, the FIFO gives a byte, flags clear where ones are written, REGION and LINK
refuse reserved values, POWER stops at +20 dBm, and rounds end as their dwell runs out. -/
def Obligations.V1ModeComplete : Prop :=
  (∀ s : State, v1On s = true →
    (∀ (a : Byte) (data : Bytes), exec (.v1Transaction (0x02 :: a :: data)) s = .next (v1Writes a.toNat data s)) ∧
    (∀ (a : Byte) (data : Bytes), exec (.v1Transaction (0x03 :: a :: data)) s =
      .next (setV1 (fun v => { v with out := (v1Reads data.length a.toNat s).1 }) (v1Reads data.length a.toNat s).2)) ∧
    exec .v1Start s = .next (v1Begin false s) ∧ exec .v1Single s = .next (v1Begin true s) ∧
    exec .v1Stop s = .next (v1End s) ∧
    (∀ (b : Byte) (e : Bytes) (r : List Bytes), s.v1.fifo = (b :: e) :: r →
      exec .v1FifoRead s = .next (setV1 (fun v => { v with fifo := if e = [] then r else e :: r, out := [b] }) s)) ∧
    (∀ m : Byte, exec (.v1IrqflgClear m) s = .next (setV1 (fun v => { v with irqflg := v.irqflg &&& ~~~m }) s)) ∧
    (∀ w : Byte, exec (.v1RegionWrite w) s =
      .next (if w.toNat < 2 then setV1 (fun v => { v with region := w }) s else v1Error stBadArg s)) ∧
    (∀ w : Byte, (bits w 4 2 < 6 → bits w 6 5 < 3 →
        exec (.v1LinkWrite w) s = .next (setV1 (fun v => { v with link := w &&& 0x7F }) s)) ∧
      ((6 ≤ bits w 4 2 ∨ 3 ≤ bits w 6 5) → exec (.v1LinkWrite w) s = .next (v1Error stBadArg s))) ∧
    (∀ w : Byte, exec (.v1PowerWrite w) s = .next (setV1 (fun v => { v with power := if 0x50 < w.toNat then 0x50 else w }) s))) ∧
  (∀ (now : Tick) (s : State) (i : Inv),
    let u := advanceTo now s
    v1Inv u = some i → i.single = false → u.v1.dwell ≠ 0 →
    reached u.reel.cnt (u.v1.dwellFrom + BitVec.ofNat 48 (u.v1.dwell.toNat * 240000)) = true →
    exec (.v1DwellExpiry now) s = .next (v1End u))

/-- The ports' events take place on a port that hears (R46, R98 to R102, R104, R107 to R110, R112 to R126, Table 4-3, Table
4-9): the bits of a transaction are taken as bytes in the port's order behind what its ring holds, and one for another I2C
address, or during a UART reply, is not; bad transactions are counted, and an abort, a gap or a framing error discards and counts
the frame in progress; outgoing frames leave whole and in order, a cut one starts again from SYNC, and 0xFF is read once
nothing is pending; half duplex answers with at most 4, UA_DE high from a bit before them to their end; a break, a stuck bus,
the SPI sequence and VIO's return are port resets; and a presence timer that has run out in STANDBY or ACTIVE detaches its port. -/
def Obligations.PortEventsComplete : Prop :=
  (∀ (p : Port) (bus : Bus) (s : State),
    (∀ (data : List Bool) (lag : Nat),
      (busTaken p bus s = true → ∀ old b, old = s.ports[p].ring → b = old ++ lineBytes p data →
        exec (.hostFrame p bus data lag) s = .next (takeFrames p lag (b.length + 1) (decide (6 ≤ old.length)) b
          (modPort p (fun q => { busEcho p bus (lineBytes p data).length q with ring := [] }) s))) ∧
      (busTaken p bus s = false → exec (.hostFrame p bus data lag) s = .next (busNack p s))) ∧
    (portHears p s = true →
      (p.val < 2 → ∀ b : Byte, b ≠ 0x5A → b ≠ 0x00 → exec (.spiInvalidTransaction p b) s = .next (countBad p s)) ∧
      (p.val < 3 → exec (.frameAbort p) s = .next (cutFrame p s)) ∧
      (addressed p bus s = true →
        ((p = 3 → halfDuplex s = false) → exec (.outgoingFrameDelivered p bus) s = .next (deliverToHost p bus s)) ∧
        (∀ (n : Nat) (o : Out), nextOut p s = some o → n < (nextFrame p o s).length →
          exec (.partialDelivery p bus n) s = .next (modPort p (fun q => { q with
            txPart := n, line := lineBits p (readLead p bus ++ (nextFrame p o s).take n) }) s)) ∧
        (∀ n : Nat, nextOut p s = none → p ≠ 3 → exec (.partialDelivery p bus n) s = .next (modPort p (fun q => { q with
          line := lineBits p (readLead p bus ++ List.replicate n 0xFF) }) s)))) ∧
    (∀ o : Out, nextOut p s = some o → (deliverToHost p bus s).ports[p].sent = nextFrame p o s ∧
      (deliverToHost p bus s).ports[p].txPart = 0 ∧
      (deliverToHost p bus s).ports[p].line = lineBits p (readLead p bus ++ nextFrame p o s) ∧
      (deliverToHost p bus s).tens = (dequeueOut p s).tens)) ∧
  (∀ (p : Port) (s : State),
    (portHears 3 s = true →
      exec .uartGapTimeout s = .next (cutFrame 3 s) ∧ exec .uartFramingError s = .next (cutFrame 3 s) ∧
      exec .uartBreak s = .next (portReset 3 s) ∧
      (∀ n, halfDuplex s = true → s.ports[(3 : Fin 4)].polled = true →
        let d := deliverMany (min n 4) s
        exec (.uartHdxReply n) s = .next (modPort 3 (fun q => { q with
          polled := false
          burst := if d.1 = 0 then none
            else some (s.reel.cnt + BitVec.ofNat 48 (((1 + 10 * d.1) * s.div.toNat + 1) / 2)) }) d.2))) ∧
    (portHears 2 s = true → exec .i2cStuckBus s = .next (portReset 2 s)) ∧
    (live s = true → s.power.vioLost = false → p.val < 2 → exec (.spiPortResetSequence p) s = .next (portReset p s)) ∧
    (s.power.mode ≠ .reset → exec .vioLoss s = .next (setPower (fun p => { p with vioLost := true }) s)) ∧
    (s.power.vioLost = true → exec .vioReturn s = .next (portReset 3 (portReset 2 (portReset 1
      (portReset 0 (setPower (fun p => { p with vioLost := false }) s)))))) ∧
    (∀ now : Tick,
      let u := advanceTo now s
      u.power.mode = .run → bits u.ports[p].cfg 15 8 ≠ 0 → (u.ports[p].attached = true ∨ u.ports[p].moved = true) →
      reached u.reel.cnt (u.ports[p].presFrom + BitVec.ofNat 48 (bits u.ports[p].cfg 15 8 * 24000000)) = true →
      exec (.presenceTimeout p now) s = .next (detach p 1 u)))

/-- A host frame of good CRC whose payload carries an OPCODE, taken by a port whose ring has the space for it, is queued for the
tenant of its port while fewer than 8 commands are outstanding; otherwise nothing is queued and an empty refusal slot keeps it
for its answer ST_BUSY (R112, R113, R154, R155). Either way the tenant's vote is AWAKE and the port is attached, and on I2C the
address and every byte are acknowledged (R104). One that the ring has no space for is dropped and counted (R119), here one that
holds no further SYNC byte. -/
def Obligations.HostFrameQueued : Prop :=
  ∀ (p : Port) (bus : Bus) (lag : Nat) (op seq : BitVec 16) (args frame : Bytes) (s : State), busTaken p bus s = true →
    s.ports[p].ring = [] → args.length ≤ 1022 → frame = hostFrame 0 seq (leBytes 2 op.toNat ++ args) →
    let t := s.binding[p]
    (s.ports[p].untaken.sum + args.length + 10 ≤ 2080 →
      ∃ u, exec (.hostFrame p bus (lineBits p frame) lag) s = .next u ∧
      (outstanding s.tens[t] < 8 → u.tens[t].cmdQ = s.tens[t].cmdQ ++
        [{ op := op, seq := seq, args := args, orphan := false, port := p }]) ∧
      (8 ≤ outstanding s.tens[t] → u.tens[t].cmdQ = s.tens[t].cmdQ ∧
        (s.tens[t].refusal = none → u.tens[t].refusal = some (seq, op, false))) ∧
      u.power.votes[t] = true ∧ u.ports[p].attached = true ∧
      (p = 2 → u.ports[p].acks = List.replicate (frame.length + 1) true)) ∧
    (2080 < s.ports[p].untaken.sum + args.length + 10 → 0x5A ∉ frame.drop 6 →
      ∃ u, exec (.hostFrame p bus (lineBits p frame) lag) s = .next u ∧ u.tens = s.tens ∧
      u.ports[p].rxdrop = satInc 0xFFFF s.ports[p].rxdrop ∧ u.ports[p].attached = s.ports[p].attached)

/-- The resets and the start take place (R31, R37, R41 to R48, R62, R64, R75, R79, R80, R485, R580): a power-on reset and an NRESET
pulse of 1 µs or more clear the part, one below 200 ns does not and one between may or may not (log entry 47); their release
latches the straps and starts it or enters factory test mode; the start's end, within the 32 ms of R62, makes the ports live and
applies a latched assertion of TAMPER; the watchdog and an uncorrectable error start it anew, and XO32 comes, stops or times out. -/
def Obligations.ResetEventsComplete : Prop :=
  (∀ s : State, exec .powerOnReset s = .next (clearFor 1 false s)) ∧
  (∀ (ns : Nat) (s : State), s.power.vioLost = false →
    (1000 ≤ ns → exec (.nreset ns) s = .next (clearFor 2 false s)) ∧ (ns < 200 → exec (.nreset ns) s = .next s) ∧
    (200 ≤ ns → ns < 1000 → ∃ t, exec (.nreset ns) s = .next t ∧
      (t = clearFor 2 false (drawBool s).2 ∨ t = (drawBool s).2))) ∧
  (∀ (ns : Nat) (s : State), s.power.vioLost = true → exec (.nreset ns) s = .next s) ∧
  (∀ (sdo a1 a0 : Bool) (f : StartFinds) (s : State), s.power.mode = .reset →
    let v := setPower (fun p => { p with strapV1 := !sdo, strapAddr := BitVec.ofNat 2 ((if a1 then 2 else 0) + (if a0 then 1 else 0)) }) s
    exec (.resetRelease sdo a1 a0 false f) s = .next (startWork f v) ∧
    exec (.resetRelease sdo a1 a0 true f) s = .next (setPower (fun p => { p with mode := .factory }) v)) ∧
  (∀ s : State, s.power.mode = .start → ∃ n, n ≤ 768000 ∧ exec .startComplete s = .next (tamperIfLatched (startLive
    (setPower (fun p => { p with mode := .run, xo24Ok := true })
      (advanceTo (s.reel.cnt + BitVec.ofNat 48 n) (drawNat s).2))))) ∧
  (∀ (f : StartFinds) (s : State), keelRuns s = true →
    exec (.keelWatchdogExpiry f) s = .next (startWork f (clearFor 3 true s))) ∧
  (∀ (bank : Fin 16) (row : BitVec 8) (vhu : Nat) (f : StartFinds) (s : State), live s = true →
    exec (.uncorrectableSramError bank row vhu f) s = .next (startWork f (clearFor 3 true
      (logCommitNow vhu (logEntry 0xF003 [BitVec.ofNat 8 bank.val, BitVec.ofNat 8 row.toNat] s))))) ∧
  (∀ s : State, s.power.mode ≠ .reset → s.power.xo32Ok = false →
    exec .xo32Timeout s = .next (setPower (fun p => { p with aonRc := true, xo32Gone := true }) s) ∧
    (s.power.xo32Gone = false →
      exec .xo32Ready s = .next (setPower (fun p => { p with xo32Ok := true, aonRc := false }) s))) ∧
  (∀ s : State, s.power.xo32Ok = true →
    exec .xo32Stop s = .next (setPower (fun p => { p with xo32Ok := false, aonRc := true, xo32Gone := true }) s))

/-- Sleep, wake and their failures take place (R37, R46, R66 to R71, R76, R83, R84, R88, R89, R435, R438, R444, Table 3-12):
SLEEP is entered where nothing stands against it, and a commit that Ballast defers keeps the part awake; the pins, edges and
compares wake it, an I2C START with its own address only; the wake resumes Reel from the keeper; the third crystal attempt ends
in LIMP, the eighth regulator failure in a row in LOCKOUT. -/
def Obligations.SleepWakeEventsComplete : Prop :=
  (∀ (now : Tick) (vhu : Nat) (s : State),
    let u := advanceTo now s
    let v := sleepCommits vhu u
    maySleep u = true →
    (v.store.queue = [] → v.store.deferred = [] → ∃ t, exec (.sleepEntry now vhu) s = .next t ∧ t = enterSleep v ∧
      t.power.mode = .sleep ∧ t.reel.keeper = v.reel.cnt ∧ t.radio.rState = .sleep ∧ t.radio.lState = .sleep ∧
      t.rdr.paen = none ∧ t.link.trsw = none) ∧
    ((v.store.queue ≠ [] ∨ v.store.deferred ≠ []) → exec (.sleepEntry now vhu) s = .next v)) ∧
  (∀ s : State, s.power.vioLost = false →
    exec .wakePin s = .next (startWake .wakePin s) ∧
    (∀ (e : Edge) (a : BitVec 7), ((e = .i2cStart → a = 0x5C + s.power.strapAddr.setWidth 7) →
        exec (.portWakeEdge e a) s = .next (startWake (.port s.binding[edgePort e]) s)) ∧
      (e = .i2cStart → a ≠ 0x5C + s.power.strapAddr.setWidth 7 → exec (.portWakeEdge e a) s = .next s))) ∧
  (∀ (n : Nat) (s : State),
    ((∃ v ∈ wakeCompares s, reached (keeperAt n s) (v - 76800) = true) → exec (.compareWakeLead n) s = .next (startWake .reelCmp s)) ∧
    ((∀ v ∈ wakeCompares s, reached (keeperAt n s) (v - 76800) = false) →
      (∃ v ∈ keelCompares s, reached (keeperAt n s) (v - 76800) = true) → exec (.compareWakeLead n) s = .next (startWake .keel s))) ∧
  (∀ (n : Nat) (s : State), s.power.mode = .waking →
    ∃ t, exec (.wakeComplete n) s = .next t ∧ t.power.mode = .run ∧ t.power.wake = none ∧ t.power.wakeRun = 0 ∧
      t.reel.cnt = s.reel.keeper + BitVec.ofNat 48 (46875 * n / 64)) ∧
  (∀ s : State,
    ((s.power.mode = .waking ∨ s.power.mode = .start) → s.power.boosts < 2 →
      exec .xo24Timeout s = .next (setPower (fun p => { p with boosts := p.boosts + 1 }) s)) ∧
    (s.power.mode = .start → 2 ≤ s.power.boosts →
      exec .xo24Timeout s = .next (limpEntry { s with reel := { s.reel with cnt := s.power.startedAt } })) ∧
    (s.power.mode = .waking → 2 ≤ s.power.boosts → ∃ t, exec .xo24Timeout s = .next t ∧ t.power.mode = .limp ∧
      t.power.untrusted = true ∧ t.tag.enabled = false ∧ t.rdr.sniff = none)) ∧
  (∀ (s v : State), (s.power.mode = .waking ∧ v = s) ∨
      (s.power.mode = .start ∧ v = { s with reel := { s.reel with keeper := s.reel.cnt } }) →
    exec .regulatorTimeout s = .next (untrust s.power.aonRc (setPower (fun p => { p with
      mode := if 8 ≤ p.wakeRun + 1 then .lockout else .sleep, wake := none, wakeFails := satInc 255 p.wakeFails,
      wakeRun := p.wakeRun + 1 }) v)))

/-- The PWRFAIL drill takes place (R87, R90 to R94, R96, R221): a pulse of less than 1 µs is ignored; from STANDBY, ACTIVE and LIMP no radio activity waits or holds
the air, no send is left, every program ends and every outstanding command is gone; from SLEEP and WAKING the part holds at
once; HOLD is entered at the drill's end with Reel's count in the keeper, and PWRFAIL's fall wakes it. (The link core is
never held for the lantern tag in a state that a run reaches; the statement leaves that hold alone.) -/
def Obligations.PowerFailEventsComplete : Prop :=
  (∀ (now : Tick) (ns vhu : Nat) (landed : Bool) (s : State), s.power.vioLost = false → 1000 ≤ ns →
    (s.power.mode = .run ∨ s.power.mode = .limp) →
    ∃ t, exec (.pwrfail now ns vhu landed) s = .next t ∧ t.power.pwrfail = true ∧ t.power.mode = .drill ∧
      t.radio.rHold = none ∧ (∀ h, t.radio.lHold = some h → h.req.who = .lantern) ∧ t.radio.waiters = [] ∧
      t.link.sends = [] ∧
      (∀ x : Tenant, t.tens[x].exec = none ∧ t.tens[x].cmdQ = [] ∧ t.ctxs[x].run ≠ .running ∧ t.ctxs[x].run ≠ .waiting)) ∧
  (∀ (now : Tick) (ns vhu : Nat) (landed : Bool) (s : State), ns < 1000 → exec (.pwrfail now ns vhu landed) s = .next s) ∧
  (∀ (now : Tick) (ns vhu : Nat) (landed : Bool) (s : State), s.power.vioLost = false → 1000 ≤ ns →
    (s.power.mode = .sleep ∨ s.power.mode = .waking) → exec (.pwrfail now ns vhu landed) s =
      .next (holdFromSleep (setPower (fun p => { p with pwrfail := true }) (advanceTo now s)))) ∧
  (∀ s : State, s.power.mode = .drill → ∃ t, exec .holdEntry s = .next t ∧ t.power.mode = .hold ∧
    t.reel.keeper = s.reel.cnt ∧ t.radio.rState = .sleep ∧ t.radio.lState = .sleep) ∧
  (∀ s : State, s.power.vioLost = false → s.power.mode = .hold →
    ∃ t, exec .pwrfailClear s = .next t ∧ t.power.mode = .waking ∧ t.power.wake = some .pwrfailClear ∧
      t.power.pwrfail = false ∧ t.power.boosts = 0)

/-- A step takes the command at the front of the queue and is its meaning on the state with the queue's rest; with no
command waiting one Reel tick passes (the model's choice, log entry 2). Every step of every state answers a next state: no
command and no happening stops the part. -/
def Obligations.StepRunsFront : Prop :=
  ((∀ (c : Instr) (rest : List Instr) (s : State), s.pending = c :: rest → step s = exec c { s with pending := rest }) ∧
  (∀ s : State, s.pending = [] → step s = .next (advanceTo (s.reel.cnt + 1) s))) ∧
  (∀ s : State, ∃ t, step s = .next t)

/-- The binding of ports to tenants is one-to-one at reset and stays so through every step of every state (R136); every port
has exactly one tenant, since the binding is a table with one tenant for each port. -/
def Obligations.BindingStaysOneToOne : Prop :=
  OneToOne State.reset ∧ ∀ s t : State, OneToOne s → step s = .next t → OneToOne t

/-- No step adds to the queue of commands or takes more than its front, and none changes the serial number. -/
def Obligations.QueueConsumedFromFront : Prop :=
  ∀ s t : State, step s = .next t → t.pending = s.pending.tail ∧ t.serial = s.serial

/-- Every memory of the part stays in its canonical form through every step: the buffers, the code and data of the contexts,
the lantern tag's readout area, the tenants' areas of the store. The form is the model's own (addresses rising, no byte
listed that an unlisted address reads as, log entry 4). -/
def Obligations.MemoriesStayCanonical : Prop :=
  ∀ s t : State, MemoriesCanonical s → step s = .next t → MemoriesCanonical t

/-- The part after reset (Table 3-10, Table 7-4, R43, R136, R147, R151, R500): in reset, the default binding, which is
one-to-one, no lock, equal shares, every queue empty and every vote IDLE, no program, no key, no message, memories in
canonical form. -/
def Obligations.ResetState : Prop :=
  State.reset.pending = [] ∧ State.reset.power.mode = .reset ∧ OneToOne State.reset ∧
  (∀ p : Fin 4, State.reset.binding[p] = p) ∧ State.reset.bindLock = false ∧ State.reset.shareLock = false ∧
  State.reset.reel.cnt = 0 ∧
  (∀ t : Tenant, State.reset.tens[t].share = 25 ∧ State.reset.tens[t].cmdQ = [] ∧ State.reset.tens[t].exec = none ∧
    State.reset.tens[t].outQ = [] ∧ State.reset.tens[t].evSeq = 0 ∧ State.reset.power.votes[t] = false ∧
    State.reset.ctxs[t].run = .idle ∧ State.reset.ctxs[t].codeLen = 0 ∧ State.reset.prof[t].hop = []) ∧
  MemoriesCanonical State.reset ∧
  (∀ k : Fin 48, State.reset.bri.slots[k].key = none ∧ State.reset.bri.slots[k].gen = 0) ∧
  (∀ g : Fin 16, State.reset.gdl.chans[g].msg = none ∧ State.reset.gdl.chans[g].bound = none) ∧
  State.reset.ldg.owner = 0 ∧ State.reset.store.balC = 0 ∧ State.reset.link.configured = false ∧ State.reset.tag.enabled = false

/-- What each reset class clears and keeps (R80, Table 3-10): a reset by the watchdog or SYS.RESET keeps the bindings, the
locks, the shares, the straps, Reel's count, REEL_UNTRUSTED and the wake counts; a power-on reset or NRESET clears them;
both clear the queues, the votes, the messages, the semaphores and the programs, and both keep the store's contents. -/
def Obligations.ResetClasses : Prop :=
  ∀ (cause : BitVec 3) (warm : Bool) (s : State),
    let u := clearFor cause warm s
    (warm = true → u.binding = s.binding ∧ u.bindLock = s.bindLock ∧ u.shareLock = s.shareLock ∧
      (∀ t : Tenant, u.tens[t].share = s.tens[t].share) ∧ u.power.strapV1 = s.power.strapV1 ∧ u.reel.cnt = s.reel.cnt ∧
      u.power.untrusted = s.power.untrusted ∧ u.power.wakeFails = s.power.wakeFails ∧ u.gdl.locked = s.gdl.locked ∧
      (∀ g : Fin 16, u.gdl.chans[g].bound = s.gdl.chans[g].bound)) ∧
    (warm = false → OneToOne u ∧ u.bindLock = false ∧ u.shareLock = false ∧ (∀ t : Tenant, u.tens[t].share = 25) ∧
      u.reel.cnt = 0 ∧ u.power.untrusted = false ∧ u.power.wakeFails = 0 ∧ u.gdl.locked = false ∧
      (∀ g : Fin 16, u.gdl.chans[g].bound = none)) ∧
    (∀ t : Tenant, u.tens[t].cmdQ = [] ∧ u.tens[t].exec = none ∧ u.tens[t].outQ = [] ∧ u.power.votes[t] = false ∧
      u.ctxs[t].run = .idle ∧ u.ctxs[t].codeLen = 0 ∧ u.store.areas[t] = s.store.areas[t]) ∧
    (∀ g : Fin 16, u.gdl.chans[g].msg = none ∧ u.gdl.chans[g].coll = false ∧ u.gdl.chans[g].ccnt = 0) ∧
    (∀ i : Fin 8, u.gdl.sems[i].holder = none) ∧ u.link.nbrs = [] ∧ u.ldg.cur = none ∧ u.ldg.held = s.ldg.held

/-- An opcode that no entry assigns gets ST_BAD_OPCODE, without results, and nothing else comes about (R176). -/
def Obligations.UnassignedOpcodeRefused : Prop :=
  ∀ (c : Cmd) (op : BitVec 16) (s u : State), Taken op c s u → op.toNat ∉ assignedOpcodes →
    exec (.unassignedOpcode c op) s = .next (reply c.t 0x03 [] u)

/-- A command whose argument length is not the one that its entry's layout gives, by its own count fields, is answered
ST_BAD_ARG, and nothing else comes about (R175). -/
def Obligations.WrongLengthRefused : Prop :=
  ∀ (i : Instr) (op : BitVec 16) (c : Cmd) (s u : State), cmdOf i = some (op, c) → Taken op c s u →
    c.args.length ≠ argLen op c.args → exec i s = .next (reply c.t 0x04 [] u)

/-- A provisioning act of R20 by another tenant than T0 is answered ST_DENIED, and nothing else comes about (R145):
TEN.BIND, TEN.LOCK, TEN.SHARE, MBX.LOCK, NVM.BALLAST, MEND.WINDOW, KEY.TAMPER, LEDGER.OWNER and SYS.RESET. -/
def Obligations.ProvisioningDenied : Prop :=
  ∀ (i : Instr) (op : BitVec 16) (c : Cmd) (s u : State), cmdOf i = some (op, c) → Taken op c s u →
    op ∈ ([0x0102, 0x0300, 0x0301, 0x0302, 0x4010, 0x5001, 0x7002, 0x7401, 0x8801] : List (BitVec 16)) → c.t ≠ 0 →
    c.args.length = argLen op c.args → exec i s = .next (reply c.t 0x05 [] u)

/-- In LIMP a command that needs a radio is answered ST_LIMP, and nothing else comes about (R85, R178), where its arguments
are in range: the RDR, TAG, SEC, LNK and MEAS commands that carry a dagger. -/
def Obligations.RadioCommandsInLimp : Prop :=
  ∀ (c : Cmd) (s u : State), inLimp u = true →
    let limp : Host.Outcome State Fault Refusal := .next (reply c.t 0x1A [] u)
    (∀ a p, Taken 0x1000 c s u → invArgsOf c.args = some (a, p) → exec (.rdrInventory c) s = limp) ∧
    (Taken 0x1003 c s u → c.args.length = 6 → (fld c.args 0 2 = 0 ∨ (50 ≤ fld c.args 0 2 ∧ fld c.args 0 2 ≤ 2000)) →
      fld c.args 2 1 ≤ 3 → fld c.args 5 1 ≤ 1 → exec (.rdrSniff c) s = limp) ∧
    (∀ b, Taken 0x1004 c s u → c.args.length = 1 → fld c.args 0 1 ≤ 3 → exec (.rdrBaseline c b) s = limp) ∧
    (Taken 0x1010 c s u → c.args.length = 17 → fld c.args 0 1 ≤ 7 → exec (.rdrRunSpool c) s = limp) ∧
    (Taken 0x1100 c s u → c.args.length = 3 + 2 * fld c.args 2 1 → 2 ≤ fld c.args 2 1 → fld c.args 2 1 ≤ 8 →
      fld c.args 1 1 ≤ 7 → exec (.tagEnable c) s = limp) ∧
    (Taken 0x1200 c s u → c.args.length = 4 + 2 * fld c.args 3 1 → fld c.args 2 1 ≤ 3 → 1 ≤ fld c.args 3 1 →
      fld c.args 3 1 ≤ 31 → exec (.secTam1 c) s = limp) ∧
    (Taken 0x1201 c s u → c.args.length = 3 + 2 * fld c.args 2 1 → fld c.args 1 1 ≤ 3 → 1 ≤ fld c.args 2 1 →
      fld c.args 2 1 ≤ 31 → exec (.secFarzOpen c) s = limp) ∧
    (Taken 0x1202 c s u → c.args.length = 3 + fld c.args 1 2 → 1 ≤ fld c.args 1 2 → fld c.args 1 2 ≤ 256 →
      exec (.secFarzSend c) s = limp) ∧
    (Taken 0x1002 c s u → 1 ≤ fld c.args 10 1 → fld c.args 10 1 ≤ 31 → fld c.args 1 1 ≤ 3 → fld c.args 6 1 ≤ 3 →
      ((fld c.args 0 1 = 0 ∧ 1 ≤ fld c.args 9 1 ∧ fld c.args 9 1 ≤ 32 ∧ c.args.length = 11 + 2 * fld c.args 10 1) ∨
       (fld c.args 0 1 = 1 ∧ 1 ≤ fld c.args 9 1 ∧ fld c.args 9 1 ≤ 32 ∧
         c.args.length = 11 + 2 * fld c.args 10 1 + 2 * fld c.args 9 1) ∨
       (fld c.args 0 1 = 2 ∧ fld c.args 9 1 ≤ 15 ∧ c.args.length = 11 + 2 * fld c.args 10 1)) →
      exec (.rdrAccess c) s = limp) ∧
    (Taken 0x2001 c s u → c.args.length = 15 + fld c.args 13 2 → fld c.args 0 2 ≠ 0xFFFE → fld c.args 2 1 ≤ 3 →
      (fld c.args 3 1 ≤ 4 ∨ (fld c.args 3 1 = 128 ∧ fld c.args 2 1 = 0)) → (fld c.args 4 1 ≤ 47 ∨ fld c.args 4 1 = 0xFF) →
      -40 ≤ sByte (fld c.args 5 1) → sByte (fld c.args 5 1) ≤ 28 → fld c.args 6 1 ≤ 1 →
      fld c.args 13 2 ≤ payloadMax (fld c.args 3 1 == 128) (fld c.args 4 1 != 0xFF) → exec (.lnkSend c) s = limp) ∧
    (Taken 0x2002 c s u → c.args.length = 2 → exec (.lnkListen c) s = limp) ∧
    (Taken 0x2010 c s u → c.args.length = 17 → fld c.args 0 1 ≤ 7 → exec (.lnkRunSpool c) s = limp) ∧
    (Taken 0x8001 c s u → c.args.length = 2 → fld c.args 0 1 ≤ 5 → fld c.args 1 1 ≤ 1 → exec (.measSweep c) s = limp)

/-- A tenant's event queue (R161 to R163): with 63 events waiting the next one is dropped and counted, the first drop queues
EV_EVENT_LOST in the reserved entry, no queue grows past 64 events, and every event takes a SEQ. -/
def Obligations.EventQueueRules : Prop :=
  ∀ (now : Tick) (code : BitVec 16) (data : Bytes) (q : TenantSt),
    let v := pushEvent now code data q
    ((q.outQ.filter Out.isOrdinary).length < 63 → v.outQ = q.outQ ++ [.evt q.evSeq code now data] ∧ v.evSeq = q.evSeq + 1 ∧
      v.evLost = q.evLost) ∧
    (63 ≤ (q.outQ.filter Out.isOrdinary).length → v.evLost = satInc 0xFFFF q.evLost ∧
      (q.outQ.filter Out.isOrdinary) = (v.outQ.filter Out.isOrdinary) ∧
      (q.outQ.any Out.isLost = true → v.outQ = q.outQ ∧ v.evSeq = q.evSeq + 1) ∧
      (q.outQ.any Out.isLost = false → v.outQ = q.outQ ++ [.lost (q.evSeq + 1) now] ∧ v.lostRun = 1)) ∧
    ((q.outQ.filter Out.isEvent).length ≤ 64 → (q.outQ.filter Out.isOrdinary).length ≤ 63 →
      (q.outQ.filter Out.isLost).length ≤ 1 →
      (v.outQ.filter Out.isOrdinary).length ≤ 63 ∧ (v.outQ.filter Out.isLost).length ≤ 1 ∧
      (v.outQ.filter Out.isEvent).length ≤ 64) ∧
    (v.outQ.filter fun o => !o.isEvent) = (q.outQ.filter fun o => !o.isEvent)

/-- Decoding the word of a Spool row gives the row back, with every operand that its encoding admits (Tables 8-2, 8-4 to
8-8). -/
def Obligations.SpoolWordsRoundTrip : Prop :=
  ∀ (i : Instr) (x : Tenant) (w : BitVec 32), spoolWord i = some (x, w) → spoolFormOk i = true → spoolDecode x w = i

/-- Every word spells a row: an assigned one its instruction, whose word it is, an unassigned one the illegal row, which
faults with code 1 (R225, R226). Only the row that the word at the PC spells acts on a running context: an instruction row
with another word leaves the part as it is (R225). The words of the spec's own programs decode to the instructions that it
writes beside them (8.11, Table 8-9). -/
def Obligations.SpoolDecodeTotal : Prop :=
  (∀ (x : Tenant) (w : BitVec 32),
    spoolWord (spoolDecode x w) = some (x, w) ∧ (spoolLegal w = false ↔ spoolDecode x w = .spIllegal x w) ∧
    (∀ s : State, spoolLegal w = false → AtWord x w s → exec (spoolDecode x w) s = .next (spoolFault x 1 (issueMoment x s)))) ∧
  (∀ (i : Instr) (x : Tenant) (w v : BitVec 32) (s : State), AtWord x w s → spoolWord i = some (x, v) → v ≠ w → exec i s = .next s) ∧
  (∀ x : Tenant,
    spoolDecode x 0xD9400000 = .spBufAlloc x 5 ∧ spoolDecode x 0x40C0000F = .spJ x 3 15 ∧
    spoolDecode x 0xD21C0000 = .spLd x 8 7 0 ∧ spoolDecode x 0xDA158003 = .spBufWrw x 8 5 6 ∧
    spoolDecode x 0x29980004 = .spAddi x 6 6 4 ∧ spoolDecode x 0x381C0005 = .spCmpi x 7 5 ∧
    spoolDecode x 0xD8158005 = .spBufSetlen x 0 5 6 ∧ spoolDecode x 0xB28C1000 = .spLch x 10 3 true false ∧
    spoolDecode x 0x6004BE4D = .spWaitt x 0 1 2 0x3E4D ∧ spoolDecode x 0xB7542202 = .spLtx x 13 5 2 false false true true ∧
    spoolDecode x 0x00740000 = .spAdd x 1 13 0 ∧ spoolDecode x 0xFC000001 = .spHalt x 0 0 0 ∧
    spoolDecode x 0x2843FFFF = .spAddi x 1 0 (-1))
end

