-- ==== Sys2Proof/Laws/Clock.lean ====
section
/-!
SUPPORT. What letting time pass leaves alone: the arbiter, the link's timed sends and the commit point of a slot may come about as
Reel advances, and none of it touches power, keys, the store, the ledger, Gondola, the check value units or the register copies.
-/
namespace Sys2Proof.Machine
set_option linter.all false

/-- The part of the state that no passing of time changes by itself. -/
def stillPart (s : State) : (List Instr) × PowerSt × (Vector (Fin 4) 4) × Bool × Bool ×
    (BitVec 9) × (List (BitVec 9 × BitVec 16)) × (Vector Profile 4) × V1St × (Vector Buf 32) ×
    (Fin 6) × (Tick × List (Fin 6 × Bool)) × LanternSt × BridleSt × GondolaSt ×
    (Vector CvuPar 4) × Nat × Nat × StoreSt × LedgerSt ×
    EpochSt × (BitVec 64) × Tenant × TapSt :=
  (s.pending, s.power, s.binding, s.bindLock, s.shareLock, s.div, s.divNew, s.prof, s.v1, s.bufs, s.bufPtr, s.bufRound, s.tag, s.bri, s.gdl, s.cvu, s.cvuLink, s.cvuRdr, s.store, s.ldg, s.epoch, s.serial, s.turn, s.tap)

theorem ite_still {c : Prop} [Decidable c] {a b s : State} (ha : stillPart a = stillPart s) (hb : stillPart b = stillPart s) :
    stillPart (if c then a else b) = stillPart s := by split <;> assumption

theorem foldl_still {α : Type} (f : State → α → State) (l : List α) (s : State)
    (h : ∀ s a, stillPart (f s a) = stillPart s) : stillPart (l.foldl f s) = stillPart s := by
  induction l generalizing s with
  | nil => rfl
  | cons a l ih => simp [ih, h]

theorem forTenants_still (f : Tenant → State → State) (s : State) (h : ∀ t s, stillPart (f t s) = stillPart s) :
    stillPart (forTenants f s) = stillPart s := by unfold forTenants; simp only [h]

@[simp] theorem modTen_still (t : Tenant) (f : TenantSt → TenantSt) (s : State) : stillPart (modTen t f s) = stillPart s := by
  (unfold modTen; (repeat' ((try dsimp only); split)) <;> ((try dsimp only) <;> first | (simp; done) | grind [] | rfl))

@[simp] theorem modCtx_still (x : Tenant) (f : Ctx → Ctx) (s : State) : stillPart (modCtx x f s) = stillPart s := by
  (unfold modCtx; (repeat' ((try dsimp only); split)) <;> ((try dsimp only) <;> first | (simp; done) | grind [] | rfl))

@[simp] theorem modSess_still (t : Tenant) (f : SecSess → SecSess) (s : State) : stillPart (modSess t f s) = stillPart s := by
  (unfold modSess; (repeat' ((try dsimp only); split)) <;> ((try dsimp only) <;> first | (simp; done) | grind [] | rfl))

@[simp] theorem takeProfile_still (t : Tenant) (s : State) : stillPart (takeProfile t s) = stillPart s := by
  (unfold takeProfile; (repeat' ((try dsimp only); split)) <;> ((try dsimp only) <;> first | (simp; done) | grind [] | rfl))

@[simp] theorem takeHalf_still (c : CoreId) (t : Tenant) (s : State) : stillPart (takeHalf c t s) = stillPart s := by
  (unfold takeHalf; (repeat' ((try dsimp only); split)) <;> ((try dsimp only) <;> first | (simp; done) | grind [] | rfl))

@[simp] theorem setRadio_still (f : RadioSt → RadioSt) (s : State) : stillPart (setRadio f s) = stillPart s := by
  (unfold setRadio; (repeat' ((try dsimp only); split)) <;> ((try dsimp only) <;> first | (simp; done) | grind [] | rfl))

@[simp] theorem setRdr_still (f : ReaderSt → ReaderSt) (s : State) : stillPart (setRdr f s) = stillPart s := by
  (unfold setRdr; (repeat' ((try dsimp only); split)) <;> ((try dsimp only) <;> first | (simp; done) | grind [] | rfl))

@[simp] theorem setLink_still (f : LinkSt → LinkSt) (s : State) : stillPart (setLink f s) = stillPart s := by
  (unfold setLink; (repeat' ((try dsimp only); split)) <;> ((try dsimp only) <;> first | (simp; done) | grind [] | rfl))

@[simp] theorem setSvy_still (f : SurveySt → SurveySt) (s : State) : stillPart (setSvy f s) = stillPart s := by
  (unfold setSvy; (repeat' ((try dsimp only); split)) <;> ((try dsimp only) <;> first | (simp; done) | grind [] | rfl))

@[simp] theorem setMend_still (f : MendSt → MendSt) (s : State) : stillPart (setMend f s) = stillPart s := by
  (unfold setMend; (repeat' ((try dsimp only); split)) <;> ((try dsimp only) <;> first | (simp; done) | grind [] | rfl))

@[simp] theorem setInv_still (x : Tenant) (i : Option Inv) (s : State) : stillPart (setInv x i s) = stillPart s := by
  (unfold setInv; (repeat' ((try dsimp only); split)) <;> ((try dsimp only) <;> first | (simp; done) | grind [] | rfl))

@[simp] theorem setAcc_still (x : Tenant) (a : Option Acc) (s : State) : stillPart (setAcc x a s) = stillPart s := by
  (unfold setAcc; (repeat' ((try dsimp only); split)) <;> ((try dsimp only) <;> first | (simp; done) | grind [] | rfl))

@[simp] theorem drawNat_still (s : State) : stillPart (drawNat s).2 = stillPart s := by
  (unfold drawNat; (repeat' ((try dsimp only); split)) <;> ((try dsimp only) <;> first | (simp; done) | grind [] | rfl))

@[simp] theorem drawBool_still (s : State) : stillPart (drawBool s).2 = stillPart s := by
  (unfold drawBool; (repeat' ((try dsimp only); split)) <;> ((try dsimp only) <;> first | (simp; done) | grind [] | rfl))

@[simp] theorem countQuery_still (s : State) : stillPart (countQuery s) = stillPart s := by
  grind [countQuery, setRdr_still, setSvy_still]

@[simp] theorem ownRoundEnd_still (s : State) : stillPart (ownRoundEnd s) = stillPart s := by
  grind [ownRoundEnd, setRdr_still]

@[simp] theorem readerAsSlot_still (s : State) : stillPart (readerAsSlot s) = stillPart s := by
  (unfold readerAsSlot; simp; done)

@[simp] theorem raise_still (t : Tenant) (code : BitVec 16) (data : Bytes) (s : State) : stillPart (raise t code data s) = stillPart s := by
  grind [raise, modTen_still]

@[simp] theorem reply_still (t : Tenant) (status : Byte) (results : Bytes) (s : State) : stillPart (reply t status results s) = stillPart s := by
  grind [reply, modTen_still]

@[simp] theorem setHold_still (c : CoreId) (h : Option Hold) (s : State) : stillPart (setHold c h s) = stillPart s := by
  (unfold setHold; (repeat' ((try dsimp only); split)) <;> ((try dsimp only) <;> first | (simp only [setRadio_still]; done) | (simp only [setRadio_still]; rfl) | (simp; done) | grind [setRadio_still] | rfl))

@[simp] theorem searchAgain_still (s : State) : stillPart (searchAgain s) = stillPart s := by
  grind [searchAgain, setLink_still, setRadio_still]

@[simp] theorem setCore_still (c : CoreId) (x : CoreSt) (s : State) : stillPart (setCore c x s) = stillPart s := by
  (unfold setCore; (repeat' ((try dsimp only); split)) <;> ((try dsimp only) <;> first | (simp only [searchAgain_still, setLink_still, setRadio_still, setRdr_still]; done) | (simp only [searchAgain_still, setLink_still, setRadio_still, setRdr_still]; rfl) | (simp; done) | grind [searchAgain_still, setLink_still, setRadio_still, setRdr_still] | rfl))

@[simp] theorem setCoreAt_still (c : CoreId) (t : Tick) (x : CoreSt) (s : State) : stillPart (setCoreAt c t x s) = stillPart s := by
  (unfold setCoreAt; (repeat' ((try dsimp only); split)) <;> ((try dsimp only) <;> first | (simp only [setRadio_still]; done) | (simp only [setRadio_still]; rfl) | (simp; done) | grind [setRadio_still] | rfl))

@[simp] theorem coexTrack_still (s : State) : stillPart (coexTrack s) = stillPart s := by
  grind [coexTrack, setRadio_still]

@[simp] theorem chargeTenant_still (t : Tenant) (from_ : Tick) (s : State) : stillPart (chargeTenant t from_ s) = stillPart s := by
  grind [chargeTenant, setRadio_still]

@[simp] theorem chargeListen_still (h : Hold) (t : Tenant) (s : State) : stillPart (chargeListen h t s) = stillPart s := by
  grind [chargeListen, chargeTenant_still]

@[simp] theorem charge_still (h : Hold) (s : State) : stillPart (charge h s) = stillPart s := by
  grind [charge, chargeListen_still, chargeTenant_still, forTenants_still]

@[simp] theorem carrierOff_still (now : Tick) (s : State) : stillPart (carrierOff now s) = stillPart s := by
  grind [carrierOff, setCore_still, setRdr_still]

@[simp] theorem leaveChannel_still (now : Tick) (s : State) : stillPart (leaveChannel now s) = stillPart s := by
  grind [leaveChannel, setRdr_still]

@[simp] theorem linkRampDown_still (s : State) : stillPart (linkRampDown s).2 = stillPart s := by
  grind [linkRampDown, drawNat_still]

@[simp] theorem trswSpan_still (a b : Tick) (s : State) : stillPart (trswSpan a b s) = stillPart s := by
  grind [trswSpan, linkRampDown_still, setLink_still]

@[simp] theorem trswEnd_still (s : State) : stillPart (trswEnd s) = stillPart s := by
  grind [trswEnd, linkRampDown_still, setLink_still]

@[simp] theorem aerialFor_still (r : AirReq) (s : State) : stillPart (aerialFor r s) = stillPart s := by
  grind [aerialFor, setRdr_still]

@[simp] theorem aerialRestore_still (s : State) : stillPart (aerialRestore s) = stillPart s := by
  (unfold aerialRestore; simp; done)

@[simp] theorem coreDown_still (c : CoreId) (s : State) : stillPart (coreDown c s) = stillPart s := by
  (unfold coreDown; (repeat' ((try dsimp only); split)) <;> ((try dsimp only) <;> first | (simp only [aerialRestore_still, carrierOff_still, leaveChannel_still, ownRoundEnd_still, setCore_still, setRadio_still, setRdr_still, trswEnd_still]; done) | (simp only [aerialRestore_still, carrierOff_still, leaveChannel_still, ownRoundEnd_still, setCore_still, setRadio_still, setRdr_still, trswEnd_still]; rfl) | (simp; done) | grind [aerialRestore_still, carrierOff_still, leaveChannel_still, ownRoundEnd_still, setCore_still, setRadio_still, setRdr_still, trswEnd_still] | rfl))

@[simp] theorem releaseAir_still (c : CoreId) (s : State) : stillPart (releaseAir c s) = stillPart s := by
  grind [releaseAir, charge_still, coexTrack_still, coreDown_still, setHold_still]

@[simp] theorem dropWaiters_still (w : Who) (s : State) : stillPart (dropWaiters w s) = stillPart s := by
  grind [dropWaiters, coexTrack_still, setRadio_still]

@[simp] theorem evSessionClosed_still (t : Tenant) (tseq : BitVec 16) (sid : Byte) (reason : Nat) (s : State) : stillPart (evSessionClosed t tseq sid reason s) = stillPart s := by
  (unfold evSessionClosed; simp; done)

@[simp] theorem sessionGone_still (t : Tenant) (reason : Nat) (s : State) : stillPart (sessionGone t reason s) = stillPart s := by
  grind [sessionGone, evSessionClosed_still, modSess_still]

@[simp] theorem builtinWaits_still (t : Tenant) (s : State) : stillPart (builtinWaits t s) = stillPart s := by
  grind [builtinWaits, modCtx_still, setAcc_still, setInv_still]

@[simp] theorem ctxLost_still (t : Tenant) (c : CoreId) (s : State) : stillPart (ctxLost t c s) = stillPart s := by
  grind [ctxLost, modCtx_still, setRadio_still]

@[simp] theorem afterLoss_still (h : Hold) (s : State) : stillPart (afterLoss h s) = stillPart s := by
  grind [afterLoss, builtinWaits_still, ctxLost_still, sessionGone_still, setLink_still, setRadio_still]

@[simp] theorem loseAir_still (c : CoreId) (s : State) : stillPart (loseAir c s) = stillPart s := by
  grind [loseAir, afterLoss_still, charge_still, coexTrack_still, coreDown_still, setHold_still]

@[simp] theorem preemptFor_still (r : AirReq) (c : CoreId) (s : State) : stillPart (preemptFor r c s) = stillPart s := by
  grind [preemptFor, loseAir_still]

@[simp] theorem sendBegins_still (p : Send → Bool) (now : Tick) (s : State) : stillPart (sendBegins p now s) = stillPart s := by
  (unfold sendBegins; simp; done)

@[simp] theorem deepRan_still (c : CoreId) (temp : Int) (s : State) : stillPart (deepRan c temp s) = stillPart s := by
  grind [deepRan, setRadio_still]

@[simp] theorem deepAtChange_still (c : CoreId) (session : Bool) (s : State) : stillPart (deepAtChange c session s) = stillPart s := by
  grind [deepAtChange, deepRan_still, setRadio_still]

@[simp] theorem calEnd_still (c : CoreId) (cal : Cal) (s : State) : stillPart (calEnd c cal s) = stillPart s := by
  (unfold calEnd; (repeat' ((try dsimp only); split)) <;> ((try dsimp only) <;> first | (simp only [releaseAir_still, setMend_still, setRadio_still]; done) | (simp only [releaseAir_still, setMend_still, setRadio_still]; rfl) | (simp; done) | grind [releaseAir_still, setMend_still, setRadio_still] | rfl))

@[simp] theorem calResult_still (c : CoreId) (s : State) : stillPart (calResult c s).2 = stillPart s := by
  (unfold calResult; (repeat' ((try dsimp only); split)) <;> ((try dsimp only) <;> first | (simp only [calEnd_still, drawBool_still, setRadio_still]; done) | (simp only [calEnd_still, drawBool_still, setRadio_still]; rfl) | (simp; done) | grind [calEnd_still, drawBool_still, setRadio_still] | rfl))

@[simp] theorem coreGoes_still (c : CoreId) (now : Tick) (x : CoreSt) (s : State) : stillPart (coreGoes c now x s) = stillPart s := by
  grind [coreGoes, drawNat_still, searchAgain_still, setCoreAt_still]

@[simp] theorem coreTune_still (r : AirReq) (now : Tick) (s : State) : stillPart (coreTune r now s) = stillPart s := by
  grind [coreTune, coreGoes_still, deepAtChange_still, setCore_still, setRadio_still]

@[simp] theorem coreFreq_still (r : AirReq) (s : State) : stillPart (coreFreq r s) = stillPart s := by
  (unfold coreFreq; cases r.who <;> cases r.core <;> first | rfl | exact setRadio_still _ _)

@[simp] theorem compApply_still (ext : Bool) (s : State) : stillPart (compApply ext s) = stillPart s := by
  (unfold compApply; simp; done)

@[simp] theorem linkCompApply_still (s : State) : stillPart (linkCompApply s) = stillPart s := by
  (unfold linkCompApply; simp; done)

@[simp] theorem paUp_still (p : Profile) (at_ : Tick) (s : State) : stillPart (paUp p at_ s) = stillPart s := by
  grind [paUp, setRdr_still]

@[simp] theorem burstDrive_still (p : Profile) (at_ : Tick) (s : State) : stillPart (burstDrive p at_ s) = stillPart s := by
  grind [burstDrive, paUp_still, setRdr_still]

@[simp] theorem pointDrive_still (c : CoreId) (s : State) : stillPart (pointDrive c s) = stillPart s := by
  (unfold pointDrive; (repeat' ((try dsimp only); split)) <;> ((try dsimp only) <;> first | (simp only [drawNat_still, setRdr_still]; done) | (simp only [drawNat_still, setRdr_still]; rfl) | (simp; done) | grind [drawNat_still, setRdr_still] | rfl))

@[simp] theorem ctxGranted_still (t : Tenant) (now : Tick) (s : State) : stillPart (ctxGranted t now s) = stillPart s := by
  grind [ctxGranted, compApply_still, linkCompApply_still, modCtx_still, setCore_still, setHold_still, setLink_still, trswSpan_still]

@[simp] theorem accGranted_still (t : Tenant) (s : State) : stillPart (accGranted t s) = stillPart s := by
  grind [accGranted, readerAsSlot_still]

@[simp] theorem builtinGranted_still (t : Tenant) (now : Tick) (s : State) : stillPart (builtinGranted t now s) = stillPart s := by
  grind [builtinGranted, accGranted_still, setInv_still, takeProfile_still]

@[simp] theorem onGrant_still (r : AirReq) (now : Tick) (s : State) : stillPart (onGrant r now s) = stillPart s := by
  unfold onGrant
  cases r.who
  case ctx t =>
    exact ite_still (by simp only [builtinGranted_still, ctxGranted_still]) (by simp only [ctxGranted_still, takeHalf_still])
  all_goals first
    | rfl
    | simp only [sendBegins_still, takeProfile_still, takeHalf_still, setLink_still, pointDrive_still, setSvy_still,
        burstDrive_still, setRdr_still]

@[simp] theorem sweepSkip_still (s : State) : stillPart (sweepSkip s) = stillPart s := by
  grind [sweepSkip, setRadio_still, setSvy_still]

@[simp] theorem grantAir_still (r : AirReq) (now : Tick) (s : State) : stillPart (grantAir r now s) = stillPart s := by
  grind [grantAir, aerialFor_still, coexTrack_still, coreFreq_still, coreTune_still, onGrant_still, preemptFor_still, setHold_still, setRadio_still, sweepSkip_still]

@[simp] theorem requestAir_still (r : AirReq) (s : State) : stillPart (requestAir r s) = stillPart s := by
  grind [requestAir, coexTrack_still, grantAir_still, setRadio_still]

@[simp] theorem setCommit_still (c : CoreId) (t : Option Tick) (s : State) : stillPart (setCommit c t s) = stillPart s := by
  grind [setCommit, setHold_still]

@[simp] theorem transmit_still (e : Send) (first : Tick) (s : State) : stillPart (transmit e first s) = stillPart s := by
  grind [transmit, linkCompApply_still, setCommit_still, setCore_still, setLink_still, trswSpan_still]

@[simp] theorem sendMissed_still (e : Send) (s : State) : stillPart (sendMissed e s) = stillPart s := by
  grind [sendMissed, dropWaiters_still, releaseAir_still, setLink_still]

@[simp] theorem sendGo_still (e : Send) (s : State) : stillPart (sendGo e s) = stillPart s := by
  grind [sendGo, calResult_still, sendMissed_still, transmit_still]

@[simp] theorem openSlot_still (o : Opening) (s : State) : stillPart (openSlot o s) = stillPart s := by
  grind [openSlot, countQuery_still, ownRoundEnd_still, readerAsSlot_still, reply_still, setInv_still, setRdr_still]

@[simp] theorem openDue_still (s : State) : stillPart (openDue s) = stillPart s := by
  grind [openDue, openSlot_still, setRdr_still]

@[simp] theorem clockTo_still (now : Tick) (s : State) : stillPart (clockTo now s) = stillPart s := by
  (unfold clockTo; (repeat' ((try dsimp only); split)) <;> ((try dsimp only) <;> first | (simp; done) | grind [] | rfl))

@[simp] theorem runTo_still (now : Tick) (y0 : Nat) (s : State) : stillPart (runTo now y0 s) = stillPart s := by
  induction y0 generalizing s with
  | zero => unfold runTo; simp
  | succ n ih =>
    unfold runTo
    split
    · split
      · rw [ih]; split <;> simp
      · simp
    · simp

@[simp] theorem advanceTo_still (now : Tick) (s : State) : stillPart (advanceTo now s) = stillPart s := by
  grind [advanceTo, runTo_still]

@[simp] theorem advanceTo_pending (now : Tick) (s : State) : (advanceTo now s).pending = s.pending := by
  have h := advanceTo_still now s; simp only [stillPart, Prod.mk.injEq] at h; simp only [h]
@[simp] theorem advanceTo_power (now : Tick) (s : State) : (advanceTo now s).power = s.power := by
  have h := advanceTo_still now s; simp only [stillPart, Prod.mk.injEq] at h; simp only [h]
@[simp] theorem advanceTo_binding (now : Tick) (s : State) : (advanceTo now s).binding = s.binding := by
  have h := advanceTo_still now s; simp only [stillPart, Prod.mk.injEq] at h; simp only [h]
@[simp] theorem advanceTo_bindLock (now : Tick) (s : State) : (advanceTo now s).bindLock = s.bindLock := by
  have h := advanceTo_still now s; simp only [stillPart, Prod.mk.injEq] at h; simp only [h]
@[simp] theorem advanceTo_shareLock (now : Tick) (s : State) : (advanceTo now s).shareLock = s.shareLock := by
  have h := advanceTo_still now s; simp only [stillPart, Prod.mk.injEq] at h; simp only [h]
@[simp] theorem advanceTo_div (now : Tick) (s : State) : (advanceTo now s).div = s.div := by
  have h := advanceTo_still now s; simp only [stillPart, Prod.mk.injEq] at h; simp only [h]
@[simp] theorem advanceTo_divNew (now : Tick) (s : State) : (advanceTo now s).divNew = s.divNew := by
  have h := advanceTo_still now s; simp only [stillPart, Prod.mk.injEq] at h; simp only [h]
@[simp] theorem advanceTo_prof (now : Tick) (s : State) : (advanceTo now s).prof = s.prof := by
  have h := advanceTo_still now s; simp only [stillPart, Prod.mk.injEq] at h; simp only [h]
@[simp] theorem advanceTo_v1 (now : Tick) (s : State) : (advanceTo now s).v1 = s.v1 := by
  have h := advanceTo_still now s; simp only [stillPart, Prod.mk.injEq] at h; simp only [h]
@[simp] theorem advanceTo_bufs (now : Tick) (s : State) : (advanceTo now s).bufs = s.bufs := by
  have h := advanceTo_still now s; simp only [stillPart, Prod.mk.injEq] at h; simp only [h]
@[simp] theorem advanceTo_bufPtr (now : Tick) (s : State) : (advanceTo now s).bufPtr = s.bufPtr := by
  have h := advanceTo_still now s; simp only [stillPart, Prod.mk.injEq] at h; simp only [h]
@[simp] theorem advanceTo_bufRound (now : Tick) (s : State) : (advanceTo now s).bufRound = s.bufRound := by
  have h := advanceTo_still now s; simp only [stillPart, Prod.mk.injEq] at h; simp only [h]
@[simp] theorem advanceTo_tag (now : Tick) (s : State) : (advanceTo now s).tag = s.tag := by
  have h := advanceTo_still now s; simp only [stillPart, Prod.mk.injEq] at h; simp only [h]
@[simp] theorem advanceTo_bri (now : Tick) (s : State) : (advanceTo now s).bri = s.bri := by
  have h := advanceTo_still now s; simp only [stillPart, Prod.mk.injEq] at h; simp only [h]
@[simp] theorem advanceTo_gdl (now : Tick) (s : State) : (advanceTo now s).gdl = s.gdl := by
  have h := advanceTo_still now s; simp only [stillPart, Prod.mk.injEq] at h; simp only [h]
@[simp] theorem advanceTo_cvu (now : Tick) (s : State) : (advanceTo now s).cvu = s.cvu := by
  have h := advanceTo_still now s; simp only [stillPart, Prod.mk.injEq] at h; simp only [h]
@[simp] theorem advanceTo_cvuLink (now : Tick) (s : State) : (advanceTo now s).cvuLink = s.cvuLink := by
  have h := advanceTo_still now s; simp only [stillPart, Prod.mk.injEq] at h; simp only [h]
@[simp] theorem advanceTo_cvuRdr (now : Tick) (s : State) : (advanceTo now s).cvuRdr = s.cvuRdr := by
  have h := advanceTo_still now s; simp only [stillPart, Prod.mk.injEq] at h; simp only [h]
@[simp] theorem advanceTo_store (now : Tick) (s : State) : (advanceTo now s).store = s.store := by
  have h := advanceTo_still now s; simp only [stillPart, Prod.mk.injEq] at h; simp only [h]
@[simp] theorem advanceTo_ldg (now : Tick) (s : State) : (advanceTo now s).ldg = s.ldg := by
  have h := advanceTo_still now s; simp only [stillPart, Prod.mk.injEq] at h; simp only [h]
@[simp] theorem advanceTo_epoch (now : Tick) (s : State) : (advanceTo now s).epoch = s.epoch := by
  have h := advanceTo_still now s; simp only [stillPart, Prod.mk.injEq] at h; simp only [h]
@[simp] theorem advanceTo_serial (now : Tick) (s : State) : (advanceTo now s).serial = s.serial := by
  have h := advanceTo_still now s; simp only [stillPart, Prod.mk.injEq] at h; simp only [h]
@[simp] theorem advanceTo_turn (now : Tick) (s : State) : (advanceTo now s).turn = s.turn := by
  have h := advanceTo_still now s; simp only [stillPart, Prod.mk.injEq] at h; simp only [h]
@[simp] theorem advanceTo_tap (now : Tick) (s : State) : (advanceTo now s).tap = s.tap := by
  have h := advanceTo_still now s; simp only [stillPart, Prod.mk.injEq] at h; simp only [h]

end Sys2Proof.Machine
end

