-- ==== Sys2Proof/Laws/Memory.lean ====
section
/-!
SUPPORT. Sparse memory: what a write leaves at each address, and that every operation keeps the canonical form.
-/
namespace Sys2Proof.Machine

theorem memGet_below : ∀ (m : Memory) (l a : Nat), memWfFrom (some l) m = true → a ≤ l → memGet m a = 0
  | [], _, _, _, _ => rfl
  | (k, v) :: r, l, a, h, hl => by
    simp only [memWfFrom, Bool.and_eq_true, decide_eq_true_eq] at h
    have hk : k ≠ a := by omega
    rw [memGet, if_neg hk]
    exact memGet_below r k a h.2 (by omega)

theorem memWfFrom_weaken : ∀ (m : Memory) (l j : Nat), memWfFrom (some l) m = true → j ≤ l → memWfFrom (some j) m = true
  | [], _, _, _, _ => rfl
  | (k, v) :: r, l, j, h, hj => by
    simp only [memWfFrom, Bool.and_eq_true, decide_eq_true_eq] at h ⊢
    exact ⟨⟨by omega, h.1.2⟩, h.2⟩

theorem memWfFrom_none (m : Memory) (l : Nat) (h : memWfFrom (some l) m = true) : Memory.wf m = true := by
  cases m with
  | nil => rfl
  | cons c r =>
    obtain ⟨k, v⟩ := c
    simp only [Memory.wf, memWfFrom, Bool.and_eq_true, decide_eq_true_eq] at h ⊢
    exact ⟨⟨trivial, h.1.2⟩, h.2⟩

theorem memPut_from : ∀ (m : Memory) (l a : Nat) (v : Byte), memWfFrom (some l) m = true → l < a →
    memWfFrom (some l) (memPut m a v) = true
  | [], l, a, v, _, hl => by grind [memPut, memWfFrom]
  | (k, w) :: r, l, a, v, h, hl => by
    simp only [memWfFrom, Bool.and_eq_true, decide_eq_true_eq] at h
    have ih := memPut_from r k a v h.2
    have wk := memWfFrom_weaken r k l h.2
    grind [memPut, memWfFrom]

/-- Writing a byte keeps the canonical form. -/
theorem memPut_wf (m : Memory) (a : Nat) (v : Byte) (h : Memory.wf m = true) : Memory.wf (memPut m a v) = true := by
  cases m with
  | nil => grind [memPut, Memory.wf, memWfFrom]
  | cons c r =>
    obtain ⟨k, w⟩ := c
    simp only [Memory.wf, memWfFrom, Bool.and_eq_true, decide_eq_true_eq] at h
    have ih := memPut_from r k a v h.2
    have wk := memWfFrom_none r k h.2
    grind [memPut, Memory.wf, memWfFrom]

/-- Writing a run of bytes keeps the canonical form. -/
theorem memPutAll_wf : ∀ (d : Bytes) (m : Memory) (a : Nat), Memory.wf m = true → Memory.wf (memPutAll m a d) = true
  | [], _, _, h => h
  | b :: r, m, a, h => memPutAll_wf r (memPut m a b) (a + 1) (memPut_wf m a b h)

theorem memPutWord_wf (m : Memory) (w : Nat) (v : Reg32) (h : Memory.wf m = true) : Memory.wf (memPutWord m w v) = true :=
  memPutAll_wf _ _ _ h

theorem memGet_put_from : ∀ (m : Memory) (l a b : Nat) (v : Byte), memWfFrom (some l) m = true →
    memGet (memPut m a v) b = if b = a then v else memGet m b
  | [], l, a, b, v, _ => by grind [memPut, memGet]
  | (k, w) :: r, l, a, b, v, h => by
    simp only [memWfFrom, Bool.and_eq_true, decide_eq_true_eq] at h
    have below := memGet_below r k b h.2
    have ih := memGet_put_from r k a b v h.2
    grind [memPut, memGet]

/-- A byte read after a byte is written. -/
theorem memGet_memPut (m : Memory) (a b : Nat) (v : Byte) (h : Memory.wf m = true) :
    memGet (memPut m a v) b = if b = a then v else memGet m b := by
  cases m with
  | nil => exact memGet_put_from [] 0 a b v rfl
  | cons c r =>
    obtain ⟨k, w⟩ := c
    simp only [Memory.wf, memWfFrom, Bool.and_eq_true, decide_eq_true_eq] at h
    have below := memGet_below r k b h.2
    have ih := memGet_put_from r k a b v h.2
    grind [memPut, memGet]

/-- A byte read after a run of bytes is written. -/
theorem memGet_memPutAll : ∀ (d : Bytes) (m : Memory) (a b : Nat), Memory.wf m = true →
    memGet (memPutAll m a d) b = if a ≤ b ∧ b < a + d.length then d.getD (b - a) 0 else memGet m b
  | [], m, a, b, h => by
    simp only [memPutAll, List.length_nil, Nat.add_zero]
    rw [if_neg (by omega)]
  | x :: r, m, a, b, h => by
    rw [memPutAll, memGet_memPutAll r (memPut m a x) (a + 1) b (memPut_wf m a x h), memGet_memPut m a b x h]
    by_cases h1 : b = a
    · subst h1; simp
    · by_cases h2 : a + 1 ≤ b ∧ b < a + 1 + r.length
      · rw [if_pos h2, if_pos (by simp only [List.length_cons]; omega)]
        have : b - a = (b - (a + 1)) + 1 := by omega
        rw [this, List.getD_cons_succ]
      · rw [if_neg h2, if_neg h1, if_neg (by simp only [List.length_cons]; omega)]

/-- The bytes of a number make the number again. -/
theorem leNat_leBytes : ∀ (n v : Nat), v < 256 ^ n → leNat (leBytes n v) = v
  | 0, v, h => by simp at h; subst h; rfl
  | n + 1, v, h => by
    have : v / 256 < 256 ^ n := by rw [Nat.div_lt_iff_lt_mul (by decide)]; rw [pow_succ] at h; exact h
    simp only [leBytes, leNat, leNat_leBytes n _ this, BitVec.toNat_ofNat]
    omega

theorem leBytes_length : ∀ (n v : Nat), (leBytes n v).length = n
  | 0, _ => rfl
  | n + 1, v => by simp [leBytes, leBytes_length n]

/-- The memories of the reset state are in canonical form. -/
theorem reset_memories : (∀ x : Tenant, Memory.wf State.reset.ctxs[x].data = true ∧ Memory.wf State.reset.ctxs[x].code = true) ∧
    (∀ h : Fin 32, Memory.wf State.reset.bufs[h].bytes = true) ∧ Memory.wf State.reset.tag.area = true ∧
    (∀ t : Tenant, Memory.wf State.reset.store.areas[t] = true) := by decide

end Sys2Proof.Machine
end

