-- ==== Sys2Proof/Laws/Crypto.lean ====
section
/-!
SUPPORT. Laws of the engine's arithmetic: AES decryption undoes AES encryption, and AES-KW unwrapping gives back the key that was
wrapped, so that a slot's blob reads as the value it was given (R472).
-/
namespace Sys2Proof.Machine
set_option Elab.async false

-- ------------------------------------------------------------------ the columns

theorem xtime_xor (a b : Byte) : xtime (a ^^^ b) = xtime a ^^^ xtime b := by
  unfold xtime
  rw [BitVec.msb_xor, BitVec.shiftLeft_xor_distrib]
  cases a.msb <;> cases b.msb <;> simp only [Bool.xor_false, Bool.xor_true, Bool.not_true, Bool.not_false, Bool.false_eq_true,
    if_true, if_false]
  · ac_rfl
  · ac_rfl
  · have h : ∀ x y c : Byte, x ^^^ c ^^^ (y ^^^ c) = x ^^^ y := by
      intro x y c
      rw [show x ^^^ c ^^^ (y ^^^ c) = x ^^^ y ^^^ (c ^^^ c) by ac_rfl, BitVec.xor_self, BitVec.xor_zero]
    exact (h _ _ _).symm

theorem gmul_xor (c : Nat) (a b : Byte) : gmul c (a ^^^ b) = gmul c a ^^^ gmul c b := by
  simp only [gmul, xtime_xor]
  by_cases h1 : c % 2 = 1 <;> by_cases h2 : c / 2 % 2 = 1 <;> by_cases h3 : c / 4 % 2 = 1 <;>
    by_cases h4 : c / 8 % 2 = 1 <;> simp [h1, h2, h3, h4] <;> ac_rfl

/-- A row of the inverse column matrix times a column of the matrix, the latter's entries given. -/
def gmulRow (c0 c1 c2 c3 : Nat) (b : Byte) : Byte :=
  gmul 14 (gmul c0 b) ^^^ gmul 11 (gmul c1 b) ^^^ gmul 13 (gmul c2 b) ^^^ gmul 9 (gmul c3 b)

theorem gmulRow_product : ∀ b : Byte,
    gmulRow 2 1 1 3 b = b ∧ gmulRow 3 2 1 1 b = 0 ∧ gmulRow 1 3 2 1 b = 0 ∧ gmulRow 1 1 3 2 b = 0 := by
  decide +kernel

theorem mix_column (a b c d : Byte) :
    gmul 14 (gmul 2 a ^^^ gmul 3 b ^^^ gmul 1 c ^^^ gmul 1 d) ^^^ gmul 11 (gmul 2 b ^^^ gmul 3 c ^^^ gmul 1 d ^^^ gmul 1 a) ^^^
      gmul 13 (gmul 2 c ^^^ gmul 3 d ^^^ gmul 1 a ^^^ gmul 1 b) ^^^ gmul 9 (gmul 2 d ^^^ gmul 3 a ^^^ gmul 1 b ^^^ gmul 1 c) = a := by
  have e : gmul 14 (gmul 2 a ^^^ gmul 3 b ^^^ gmul 1 c ^^^ gmul 1 d) ^^^ gmul 11 (gmul 2 b ^^^ gmul 3 c ^^^ gmul 1 d ^^^ gmul 1 a) ^^^
      gmul 13 (gmul 2 c ^^^ gmul 3 d ^^^ gmul 1 a ^^^ gmul 1 b) ^^^ gmul 9 (gmul 2 d ^^^ gmul 3 a ^^^ gmul 1 b ^^^ gmul 1 c) =
      gmulRow 2 1 1 3 a ^^^ gmulRow 3 2 1 1 b ^^^ gmulRow 1 3 2 1 c ^^^ gmulRow 1 1 3 2 d := by
    simp only [gmul_xor, gmulRow]; ac_rfl
  rw [e, (gmulRow_product a).1, (gmulRow_product b).2.1, (gmulRow_product c).2.2.1, (gmulRow_product d).2.2.2]
  simp

/-- Mixing columns by the one matrix and then by the other changes nothing. -/
theorem mix_inv (l : Bytes) (h : l.length = 16) : mixWith 14 11 13 9 (mixWith 2 3 1 1 l) = l := by
  match l, h with
  | [a, b, c, d, e, f, g, i, j, k, m, n, o, p, q, r], _ =>
    simp only [mixWith, at_, List.range, List.range.loop, List.map, Nat.reduceDiv, Nat.reduceMul, Nat.reduceAdd, Nat.reduceMod,
      List.getD_cons_zero, List.getD_cons_succ, mix_column]

-- ------------------------------------------------------------------ rows and the box

theorem shift_inv (l : Bytes) (h : l.length = 16) : invShiftRows (shiftRows l) = l := by
  match l, h with
  | [_, _, _, _, _, _, _, _, _, _, _, _, _, _, _, _], _ => rfl

theorem sbox_inv : ∀ b : Byte, invSbox (sbox b) = b := by decide +kernel

theorem xorBytes_length (a b : Bytes) (h : a.length = b.length) : (xorBytes a b).length = a.length := by
  simp [xorBytes, h]

theorem xorBytes_twice : ∀ a k : Bytes, a.length = k.length → xorBytes (xorBytes a k) k = a
  | [], [], _ => rfl
  | x :: a, y :: k, h => by
    have := xorBytes_twice a k (by simpa using h)
    simp only [xorBytes, List.zipWith_cons_cons] at this ⊢
    rw [this, BitVec.xor_assoc, BitVec.xor_self, BitVec.xor_zero]
  | [], _ :: _, h => by simp at h
  | _ :: _, [], h => by simp at h

@[simp] theorem shiftRows_length (l : Bytes) : (shiftRows l).length = 16 := by simp [shiftRows]
@[simp] theorem mixWith_length (a b c d : Nat) (l : Bytes) : (mixWith a b c d l).length = 16 := by simp [mixWith]

-- ------------------------------------------------------------------ the rounds

/-- A round of encryption. -/
def encRound (s k : Bytes) : Bytes := xorBytes (mixWith 2 3 1 1 (shiftRows (s.map sbox))) k
/-- A round of decryption. -/
def decRound (s k : Bytes) : Bytes := mixWith 14 11 13 9 (xorBytes ((invShiftRows s).map invSbox) k)

theorem unsub (s : Bytes) (h : s.length = 16) : (invShiftRows (shiftRows (s.map sbox))).map invSbox = s := by
  rw [shift_inv _ (by simpa using h)]
  simp only [List.map_map]
  rw [show invSbox ∘ sbox = id from funext sbox_inv, List.map_id]

theorem encRound_length (s k : Bytes) (h : k.length = 16) : (encRound s k).length = 16 := by
  rw [encRound, xorBytes_length _ _ (by simp [h])]; simp

theorem dec_enc_round (s k : Bytes) (hk : k.length = 16) :
    decRound (shiftRows ((encRound s k).map sbox)) k = shiftRows (s.map sbox) := by
  rw [decRound, unsub _ (encRound_length s k hk), encRound, xorBytes_twice _ _ (by simp [hk]), mix_inv _ (by simp)]

theorem rounds_inv : ∀ (ks : List Bytes) (s : Bytes), s.length = 16 → (∀ k ∈ ks, k.length = 16) →
    ks.reverse.foldl decRound (shiftRows ((ks.foldl encRound s).map sbox)) = shiftRows (s.map sbox)
  | [], s, _, _ => rfl
  | k :: ks, s, h, hk => by
    have h1 := encRound_length s k (hk k (by simp))
    rw [List.reverse_cons, List.foldl_append, List.foldl_cons (l := ks), rounds_inv ks (encRound s k) h1 (fun x hx => hk x (by simp [hx]))]
    exact dec_enc_round s k (hk k (by simp))

-- ------------------------------------------------------------------ the key schedule

theorem expandWords_words (nk : Nat) (hn : 0 < nk) : ∀ (n i : Nat) (ws : List Bytes), nk ≤ ws.length → (∀ w ∈ ws, w.length = 4) →
    (expandWords nk n i ws).length = n + ws.length ∧ ∀ w ∈ expandWords nk n i ws, w.length = 4
  | 0, _, ws, _, hw => by simpa [expandWords] using hw
  | n + 1, i, ws, hl, hw => by
    have hp : (ws.headD []).length = 4 := by
      cases ws with
      | nil => simp at hl; omega
      | cons a r => simpa using hw a (by simp)
    have hg : (ws.getD (nk - 1) []).length = 4 := by
      have : nk - 1 < ws.length := by omega
      rw [List.getD_eq_getElem _ _ this]; exact hw _ (List.getElem_mem _)
    have step : ∀ t : Bytes, t.length = 4 → ∀ w ∈ xorBytes t (ws.getD (nk - 1) []) :: ws, w.length = 4 := by
      intro t ht w hm
      rcases List.mem_cons.mp hm with rfl | hm
      · rw [xorBytes_length _ _ (by rw [ht, hg]), ht]
      · exact hw w hm
    unfold expandWords
    generalize ws.headD [] = prev at hp ⊢
    have rot : ((prev.drop 1 ++ prev.take 1).map sbox).length = 4 := by simp [hp]
    dsimp only
    split
    · split
      · rename_i a r h
        rw [h] at rot
        have := expandWords_words nk hn n (i + 1) _ (by simp; omega) (step ((a ^^^ rcon (i / nk - 1)) :: r) (by simpa using rot))
        exact ⟨by rw [this.1]; simp; omega, this.2⟩
      · rename_i h
        rw [h] at rot; simp at rot
    · split
      · have := expandWords_words nk hn n (i + 1) _ (by simp; omega) (step (prev.map sbox) (by simpa using hp))
        exact ⟨by rw [this.1]; simp; omega, this.2⟩
      · have := expandWords_words nk hn n (i + 1) _ (by simp; omega) (step prev hp)
        exact ⟨by rw [this.1]; simp; omega, this.2⟩

theorem flatten_length_four : ∀ l : List Bytes, (∀ w ∈ l, w.length = 4) → l.flatten.length = 4 * l.length
  | [], _ => rfl
  | a :: l, h => by
    have := flatten_length_four l (fun w hw => h w (by simp [hw]))
    simp [h a (by simp), this]; omega

theorem roundKeys_shape (key : Bytes) (h : 16 ≤ key.length) :
    2 ≤ (roundKeys key).length ∧ ∀ k ∈ roundKeys key, k.length = 16 := by
  unfold roundKeys
  generalize hnk : (if key.length = 32 then 8 else 4) = nk
  have hk : nk = 8 ∧ key.length = 32 ∨ nk = 4 := by split at hnk <;> simp_all
  have hn : 0 < nk := by omega
  have hlen : 4 * nk ≤ key.length := by omega
  have hfirst : ∀ w ∈ ((List.range nk).map fun i => (key.drop (4 * i)).take 4).reverse, w.length = 4 := by
    intro w hw
    simp only [List.mem_reverse, List.mem_map, List.mem_range] at hw
    obtain ⟨i, hi, rfl⟩ := hw
    simp; omega
  have e := expandWords_words nk hn (4 * (nk + 7) - nk) nk _ (by simp) hfirst
  refine ⟨by simp, ?_⟩
  intro k hm
  simp only [List.mem_map, List.mem_range] at hm
  obtain ⟨r, hr, rfl⟩ := hm
  rw [flatten_length_four]
  · simp [e.1]; omega
  · intro w hw
    exact e.2 w (by simpa using List.mem_of_mem_drop (List.mem_of_mem_take hw))

-- ------------------------------------------------------------------ a block

/-- AES decryption undoes AES encryption. -/
theorem aesDec_aesEnc (key blk : Bytes) (hk : 16 ≤ key.length) (hb : blk.length = 16) : aesDec key (aesEnc key blk) = blk := by
  obtain ⟨h2, hl⟩ := roundKeys_shape key hk
  unfold aesDec aesEnc
  match hr : roundKeys key, h2 with
  | k0 :: ks, h2 =>
    rw [hr] at hl
    obtain ⟨mid, kl, rfl⟩ : ∃ mid kl, ks = mid ++ [kl] := ⟨ks.dropLast, ks.getLast (by rintro rfl; simp at h2),
      (List.dropLast_concat_getLast _).symm⟩
    have h0 : k0.length = 16 := hl k0 (by simp)
    have hkl : kl.length = 16 := hl kl (by simp)
    have hm : ∀ k ∈ mid, k.length = 16 := fun k hk => hl k (by simp [hk])
    have hx : (xorBytes blk k0).length = 16 := by rw [xorBytes_length _ _ (by omega), hb]
    have hrev : (k0 :: (mid ++ [kl])).reverse = kl :: (mid.reverse ++ [k0]) := by simp
    rw [hrev]
    dsimp only
    rw [List.dropLast_concat, List.dropLast_concat, List.getLastD_concat, List.getLastD_concat]
    show xorBytes ((invShiftRows (mid.reverse.foldl decRound (xorBytes (xorBytes (shiftRows
      ((mid.foldl encRound (xorBytes blk k0)).map sbox)) kl) kl))).map invSbox) k0 = blk
    rw [xorBytes_twice _ _ (by simp [hkl]), rounds_inv mid _ hx hm, unsub _ hx, xorBytes_twice _ _ (by omega)]

theorem aesEnc_length (key blk : Bytes) (hk : 16 ≤ key.length) : (aesEnc key blk).length = 16 := by
  obtain ⟨h2, hl⟩ := roundKeys_shape key hk
  unfold aesEnc
  match hr : roundKeys key, h2 with
  | k0 :: ks, h2 =>
    rw [hr] at hl
    have hne : ks ≠ [] := by rintro rfl; simp at h2
    have : (ks.getLastD []).length = 16 := hl _ (by rw [List.getLastD_eq_getLast?, List.getLast?_eq_getLast_of_ne_nil hne]; simp)
    dsimp only
    rw [xorBytes_length _ _ (by rw [this]; simp)]; simp

-- ------------------------------------------------------------------ AES-KW and the derivation

@[simp] theorem beBytes_length (n v : Nat) : (beBytes n v).length = n := by simp [beBytes, leBytes_length]

/-- Wrapping from some step on and unwrapping all steps is unwrapping the steps before it. -/
theorem kwSteps_kwWrapSteps (key : Bytes) (n : Nat) (hk : 16 ≤ key.length) (hn : 0 < n) :
    ∀ (k : Nat) (a : Bytes) (r : List Bytes), k ≤ 6 * n → a.length = 8 → r.length = n → (∀ w ∈ r, w.length = 8) →
      kwSteps key n (6 * n) (kwWrapSteps key n k a r).1 (kwWrapSteps key n k a r).2 = kwSteps key n (6 * n - k) a r ∧
      (kwWrapSteps key n k a r).1.length = 8 ∧ (kwWrapSteps key n k a r).2.length = n ∧
      ∀ w ∈ (kwWrapSteps key n k a r).2, w.length = 8
  | 0, a, r, _, ha, hr, hw => ⟨by simp [kwWrapSteps], ha, hr, hw⟩
  | k + 1, a, r, hle, ha, hr, hw => by
    obtain ⟨t, ht⟩ : ∃ t, 6 * n - k = t + 1 := ⟨6 * n - k - 1, by omega⟩
    have hi : t % n < r.length := by rw [hr]; exact Nat.mod_lt _ hn
    have hri : (r.getD (t % n) []).length = 8 := by
      rw [List.getD_eq_getElem _ _ hi]; exact hw _ (List.getElem_mem _)
    have hblk : (a ++ r.getD (t % n) []).length = 16 := by simp only [List.length_append]; omega
    have hb := aesEnc_length key (a ++ r.getD (t % n) []) hk
    have hd := aesDec_aesEnc key (a ++ r.getD (t % n) []) hk hblk
    generalize hbb : aesEnc key (a ++ r.getD (t % n) []) = b at hb hd
    have e : kwWrapSteps key n (k + 1) a r =
        kwWrapSteps key n k (xorBytes (b.take 8) (beBytes 8 (t + 1))) (r.set (t % n) (b.drop 8)) := by
      rw [kwWrapSteps]; simp only [ht, Nat.add_sub_cancel, hbb]
    have ih := kwSteps_kwWrapSteps key n hk hn k (xorBytes (b.take 8) (beBytes 8 (t + 1))) (r.set (t % n) (b.drop 8)) (by omega)
      (by rw [xorBytes_length _ _ (by simp [hb])]; simp [hb]) (by simp [hr]) (by
        intro w hm
        rcases List.mem_or_eq_of_mem_set hm with h | rfl
        · exact hw w h
        · simp [hb])
    rw [e]
    refine ⟨?_, ih.2⟩
    rw [ih.1, ht, show 6 * n - (k + 1) = t by omega, kwSteps]
    have hg : (r.set (t % n) (b.drop 8)).getD (t % n) [] = b.drop 8 := by
      rw [List.getD_eq_getElem _ _ (by simpa using hi)]; simp
    rw [xorBytes_twice _ _ (by simp [hb]), hg, List.take_append_drop, hd, List.take_left' ha, List.drop_left' ha, List.set_set,
      List.getD_eq_getElem _ _ hi, List.set_getElem_self]

theorem chunks_flatten (n : Nat) : ∀ (l : List Bytes) (f : Nat), l.length ≤ f → (∀ w ∈ l, w.length = n) → 0 < n →
    chunks n f l.flatten = l
  | [], f, _, _, _ => by cases f <;> rfl
  | w :: l, 0, h, _, _ => by simp at h
  | w :: l, f + 1, h, hw, hn => by
    have h1 : w.length = n := hw w (by simp)
    have h2 : (w ++ l.flatten).isEmpty = false := by
      cases w with
      | nil => simp at h1; omega
      | cons _ _ => rfl
    rw [List.flatten_cons, chunks, h2]
    simp only [Bool.false_eq_true, if_false]
    rw [List.take_left' h1, List.drop_left' h1, chunks_flatten n l f (by simpa using h) (fun x hx => hw x (by simp [hx])) hn]

/-- Unwrapping gives back what was wrapped under a key: whole 8-byte words, one to eight of them (R472). -/
theorem kwUnwrap_kwWrap (key : Bytes) (r : List Bytes) (hk : 16 ≤ key.length) (h0 : r ≠ []) (h8 : r.length ≤ 8)
    (hr : ∀ w ∈ r, w.length = 8) : kwUnwrap key (kwWrap key r.flatten) = some r.flatten := by
  have hn : 0 < r.length := List.length_pos_of_ne_nil h0
  have hc := chunks_flatten 8 r 8 h8 hr (by decide)
  have := kwSteps_kwWrapSteps key r.length hk hn (6 * r.length) (List.replicate 8 0xA6) r (by omega) (by simp) rfl hr
  obtain ⟨h1, h2, h3, h4⟩ := this
  unfold kwWrap
  dsimp only
  rw [hc]
  generalize kwWrapSteps key r.length (6 * r.length) (List.replicate 8 0xA6) r = o at h1 h2 h3 h4
  unfold kwUnwrap
  dsimp only
  rw [List.drop_left' h2, List.take_left' h2, chunks_flatten 8 o.2 8 (by omega) h4 (by decide), h3, h1]
  simp [kwSteps]

theorem cmac_length (key data : Bytes) (hk : 16 ≤ key.length) : (cmac key data).length = 16 := aesEnc_length _ _ hk

/-- A derived key is as long as asked for. -/
theorem kdf_length (parent label ctx : Bytes) (hp : 16 ≤ parent.length) :
    (kdf parent label ctx 128).length = 16 ∧ (kdf parent label ctx 256).length = 32 := by
  constructor <;> simp [kdf, cmac_length _ _ hp]

theorem tenantRoot_length (t : Tenant) (s : State) : (tenantRoot t s).length = 32 :=
  (kdf_length _ _ _ (by simp [l0])).2

theorem blobKey_length (k : Fin 48) (gen : BitVec 16) (s : State) : (blobKey k gen s).length = 16 :=
  (kdf_length _ _ _ (by rw [tenantRoot_length]; decide)).1

end Sys2Proof.Machine
end

