-- ==== Sys2Proof/Laws/FixedOps.lean ====
section
/-!
SUPPORT. Frame lemmas of the shared operations, the arbiter, the clock and the Spool machine: nothing here touches the queue
of commands, the serial number or the binding of ports to tenants.
-/
namespace Sys2Proof.Machine
set_option linter.all false

/-- What only the queue, the factory, TEN.BIND and the resets set: the waiting commands, the serial number and the binding of
ports to tenants. -/
def fixedPart (s : State) : List Instr × BitVec 64 × Vector (Fin 4) 4 := (s.pending, s.serial, s.binding)
theorem ite_fixed {c : Prop} [Decidable c] {a b s : State} (ha : fixedPart a = fixedPart s) (hb : fixedPart b = fixedPart s) :
    fixedPart (if c then a else b) = fixedPart s := by split <;> assumption
@[simp] theorem foldl_fixed {α : Type} (f : State → α → State) (l : List α) (s : State)
    (h : ∀ s a, fixedPart (f s a) = fixedPart s) : fixedPart (l.foldl f s) = fixedPart s := by
  induction l generalizing s with
  | nil => rfl
  | cons a l ih => simp [ih, h]
@[simp] theorem forTenants_fixed (f : Tenant → State → State) (s : State) (h : ∀ t s, fixedPart (f t s) = fixedPart s) :
    fixedPart (forTenants f s) = fixedPart s := by simp [forTenants, h]

-- ------------------------------------------------------------ Ops

@[simp] theorem modPort_fixed (p : Port) (f : PortSt → PortSt) (s : State) : fixedPart (modPort p f s) = fixedPart s := by
  (unfold modPort; (repeat' ((try dsimp only); split)) <;> ((try dsimp only) <;> first | (simp; done) | grind [] | rfl))

@[simp] theorem modTen_fixed (t : Tenant) (f : TenantSt → TenantSt) (s : State) : fixedPart (modTen t f s) = fixedPart s := by
  (unfold modTen; (repeat' ((try dsimp only); split)) <;> ((try dsimp only) <;> first | (simp; done) | grind [] | rfl))

@[simp] theorem modProf_fixed (t : Tenant) (f : Profile → Profile) (s : State) : fixedPart (modProf t f s) = fixedPart s := by
  (unfold modProf; (repeat' ((try dsimp only); split)) <;> ((try dsimp only) <;> first | (simp; done) | grind [] | rfl))

@[simp] theorem modCtx_fixed (x : Tenant) (f : Ctx → Ctx) (s : State) : fixedPart (modCtx x f s) = fixedPart s := by
  (unfold modCtx; (repeat' ((try dsimp only); split)) <;> ((try dsimp only) <;> first | (simp; done) | grind [] | rfl))

@[simp] theorem modSess_fixed (t : Tenant) (f : SecSess → SecSess) (s : State) : fixedPart (modSess t f s) = fixedPart s := by
  (unfold modSess; (repeat' ((try dsimp only); split)) <;> ((try dsimp only) <;> first | (simp; done) | grind [] | rfl))

@[simp] theorem modBuf_fixed (h : Fin 32) (f : Buf → Buf) (s : State) : fixedPart (modBuf h f s) = fixedPart s := by
  (unfold modBuf; (repeat' ((try dsimp only); split)) <;> ((try dsimp only) <;> first | (simp; done) | grind [] | rfl))

@[simp] theorem modSlot_fixed (k : Fin 48) (f : Slot → Slot) (s : State) : fixedPart (modSlot k f s) = fixedPart s := by
  (unfold modSlot; (repeat' ((try dsimp only); split)) <;> ((try dsimp only) <;> first | (simp; done) | grind [] | rfl))

@[simp] theorem modChan_fixed (g : Fin 16) (f : Chan → Chan) (s : State) : fixedPart (modChan g f s) = fixedPart s := by
  (unfold modChan; (repeat' ((try dsimp only); split)) <;> ((try dsimp only) <;> first | (simp; done) | grind [] | rfl))

@[simp] theorem modSem_fixed (i : Fin 8) (f : Sem → Sem) (s : State) : fixedPart (modSem i f s) = fixedPart s := by
  (unfold modSem; (repeat' ((try dsimp only); split)) <;> ((try dsimp only) <;> first | (simp; done) | grind [] | rfl))

@[simp] theorem modCmp_fixed (k : Fin 12) (f : Compare → Compare) (s : State) : fixedPart (modCmp k f s) = fixedPart s := by
  (unfold modCmp; (repeat' ((try dsimp only); split)) <;> ((try dsimp only) <;> first | (simp; done) | grind [] | rfl))

@[simp] theorem modDc_fixed (n : Tenant) (f : DownCnt → DownCnt) (s : State) : fixedPart (modDc n f s) = fixedPart s := by
  (unfold modDc; (repeat' ((try dsimp only); split)) <;> ((try dsimp only) <;> first | (simp; done) | grind [] | rfl))

@[simp] theorem modCap_fixed (n : Tenant) (f : Capture → Capture) (s : State) : fixedPart (modCap n f s) = fixedPart s := by
  (unfold modCap; (repeat' ((try dsimp only); split)) <;> ((try dsimp only) <;> first | (simp; done) | grind [] | rfl))

@[simp] theorem modTout_fixed (n : Tenant) (f : TimerOut → TimerOut) (s : State) : fixedPart (modTout n f s) = fixedPart s := by
  (unfold modTout; (repeat' ((try dsimp only); split)) <;> ((try dsimp only) <;> first | (simp; done) | grind [] | rfl))

@[simp] theorem takeProfile_fixed (t : Tenant) (s : State) : fixedPart (takeProfile t s) = fixedPart s := by
  (unfold takeProfile; (repeat' ((try dsimp only); split)) <;> ((try dsimp only) <;> first | (simp; done) | grind [] | rfl))

@[simp] theorem takeHalf_fixed (c : CoreId) (t : Tenant) (s : State) : fixedPart (takeHalf c t s) = fixedPart s := by
  (unfold takeHalf; (repeat' ((try dsimp only); split)) <;> ((try dsimp only) <;> first | (simp; done) | grind [] | rfl))

@[simp] theorem setPower_fixed (f : PowerSt → PowerSt) (s : State) : fixedPart (setPower f s) = fixedPart s := by
  (unfold setPower; (repeat' ((try dsimp only); split)) <;> ((try dsimp only) <;> first | (simp; done) | grind [] | rfl))

@[simp] theorem setRadio_fixed (f : RadioSt → RadioSt) (s : State) : fixedPart (setRadio f s) = fixedPart s := by
  (unfold setRadio; (repeat' ((try dsimp only); split)) <;> ((try dsimp only) <;> first | (simp; done) | grind [] | rfl))

@[simp] theorem setRdr_fixed (f : ReaderSt → ReaderSt) (s : State) : fixedPart (setRdr f s) = fixedPart s := by
  (unfold setRdr; (repeat' ((try dsimp only); split)) <;> ((try dsimp only) <;> first | (simp; done) | grind [] | rfl))

@[simp] theorem setLink_fixed (f : LinkSt → LinkSt) (s : State) : fixedPart (setLink f s) = fixedPart s := by
  (unfold setLink; (repeat' ((try dsimp only); split)) <;> ((try dsimp only) <;> first | (simp; done) | grind [] | rfl))

@[simp] theorem setTag_fixed (f : LanternSt → LanternSt) (s : State) : fixedPart (setTag f s) = fixedPart s := by
  (unfold setTag; (repeat' ((try dsimp only); split)) <;> ((try dsimp only) <;> first | (simp; done) | grind [] | rfl))

@[simp] theorem setBri_fixed (f : BridleSt → BridleSt) (s : State) : fixedPart (setBri f s) = fixedPart s := by
  (unfold setBri; (repeat' ((try dsimp only); split)) <;> ((try dsimp only) <;> first | (simp; done) | grind [] | rfl))

@[simp] theorem setStore_fixed (f : StoreSt → StoreSt) (s : State) : fixedPart (setStore f s) = fixedPart s := by
  (unfold setStore; (repeat' ((try dsimp only); split)) <;> ((try dsimp only) <;> first | (simp; done) | grind [] | rfl))

@[simp] theorem setLdg_fixed (f : LedgerSt → LedgerSt) (s : State) : fixedPart (setLdg f s) = fixedPart s := by
  (unfold setLdg; (repeat' ((try dsimp only); split)) <;> ((try dsimp only) <;> first | (simp; done) | grind [] | rfl))

@[simp] theorem setSvy_fixed (f : SurveySt → SurveySt) (s : State) : fixedPart (setSvy f s) = fixedPart s := by
  (unfold setSvy; (repeat' ((try dsimp only); split)) <;> ((try dsimp only) <;> first | (simp; done) | grind [] | rfl))

@[simp] theorem setMend_fixed (f : MendSt → MendSt) (s : State) : fixedPart (setMend f s) = fixedPart s := by
  (unfold setMend; (repeat' ((try dsimp only); split)) <;> ((try dsimp only) <;> first | (simp; done) | grind [] | rfl))

@[simp] theorem setEpoch_fixed (f : EpochSt → EpochSt) (s : State) : fixedPart (setEpoch f s) = fixedPart s := by
  (unfold setEpoch; (repeat' ((try dsimp only); split)) <;> ((try dsimp only) <;> first | (simp; done) | grind [] | rfl))

@[simp] theorem setV1_fixed (f : V1St → V1St) (s : State) : fixedPart (setV1 f s) = fixedPart s := by
  (unfold setV1; (repeat' ((try dsimp only); split)) <;> ((try dsimp only) <;> first | (simp; done) | grind [] | rfl))

@[simp] theorem setInv_fixed (x : Tenant) (i : Option Inv) (s : State) : fixedPart (setInv x i s) = fixedPart s := by
  (unfold setInv; (repeat' ((try dsimp only); split)) <;> ((try dsimp only) <;> first | (simp; done) | grind [] | rfl))

@[simp] theorem setAcc_fixed (x : Tenant) (a : Option Acc) (s : State) : fixedPart (setAcc x a s) = fixedPart s := by
  (unfold setAcc; (repeat' ((try dsimp only); split)) <;> ((try dsimp only) <;> first | (simp; done) | grind [] | rfl))

@[simp] theorem drawNat_fixed (s : State) : fixedPart (drawNat s).2 = fixedPart s := by
  (unfold drawNat; (repeat' ((try dsimp only); split)) <;> ((try dsimp only) <;> first | (simp; done) | grind [] | rfl))

@[simp] theorem drawBool_fixed (s : State) : fixedPart (drawBool s).2 = fixedPart s := by
  (unfold drawBool; (repeat' ((try dsimp only); split)) <;> ((try dsimp only) <;> first | (simp; done) | grind [] | rfl))

@[simp] theorem freshSample_fixed (s : State) : fixedPart (freshSample s).2 = fixedPart s := by
  (unfold freshSample; (repeat' ((try dsimp only); split)) <;> ((try dsimp only) <;> first | (simp; done) | grind [] | rfl))

@[simp] theorem countStale_fixed (s : State) : fixedPart (countStale s) = fixedPart s := by
  (unfold countStale; simp; done)

@[simp] theorem countQuery_fixed (s : State) : fixedPart (countQuery s) = fixedPart s := by
  grind [countQuery, setRdr_fixed, setSvy_fixed]

@[simp] theorem ownRoundEnd_fixed (s : State) : fixedPart (ownRoundEnd s) = fixedPart s := by
  grind [ownRoundEnd, setRdr_fixed]

@[simp] theorem readerAsSlot_fixed (s : State) : fixedPart (readerAsSlot s) = fixedPart s := by
  (unfold readerAsSlot; simp; done)

@[simp] theorem raise_fixed (t : Tenant) (code : BitVec 16) (data : Bytes) (s : State) : fixedPart (raise t code data s) = fixedPart s := by
  grind [raise, modTen_fixed]

@[simp] theorem raiseAll_fixed (code : BitVec 16) (data : Bytes) (s : State) : fixedPart (raiseAll code data s) = fixedPart s := by
  grind [raiseAll, forTenants_fixed, raise_fixed]

@[simp] theorem reply_fixed (t : Tenant) (status : Byte) (results : Bytes) (s : State) : fixedPart (reply t status results s) = fixedPart s := by
  grind [reply, modTen_fixed]

@[simp] theorem refuse_fixed (t : Tenant) (status : Byte) (s : State) : fixedPart (refuse t status s) = fixedPart s := by
  grind [refuse, reply_fixed]

@[simp] theorem serve_fixed (t : Tenant) (f : TenantSt → TenantSt) (s : State) : fixedPart (serve t f s) = fixedPart s := by
  (unfold serve; (repeat' ((try dsimp only); split)) <;> ((try dsimp only) <;> first | (simp only [modTen_fixed]; done) | (simp only [modTen_fixed]; rfl) | (simp; done) | grind [modTen_fixed] | rfl))

theorem takeUp_fixed (op : BitVec 16) (c : Cmd) (s : State) : ∀ r, takeUp op c s = some r → fixedPart r = fixedPart s := by
  grind [takeUp, serve_fixed]

@[simp] theorem notTaken_fixed (op : BitVec 16) (c : Cmd) (s : State) : fixedPart (notTaken op c s) = fixedPart s := by
  grind [notTaken, modTen_fixed]

@[simp] theorem keelRun_fixed (op : BitVec 16) (c : Cmd) (body : State → State) (s : State) (hbody : ∀ r, fixedPart (body r) = fixedPart r) : fixedPart (keelRun op c body s) = fixedPart s := by
  grind [keelRun, notTaken_fixed, takeUp_fixed]

@[simp] theorem logEntry_fixed (code : BitVec 16) (data : Bytes) (s : State) : fixedPart (logEntry code data s) = fixedPart s := by
  grind [logEntry, setStore_fixed]

@[simp] theorem logPartial_fixed (s : State) : fixedPart (logPartial s) = fixedPart s := by
  grind [logPartial, setStore_fixed]

@[simp] theorem takeBuf_fixed (h : Fin 32) (s : State) : fixedPart (takeBuf h s) = fixedPart s := by
  grind [takeBuf, modBuf_fixed]

@[simp] theorem serveBuf_fixed (pos : Fin 6) (prog : Bool) (h : Fin 32) (s : State) : fixedPart (serveBuf pos prog h s) = fixedPart s := by
  (unfold serveBuf; (repeat' ((try dsimp only); split)) <;> ((try dsimp only) <;> first | (simp only [takeBuf_fixed]; done) | (simp only [takeBuf_fixed]; rfl) | (simp; done) | grind [takeBuf_fixed] | rfl))

@[simp] theorem missBuf_fixed (pos : Fin 6) (prog : Bool) (s : State) : fixedPart (missBuf pos prog s) = fixedPart s := by
  (unfold missBuf; (repeat' ((try dsimp only); split)) <;> ((try dsimp only) <;> first | (simp; done) | grind [] | rfl))

@[simp] theorem freeBuf_fixed (h : Fin 32) (s : State) : fixedPart (freeBuf h s) = fixedPart s := by
  grind [freeBuf, modBuf_fixed]

-- ------------------------------------------------------------ Arbiter

@[simp] theorem setHold_fixed (c : CoreId) (h : Option Hold) (s : State) : fixedPart (setHold c h s) = fixedPart s := by
  (unfold setHold; (repeat' ((try dsimp only); split)) <;> ((try dsimp only) <;> first | (simp only [setRadio_fixed]; done) | (simp only [setRadio_fixed]; rfl) | (simp; done) | grind [setRadio_fixed] | rfl))

@[simp] theorem searchAgain_fixed (s : State) : fixedPart (searchAgain s) = fixedPart s := by
  grind [searchAgain, setLink_fixed, setRadio_fixed]

@[simp] theorem setCore_fixed (c : CoreId) (x : CoreSt) (s : State) : fixedPart (setCore c x s) = fixedPart s := by
  (unfold setCore; (repeat' ((try dsimp only); split)) <;> ((try dsimp only) <;> first | (simp only [searchAgain_fixed, setLink_fixed, setRadio_fixed, setRdr_fixed]; done) | (simp only [searchAgain_fixed, setLink_fixed, setRadio_fixed, setRdr_fixed]; rfl) | (simp; done) | grind [searchAgain_fixed, setLink_fixed, setRadio_fixed, setRdr_fixed] | rfl))

@[simp] theorem setCoreAt_fixed (c : CoreId) (t : Tick) (x : CoreSt) (s : State) : fixedPart (setCoreAt c t x s) = fixedPart s := by
  (unfold setCoreAt; (repeat' ((try dsimp only); split)) <;> ((try dsimp only) <;> first | (simp only [setRadio_fixed]; done) | (simp only [setRadio_fixed]; rfl) | (simp; done) | grind [setRadio_fixed] | rfl))

@[simp] theorem coexTrack_fixed (s : State) : fixedPart (coexTrack s) = fixedPart s := by
  grind [coexTrack, setRadio_fixed]

@[simp] theorem chargeTenant_fixed (t : Tenant) (from_ : Tick) (s : State) : fixedPart (chargeTenant t from_ s) = fixedPart s := by
  grind [chargeTenant, setRadio_fixed]

@[simp] theorem chargeListen_fixed (h : Hold) (t : Tenant) (s : State) : fixedPart (chargeListen h t s) = fixedPart s := by
  grind [chargeListen, chargeTenant_fixed]

@[simp] theorem charge_fixed (h : Hold) (s : State) : fixedPart (charge h s) = fixedPart s := by
  grind [charge, chargeListen_fixed, chargeTenant_fixed, forTenants_fixed]

@[simp] theorem carrierOn_fixed (now : Tick) (s : State) : fixedPart (carrierOn now s) = fixedPart s := by
  grind [carrierOn, setCore_fixed, setRdr_fixed]

@[simp] theorem carrierOff_fixed (now : Tick) (s : State) : fixedPart (carrierOff now s) = fixedPart s := by
  grind [carrierOff, setCore_fixed, setRdr_fixed]

@[simp] theorem leaveChannel_fixed (now : Tick) (s : State) : fixedPart (leaveChannel now s) = fixedPart s := by
  grind [leaveChannel, setRdr_fixed]

@[simp] theorem linkRampDown_fixed (s : State) : fixedPart (linkRampDown s).2 = fixedPart s := by
  grind [linkRampDown, drawNat_fixed]

@[simp] theorem trswSpan_fixed (a b : Tick) (s : State) : fixedPart (trswSpan a b s) = fixedPart s := by
  grind [trswSpan, linkRampDown_fixed, setLink_fixed]

@[simp] theorem trswEnd_fixed (s : State) : fixedPart (trswEnd s) = fixedPart s := by
  grind [trswEnd, linkRampDown_fixed, setLink_fixed]

@[simp] theorem aerialFor_fixed (r : AirReq) (s : State) : fixedPart (aerialFor r s) = fixedPart s := by
  grind [aerialFor, setRdr_fixed]

@[simp] theorem aerialRestore_fixed (s : State) : fixedPart (aerialRestore s) = fixedPart s := by
  (unfold aerialRestore; simp; done)

@[simp] theorem coreDown_fixed (c : CoreId) (s : State) : fixedPart (coreDown c s) = fixedPart s := by
  (unfold coreDown; (repeat' ((try dsimp only); split)) <;> ((try dsimp only) <;> first | (simp only [aerialRestore_fixed, carrierOff_fixed, leaveChannel_fixed, ownRoundEnd_fixed, setCore_fixed, setRadio_fixed, setRdr_fixed, trswEnd_fixed]; done) | (simp only [aerialRestore_fixed, carrierOff_fixed, leaveChannel_fixed, ownRoundEnd_fixed, setCore_fixed, setRadio_fixed, setRdr_fixed, trswEnd_fixed]; rfl) | (simp; done) | grind [aerialRestore_fixed, carrierOff_fixed, leaveChannel_fixed, ownRoundEnd_fixed, setCore_fixed, setRadio_fixed, setRdr_fixed, trswEnd_fixed] | rfl))

@[simp] theorem releaseAir_fixed (c : CoreId) (s : State) : fixedPart (releaseAir c s) = fixedPart s := by
  grind [releaseAir, charge_fixed, coexTrack_fixed, coreDown_fixed, setHold_fixed]

@[simp] theorem dropWaiters_fixed (w : Who) (s : State) : fixedPart (dropWaiters w s) = fixedPart s := by
  grind [dropWaiters, coexTrack_fixed, setRadio_fixed]

@[simp] theorem evSessionClosed_fixed (t : Tenant) (tseq : BitVec 16) (sid : Byte) (reason : Nat) (s : State) : fixedPart (evSessionClosed t tseq sid reason s) = fixedPart s := by
  (unfold evSessionClosed; simp; done)

@[simp] theorem sessionGone_fixed (t : Tenant) (reason : Nat) (s : State) : fixedPart (sessionGone t reason s) = fixedPart s := by
  grind [sessionGone, evSessionClosed_fixed, modSess_fixed]

@[simp] theorem builtinWaits_fixed (t : Tenant) (s : State) : fixedPart (builtinWaits t s) = fixedPart s := by
  grind [builtinWaits, modCtx_fixed, setAcc_fixed, setInv_fixed]

@[simp] theorem ctxLost_fixed (t : Tenant) (c : CoreId) (s : State) : fixedPart (ctxLost t c s) = fixedPart s := by
  grind [ctxLost, modCtx_fixed, setRadio_fixed]

@[simp] theorem afterLoss_fixed (h : Hold) (s : State) : fixedPart (afterLoss h s) = fixedPart s := by
  grind [afterLoss, builtinWaits_fixed, ctxLost_fixed, sessionGone_fixed, setLink_fixed, setRadio_fixed]

@[simp] theorem loseAir_fixed (c : CoreId) (s : State) : fixedPart (loseAir c s) = fixedPart s := by
  grind [loseAir, afterLoss_fixed, charge_fixed, coexTrack_fixed, coreDown_fixed, setHold_fixed]

@[simp] theorem preemptFor_fixed (r : AirReq) (c : CoreId) (s : State) : fixedPart (preemptFor r c s) = fixedPart s := by
  grind [preemptFor, loseAir_fixed]

@[simp] theorem sendBegins_fixed (p : Send → Bool) (now : Tick) (s : State) : fixedPart (sendBegins p now s) = fixedPart s := by
  (unfold sendBegins; simp; done)

@[simp] theorem deepRan_fixed (c : CoreId) (temp : Int) (s : State) : fixedPart (deepRan c temp s) = fixedPart s := by
  grind [deepRan, setRadio_fixed]

@[simp] theorem deepAtChange_fixed (c : CoreId) (session : Bool) (s : State) : fixedPart (deepAtChange c session s) = fixedPart s := by
  grind [deepAtChange, deepRan_fixed, setRadio_fixed]

@[simp] theorem calEnd_fixed (c : CoreId) (cal : Cal) (s : State) : fixedPart (calEnd c cal s) = fixedPart s := by
  (unfold calEnd; (repeat' ((try dsimp only); split)) <;> ((try dsimp only) <;> first | (simp only [releaseAir_fixed, setMend_fixed, setRadio_fixed]; done) | (simp only [releaseAir_fixed, setMend_fixed, setRadio_fixed]; rfl) | (simp; done) | grind [releaseAir_fixed, setMend_fixed, setRadio_fixed] | rfl))

@[simp] theorem calResult_fixed (c : CoreId) (s : State) : fixedPart (calResult c s).2 = fixedPart s := by
  (unfold calResult; (repeat' ((try dsimp only); split)) <;> ((try dsimp only) <;> first | (simp only [calEnd_fixed, drawBool_fixed, setRadio_fixed]; done) | (simp only [calEnd_fixed, drawBool_fixed, setRadio_fixed]; rfl) | (simp; done) | grind [calEnd_fixed, drawBool_fixed, setRadio_fixed] | rfl))

@[simp] theorem coreGoes_fixed (c : CoreId) (now : Tick) (x : CoreSt) (s : State) : fixedPart (coreGoes c now x s) = fixedPart s := by
  grind [coreGoes, drawNat_fixed, searchAgain_fixed, setCoreAt_fixed]

@[simp] theorem coreTune_fixed (r : AirReq) (now : Tick) (s : State) : fixedPart (coreTune r now s) = fixedPart s := by
  grind [coreTune, coreGoes_fixed, deepAtChange_fixed, setCore_fixed, setRadio_fixed]

@[simp] theorem coreFreq_fixed (r : AirReq) (s : State) : fixedPart (coreFreq r s) = fixedPart s := by
  (unfold coreFreq; cases r.who <;> cases r.core <;> first | rfl | exact setRadio_fixed _ _)

@[simp] theorem compApply_fixed (ext : Bool) (s : State) : fixedPart (compApply ext s) = fixedPart s := by
  (unfold compApply; simp; done)

@[simp] theorem linkCompApply_fixed (s : State) : fixedPart (linkCompApply s) = fixedPart s := by
  (unfold linkCompApply; simp; done)

@[simp] theorem paUp_fixed (p : Profile) (at_ : Tick) (s : State) : fixedPart (paUp p at_ s) = fixedPart s := by
  grind [paUp, setRdr_fixed]

@[simp] theorem burstDrive_fixed (p : Profile) (at_ : Tick) (s : State) : fixedPart (burstDrive p at_ s) = fixedPart s := by
  grind [burstDrive, paUp_fixed, setRdr_fixed]

@[simp] theorem pointDrive_fixed (c : CoreId) (s : State) : fixedPart (pointDrive c s) = fixedPart s := by
  (unfold pointDrive; (repeat' ((try dsimp only); split)) <;> ((try dsimp only) <;> first | (simp only [drawNat_fixed, setRdr_fixed]; done) | (simp only [drawNat_fixed, setRdr_fixed]; rfl) | (simp; done) | grind [drawNat_fixed, setRdr_fixed] | rfl))

@[simp] theorem ctxGranted_fixed (t : Tenant) (now : Tick) (s : State) : fixedPart (ctxGranted t now s) = fixedPart s := by
  grind [ctxGranted, compApply_fixed, linkCompApply_fixed, modCtx_fixed, setCore_fixed, setHold_fixed, setLink_fixed, trswSpan_fixed]

@[simp] theorem accGranted_fixed (t : Tenant) (s : State) : fixedPart (accGranted t s) = fixedPart s := by
  grind [accGranted, readerAsSlot_fixed]

@[simp] theorem builtinGranted_fixed (t : Tenant) (now : Tick) (s : State) : fixedPart (builtinGranted t now s) = fixedPart s := by
  grind [builtinGranted, accGranted_fixed, setInv_fixed, takeProfile_fixed]

@[simp] theorem onGrant_fixed (r : AirReq) (now : Tick) (s : State) : fixedPart (onGrant r now s) = fixedPart s := by
  unfold onGrant
  cases r.who
  case ctx t =>
    exact ite_fixed (by simp only [builtinGranted_fixed, ctxGranted_fixed]) (by simp only [ctxGranted_fixed, takeHalf_fixed])
  all_goals first
    | rfl
    | simp only [sendBegins_fixed, takeProfile_fixed, takeHalf_fixed, setLink_fixed, pointDrive_fixed, setSvy_fixed,
        burstDrive_fixed, setRdr_fixed]

@[simp] theorem sweepSkip_fixed (s : State) : fixedPart (sweepSkip s) = fixedPart s := by
  grind [sweepSkip, setRadio_fixed, setSvy_fixed]

@[simp] theorem grantAir_fixed (r : AirReq) (now : Tick) (s : State) : fixedPart (grantAir r now s) = fixedPart s := by
  grind [grantAir, aerialFor_fixed, coexTrack_fixed, coreFreq_fixed, coreTune_fixed, onGrant_fixed, preemptFor_fixed, setHold_fixed, setRadio_fixed, sweepSkip_fixed]

@[simp] theorem requestAir_fixed (r : AirReq) (s : State) : fixedPart (requestAir r s) = fixedPart s := by
  grind [requestAir, coexTrack_fixed, grantAir_fixed, setRadio_fixed]

@[simp] theorem setCommit_fixed (c : CoreId) (t : Option Tick) (s : State) : fixedPart (setCommit c t s) = fixedPart s := by
  grind [setCommit, setHold_fixed]

@[simp] theorem setOver_fixed (c : CoreId) (t : Option Tick) (s : State) : fixedPart (setOver c t s) = fixedPart s := by
  grind [setOver, setHold_fixed]

-- ------------------------------------------------------------ Clock

@[simp] theorem dutyAdd_fixed (start : Tick) (n : Nat) (s : State) : fixedPart (dutyAdd start n s) = fixedPart s := by
  grind [dutyAdd, setLink_fixed]

@[simp] theorem transmit_fixed (e : Send) (first : Tick) (s : State) : fixedPart (transmit e first s) = fixedPart s := by
  grind [transmit, linkCompApply_fixed, setCommit_fixed, setCore_fixed, setLink_fixed, trswSpan_fixed]

@[simp] theorem sendMissed_fixed (e : Send) (s : State) : fixedPart (sendMissed e s) = fixedPart s := by
  grind [sendMissed, dropWaiters_fixed, releaseAir_fixed, setLink_fixed]

@[simp] theorem sendGo_fixed (e : Send) (s : State) : fixedPart (sendGo e s) = fixedPart s := by
  grind [sendGo, calResult_fixed, sendMissed_fixed, transmit_fixed]

@[simp] theorem openSlot_fixed (o : Opening) (s : State) : fixedPart (openSlot o s) = fixedPart s := by
  grind [openSlot, countQuery_fixed, ownRoundEnd_fixed, readerAsSlot_fixed, reply_fixed, setInv_fixed, setRdr_fixed]

@[simp] theorem openDue_fixed (s : State) : fixedPart (openDue s) = fixedPart s := by
  grind [openDue, openSlot_fixed, setRdr_fixed]

@[simp] theorem clockTo_fixed (now : Tick) (s : State) : fixedPart (clockTo now s) = fixedPart s := by
  (unfold clockTo; (repeat' ((try dsimp only); split)) <;> ((try dsimp only) <;> first | (simp; done) | grind [] | rfl))

@[simp] theorem runTo_fixed (now : Tick) (y0 : Nat) (s : State) : fixedPart (runTo now y0 s) = fixedPart s := by
  induction y0 generalizing s with
  | zero => unfold runTo; simp
  | succ n ih =>
    unfold runTo
    split
    · split
      · rw [ih]; split <;> simp
      · simp
    · simp

@[simp] theorem advanceTo_fixed (now : Tick) (s : State) : fixedPart (advanceTo now s) = fixedPart s := by
  grind [advanceTo, runTo_fixed]

@[simp] theorem idleTick_fixed (s : State) : fixedPart (idleTick s) = fixedPart s := by
  grind [idleTick, advanceTo_fixed]

theorem execAirGrant_fixed (now : Tick) (s : State) : ∀ t, execAirGrant now s = .next t → fixedPart t = fixedPart s := by
  grind (splits := 24) [execAirGrant, advanceTo_fixed, grantAir_fixed]

-- ------------------------------------------------------------ SpoolCore

@[simp] theorem finishStart_fixed (x : Tenant) (status : Byte) (s : State) : fixedPart (finishStart x status s) = fixedPart s := by
  grind [finishStart, modCtx_fixed, modTen_fixed, reply_fixed]

@[simp] theorem raiseFrom_fixed (x : Tenant) (code : BitVec 16) (data : Bytes) (s : State) : fixedPart (raiseFrom x code data s) = fixedPart s := by
  grind [raiseFrom, modCtx_fixed, raise_fixed]

@[simp] theorem dropBufs_fixed (x : Tenant) (s : State) : fixedPart (dropBufs x s) = fixedPart s := by
  (unfold dropBufs; simp; done)

@[simp] theorem dropAir_fixed (x : Tenant) (s : State) : fixedPart (dropAir x s) = fixedPart s := by
  grind [dropAir, dropWaiters_fixed, releaseAir_fixed]

@[simp] theorem runOver_fixed (x : Tenant) (s : State) : fixedPart (runOver x s) = fixedPart s := by
  grind [runOver, modCtx_fixed, setBri_fixed]

@[simp] theorem spoolFault_fixed (x : Tenant) (code : Nat) (s : State) : fixedPart (spoolFault x code s) = fixedPart s := by
  grind [spoolFault, dropAir_fixed, dropBufs_fixed, finishStart_fixed, modCtx_fixed, raise_fixed, runOver_fixed]

@[simp] theorem endProgram_fixed (x : Tenant) (status : Byte) (s : State) : fixedPart (endProgram x status s) = fixedPart s := by
  grind [endProgram, dropAir_fixed, dropBufs_fixed, finishStart_fixed, modCtx_fixed, raise_fixed, runOver_fixed]

@[simp] theorem retireTo_fixed (x : Tenant) (pc cycles : Nat) (s : State) : fixedPart (retireTo x pc cycles s) = fixedPart s := by
  grind [retireTo, finishStart_fixed, modCtx_fixed]

@[simp] theorem retire_fixed (x : Tenant) (cycles : Nat) (s : State) : fixedPart (retire x cycles s) = fixedPart s := by
  grind [retire, retireTo_fixed]

@[simp] theorem issueMoment_fixed (x : Tenant) (s : State) : fixedPart (issueMoment x s) = fixedPart s := by
  grind [issueMoment, advanceTo_fixed, modCtx_fixed]

@[simp] theorem issue_fixed (x : Tenant) (word : BitVec 32) (body : State → State) (s : State) (hbody : ∀ r, fixedPart (body r) = fixedPart r) : fixedPart (issue x word body s) = fixedPart s := by
  grind [issue, endProgram_fixed, issueMoment_fixed, spoolFault_fixed]

@[simp] theorem aluStep_fixed (x : Tenant) (d : Fin 16) (cycles : Nat) (f : Ctx → AluOut) (s : State) : fixedPart (aluStep x d cycles f s) = fixedPart s := by
  grind [aluStep, modCtx_fixed, retire_fixed]

@[simp] theorem cmpStep_fixed (x : Tenant) (f : Ctx → AluOut) (s : State) : fixedPart (cmpStep x f s) = fixedPart s := by
  grind [cmpStep, modCtx_fixed, retire_fixed]

@[simp] theorem jumpTo_fixed (x : Tenant) (t : Nat) (s : State) : fixedPart (jumpTo x t s) = fixedPart s := by
  grind [jumpTo, retireTo_fixed, spoolFault_fixed]

@[simp] theorem enterWait_fixed (x : Tenant) (p : Pend) (s : State) : fixedPart (enterWait x p s) = fixedPart s := by
  grind [enterWait, finishStart_fixed, modCtx_fixed]

@[simp] theorem endWait_fixed (x : Tenant) (now : Tick) (f : Ctx → Ctx) (s : State) : fixedPart (endWait x now f s) = fixedPart s := by
  grind [endWait, modCtx_fixed]

@[simp] theorem wAtOnce_fixed (x : Tenant) (f : Ctx → Ctx) (s : State) : fixedPart (wAtOnce x f s) = fixedPart s := by
  grind [wAtOnce, finishStart_fixed, modCtx_fixed]

@[simp] theorem atOnce_fixed (w : Bool) (x : Tenant) (f : Ctx → Ctx) (s : State) : fixedPart (atOnce w x f s) = fixedPart s := by
  grind [atOnce, modCtx_fixed, retire_fixed, wAtOnce_fixed]

@[simp] theorem airFail_fixed (w : Bool) (x : Tenant) (d : Fin 16) (status : Byte) (s : State) : fixedPart (airFail w x d status s) = fixedPart s := by
  grind [airFail, atOnce_fixed]

@[simp] theorem airNothing_fixed (x : Tenant) (s : State) : fixedPart (airNothing x s) = fixedPart s := by
  grind [airNothing, wAtOnce_fixed]

@[simp] theorem stopIfDue_fixed (x : Tenant) (s : State) : fixedPart (stopIfDue x s) = fixedPart s := by
  grind [stopIfDue, endProgram_fixed]

@[simp] theorem airCursor_fixed (x : Tenant) (s : State) : fixedPart (airCursor x s) = fixedPart s := by
  grind [airCursor, modCtx_fixed]

@[simp] theorem airClass_fixed (x : Tenant) (core : CoreId) (s : State) : fixedPart (airClass x core s) = fixedPart s := by
  grind [airClass, readerAsSlot_fixed]

@[simp] theorem airIssue_fixed (w : Bool) (x : Tenant) (core : CoreId) (d : Fin 16) (bad : Profile → Bool) (body : State → State) (s : State) (hbody : ∀ r, fixedPart (body r) = fixedPart r) : fixedPart (airIssue w x core d bad body s) = fixedPart s := by
  grind [airIssue, airClass_fixed, airCursor_fixed, airFail_fixed, calResult_fixed, modCtx_fixed]

@[simp] theorem airDone_fixed (x : Tenant) (core : CoreId) (now : Tick) (d : Fin 16) (f : Ctx → Ctx) (s : State) : fixedPart (airDone x core now d f s) = fixedPart s := by
  (unfold airDone; (repeat' ((try dsimp only); split)) <;> ((try dsimp only) <;> first | (simp only [endWait_fixed]; done) | (simp only [endWait_fixed]; rfl) | (simp; done) | grind [endWait_fixed] | rfl))

@[simp] theorem airFirst_fixed (x : Tenant) (core : CoreId) (d : Fin 16) (fn : BitVec 14) (body : State → State) (s : State) (hbody : ∀ r, fixedPart (body r) = fixedPart r) : fixedPart (airFirst x core d fn body s) = fixedPart s := by
  (unfold airFirst; (repeat' ((try dsimp only); split)) <;> ((try dsimp only) <;> first | (simp only [enterWait_fixed, requestAir_fixed]; done) | (simp only [enterWait_fixed, requestAir_fixed]; rfl) | (simp; done) | grind [enterWait_fixed, requestAir_fixed] | rfl))

@[simp] theorem stopProgram_fixed (x : Tenant) (status : Byte) (s : State) : fixedPart (stopProgram x status s) = fixedPart s := by
  grind [stopProgram, endProgram_fixed, modCtx_fixed]

theorem execBudgetWatchdog_fixed (x : Tenant) (s : State) : ∀ t, execBudgetWatchdog x s = .next t → fixedPart t = fixedPart s := by
  grind (splits := 24) [execBudgetWatchdog, spoolFault_fixed]

theorem execSpIllegal_fixed (x : Tenant) (word : BitVec 32) (s : State) : ∀ t, execSpIllegal x word s = .next t → fixedPart t = fixedPart s := by
  grind (splits := 24) [execSpIllegal, issue_fixed, spoolFault_fixed]

theorem execNoWaitAirDenied_fixed (x : Tenant) (now : Tick) (s : State) : ∀ t, execNoWaitAirDenied x now s = .next t → fixedPart t = fixedPart s := by
  grind (splits := 24) [execNoWaitAirDenied, advanceTo_fixed, spoolFault_fixed]

-- ------------------------------------------------------------ SpoolAlu

theorem execSpAdd_fixed (x : Tenant) (d a b : Fin 16) (s : State) : ∀ t, execSpAdd x d a b s = .next t → fixedPart t = fixedPart s := by
  grind (splits := 24) [execSpAdd, aluStep_fixed, issue_fixed]

theorem execSpSub_fixed (x : Tenant) (d a b : Fin 16) (s : State) : ∀ t, execSpSub x d a b s = .next t → fixedPart t = fixedPart s := by
  grind (splits := 24) [execSpSub, aluStep_fixed, issue_fixed]

theorem execSpAnd_fixed (x : Tenant) (d a b : Fin 16) (s : State) : ∀ t, execSpAnd x d a b s = .next t → fixedPart t = fixedPart s := by
  grind (splits := 24) [execSpAnd, aluStep_fixed, issue_fixed]

theorem execSpOr_fixed (x : Tenant) (d a b : Fin 16) (s : State) : ∀ t, execSpOr x d a b s = .next t → fixedPart t = fixedPart s := by
  grind (splits := 24) [execSpOr, aluStep_fixed, issue_fixed]

theorem execSpXor_fixed (x : Tenant) (d a b : Fin 16) (s : State) : ∀ t, execSpXor x d a b s = .next t → fixedPart t = fixedPart s := by
  grind (splits := 24) [execSpXor, aluStep_fixed, issue_fixed]

theorem execSpShl_fixed (x : Tenant) (d a b : Fin 16) (s : State) : ∀ t, execSpShl x d a b s = .next t → fixedPart t = fixedPart s := by
  grind (splits := 24) [execSpShl, aluStep_fixed, issue_fixed]

theorem execSpShr_fixed (x : Tenant) (d a b : Fin 16) (s : State) : ∀ t, execSpShr x d a b s = .next t → fixedPart t = fixedPart s := by
  grind (splits := 24) [execSpShr, aluStep_fixed, issue_fixed]

theorem execSpAsr_fixed (x : Tenant) (d a b : Fin 16) (s : State) : ∀ t, execSpAsr x d a b s = .next t → fixedPart t = fixedPart s := by
  grind (splits := 24) [execSpAsr, aluStep_fixed, issue_fixed]

theorem execSpMul_fixed (x : Tenant) (d a b : Fin 16) (s : State) : ∀ t, execSpMul x d a b s = .next t → fixedPart t = fixedPart s := by
  grind (splits := 24) [execSpMul, aluStep_fixed, issue_fixed]

theorem execSpCmp_fixed (x : Tenant) (a b : Fin 16) (s : State) : ∀ t, execSpCmp x a b s = .next t → fixedPart t = fixedPart s := by
  grind (splits := 24) [execSpCmp, cmpStep_fixed, issue_fixed]

theorem execSpAddi_fixed (x : Tenant) (d a : Fin 16) (imm : BitVec 18) (s : State) : ∀ t, execSpAddi x d a imm s = .next t → fixedPart t = fixedPart s := by
  grind (splits := 24) [execSpAddi, aluStep_fixed, issue_fixed]

theorem execSpAndi_fixed (x : Tenant) (d a : Fin 16) (imm : BitVec 18) (s : State) : ∀ t, execSpAndi x d a imm s = .next t → fixedPart t = fixedPart s := by
  grind (splits := 24) [execSpAndi, aluStep_fixed, issue_fixed]

theorem execSpOri_fixed (x : Tenant) (d a : Fin 16) (imm : BitVec 18) (s : State) : ∀ t, execSpOri x d a imm s = .next t → fixedPart t = fixedPart s := by
  grind (splits := 24) [execSpOri, aluStep_fixed, issue_fixed]

theorem execSpXori_fixed (x : Tenant) (d a : Fin 16) (imm : BitVec 18) (s : State) : ∀ t, execSpXori x d a imm s = .next t → fixedPart t = fixedPart s := by
  grind (splits := 24) [execSpXori, aluStep_fixed, issue_fixed]

theorem execSpCmpi_fixed (x : Tenant) (a : Fin 16) (imm : BitVec 18) (s : State) : ∀ t, execSpCmpi x a imm s = .next t → fixedPart t = fixedPart s := by
  grind (splits := 24) [execSpCmpi, cmpStep_fixed, issue_fixed]

theorem execSpLui_fixed (x : Tenant) (d : Fin 16) (imm : BitVec 18) (s : State) : ∀ t, execSpLui x d imm s = .next t → fixedPart t = fixedPart s := by
  grind (splits := 24) [execSpLui, aluStep_fixed, issue_fixed]

theorem execSpJ_fixed (x : Tenant) (cond : Fin 8) (target : BitVec 10) (s : State) : ∀ t, execSpJ x cond target s = .next t → fixedPart t = fixedPart s := by
  grind (splits := 24) [execSpJ, issue_fixed, jumpTo_fixed, retire_fixed]

theorem execSpCall_fixed (x : Tenant) (cond : Fin 8) (target : BitVec 10) (s : State) : ∀ t, execSpCall x cond target s = .next t → fixedPart t = fixedPart s := by
  grind (splits := 24) [execSpCall, issue_fixed, modCtx_fixed, retire_fixed, retireTo_fixed, spoolFault_fixed]

theorem execSpRet_fixed (x : Tenant) (cond : Fin 8) (s : State) : ∀ t, execSpRet x cond s = .next t → fixedPart t = fixedPart s := by
  grind (splits := 24) [execSpRet, issue_fixed, modCtx_fixed, retire_fixed, retireTo_fixed, spoolFault_fixed]

theorem execSpJr_fixed (x : Tenant) (a : Fin 16) (s : State) : ∀ t, execSpJr x a s = .next t → fixedPart t = fixedPart s := by
  grind (splits := 24) [execSpJr, issue_fixed, jumpTo_fixed]

theorem execSpDjnz_fixed (x : Tenant) (d : Fin 16) (imm : BitVec 18) (s : State) : ∀ t, execSpDjnz x d imm s = .next t → fixedPart t = fixedPart s := by
  grind (splits := 24) [execSpDjnz, issue_fixed, modCtx_fixed, retire_fixed, retireTo_fixed, spoolFault_fixed]

theorem execSpWaitt_fixed (x : Tenant) (d a b : Fin 16) (off : BitVec 14) (s : State) : ∀ t, execSpWaitt x d a b off s = .next t → fixedPart t = fixedPart s := by
  grind (splits := 24) [execSpWaitt, enterWait_fixed, issue_fixed]

theorem execSpWaitd_fixed (x : Tenant) (a : Fin 16) (imm : BitVec 18) (s : State) : ∀ t, execSpWaitd x a imm s = .next t → fixedPart t = fixedPart s := by
  grind (splits := 24) [execSpWaitd, enterWait_fixed, finishStart_fixed, issue_fixed, modCtx_fixed]

theorem execSpWaite_fixed (x : Tenant) (d a b : Fin 16) (src : BitVec 4) (s : State) : ∀ t, execSpWaite x d a b src s = .next t → fixedPart t = fixedPart s := by
  grind (splits := 24) [execSpWaite, enterWait_fixed, issue_fixed, wAtOnce_fixed]

theorem execSpGett_fixed (x : Tenant) (d a b : Fin 16) (part : BitVec 2) (s : State) : ∀ t, execSpGett x d a b part s = .next t → fixedPart t = fixedPart s := by
  grind (splits := 24) [execSpGett, issue_fixed, modCtx_fixed, retire_fixed]

theorem execSpLd_fixed (x : Tenant) (d a : Fin 16) (imm : BitVec 18) (s : State) : ∀ t, execSpLd x d a imm s = .next t → fixedPart t = fixedPart s := by
  grind (splits := 24) [execSpLd, issue_fixed, modCtx_fixed, retire_fixed, spoolFault_fixed]

theorem execSpSt_fixed (x : Tenant) (d a : Fin 16) (imm : BitVec 18) (s : State) : ∀ t, execSpSt x d a imm s = .next t → fixedPart t = fixedPart s := by
  grind (splits := 24) [execSpSt, issue_fixed, modCtx_fixed, retire_fixed, spoolFault_fixed]

theorem execSpYield_fixed (x : Tenant) (d a b : Fin 16) (s : State) : ∀ t, execSpYield x d a b s = .next t → fixedPart t = fixedPart s := by
  grind (splits := 24) [execSpYield, issue_fixed, modCtx_fixed, retire_fixed]

theorem execSpHalt_fixed (x : Tenant) (d a b : Fin 16) (s : State) : ∀ t, execSpHalt x d a b s = .next t → fixedPart t = fixedPart s := by
  grind (splits := 24) [execSpHalt, endProgram_fixed, issue_fixed, retire_fixed]

theorem execWaittRelease_fixed (x : Tenant) (now : Tick) (s : State) : ∀ t, execWaittRelease x now s = .next t → fixedPart t = fixedPart s := by
  grind (splits := 24) [execWaittRelease, advanceTo_fixed, endWait_fixed]

theorem execWaitdRelease_fixed (x : Tenant) (now : Tick) (s : State) : ∀ t, execWaitdRelease x now s = .next t → fixedPart t = fixedPart s := by
  grind (splits := 24) [execWaitdRelease, advanceTo_fixed, endWait_fixed]

theorem execWaiteRelease_fixed (x : Tenant) (now : Tick) (s : State) : ∀ t, execWaiteRelease x now s = .next t → fixedPart t = fixedPart s := by
  grind (splits := 24) [execWaiteRelease, advanceTo_fixed, endWait_fixed]

end Sys2Proof.Machine
end

