-- ==== Sys2Proof/Laws/FixedBlocks.lean ====
section
/-!
SUPPORT. Frame lemmas of the Spool services, Bridle, the check value units, the Gondola, Reel and the ledger: nothing here touches the queue
of commands, the serial number or the binding of ports to tenants.
-/
namespace Sys2Proof.Machine
set_option linter.all false

-- ------------------------------------------------------------ Services

@[simp] theorem startWake_fixed (c : WakeCause) (s : State) : fixedPart (startWake c s) = fixedPart s := by
  grind [startWake, setPower_fixed]

@[simp] theorem queueCommit_fixed (k : CommitKind) (pages : Nat) (s : State) : fixedPart (queueCommit k pages s) = fixedPart s := by
  (unfold queueCommit; simp; done)

@[simp] theorem queueFirst_fixed (k : CommitKind) (pages : Nat) (s : State) : fixedPart (queueFirst k pages s) = fixedPart s := by
  (unfold queueFirst; simp; done)

@[simp] theorem mendEvent_fixed (code : Nat) (degraded : Bool) (s : State) : fixedPart (mendEvent code degraded s) = fixedPart s := by
  grind [mendEvent, raiseAll_fixed]

@[simp] theorem mendLoss_fixed (code bitNo : Nat) (s : State) : fixedPart (mendLoss code bitNo s) = fixedPart s := by
  grind [mendLoss, logEntry_fixed, mendEvent_fixed, setMend_fixed]

@[simp] theorem logAuthFail_fixed (role : Byte) (t : Tenant) (s : State) : fixedPart (logAuthFail role t s) = fixedPart s := by
  (unfold logAuthFail; simp; done)

@[simp] theorem entropy48_fixed (s : State) : fixedPart (entropy48 s).2 = fixedPart s := by
  (unfold entropy48; (repeat' ((try dsimp only); split)) <;> ((try dsimp only) <;> first | (simp; done) | grind [] | rfl))

@[simp] theorem drbgStart_fixed (s : State) : fixedPart (drbgStart s) = fixedPart s := by
  grind [drbgStart, entropy48_fixed, setBri_fixed]

@[simp] theorem drbgFresh_fixed (s : State) : fixedPart (drbgFresh s) = fixedPart s := by
  grind [drbgFresh, entropy48_fixed, setBri_fixed]

theorem drbgTake_fixed (n : Nat) (s : State) : ∀ r, drbgTake n s = some r → fixedPart r.2 = fixedPart s := by
  grind [drbgTake, setBri_fixed]

@[simp] theorem serveReqs_fixed (y0 : List EngineReq) (s : State) : fixedPart (serveReqs y0 s).2 = fixedPart s := by
  induction y0 generalizing s with
  | nil => rfl
  | cons e r ih =>
    unfold serveReqs
    split
    · have h := drbgTake_fixed _ _ _ ‹_›
      dsimp only at h ⊢
      rw [ih, h]
    · dsimp only
      rw [ih]

@[simp] theorem serveRng_fixed (s : State) : fixedPart (serveRng s) = fixedPart s := by
  grind [serveRng, serveReqs_fixed, setBri_fixed]

@[simp] theorem dropOrphans_fixed (s : State) : fixedPart (dropOrphans s) = fixedPart s := by
  grind [dropOrphans, setBri_fixed]

theorem chargeKey_fixed (k : Fin 48) (n : Nat) (s : State) : ∀ r, chargeKey k n s = some r → fixedPart r = fixedPart s := by
  grind [chargeKey, modSlot_fixed, queueCommit_fixed]

@[simp] theorem cacheKey_fixed (k : Fin 48) (s : State) : fixedPart (cacheKey k s) = fixedPart s := by
  (unfold cacheKey; simp; done)

theorem useKey_fixed (t : Tenant) (n : Nat) (ok : KeyClass → Bool) (s : State) : ∀ r, useKey t n ok s = .ok r → fixedPart r.2 = fixedPart s := by
  grind [useKey, cacheKey_fixed, chargeKey_fixed]

@[simp] theorem closeSession_fixed (t : Tenant) (reason : Nat) (s : State) : fixedPart (closeSession t reason s) = fixedPart s := by
  grind [closeSession, dropWaiters_fixed, releaseAir_fixed, sessionGone_fixed]

@[simp] theorem closeTagSession_fixed (reason : Nat) (s : State) : fixedPart (closeTagSession reason s) = fixedPart s := by
  grind [closeTagSession, raise_fixed, setTag_fixed]

@[simp] theorem endAcc_fixed (t : Tenant) (status : Byte) (tagErr : Byte) (reason : Nat) (s : State) : fixedPart (endAcc t status tagErr reason s) = fixedPart s := by
  (unfold endAcc; (repeat' ((try dsimp only); split)) <;> ((try dsimp only) <;> first | (simp only [endProgram_fixed, evSessionClosed_fixed, modSess_fixed, raise_fixed, setAcc_fixed, tagErr_fixed]; done) | (simp only [endProgram_fixed, evSessionClosed_fixed, modSess_fixed, raise_fixed, setAcc_fixed, tagErr_fixed]; rfl) | (simp; done) | grind [endProgram_fixed, evSessionClosed_fixed, modSess_fixed, raise_fixed, setAcc_fixed, tagErr_fixed] | rfl))

-- ------------------------------------------------------------ Reel

@[simp] theorem toutAct_fixed (n : Tenant) (act : Nat) (t : Tick) (s : State) : fixedPart (toutAct n act t s) = fixedPart s := by
  grind [toutAct, modTout_fixed]

@[simp] theorem dcFired_fixed (n : Tenant) (s : State) : fixedPart (dcFired n s) = fixedPart s := by
  grind [dcFired, modCtx_fixed, modDc_fixed, raise_fixed, toutAct_fixed]

@[simp] theorem masterEvent_fixed (n : Tenant) (src : Nat) (s : State) : fixedPart (masterEvent n src s) = fixedPart s := by
  grind [masterEvent, dcFired_fixed, modDc_fixed]

theorem execTmrRead_fixed (c : Cmd) (s : State) : ∀ t, execTmrRead c s = .next t → fixedPart t = fixedPart s := by
  intro t h
  cases h
  apply keelRun_fixed
  intro r
  grind [keelRun_fixed, refuse_fixed, reply_fixed]

theorem execTmrCmp_fixed (c : Cmd) (s : State) : ∀ t, execTmrCmp c s = .next t → fixedPart t = fixedPart s := by
  intro t h
  cases h
  apply keelRun_fixed
  intro r
  grind [keelRun_fixed, modCmp_fixed, refuse_fixed, reply_fixed]

theorem execTmrDc_fixed (c : Cmd) (s : State) : ∀ t, execTmrDc c s = .next t → fixedPart t = fixedPart s := by
  intro t h
  cases h
  apply keelRun_fixed
  intro r
  grind [keelRun_fixed, modDc_fixed, refuse_fixed, reply_fixed]

@[simp] theorem goRelease_fixed (mask : Nat) (s : State) : fixedPart (goRelease mask s) = fixedPart s := by
  (unfold goRelease; (repeat' ((try dsimp only); split)) <;> ((try dsimp only) <;> first | (simp; done) | grind [] | rfl))

theorem execTmrGo_fixed (c : Cmd) (s : State) : ∀ t, execTmrGo c s = .next t → fixedPart t = fixedPart s := by
  intro t h
  cases h
  apply keelRun_fixed
  intro r
  grind [goRelease_fixed, keelRun_fixed, refuse_fixed, reply_fixed]

theorem execTmrCap_fixed (c : Cmd) (s : State) : ∀ t, execTmrCap c s = .next t → fixedPart t = fixedPart s := by
  intro t h
  cases h
  apply keelRun_fixed
  intro r
  grind [keelRun_fixed, modCap_fixed, refuse_fixed, reply_fixed]

theorem execTmrOut_fixed (c : Cmd) (s : State) : ∀ t, execTmrOut c s = .next t → fixedPart t = fixedPart s := by
  intro t h
  cases h
  apply keelRun_fixed
  intro r
  grind [keelRun_fixed, modTout_fixed, refuse_fixed, reply_fixed, toutAct_fixed]

theorem execCompareFire_fixed (k : Fin 12) (now : Tick) (s : State) : ∀ t, execCompareFire k now s = .next t → fixedPart t = fixedPart s := by
  grind (splits := 24) [execCompareFire, advanceTo_fixed, masterEvent_fixed, modCmp_fixed, modCtx_fixed, raise_fixed, toutAct_fixed]

theorem execDcFire_fixed (n : Tenant) (now : Tick) (s : State) : ∀ t, execDcFire n now s = .next t → fixedPart t = fixedPart s := by
  grind (splits := 24) [execDcFire, advanceTo_fixed, dcFired_fixed]

theorem execCaptureEdge_fixed (n : Tenant) (rising : Bool) (now : Tick) (s : State) : ∀ t, execCaptureEdge n rising now s = .next t → fixedPart t = fixedPart s := by
  grind (splits := 24) [execCaptureEdge, advanceTo_fixed, drawBool_fixed, masterEvent_fixed, modCap_fixed, modCtx_fixed, raise_fixed]

theorem execToutPulseEnd_fixed (n : Tenant) (now : Tick) (s : State) : ∀ t, execToutPulseEnd n now s = .next t → fixedPart t = fixedPart s := by
  grind (splits := 24) [execToutPulseEnd, advanceTo_fixed, modTout_fixed]

theorem execSpTout_fixed (x : Tenant) (d : Fin 16) (act : Fin 5) (s : State) : ∀ t, execSpTout x d act s = .next t → fixedPart t = fixedPart s := by
  grind (splits := 24) [execSpTout, issue_fixed, retire_fixed, spoolFault_fixed, toutAct_fixed]

-- ------------------------------------------------------------ Ledger

@[simp] theorem openInterval_fixed (t : Tick) (s : State) : fixedPart (openInterval t s) = fixedPart s := by
  grind [openInterval, queueCommit_fixed, setLdg_fixed]

@[simp] theorem ringMakeRoom_fixed (n : Nat) (y0 : Nat) (s : State) : fixedPart (ringMakeRoom n y0 s) = fixedPart s := by
  induction y0 generalizing s with
  | zero => rfl
  | succ f ih => unfold ringMakeRoom; dsimp only; (repeat' split) <;> first | rfl | (rw [ih]; simp)

@[simp] theorem sealRecord_fixed (flags : BitVec 16) (start stop : Int) (counts : List Nat) (s : State) : fixedPart (sealRecord flags start stop counts s) = fixedPart s := by
  grind [sealRecord, queueCommit_fixed, ringMakeRoom_fixed, setLdg_fixed]

@[simp] theorem sealOpen_fixed (extra : BitVec 16) (stop : Int) (s : State) : fixedPart (sealOpen extra stop s) = fixedPart s := by
  grind [sealOpen, sealRecord_fixed]

@[simp] theorem boundaryIfDue_fixed (s : State) : fixedPart (boundaryIfDue s) = fixedPart s := by
  grind [boundaryIfDue, openInterval_fixed, sealOpen_fixed]

theorem execIntervalBoundary_fixed (now : Tick) (s : State) : ∀ t, execIntervalBoundary now s = .next t → fixedPart t = fixedPart s := by
  grind (splits := 24) [execIntervalBoundary, advanceTo_fixed, boundaryIfDue_fixed]

theorem execLedgerSealLanded_fixed (s : State) : ∀ t, execLedgerSealLanded s = .next t → fixedPart t = fixedPart s := by
  grind (splits := 24) [execLedgerSealLanded, raise_fixed, setLdg_fixed]

@[simp] theorem countRead_fixed (epc : Bytes) (s : State) : fixedPart (countRead epc s) = fixedPart s := by
  grind [countRead, boundaryIfDue_fixed, setLdg_fixed]

@[simp] theorem ledgerStart_fixed (s : State) : fixedPart (ledgerStart s) = fixedPart s := by
  grind [ledgerStart, openInterval_fixed, sealRecord_fixed, setLdg_fixed]

theorem execLedgerConfig_fixed (c : Cmd) (s : State) : ∀ t, execLedgerConfig c s = .next t → fixedPart t = fixedPart s := by
  intro t h
  cases h
  apply keelRun_fixed
  intro r
  grind [keelRun_fixed, queueCommit_fixed, refuse_fixed, reply_fixed, setLdg_fixed]

theorem execLedgerOwner_fixed (c : Cmd) (s : State) : ∀ t, execLedgerOwner c s = .next t → fixedPart t = fixedPart s := by
  intro t h
  cases h
  apply keelRun_fixed
  intro r
  grind [keelRun_fixed, queueCommit_fixed, refuse_fixed, reply_fixed, setLdg_fixed]

theorem execLedgerRead_fixed (c : Cmd) (s : State) : ∀ t, execLedgerRead c s = .next t → fixedPart t = fixedPart s := by
  intro t h
  cases h
  apply keelRun_fixed
  intro r
  grind [keelRun_fixed, refuse_fixed, reply_fixed]

theorem execLedgerAck_fixed (c : Cmd) (s : State) : ∀ t, execLedgerAck c s = .next t → fixedPart t = fixedPart s := by
  intro t h
  cases h
  apply keelRun_fixed
  intro r
  grind [keelRun_fixed, refuse_fixed, reply_fixed, setLdg_fixed]

theorem execLedgerStatus_fixed (c : Cmd) (s : State) : ∀ t, execLedgerStatus c s = .next t → fixedPart t = fixedPart s := by
  intro t h
  cases h
  apply keelRun_fixed
  intro r
  grind [keelRun_fixed, refuse_fixed, reply_fixed]

theorem execClockSet_fixed (c : Cmd) (s : State) : ∀ t, execClockSet c s = .next t → fixedPart t = fixedPart s := by
  intro t h
  cases h
  apply keelRun_fixed
  intro r
  grind [boundaryIfDue_fixed, keelRun_fixed, openInterval_fixed, refuse_fixed, reply_fixed, sealOpen_fixed, setLdg_fixed]

-- ------------------------------------------------------------ Cvu

theorem execCvuSet_fixed (c : Cmd) (s : State) : ∀ t, execCvuSet c s = .next t → fixedPart t = fixedPart s := by
  intro t h
  cases h
  apply keelRun_fixed
  intro r
  ((repeat' ((try dsimp only); split)) <;> ((try dsimp only) <;> first | (simp only [keelRun_fixed, refuse_fixed, reply_fixed]; done) | (simp only [keelRun_fixed, refuse_fixed, reply_fixed]; rfl) | (simp; done) | grind [keelRun_fixed, refuse_fixed, reply_fixed] | rfl))

theorem execCvuRun_fixed (c : Cmd) (s : State) : ∀ t, execCvuRun c s = .next t → fixedPart t = fixedPart s := by
  intro t h
  cases h
  apply keelRun_fixed
  intro r
  grind [keelRun_fixed, refuse_fixed, reply_fixed]

theorem execSpCrc_fixed (x : Tenant) (d a b : Fin 16) (preset : Fin 5) (mode : Fin 3) (s : State) : ∀ t, execSpCrc x d a b preset mode s = .next t → fixedPart t = fixedPart s := by
  grind (splits := 24) [execSpCrc, issue_fixed, modBuf_fixed, modCtx_fixed, retire_fixed, spoolFault_fixed]

-- ------------------------------------------------------------ Gondola

@[simp] theorem dropMsg_fixed (m : Option Msg) (s : State) : fixedPart (dropMsg m s) = fixedPart s := by
  (unfold dropMsg; (repeat' ((try dsimp only); split)) <;> ((try dsimp only) <;> first | (simp only [freeBuf_fixed]; done) | (simp only [freeBuf_fixed]; rfl) | (simp; done) | grind [freeBuf_fixed] | rfl))

@[simp] theorem ringDoorbell_fixed (g : Fin 16) (m : Msg) (coll : Bool) (s : State) : fixedPart (ringDoorbell g m coll s) = fixedPart s := by
  grind [ringDoorbell, modCtx_fixed, raise_fixed]

@[simp] theorem writeChan_fixed (g : Fin 16) (snd : Nat) (words : List Reg32) (hand : Option (Fin 32)) (s : State) : fixedPart (writeChan g snd words hand s) = fixedPart s := by
  grind [writeChan, dropMsg_fixed, modChan_fixed, ringDoorbell_fixed]

theorem execMbxBind_fixed (c : Cmd) (s : State) : ∀ t, execMbxBind c s = .next t → fixedPart t = fixedPart s := by
  intro t h
  cases h
  apply keelRun_fixed
  intro r
  grind [dropMsg_fixed, keelRun_fixed, modChan_fixed, refuse_fixed, reply_fixed]

theorem execMbxLock_fixed (c : Cmd) (s : State) : ∀ t, execMbxLock c s = .next t → fixedPart t = fixedPart s := by
  intro t h
  cases h
  apply keelRun_fixed
  intro r
  ((repeat' ((try dsimp only); split)) <;> ((try dsimp only) <;> first | (simp only [keelRun_fixed, refuse_fixed, reply_fixed]; done) | (simp only [keelRun_fixed, refuse_fixed, reply_fixed]; rfl) | (simp; done) | grind [keelRun_fixed, refuse_fixed, reply_fixed] | rfl))

theorem execMbxWrite_fixed (c : Cmd) (s : State) : ∀ t, execMbxWrite c s = .next t → fixedPart t = fixedPart s := by
  intro t h
  cases h
  apply keelRun_fixed
  intro r
  grind [keelRun_fixed, refuse_fixed, reply_fixed, writeChan_fixed]

theorem execMbxRead_fixed (c : Cmd) (s : State) : ∀ t, execMbxRead c s = .next t → fixedPart t = fixedPart s := by
  intro t h
  cases h
  apply keelRun_fixed
  intro r
  grind [dropMsg_fixed, keelRun_fixed, modChan_fixed, refuse_fixed, reply_fixed]

theorem execSemTake_fixed (c : Cmd) (s : State) : ∀ t, execSemTake c s = .next t → fixedPart t = fixedPart s := by
  intro t h
  cases h
  apply keelRun_fixed
  intro r
  grind [keelRun_fixed, modSem_fixed, refuse_fixed, reply_fixed]

theorem execSemGive_fixed (c : Cmd) (s : State) : ∀ t, execSemGive c s = .next t → fixedPart t = fixedPart s := by
  intro t h
  cases h
  apply keelRun_fixed
  intro r
  grind [keelRun_fixed, modSem_fixed, refuse_fixed, reply_fixed]

@[simp] theorem breakSems_fixed (t : Tenant) (s : State) : fixedPart (breakSems t s) = fixedPart s := by
  (unfold breakSems; (repeat' ((try dsimp only); split)) <;> ((try dsimp only) <;> first | (simp; done) | grind [] | rfl))

theorem execSpPost_fixed (x : Tenant) (d a b : Fin 16) (n : Fin 9) (hand : Bool) (s : State) : ∀ t, execSpPost x d a b n hand s = .next t → fixedPart t = fixedPart s := by
  grind (splits := 24) [execSpPost, issue_fixed, modCtx_fixed, retire_fixed, spoolFault_fixed, writeChan_fixed]

theorem execSpMread_fixed (x : Tenant) (d a b : Fin 16) (s : State) : ∀ t, execSpMread x d a b s = .next t → fixedPart t = fixedPart s := by
  grind (splits := 24) [execSpMread, dropMsg_fixed, issue_fixed, modChan_fixed, modCtx_fixed, retire_fixed, spoolFault_fixed]

-- ------------------------------------------------------------ Bridle

@[simp] theorem placeKey_fixed (k : Fin 48) (key : Key) (s : State) : fixedPart (placeKey k key s) = fixedPart s := by
  grind [placeKey, modSlot_fixed, queueCommit_fixed]

theorem execKeyDerive_fixed (c : Cmd) (s : State) : ∀ t, execKeyDerive c s = .next t → fixedPart t = fixedPart s := by
  intro t h
  cases h
  apply keelRun_fixed
  intro r
  grind [chargeKey_fixed, keelRun_fixed, placeKey_fixed, refuse_fixed, reply_fixed, setBri_fixed]

theorem execKeyUnwrap_fixed (c : Cmd) (s : State) : ∀ t, execKeyUnwrap c s = .next t → fixedPart t = fixedPart s := by
  intro t h
  cases h
  apply keelRun_fixed
  intro r
  ((repeat' ((try dsimp only); split)) <;> ((try dsimp only) <;> first | (simp only [cacheKey_fixed, keelRun_fixed, placeKey_fixed, refuse_fixed, reply_fixed]; done) | (simp only [cacheKey_fixed, keelRun_fixed, placeKey_fixed, refuse_fixed, reply_fixed]; rfl) | (simp; done) | (have e := chargeKey_fixed _ _ _ _ ‹_›; (try simp only [cacheKey_fixed, keelRun_fixed, placeKey_fixed, refuse_fixed, reply_fixed] at e ⊢); exact e) | grind [cacheKey_fixed, chargeKey_fixed, keelRun_fixed, placeKey_fixed, refuse_fixed, reply_fixed] | rfl))

theorem execKeyErase_fixed (c : Cmd) (s : State) : ∀ t, execKeyErase c s = .next t → fixedPart t = fixedPart s := by
  intro t h
  cases h
  apply keelRun_fixed
  intro r
  grind [keelRun_fixed, queueCommit_fixed, refuse_fixed, reply_fixed]

theorem execKeyInvalidate_fixed (c : Cmd) (s : State) : ∀ t, execKeyInvalidate c s = .next t → fixedPart t = fixedPart s := by
  intro t h
  cases h
  apply keelRun_fixed
  intro r
  grind [keelRun_fixed, queueCommit_fixed, refuse_fixed]

theorem execKeyInfo_fixed (c : Cmd) (s : State) : ∀ t, execKeyInfo c s = .next t → fixedPart t = fixedPart s := by
  intro t h
  cases h
  apply keelRun_fixed
  intro r
  grind [keelRun_fixed, refuse_fixed, reply_fixed]

@[simp] theorem failEngineWait_fixed (t : Tenant) (status : Byte) (s : State) : fixedPart (failEngineWait t status s) = fixedPart s := by
  grind [failEngineWait, endWait_fixed]

@[simp] theorem tamperApply_fixed (s : State) : fixedPart (tamperApply s) = fixedPart s := by
  grind [tamperApply, closeSession_fixed, closeTagSession_fixed, endAcc_fixed, failEngineWait_fixed, forTenants_fixed, logEntry_fixed, queueFirst_fixed, raiseAll_fixed, setBri_fixed, setTag_fixed]

theorem execKeyTamper_fixed (c : Cmd) (pinHigh : Bool) (s : State) : ∀ t, execKeyTamper c pinHigh s = .next t → fixedPart t = fixedPart s := by
  intro t h
  cases h
  apply keelRun_fixed
  intro r
  grind [keelRun_fixed, refuse_fixed, reply_fixed, setBri_fixed, tamperApply_fixed]

theorem execTamperAssertion_fixed (now : Tick) (s : State) : ∀ t, execTamperAssertion now s = .next t → fixedPart t = fixedPart s := by
  grind (splits := 24) [execTamperAssertion, advanceTo_fixed, setBri_fixed, startWake_fixed, tamperApply_fixed]

theorem execRngGet_fixed (c : Cmd) (s : State) : ∀ t, execRngGet c s = .next t → fixedPart t = fixedPart s := by
  intro t h
  cases h
  apply keelRun_fixed
  intro r
  ((repeat' ((try dsimp only); split)) <;> ((try dsimp only) <;> first | (simp only [keelRun_fixed, refuse_fixed, reply_fixed, serveRng_fixed]; done) | (simp only [keelRun_fixed, refuse_fixed, reply_fixed, serveRng_fixed]; rfl) | (simp; done) | (have e := drbgTake_fixed _ _ _ ‹_›; (try simp only [keelRun_fixed, refuse_fixed, reply_fixed, serveRng_fixed] at e ⊢); exact e) | grind [drbgTake_fixed, keelRun_fixed, refuse_fixed, reply_fixed, serveRng_fixed] | rfl))

theorem execCryptoAes_fixed (c : Cmd) (s : State) : ∀ t, execCryptoAes c s = .next t → fixedPart t = fixedPart s := by
  intro t h
  cases h
  apply keelRun_fixed
  intro r
  ((repeat' ((try dsimp only); split)) <;> ((try dsimp only) <;> first | (simp only [keelRun_fixed, refuse_fixed, reply_fixed]; done) | (simp only [keelRun_fixed, refuse_fixed, reply_fixed]; rfl) | (simp; done) | (have e := useKey_fixed _ _ _ _ _ ‹_›; (try simp only [keelRun_fixed, refuse_fixed, reply_fixed] at e ⊢); exact e) | grind [keelRun_fixed, refuse_fixed, reply_fixed, useKey_fixed] | rfl))

theorem execCryptoCcm_fixed (c : Cmd) (s : State) : ∀ t, execCryptoCcm c s = .next t → fixedPart t = fixedPart s := by
  intro t h
  cases h
  apply keelRun_fixed
  intro r
  ((repeat' ((try dsimp only); split)) <;> ((try dsimp only) <;> first | (simp only [keelRun_fixed, refuse_fixed, reply_fixed]; done) | (simp only [keelRun_fixed, refuse_fixed, reply_fixed]; rfl) | (simp; done) | (have e := useKey_fixed _ _ _ _ _ ‹_›; (try simp only [keelRun_fixed, refuse_fixed, reply_fixed] at e ⊢); exact e) | grind [keelRun_fixed, refuse_fixed, reply_fixed, useKey_fixed] | rfl))

theorem execCryptoCmac_fixed (c : Cmd) (s : State) : ∀ t, execCryptoCmac c s = .next t → fixedPart t = fixedPart s := by
  intro t h
  cases h
  apply keelRun_fixed
  intro r
  ((repeat' ((try dsimp only); split)) <;> ((try dsimp only) <;> first | (simp only [keelRun_fixed, refuse_fixed, reply_fixed]; done) | (simp only [keelRun_fixed, refuse_fixed, reply_fixed]; rfl) | (simp; done) | (have e := useKey_fixed _ _ _ _ _ ‹_›; (try simp only [keelRun_fixed, refuse_fixed, reply_fixed] at e ⊢); exact e) | grind [keelRun_fixed, refuse_fixed, reply_fixed, useKey_fixed] | rfl))

theorem execCryptoReset_fixed (c : Cmd) (s : State) : ∀ t, execCryptoReset c s = .next t → fixedPart t = fixedPart s := by
  intro t h
  cases h
  apply keelRun_fixed
  intro r
  grind [closeSession_fixed, endWait_fixed, failEngineWait_fixed, keelRun_fixed, refuse_fixed, reply_fixed, setBri_fixed, setEpoch_fixed]

@[simp] theorem entropyFail_fixed (s : State) : fixedPart (entropyFail s) = fixedPart s := by
  grind [entropyFail, mendLoss_fixed, setBri_fixed]

theorem execDrbgReseed_fixed (passed : Bool) (s : State) : ∀ t, execDrbgReseed passed s = .next t → fixedPart t = fixedPart s := by
  grind (splits := 24) [execDrbgReseed, drbgFresh_fixed, drbgStart_fixed, entropyFail_fixed, setBri_fixed]

theorem execEntropyRetry_fixed (passed : Bool) (s : State) : ∀ t, execEntropyRetry passed s = .next t → fixedPart t = fixedPart s := by
  grind (splits := 24) [execEntropyRetry, drbgStart_fixed, setBri_fixed, setMend_fixed]

theorem execBlockReply_fixed (block : Fin 4) (x : Tenant) (epoch : BitVec 16) (s : State) : ∀ t, execBlockReply block x epoch s = .next t → fixedPart t = fixedPart s := by
  (unfold execBlockReply; (repeat' ((try dsimp only); split)) <;> ((try dsimp only) <;> first | (simp only [countStale_fixed, setBri_fixed]; done) | (simp only [countStale_fixed, setBri_fixed]; rfl) | (simp; done) | grind [countStale_fixed, setBri_fixed] | rfl))

end Sys2Proof.Machine
end

