-- ==== Sys2Proof/Laws/FixedRadio.lean ====
section
/-!
SUPPORT. Frame lemmas of the reader air interface and Survey: nothing here touches the queue
of commands, the serial number or the binding of ports to tenants.
-/
namespace Sys2Proof.Machine
set_option linter.all false

-- ------------------------------------------------------------ SpoolIo

@[simp] theorem gatherCaps_fixed (c : BitVec 32) (s : State) : fixedPart (gatherCaps c s) = fixedPart s := by
  (unfold gatherCaps; simp; done)

@[simp] theorem tellRead_fixed (t : Tenant) (tseq : BitVec 16) (rssi phase : Byte) (r : TagRead) (s : State) : fixedPart (tellRead t tseq rssi phase r s) = fixedPart s := by
  grind [tellRead, countRead_fixed, gatherCaps_fixed, raiseFrom_fixed]

theorem execSpBufAlloc_fixed (x : Tenant) (d : Fin 16) (s : State) : ∀ t, execSpBufAlloc x d s = .next t → fixedPart t = fixedPart s := by
  grind (splits := 24) [execSpBufAlloc, issue_fixed, missBuf_fixed, modCtx_fixed, retire_fixed, serveBuf_fixed]

@[simp] theorem onBuf_fixed (x : Tenant) (a : Fin 16) (body : Fin 32 → State → State) (s : State) (hbody : ∀ a r, fixedPart (body a r) = fixedPart r) : fixedPart (onBuf x a body s) = fixedPart s := by
  grind [onBuf, spoolFault_fixed]

theorem execSpBufFree_fixed (x : Tenant) (d a : Fin 16) (s : State) : ∀ t, execSpBufFree x d a s = .next t → fixedPart t = fixedPart s := by
  grind (splits := 24) [execSpBufFree, freeBuf_fixed, issue_fixed, modCtx_fixed, onBuf_fixed, retire_fixed]

theorem execSpBufRdw_fixed (x : Tenant) (d a b : Fin 16) (s : State) : ∀ t, execSpBufRdw x d a b s = .next t → fixedPart t = fixedPart s := by
  grind (splits := 24) [execSpBufRdw, issue_fixed, modCtx_fixed, onBuf_fixed, retire_fixed, spoolFault_fixed]

theorem execSpBufWrw_fixed (x : Tenant) (d a b : Fin 16) (s : State) : ∀ t, execSpBufWrw x d a b s = .next t → fixedPart t = fixedPart s := by
  grind (splits := 24) [execSpBufWrw, issue_fixed, modBuf_fixed, modCtx_fixed, onBuf_fixed, retire_fixed, spoolFault_fixed]

theorem execSpBufLen_fixed (x : Tenant) (d a : Fin 16) (s : State) : ∀ t, execSpBufLen x d a s = .next t → fixedPart t = fixedPart s := by
  grind (splits := 24) [execSpBufLen, issue_fixed, modCtx_fixed, onBuf_fixed, retire_fixed]

theorem execSpBufSetlen_fixed (x : Tenant) (d a b : Fin 16) (s : State) : ∀ t, execSpBufSetlen x d a b s = .next t → fixedPart t = fixedPart s := by
  grind (splits := 24) [execSpBufSetlen, issue_fixed, modBuf_fixed, modCtx_fixed, onBuf_fixed, retire_fixed, spoolFault_fixed]

@[simp] theorem engineAsk_fixed (x : Tenant) (rng : Bool) (s : State) : fixedPart (engineAsk x rng s) = fixedPart s := by
  grind [engineAsk, setBri_fixed]

@[simp] theorem engineDone_fixed (x : Tenant) (s : State) : fixedPart (engineDone x s) = fixedPart s := by
  (unfold engineDone; simp; done)

@[simp] theorem engineWait_fixed (x : Tenant) (op : WaitOp) (d : Fin 16) (a b : Reg32) (fn : BitVec 14) (s : State) : fixedPart (engineWait x op d a b fn s) = fixedPart s := by
  grind [engineWait, engineAsk_fixed, enterWait_fixed]

theorem execSpKsel_fixed (x : Tenant) (d a b : Fin 16) (s : State) : ∀ t, execSpKsel x d a b s = .next t → fixedPart t = fixedPart s := by
  grind (splits := 24) [execSpKsel, engineWait_fixed, issue_fixed]

theorem execSpAesb_fixed (x : Tenant) (d a b : Fin 16) (decrypt : Bool) (s : State) : ∀ t, execSpAesb x d a b decrypt s = .next t → fixedPart t = fixedPart s := by
  grind (splits := 24) [execSpAesb, engineWait_fixed, issue_fixed, onBuf_fixed, spoolFault_fixed, wAtOnce_fixed]

theorem execSpRng_fixed (x : Tenant) (d a b : Fin 16) (s : State) : ∀ t, execSpRng x d a b s = .next t → fixedPart t = fixedPart s := by
  grind (splits := 24) [execSpRng, engineWait_fixed, issue_fixed, wAtOnce_fixed]

theorem execKselComplete_fixed (x : Tenant) (now : Tick) (s : State) : ∀ t, execKselComplete x now s = .next t → fixedPart t = fixedPart s := by
  grind (splits := 24) [execKselComplete, advanceTo_fixed, cacheKey_fixed, endWait_fixed, engineDone_fixed]

theorem execAesbComplete_fixed (x : Tenant) (now : Tick) (s : State) : ∀ t, execAesbComplete x now s = .next t → fixedPart t = fixedPart s := by
  (intro t h; unfold execAesbComplete at h; (repeat' ((try dsimp only at h); split at h)) <;> (first | cases h | (simp only [Host.Outcome.next.injEq] at h; subst h)) <;> ((try dsimp only) <;> first | (simp only [advanceTo_fixed, endWait_fixed, engineDone_fixed, modBuf_fixed]; done) | (simp only [advanceTo_fixed, endWait_fixed, engineDone_fixed, modBuf_fixed]; rfl) | (simp; done) | (have e := useKey_fixed _ _ _ _ _ ‹_›; (try simp only [advanceTo_fixed, endWait_fixed, engineDone_fixed, modBuf_fixed] at e ⊢); exact e) | grind [advanceTo_fixed, endWait_fixed, engineDone_fixed, modBuf_fixed, useKey_fixed] | rfl))

theorem execRngComplete_fixed (x : Tenant) (now : Tick) (s : State) : ∀ t, execRngComplete x now s = .next t → fixedPart t = fixedPart s := by
  intro t h
  unfold execRngComplete at h
  dsimp only at h
  split at h
  · cases h; simp
  · have key : ∀ o u, (match (List.find? (fun e => e.who == x && !e.stale) (advanceTo now s).bri.engine).bind EngineReq.out with
        | some o => some (o, engineDone x (advanceTo now s))
        | none => drbgTake 4 (engineDone x (advanceTo now s))) = some (o, u) → fixedPart u = fixedPart s := by
      intro o u e
      split at e
      · cases e; simp
      · have e2 := drbgTake_fixed _ _ _ e; simpa using e2
    split at h
    · rename_i e
      cases h
      simp [key _ _ e]
    · cases h; simp

@[simp] theorem handOn_fixed (x : Tenant) (h : Fin 32) (s : State) : fixedPart (handOn x h s) = fixedPart s := by
  grind [handOn, freeBuf_fixed, modCtx_fixed]

theorem execSpEvt_fixed (x : Tenant) (d a : Fin 16) (kind : Fin 3) (s : State) : ∀ t, execSpEvt x d a kind s = .next t → fixedPart t = fixedPart s := by
  grind (splits := 24) [execSpEvt, handOn_fixed, issue_fixed, modCtx_fixed, onBuf_fixed, raiseFrom_fixed, retire_fixed, tellRead_fixed]

-- ------------------------------------------------------------ Reader

@[simp] theorem fwdEnd_fixed (first : Tick) (f : AirFrame) (s : State) : fixedPart (fwdEnd first f s).2 = fixedPart s := by
  grind [fwdEnd, drawBool_fixed]

@[simp] theorem compReady_fixed (m : Sample) (s : State) : fixedPart (compReady m s) = fixedPart s := by
  (unfold compReady; simp; done)

@[simp] theorem compHop_fixed (s : State) : fixedPart (compHop s) = fixedPart s := by
  grind [compHop, compReady_fixed, freshSample_fixed]

@[simp] theorem freshCycle_fixed (s : State) : fixedPart (freshCycle s).2 = fixedPart s := by
  (unfold freshCycle; (repeat' ((try dsimp only); split)) <;> ((try dsimp only) <;> first | (simp only [drawNat_fixed]; done) | (simp only [drawNat_fixed]; rfl) | (simp; done) | (have e := drbgTake_fixed _ _ _ ‹_›; (try simp only [drawNat_fixed] at e ⊢); exact e) | grind [drawNat_fixed, drbgTake_fixed] | rfl))

theorem nextChannel_fixed (t : Tenant) (region : Nat) (s : State) : ∀ r, nextChannel t region s = .ok r → fixedPart r.2 = fixedPart s := by
  (unfold nextChannel; (repeat' ((try dsimp only); split)) <;> ((try dsimp only) <;> first | (simp only [freshCycle_fixed, setRdr_fixed]; done) | (simp only [freshCycle_fixed, setRdr_fixed]; rfl) | (simp; done) | grind [freshCycle_fixed, setRdr_fixed] | rfl))

@[simp] theorem calibrate_fixed (c : CoreId) (cal : Cal) (session : Bool) (s : State) : fixedPart (calibrate c cal session s) = fixedPart s := by
  (unfold calibrate; (repeat' ((try dsimp only); split)) <;> ((try dsimp only) <;> first | (simp only [calEnd_fixed, deepAtChange_fixed, setCore_fixed]; done) | (simp only [calEnd_fixed, deepAtChange_fixed, setCore_fixed]; rfl) | (simp; done) | grind [calEnd_fixed, deepAtChange_fixed, setCore_fixed] | rfl))

@[simp] theorem reportClass_fixed (n : Fin 6) (cls : Nat) (s : State) : fixedPart (reportClass n cls s) = fixedPart s := by
  grind [reportClass, logEntry_fixed, raiseAll_fixed, setSvy_fixed]

@[simp] theorem paLoad_fixed (cur : Nat) (s : State) : fixedPart (paLoad cur s) = fixedPart s := by
  grind [paLoad, reportClass_fixed, setSvy_fixed]

@[simp] theorem rampUp_fixed (p : Profile) (pset : BitVec 16) (at_ : Tick) (s : State) : fixedPart (rampUp p pset at_ s) = fixedPart s := by
  grind [rampUp, compApply_fixed, paUp_fixed, setCore_fixed, setRdr_fixed]

@[simp] theorem rampDone_fixed (p : Profile) (pafb : Int) (pacur : Nat) (s : State) : fixedPart (rampDone p pafb pacur s) = fixedPart s := by
  grind [rampDone, carrierOn_fixed, paLoad_fixed, setRdr_fixed, setSvy_fixed]

@[simp] theorem dpdFrame_fixed (p : Profile) (s : State) : fixedPart (dpdFrame p s) = fixedPart s := by
  grind [dpdFrame, setRdr_fixed]

@[simp] theorem startBuiltin_fixed (t : Tenant) (tseq : BitVec 16) (s : State) : fixedPart (startBuiltin t tseq s) = fixedPart s := by
  grind [startBuiltin, modCtx_fixed]

@[simp] theorem builtinPend_fixed (x : Tenant) (op : WaitOp) (until_ : Tick) (noAir : Bool) (s : State) : fixedPart (builtinPend x op until_ noAir s) = fixedPart s := by
  grind [builtinPend, modCtx_fixed]

@[simp] theorem builtinTune_fixed (x : Tenant) (cls freq : Nat) (s : State) : fixedPart (builtinTune x cls freq s) = fixedPart s := by
  grind [builtinTune, builtinPend_fixed, requestAir_fixed]

@[simp] theorem builtinSend_fixed (x : Tenant) (f : AirFrame) (gap : Nat) (opens : Tick → Option Opening) (s : State) : fixedPart (builtinSend x f gap opens s) = fixedPart s := by
  grind [builtinSend, builtinPend_fixed, compApply_fixed, dpdFrame_fixed, fwdEnd_fixed, setCommit_fixed, setRdr_fixed]

@[simp] theorem frameEnd_fixed (c : CoreId) (s : State) : fixedPart (frameEnd c s) = fixedPart s := by
  grind [frameEnd, grantAir_fixed, setCommit_fixed]

@[simp] theorem v1Flag_fixed (m : Byte) (s : State) : fixedPart (v1Flag m s) = fixedPart s := by
  (unfold v1Flag; simp; done)

@[simp] theorem v1Error_fixed (st : Byte) (s : State) : fixedPart (v1Error st s) = fixedPart s := by
  (unfold v1Error; simp; done)

@[simp] theorem roundTold_fixed (x : Tenant) (i : Inv) (s : State) : fixedPart (roundTold x i s) = fixedPart s := by
  grind [roundTold, raise_fixed, setRdr_fixed, v1Flag_fixed]

@[simp] theorem invDone_fixed (x : Tenant) (status : Byte) (s : State) : fixedPart (invDone x status s) = fixedPart s := by
  grind [invDone, endProgram_fixed, raise_fixed, roundTold_fixed, setInv_fixed, v1Error_fixed]

@[simp] theorem invHop_fixed (x : Tenant) (i : Inv) (s : State) : fixedPart (invHop x i s) = fixedPart s := by
  unfold invHop
  dsimp only
  have base : fixedPart (if holds (.ctx x) .reader (carrierOff s.reel.cnt s) then
      leaveChannel (carrierOff s.reel.cnt s).reel.cnt (carrierOff s.reel.cnt s) else carrierOff s.reel.cnt s) = fixedPart s := by
    split <;> simp
  split
  · have e := nextChannel_fixed _ _ _ _ ‹_›
    dsimp only at e
    simp [e, base]
  · simp only [builtinPend_fixed, setInv_fixed]
    exact ite_fixed (by simp only [releaseAir_fixed, base]) base

@[simp] theorem roundOpen_fixed (x : Tenant) (i : Inv) (sel : Bool) (gap : Nat) (s : State) : fixedPart (roundOpen x i sel gap s) = fixedPart s := by
  grind [roundOpen, builtinSend_fixed, invHop_fixed, setInv_fixed]

@[simp] theorem roundOver_fixed (x : Tenant) (i : Inv) (s : State) : fixedPart (roundOver x i s) = fixedPart s := by
  grind [roundOver, builtinPend_fixed, setInv_fixed]

@[simp] theorem slotOpen_fixed (x : Tenant) (i : Inv) (gap : Nat) (s : State) : fixedPart (slotOpen x i gap s) = fixedPart s := by
  grind [slotOpen, builtinSend_fixed, setInv_fixed]

@[simp] theorem slotDone_fixed (x : Tenant) (i : Inv) (gap : Nat) (s : State) : fixedPart (slotDone x i gap s) = fixedPart s := by
  grind [slotDone, dropBufs_fixed, frameEnd_fixed, roundOver_fixed, setInv_fixed, slotOpen_fixed]

@[simp] theorem invNext_fixed (x : Tenant) (i : Inv) (s : State) : fixedPart (invNext x i s) = fixedPart s := by
  grind [invNext, builtinPend_fixed, carrierOff_fixed, invDone_fixed, invHop_fixed, rampUp_fixed, releaseAir_fixed, roundOpen_fixed, setHold_fixed, setInv_fixed, setRdr_fixed]

@[simp] theorem countHz_fixed (l : LinkSet) (hz : Nat) (s : State) : fixedPart (countHz l hz s) = fixedPart s := by
  grind [countHz, setRdr_fixed]

@[simp] theorem countRate_fixed (l : LinkSet) (r : Reply) (s : State) : fixedPart (countRate l r s) = fixedPart s := by
  (unfold countRate; simp; done)

@[simp] theorem invTuned_fixed (x : Tenant) (i : Inv) (cal : Cal) (s : State) : fixedPart (invTuned x i cal s) = fixedPart s := by
  (unfold invTuned; (repeat' ((try dsimp only); split)) <;> ((try dsimp only) <;> first | (simp only [builtinPend_fixed, calibrate_fixed, compApply_fixed, compHop_fixed, invDone_fixed, rampUp_fixed, setInv_fixed, setRadio_fixed, setRdr_fixed]; done) | (simp only [builtinPend_fixed, calibrate_fixed, compApply_fixed, compHop_fixed, invDone_fixed, rampUp_fixed, setInv_fixed, setRadio_fixed, setRdr_fixed]; rfl) | (simp; done) | grind [builtinPend_fixed, calibrate_fixed, compApply_fixed, compHop_fixed, invDone_fixed, rampUp_fixed, setInv_fixed, setRadio_fixed, setRdr_fixed] | rfl))

@[simp] theorem invSettled_fixed (x : Tenant) (i : Inv) (s : State) : fixedPart (invSettled x i s) = fixedPart s := by
  grind [invSettled, roundOpen_fixed, roundOver_fixed, slotOpen_fixed]

@[simp] theorem selectSent_fixed (x : Tenant) (i : Inv) (s : State) : fixedPart (selectSent x i s) = fixedPart s := by
  grind [selectSent, builtinTune_fixed, frameEnd_fixed, invDone_fixed, releaseAir_fixed, roundOpen_fixed, setInv_fixed]

@[simp] theorem invSent_fixed (x : Tenant) (i : Inv) (s : State) : fixedPart (invSent x i s) = fixedPart s := by
  grind [invSent, builtinPend_fixed, selectSent_fixed, setInv_fixed, slotDone_fixed]

@[simp] theorem v1Read_fixed (r : TagRead) (rssi : Byte) (s : State) : fixedPart (v1Read r rssi s) = fixedPart s := by
  (unfold v1Read; simp; done)

@[simp] theorem invReply_fixed (x : Tenant) (i : Inv) (reply : Option Reply) (s : State) : fixedPart (invReply x i reply s) = fixedPart s := by
  (unfold invReply; (repeat' ((try dsimp only); split)) <;> ((try dsimp only) <;> first | (simp only [builtinSend_fixed, countRate_fixed, countRead_fixed, dropBufs_fixed, gatherCaps_fixed, missBuf_fixed, modCtx_fixed, reply_fixed, serveBuf_fixed, setEpoch_fixed, setInv_fixed, slotDone_fixed, tellRead_fixed, v1Read_fixed]; done) | (simp only [builtinSend_fixed, countRate_fixed, countRead_fixed, dropBufs_fixed, gatherCaps_fixed, missBuf_fixed, modCtx_fixed, reply_fixed, serveBuf_fixed, setEpoch_fixed, setInv_fixed, slotDone_fixed, tellRead_fixed, v1Read_fixed]; rfl) | (simp; done) | grind [builtinSend_fixed, countRate_fixed, countRead_fixed, dropBufs_fixed, gatherCaps_fixed, missBuf_fixed, modCtx_fixed, reply_fixed, serveBuf_fixed, setEpoch_fixed, setInv_fixed, slotDone_fixed, tellRead_fixed, v1Read_fixed] | rfl))

theorem execRoundEnd_fixed (x : Tenant) (now : Tick) (s : State) : ∀ t, execRoundEnd x now s = .next t → fixedPart t = fixedPart s := by
  grind (splits := 24) [execRoundEnd, advanceTo_fixed, invNext_fixed, releaseAir_fixed, roundTold_fixed]

theorem execInventoryDurExpiry_fixed (x : Tenant) (now : Tick) (s : State) : ∀ t, execInventoryDurExpiry x now s = .next t → fixedPart t = fixedPart s := by
  grind (splits := 24) [execInventoryDurExpiry, advanceTo_fixed, invDone_fixed, setInv_fixed]

-- ------------------------------------------------------------ Access

@[simp] theorem accSend_fixed (x : Tenant) (a : Acc) (gap : Nat) (s : State) : fixedPart (accSend x a gap s) = fixedPart s := by
  grind [accSend, builtinSend_fixed, setAcc_fixed]

@[simp] theorem accTune_fixed (x : Tenant) (a : Acc) (s : State) : fixedPart (accTune x a s) = fixedPart s := by
  (unfold accTune; (repeat' ((try dsimp only); split)) <;> ((try dsimp only) <;> first | (simp only [builtinPend_fixed, builtinTune_fixed, setAcc_fixed]; done) | (simp only [builtinPend_fixed, builtinTune_fixed, setAcc_fixed]; rfl) | (simp; done) | (have e := nextChannel_fixed _ _ _ _ ‹_›; (try simp only [builtinPend_fixed, builtinTune_fixed, setAcc_fixed] at e ⊢); exact e) | grind [builtinPend_fixed, builtinTune_fixed, nextChannel_fixed, setAcc_fixed] | rfl))

@[simp] theorem accTuned_fixed (x : Tenant) (a : Acc) (cal : Cal) (s : State) : fixedPart (accTuned x a cal s) = fixedPart s := by
  (unfold accTuned; (repeat' ((try dsimp only); split)) <;> ((try dsimp only) <;> first | (simp only [builtinPend_fixed, calibrate_fixed, compApply_fixed, compHop_fixed, endAcc_fixed, rampUp_fixed, setAcc_fixed, setRadio_fixed, setRdr_fixed]; done) | (simp only [builtinPend_fixed, calibrate_fixed, compApply_fixed, compHop_fixed, endAcc_fixed, rampUp_fixed, setAcc_fixed, setRadio_fixed, setRdr_fixed]; rfl) | (simp; done) | grind [builtinPend_fixed, calibrate_fixed, compApply_fixed, compHop_fixed, endAcc_fixed, rampUp_fixed, setAcc_fixed, setRadio_fixed, setRdr_fixed] | rfl))

@[simp] theorem attemptFail_fixed (x : Tenant) (a : Acc) (s : State) : fixedPart (attemptFail x a s) = fixedPart s := by
  grind [attemptFail, accSend_fixed, endAcc_fixed]

@[simp] theorem exchangeStart_fixed (x : Tenant) (a : Acc) (key : Fin 48) (n : Nat) (s : State) : fixedPart (exchangeStart x a key n s) = fixedPart s := by
  unfold exchangeStart
  split
  · simp
  · have e := chargeKey_fixed _ _ _ _ ‹_›
    split
    · simp [e]
    · simp [e]
    · have e2 := drbgTake_fixed _ _ _ ‹_›
      dsimp only at e2
      simp [e2, e]

@[simp] theorem accOperate_fixed (x : Tenant) (a : Acc) (s : State) : fixedPart (accOperate x a s) = fixedPart s := by
  grind [accOperate, accSend_fixed]

@[simp] theorem accIdentified_fixed (x : Tenant) (a : Acc) (tid : Bytes) (s : State) : fixedPart (accIdentified x a tid s) = fixedPart s := by
  grind [accIdentified, exchangeStart_fixed, setSvy_fixed]

@[simp] theorem accFrameOver_fixed (x : Tenant) (a : Acc) (s : State) : fixedPart (accFrameOver x a s).2 = fixedPart s := by
  grind [accFrameOver, builtinTune_fixed, endAcc_fixed, frameEnd_fixed, releaseAir_fixed, setAcc_fixed]

@[simp] theorem accSent_fixed (x : Tenant) (a : Acc) (s : State) : fixedPart (accSent x a s) = fixedPart s := by
  grind [accSent, accFrameOver_fixed, accSend_fixed, builtinPend_fixed, setAcc_fixed]

@[simp] theorem accOutcome_fixed (x : Tenant) (a : Acc) (r : Reply) (s : State) : fixedPart (accOutcome x a r s) = fixedPart s := by
  grind [accOutcome, accSend_fixed, endAcc_fixed, setAcc_fixed]

@[simp] theorem accWithdrawn_fixed (x : Tenant) (a : Acc) (s : State) : fixedPart (accWithdrawn x a s) = fixedPart s := by
  grind [accWithdrawn, builtinTune_fixed, releaseAir_fixed, setAcc_fixed]

@[simp] theorem replyBegan_fixed (s : State) : fixedPart (replyBegan s) = fixedPart s := by
  (unfold replyBegan; simp; done)

@[simp] theorem accReply_fixed (x : Tenant) (a : Acc) (reply : Option Reply) (s : State) : fixedPart (accReply x a reply s) = fixedPart s := by
  grind [accReply, accFrameOver_fixed, accIdentified_fixed, accOperate_fixed, accOutcome_fixed, accSend_fixed, attemptFail_fixed, countRate_fixed, endAcc_fixed, reply_fixed, replyBegan_fixed]

@[simp] theorem regionWaitEnd_fixed (x : Tenant) (region : Nat) (s : State) : fixedPart (regionWaitEnd x region s) = fixedPart s := by
  grind [regionWaitEnd, accTune_fixed, invHop_fixed]

theorem execFccBudgetWaitEnd_fixed (x : Tenant) (now : Tick) (s : State) : ∀ t, execFccBudgetWaitEnd x now s = .next t → fixedPart t = fixedPart s := by
  grind (splits := 24) [execFccBudgetWaitEnd, advanceTo_fixed, regionWaitEnd_fixed]

theorem execEtsiReturnWaitEnd_fixed (x : Tenant) (now : Tick) (s : State) : ∀ t, execEtsiReturnWaitEnd x now s = .next t → fixedPart t = fixedPart s := by
  grind (splits := 24) [execEtsiReturnWaitEnd, advanceTo_fixed, regionWaitEnd_fixed]

-- ------------------------------------------------------------ SpoolAir

@[simp] theorem waitAir_fixed (x : Tenant) (op : WaitOp) (d : Fin 16) (a b : Reg32) (fn : BitVec 14) (r : AirReq) (s : State) : fixedPart (waitAir x op d a b fn r s) = fixedPart s := by
  grind [waitAir, enterWait_fixed, requestAir_fixed]

theorem execSpHop_fixed (x : Tenant) (d a : Fin 16) (noWait : Bool) (s : State) : ∀ t, execSpHop x d a noWait s = .next t → fixedPart t = fixedPart s := by
  grind (splits := 24) [execSpHop, airIssue_fixed, airNothing_fixed, carrierOff_fixed, issue_fixed, waitAir_fixed]

theorem execSpPwr_fixed (x : Tenant) (d a : Fin 16) (noWait : Bool) (s : State) : ∀ t, execSpPwr x d a noWait s = .next t → fixedPart t = fixedPart s := by
  grind (splits := 24) [execSpPwr, airFirst_fixed, airIssue_fixed, issue_fixed, modCtx_fixed, retire_fixed]

@[simp] theorem selectAerial_fixed (a : Fin 4) (at_ : Tick) (s : State) : fixedPart (selectAerial a at_ s) = fixedPart s := by
  (unfold selectAerial; simp; done)

theorem execSpAsel_fixed (x : Tenant) (d a : Fin 16) (noWait : Bool) (s : State) : ∀ t, execSpAsel x d a noWait s = .next t → fixedPart t = fixedPart s := by
  grind (splits := 24) [execSpAsel, airFirst_fixed, airIssue_fixed, issue_fixed, modCtx_fixed, retire_fixed, selectAerial_fixed]

theorem execSpTxcw_fixed (x : Tenant) (d : Fin 16) (on noWait : Bool) (s : State) : ∀ t, execSpTxcw x d on noWait s = .next t → fixedPart t = fixedPart s := by
  grind (splits := 24) [execSpTxcw, airFail_fixed, airFirst_fixed, airIssue_fixed, compApply_fixed, enterWait_fixed, issue_fixed, rampUp_fixed, wAtOnce_fixed]

theorem execSpTxsym_fixed (x : Tenant) (d a b : Fin 16) (src : Fin 3) (pre qry noWait : Bool) (s : State) : ∀ t, execSpTxsym x d a b src pre qry noWait s = .next t → fixedPart t = fixedPart s := by
  grind (splits := 24) [execSpTxsym, airFirst_fixed, airIssue_fixed, airNothing_fixed, compApply_fixed, dpdFrame_fixed, endProgram_fixed, enterWait_fixed, fwdEnd_fixed, issue_fixed, setCommit_fixed, setRdr_fixed, spoolFault_fixed]

theorem execSpRxwin_fixed (x : Tenant) (d a b : Fin 16) (count : BitVec 10) (pclen crc noWait : Bool) (s : State) : ∀ t, execSpRxwin x d a b count pclen crc noWait s = .next t → fixedPart t = fixedPart s := by
  grind (splits := 24) [execSpRxwin, airFail_fixed, airIssue_fixed, enterWait_fixed, issue_fixed, onBuf_fixed, setOver_fixed, spoolFault_fixed, wAtOnce_fixed]

theorem execSpRssi_fixed (x : Tenant) (d : Fin 16) (noWait : Bool) (s : State) : ∀ t, execSpRssi x d noWait s = .next t → fixedPart t = fixedPart s := by
  grind (splits := 24) [execSpRssi, airFirst_fixed, airIssue_fixed, issue_fixed, modCtx_fixed, retire_fixed]

theorem execSpSniff_fixed (x : Tenant) (d : Fin 16) (noWait : Bool) (s : State) : ∀ t, execSpSniff x d noWait s = .next t → fixedPart t = fixedPart s := by
  grind (splits := 24) [execSpSniff, airFail_fixed, airIssue_fixed, airNothing_fixed, burstDrive_fixed, enterWait_fixed, issue_fixed, setCommit_fixed, setCore_fixed]

theorem execSpRfoff_fixed (x : Tenant) (d : Fin 16) (noWait : Bool) (s : State) : ∀ t, execSpRfoff x d noWait s = .next t → fixedPart t = fixedPart s := by
  grind (splits := 24) [execSpRfoff, airFirst_fixed, airIssue_fixed, enterWait_fixed, issue_fixed]

theorem execSpLch_fixed (x : Tenant) (d a : Fin 16) (txi noWait : Bool) (s : State) : ∀ t, execSpLch x d a txi noWait s = .next t → fixedPart t = fixedPart s := by
  grind (splits := 24) [execSpLch, airIssue_fixed, airNothing_fixed, issue_fixed, waitAir_fixed]

@[simp] theorem linkCompReady_fixed (m : Sample) (s : State) : fixedPart (linkCompReady m s) = fixedPart s := by
  (unfold linkCompReady; simp; done)

theorem execSpLtx_fixed (x : Tenant) (d a : Fin 16) (sf : Fin 5) (smode ack fcs noWait : Bool) (s : State) : ∀ t, execSpLtx x d a sf smode ack fcs noWait s = .next t → fixedPart t = fixedPart s := by
  grind (splits := 24) [execSpLtx, airIssue_fixed, airNothing_fixed, issue_fixed, onBuf_fixed, setLink_fixed, spoolFault_fixed, waitAir_fixed]

theorem execSpLrx_fixed (x : Tenant) (d a b : Fin 16) (lanes : BitVec 6) (noWait : Bool) (s : State) : ∀ t, execSpLrx x d a b lanes noWait s = .next t → fixedPart t = fixedPart s := by
  grind (splits := 24) [execSpLrx, airFail_fixed, airIssue_fixed, issue_fixed, onBuf_fixed, wAtOnce_fixed, waitAir_fixed]

theorem execSpLcca_fixed (x : Tenant) (d : Fin 16) (txi noWait : Bool) (s : State) : ∀ t, execSpLcca x d txi noWait s = .next t → fixedPart t = fixedPart s := by
  grind (splits := 24) [execSpLcca, airFail_fixed, airIssue_fixed, issue_fixed, waitAir_fixed]

theorem execSpLoff_fixed (x : Tenant) (d : Fin 16) (noWait : Bool) (s : State) : ∀ t, execSpLoff x d noWait s = .next t → fixedPart t = fixedPart s := by
  grind (splits := 24) [execSpLoff, airFirst_fixed, airIssue_fixed, enterWait_fixed, issue_fixed]

theorem execHopComplete_fixed (x : Tenant) (now : Tick) (cal : Cal) (s : State) : ∀ t, execHopComplete x now cal s = .next t → fixedPart t = fixedPart s := by
  grind (splits := 24) [execHopComplete, accTuned_fixed, advanceTo_fixed, airDone_fixed, calibrate_fixed, compHop_fixed, endWait_fixed, invTuned_fixed, leaveChannel_fixed, setRadio_fixed]

theorem execTxcwComplete_fixed (x : Tenant) (now : Tick) (pafb : Int) (pacur : Nat) (s : State) : ∀ t, execTxcwComplete x now pafb pacur s = .next t → fixedPart t = fixedPart s := by
  grind (splits := 24) [execTxcwComplete, advanceTo_fixed, airDone_fixed, builtinPend_fixed, carrierOff_fixed, endWait_fixed, rampDone_fixed, setAcc_fixed, setInv_fixed]

@[simp] theorem slotWithdrawn_fixed (x : Tenant) (s : State) : fixedPart (slotWithdrawn x s) = fixedPart s := by
  grind [slotWithdrawn, ctxLost_fixed, releaseAir_fixed]

@[simp] theorem txsymOver_fixed (x : Tenant) (p : Pend) (s : State) : fixedPart (txsymOver x p s) = fixedPart s := by
  grind [txsymOver, airDone_fixed, endWait_fixed, frameEnd_fixed, setOver_fixed, slotWithdrawn_fixed]

theorem execTxsymComplete_fixed (x : Tenant) (now : Tick) (s : State) : ∀ t, execTxsymComplete x now s = .next t → fixedPart t = fixedPart s := by
  grind (splits := 24) [execTxsymComplete, accSent_fixed, advanceTo_fixed, invSent_fixed, stopIfDue_fixed, txsymOver_fixed]

@[simp] theorem gainApply_fixed (s : State) : fixedPart (gainApply s) = fixedPart s := by
  grind [gainApply, setRdr_fixed]

@[simp] theorem rxwinOk_fixed (x : Tenant) (p : Pend) (r : Reply) (n : Nat) (s : State) : fixedPart (rxwinOk x p r n s) = fixedPart s := by
  grind [rxwinOk, endWait_fixed, modBuf_fixed]

@[simp] theorem rxwinOver_fixed (x : Tenant) (p : Pend) (goesOn : Bool) (s : State) : fixedPart (rxwinOver x p goesOn s) = fixedPart s := by
  grind [rxwinOver, frameEnd_fixed, setOver_fixed, slotWithdrawn_fixed]

@[simp] theorem rxwinOwn_fixed (x : Tenant) (p : Pend) (reply : Option Reply) (s : State) : fixedPart (rxwinOwn x p reply s) = fixedPart s := by
  (unfold rxwinOwn; (repeat' ((try dsimp only); split)) <;> ((try dsimp only) <;> first | (simp only [countRate_fixed, endWait_fixed, gainApply_fixed, reply_fixed, replyBegan_fixed, rxwinOk_fixed, rxwinOver_fixed]; done) | (simp only [countRate_fixed, endWait_fixed, gainApply_fixed, reply_fixed, replyBegan_fixed, rxwinOk_fixed, rxwinOver_fixed]; rfl) | (simp; done) | grind [countRate_fixed, endWait_fixed, gainApply_fixed, reply_fixed, replyBegan_fixed, rxwinOk_fixed, rxwinOver_fixed] | rfl))

@[simp] theorem rxwinBuiltin_fixed (x : Tenant) (reply : Option Reply) (s : State) : fixedPart (rxwinBuiltin x reply s) = fixedPart s := by
  grind [rxwinBuiltin, accReply_fixed, countStale_fixed, gainApply_fixed, invReply_fixed, reply_fixed, slotDone_fixed]

theorem execRxwinComplete_fixed (x : Tenant) (now : Tick) (reply : Option Reply) (s : State) : ∀ t, execRxwinComplete x now reply s = .next t → fixedPart t = fixedPart s := by
  grind (splits := 24) [execRxwinComplete, advanceTo_fixed, airDone_fixed, countStale_fixed, reply_fixed, rxwinBuiltin_fixed, rxwinOwn_fixed, stopIfDue_fixed]

@[simp] theorem deltaOf_fixed (g base : Gamma) (s : State) : fixedPart (deltaOf g base s).2 = fixedPart s := by
  grind [deltaOf, drawBool_fixed]

@[simp] theorem setBase_fixed (a : Fin 4) (g : Gamma) (s : State) : fixedPart (setBase a g s) = fixedPart s := by
  (unfold setBase; simp; done)

@[simp] theorem sniffJudge_fixed (n : Sniff) (g : Gamma) (s : State) : fixedPart (sniffJudge n g s).2 = fixedPart s := by
  grind [sniffJudge, deltaOf_fixed, raise_fixed, setBase_fixed, setRdr_fixed]

@[simp] theorem invStart_fixed (t : Tenant) (a : InvArgs) (tseq : BitVec 16) (v1 single : Bool) (s : State) : fixedPart (invStart t a tseq v1 single s) = fixedPart s := by
  grind [invStart, invHop_fixed, reply_fixed, startBuiltin_fixed, takeProfile_fixed]

@[simp] theorem autoStart_fixed (n : Sniff) (s : State) : fixedPart (autoStart n s) = fixedPart s := by
  grind [autoStart, invStart_fixed]

theorem execSniffComplete_fixed (x : Option Tenant) (now : Tick) (g : Gamma) (s : State) : ∀ t, execSniffComplete x now g s = .next t → fixedPart t = fixedPart s := by
  (unfold execSniffComplete; (repeat' ((try dsimp only); split)) <;> ((try dsimp only) <;> first | (simp only [advanceTo_fixed, airDone_fixed, autoStart_fixed, calResult_fixed, countStale_fixed, deltaOf_fixed, endWait_fixed, frameEnd_fixed, releaseAir_fixed, setBase_fixed, setCore_fixed, slotWithdrawn_fixed, sniffJudge_fixed, stopIfDue_fixed]; done) | (simp only [advanceTo_fixed, airDone_fixed, autoStart_fixed, calResult_fixed, countStale_fixed, deltaOf_fixed, endWait_fixed, frameEnd_fixed, releaseAir_fixed, setBase_fixed, setCore_fixed, slotWithdrawn_fixed, sniffJudge_fixed, stopIfDue_fixed]; rfl) | (simp; done) | grind [advanceTo_fixed, airDone_fixed, autoStart_fixed, calResult_fixed, countStale_fixed, deltaOf_fixed, endWait_fixed, frameEnd_fixed, releaseAir_fixed, setBase_fixed, setCore_fixed, slotWithdrawn_fixed, sniffJudge_fixed, stopIfDue_fixed] | rfl))

theorem execRfoffComplete_fixed (x : Tenant) (now : Tick) (s : State) : ∀ t, execRfoffComplete x now s = .next t → fixedPart t = fixedPart s := by
  grind (splits := 24) [execRfoffComplete, advanceTo_fixed, airDone_fixed, endWait_fixed, modCtx_fixed, releaseAir_fixed]

theorem execLchComplete_fixed (x : Tenant) (now : Tick) (cal : Cal) (s : State) : ∀ t, execLchComplete x now cal s = .next t → fixedPart t = fixedPart s := by
  grind (splits := 24) [execLchComplete, advanceTo_fixed, airDone_fixed, calibrate_fixed, endWait_fixed, freshSample_fixed, linkCompReady_fixed, setRadio_fixed]

theorem execLtxComplete_fixed (x : Tenant) (now : Tick) (s : State) : ∀ t, execLtxComplete x now s = .next t → fixedPart t = fixedPart s := by
  grind (splits := 24) [execLtxComplete, advanceTo_fixed, airDone_fixed, dutyAdd_fixed, endWait_fixed, frameEnd_fixed, setCore_fixed, stopIfDue_fixed]

@[simp] theorem linkHeard_fixed (f : RxFrame) (s : State) : fixedPart (linkHeard f s) = fixedPart s := by
  grind [linkHeard, searchAgain_fixed, setLink_fixed]

theorem execLrxComplete_fixed (x : Tenant) (now : Tick) (frame : Option RxFrame) (s : State) : ∀ t, execLrxComplete x now frame s = .next t → fixedPart t = fixedPart s := by
  grind (splits := 24) [execLrxComplete, advanceTo_fixed, airDone_fixed, countStale_fixed, endWait_fixed, frameEnd_fixed, linkHeard_fixed, modBuf_fixed, setCore_fixed, stopIfDue_fixed]

theorem execLccaComplete_fixed (x : Tenant) (now : Tick) (dbm : Int) (s : State) : ∀ t, execLccaComplete x now dbm s = .next t → fixedPart t = fixedPart s := by
  grind (splits := 24) [execLccaComplete, advanceTo_fixed, airDone_fixed, endWait_fixed, setCore_fixed]

theorem execLoffComplete_fixed (x : Tenant) (now : Tick) (s : State) : ∀ t, execLoffComplete x now s = .next t → fixedPart t = fixedPart s := by
  grind (splits := 24) [execLoffComplete, advanceTo_fixed, airDone_fixed, endWait_fixed, modCtx_fixed, releaseAir_fixed]

-- ------------------------------------------------------------ Survey

@[simp] theorem takeSample_fixed (m : Sample) (s : State) : fixedPart (takeSample m s) = fixedPart s := by
  grind [takeSample, setPower_fixed, setSvy_fixed]

theorem execSurveySample_fixed (now : Tick) (smp : Sample) (s : State) : ∀ t, execSurveySample now smp s = .next t → fixedPart t = fixedPart s := by
  grind (splits := 24) [execSurveySample, advanceTo_fixed, takeSample_fixed]

theorem execTelemetrySnapshot_fixed (now : Tick) (smp : Sample) (s : State) : ∀ t, execTelemetrySnapshot now smp s = .next t → fixedPart t = fixedPart s := by
  grind (splits := 24) [execTelemetrySnapshot, advanceTo_fixed, forTenants_fixed, raise_fixed, takeSample_fixed]

theorem execMeasSnapshot_fixed (c : Cmd) (smp : Sample) (s : State) : ∀ t, execMeasSnapshot c smp s = .next t → fixedPart t = fixedPart s := by
  intro t h
  cases h
  apply keelRun_fixed
  intro r
  grind [keelRun_fixed, refuse_fixed, reply_fixed, takeSample_fixed]

theorem execMeasSubscribe_fixed (c : Cmd) (s : State) : ∀ t, execMeasSubscribe c s = .next t → fixedPart t = fixedPart s := by
  intro t h
  cases h
  apply keelRun_fixed
  intro r
  grind [keelRun_fixed, refuse_fixed, reply_fixed, setSvy_fixed]

theorem execMeasPartners_fixed (c : Cmd) (s : State) : ∀ t, execMeasPartners c s = .next t → fixedPart t = fixedPart s := by
  intro t h
  cases h
  apply keelRun_fixed
  intro r
  grind [keelRun_fixed, refuse_fixed, reply_fixed]

@[simp] theorem returnLoss_fixed (g : Gamma) (s : State) : fixedPart (returnLoss g s).2 = fixedPart s := by
  grind [returnLoss, drawBool_fixed]

@[simp] theorem lowestLoss_fixed (y0 : List (Nat × Gamma)) (s : State) : fixedPart (lowestLoss y0 s).2 = fixedPart s := by
  induction y0 generalizing s with
  | nil => rfl
  | cons p r ih => unfold lowestLoss; dsimp only; rw [ih]; simp

@[simp] theorem sweepNext_fixed (s : State) : fixedPart (sweepNext s) = fixedPart s := by
  grind [sweepNext, requestAir_fixed, setSvy_fixed]

@[simp] theorem sweepBegin_fixed (owner : Option Tenant) (tseq : BitVec 16) (target : Fin 6) (length : Bool) (rest : List (Fin 6)) (s : State) : fixedPart (sweepBegin owner tseq target length rest s) = fixedPart s := by
  grind [sweepBegin, setSvy_fixed, sweepNext_fixed]

@[simp] theorem sweepTold_fixed (w : Sweep) (status : Byte) (rl len : Nat) (s : State) : fixedPart (sweepTold w status rl len s) = fixedPart s := by
  grind [sweepTold, raise_fixed]

@[simp] theorem sweepRelease_fixed (s : State) : fixedPart (sweepRelease s) = fixedPart s := by
  grind [sweepRelease, coexTrack_fixed, releaseAir_fixed, setRadio_fixed]

@[simp] theorem sweepRest_fixed (w : Sweep) (s : State) : fixedPart (sweepRest w s) = fixedPart s := by
  grind [sweepRest, setSvy_fixed, sweepBegin_fixed]

@[simp] theorem sweepEnd_fixed (status : Byte) (s : State) : fixedPart (sweepEnd status s) = fixedPart s := by
  grind [sweepEnd, sweepRelease_fixed, sweepRest_fixed, sweepTold_fixed]

theorem execSweepPointDone_fixed (now : Tick) (g : Option Gamma) (s : State) : ∀ t, execSweepPointDone now g s = .next t → fixedPart t = fixedPart s := by
  grind (splits := 24) [execSweepPointDone, advanceTo_fixed, calResult_fixed, releaseAir_fixed, setSvy_fixed, sweepEnd_fixed, sweepNext_fixed]

theorem execSweepComplete_fixed (now : Tick) (s : State) : ∀ t, execSweepComplete now s = .next t → fixedPart t = fixedPart s := by
  grind (splits := 24) [execSweepComplete, advanceTo_fixed, lowestLoss_fixed, reportClass_fixed, setSvy_fixed, sweepRest_fixed, sweepTold_fixed]

theorem execSweepTimeout_fixed (now : Tick) (s : State) : ∀ t, execSweepTimeout now s = .next t → fixedPart t = fixedPart s := by
  grind (splits := 24) [execSweepTimeout, advanceTo_fixed, sweepEnd_fixed]

theorem execScheduledSweep_fixed (now : Tick) (s : State) : ∀ t, execScheduledSweep now s = .next t → fixedPart t = fixedPart s := by
  grind (splits := 24) [execScheduledSweep, advanceTo_fixed, sweepBegin_fixed]

theorem execMeasSweep_fixed (c : Cmd) (s : State) : ∀ t, execMeasSweep c s = .next t → fixedPart t = fixedPart s := by
  intro t h
  cases h
  apply keelRun_fixed
  intro r
  grind [keelRun_fixed, refuse_fixed, reply_fixed, sweepBegin_fixed]

-- ------------------------------------------------------------ RdrCmds

theorem execRdrInventory_fixed (c : Cmd) (s : State) : ∀ t, execRdrInventory c s = .next t → fixedPart t = fixedPart s := by
  intro t h
  cases h
  apply keelRun_fixed
  intro r
  grind [invStart_fixed, keelRun_fixed, refuse_fixed, reply_fixed, setRdr_fixed]

theorem execRdrStop_fixed (c : Cmd) (s : State) : ∀ t, execRdrStop c s = .next t → fixedPart t = fixedPart s := by
  intro t h
  cases h
  apply keelRun_fixed
  intro r
  grind [invDone_fixed, keelRun_fixed, refuse_fixed, setInv_fixed]

theorem execRdrAccess_fixed (c : Cmd) (s : State) : ∀ t, execRdrAccess c s = .next t → fixedPart t = fixedPart s := by
  intro t h
  cases h
  apply keelRun_fixed
  intro r
  grind [accTune_fixed, keelRun_fixed, refuse_fixed, reply_fixed, startBuiltin_fixed]

@[simp] theorem sniffStop_fixed (s : State) : fixedPart (sniffStop s) = fixedPart s := by
  grind [sniffStop, dropWaiters_fixed, releaseAir_fixed, setRdr_fixed]

theorem execRdrSniff_fixed (c : Cmd) (s : State) : ∀ t, execRdrSniff c s = .next t → fixedPart t = fixedPart s := by
  intro t h
  cases h
  apply keelRun_fixed
  intro r
  grind [keelRun_fixed, refuse_fixed, reply_fixed, setRdr_fixed, sniffStop_fixed]

@[simp] theorem baselineCharged_fixed (t : Tenant) (s : State) : fixedPart (baselineCharged t s) = fixedPart s := by
  grind [baselineCharged, drawNat_fixed, setRadio_fixed]

theorem execRdrBaseline_fixed (c : Cmd) (bursts : List Gamma) (s : State) : ∀ t, execRdrBaseline c bursts s = .next t → fixedPart t = fixedPart s := by
  intro t h
  cases h
  apply keelRun_fixed
  intro r
  grind [baselineCharged_fixed, grantAir_fixed, keelRun_fixed, refuse_fixed, releaseAir_fixed, reply_fixed, setBase_fixed, takeHalf_fixed]

@[simp] theorem rdrClear_fixed (s : State) : fixedPart (rdrClear s) = fixedPart s := by
  (unfold rdrClear; simp; done)

@[simp] theorem accReset_fixed (t : Tenant) (s : State) : fixedPart (accReset t s) = fixedPart s := by
  grind [accReset, endAcc_fixed, setAcc_fixed]

@[simp] theorem builtinReset_fixed (t : Tenant) (s : State) : fixedPart (builtinReset t s) = fixedPart s := by
  grind [builtinReset, accReset_fixed, invDone_fixed, setInv_fixed]

@[simp] theorem ctxAirGone_fixed (t : Tenant) (c : CoreId) (s : State) : fixedPart (ctxAirGone t c s) = fixedPart s := by
  grind [ctxAirGone, coexTrack_fixed, endWait_fixed, setRadio_fixed, stopProgram_fixed]

theorem execRdrReset_fixed (c : Cmd) (s : State) : ∀ t, execRdrReset c s = .next t → fixedPart t = fixedPart s := by
  intro t h
  cases h
  apply keelRun_fixed
  intro r
  grind [builtinReset_fixed, closeSession_fixed, ctxAirGone_fixed, keelRun_fixed, rdrClear_fixed, refuse_fixed, reply_fixed, setEpoch_fixed, setSvy_fixed, sniffStop_fixed, sweepEnd_fixed, sweepRelease_fixed]

theorem execSniffBurstDue_fixed (now : Tick) (s : State) : ∀ t, execSniffBurstDue now s = .next t → fixedPart t = fixedPart s := by
  grind (splits := 24) [execSniffBurstDue, advanceTo_fixed, dropWaiters_fixed, requestAir_fixed, setRdr_fixed]

@[simp] theorem readerFails_fixed (status : Byte) (s : State) : fixedPart (readerFails status s) = fixedPart s := by
  grind [readerFails, closeSession_fixed, endAcc_fixed, endWait_fixed, invDone_fixed, modCtx_fixed, releaseAir_fixed]

theorem execPaIlimTrip_fixed (now : Tick) (s : State) : ∀ t, execPaIlimTrip now s = .next t → fixedPart t = fixedPart s := by
  grind (splits := 24) [execPaIlimTrip, advanceTo_fixed, readerFails_fixed, setRdr_fixed]

theorem execCompensationRecompute_fixed (smp : Sample) (s : State) : ∀ t, execCompensationRecompute smp s = .next t → fixedPart t = fixedPart s := by
  grind (splits := 24) [execCompensationRecompute, compReady_fixed]

theorem execLinkCompensation_fixed (smp : Sample) (s : State) : ∀ t, execLinkCompensation smp s = .next t → fixedPart t = fixedPart s := by
  grind (splits := 24) [execLinkCompensation, linkCompReady_fixed]

@[simp] theorem tapWarm_fixed (tapL : Bool) (s : State) : fixedPart (tapWarm tapL s) = fixedPart s := by
  grind [tapWarm, setRdr_fixed]

theorem execCancellerConverged_fixed (tapL : Bool) (jammerDbm : Int) (suppHalfDb : BitVec 8) (s : State) : ∀ t, execCancellerConverged tapL jammerDbm suppHalfDb s = .next t → fixedPart t = fixedPart s := by
  grind (splits := 24) [execCancellerConverged, accSend_fixed, invSettled_fixed, setRdr_fixed, tapWarm_fixed]

theorem execTapLSaturation_fixed (s : State) : ∀ t, execTapLSaturation s = .next t → fixedPart t = fixedPart s := by
  grind (splits := 24) [execTapLSaturation, setRdr_fixed]

theorem execRxGainStep_fixed (now : Tick) (levelDbm : Int) (s : State) : ∀ t, execRxGainStep now levelDbm s = .next t → fixedPart t = fixedPart s := by
  grind (splits := 24) [execRxGainStep, advanceTo_fixed, gainApply_fixed, setRdr_fixed]

theorem execAdcClip_fixed (now : Tick) (s : State) : ∀ t, execAdcClip now s = .next t → fixedPart t = fixedPart s := by
  grind (splits := 24) [execAdcClip, advanceTo_fixed, gainApply_fixed, setRdr_fixed]

end Sys2Proof.Machine
end

