-- ==== Sys2Proof/Laws/FixedLink.lean ====
section
/-!
SUPPORT. Frame lemmas of the Lantern tag, FARZ and the link: nothing here touches the queue
of commands, the serial number or the binding of ports to tenants.
-/
namespace Sys2Proof.Machine
set_option linter.all false

-- ------------------------------------------------------------ TagSec

theorem chargeSession_fixed (k : Fin 48) (gone : Bool) (s : State) : ∀ r, chargeSession k gone s = .ok r → fixedPart r = fixedPart s := by
  grind [chargeSession, chargeKey_fixed]

@[simp] theorem lanternRelease_fixed (s : State) : fixedPart (lanternRelease s) = fixedPart s := by
  grind [lanternRelease, coexTrack_fixed, dropWaiters_fixed, setHold_fixed]

@[simp] theorem tagOff_fixed (s : State) : fixedPart (tagOff s) = fixedPart s := by
  grind [tagOff, closeTagSession_fixed, lanternRelease_fixed, setTag_fixed]

theorem execTagEnable_fixed (c : Cmd) (s : State) : ∀ t, execTagEnable c s = .next t → fixedPart t = fixedPart s := by
  intro t h
  cases h
  apply keelRun_fixed
  intro r
  grind [keelRun_fixed, refuse_fixed, reply_fixed, setTag_fixed]

theorem execTagDisable_fixed (c : Cmd) (s : State) : ∀ t, execTagDisable c s = .next t → fixedPart t = fixedPart s := by
  intro t h
  cases h
  apply keelRun_fixed
  intro r
  grind [keelRun_fixed, refuse_fixed, reply_fixed, tagOff_fixed]

theorem execTagPublish_fixed (c : Cmd) (s : State) : ∀ t, execTagPublish c s = .next t → fixedPart t = fixedPart s := by
  intro t h
  cases h
  apply keelRun_fixed
  intro r
  grind [keelRun_fixed, refuse_fixed, reply_fixed, setTag_fixed]

@[simp] theorem evFieldTo_fixed (on : Byte) (level : Byte) (s : State) : fixedPart (evFieldTo on level s) = fixedPart s := by
  grind [evFieldTo, raise_fixed]

@[simp] theorem lanternHold_fixed (s : State) : fixedPart (lanternHold s) = fixedPart s := by
  grind [lanternHold, requestAir_fixed]

theorem execFieldQualified_fixed (now : Tick) (levelDbm : BitVec 8) (s : State) : ∀ t, execFieldQualified now levelDbm s = .next t → fixedPart t = fixedPart s := by
  grind (splits := 24) [execFieldQualified, advanceTo_fixed, evFieldTo_fixed, lanternHold_fixed, setTag_fixed, startWake_fixed]

theorem execFieldDrop_fixed (now : Tick) (s : State) : ∀ t, execFieldDrop now s = .next t → fixedPart t = fixedPart s := by
  grind (splits := 24) [execFieldDrop, advanceTo_fixed, closeTagSession_fixed, evFieldTo_fixed, lanternRelease_fixed, setTag_fixed]

theorem execTagSelect_fixed (target action : BitVec 3) (bank : BitVec 2) (ptr : Nat) (mask : List Bool) (s : State) : ∀ t, execTagSelect target action bank ptr mask s = .next t → fixedPart t = fixedPart s := by
  grind (splits := 24) [execTagSelect, setTag_fixed]

theorem execTagQuery_fixed (sel sess : BitVec 2) (targetB : Bool) (dr : Bool) (m : BitVec 2) (trext : Bool) (trcal : Nat) (s : State) : ∀ t, execTagQuery sel sess targetB dr m trext trcal s = .next t → fixedPart t = fixedPart s := by
  grind (splits := 24) [execTagQuery, drawNat_fixed, setTag_fixed]

theorem execTagAck_fixed (rn16 : BitVec 16) (s : State) : ∀ t, execTagAck rn16 s = .next t → fixedPart t = fixedPart s := by
  grind (splits := 24) [execTagAck, setTag_fixed]

theorem execTagRead_fixed (handle : BitVec 16) (bank : BitVec 2) (ptr : Nat) (count : Nat) (s : State) : ∀ t, execTagRead handle bank ptr count s = .next t → fixedPart t = fixedPart s := by
  grind (splits := 24) [execTagRead, setTag_fixed]

@[simp] theorem tagAnswer_fixed (msg : Bytes) (s : State) : fixedPart (tagAnswer msg s) = fixedPart s := by
  grind [tagAnswer, chargeSession_fixed, closeTagSession_fixed, setTag_fixed]

@[simp] theorem tagErr_fixed (code : Byte) (s : State) : fixedPart (tagErr code s) = fixedPart s := by
  (unfold tagErr; simp; done)

theorem execFz1Received_fixed (handle : BitVec 16) (msg : Bytes) (now : Tick) (s : State) : ∀ t, execFz1Received handle msg now s = .next t → fixedPart t = fixedPart s := by
  intro t h
  unfold execFz1Received at h
  dsimp only at h
  (repeat' split at h) <;> cases h
  · simp
  · simp
  · simp
  · simp
  · have e := chargeSession_fixed _ _ _ _ ‹_›
    have e2 := drbgTake_fixed _ _ _ ‹_›
    simp_all
  · have e := chargeSession_fixed _ _ _ _ ‹_›
    simp_all

theorem execFz3Received_fixed (handle : BitVec 16) (msg : Bytes) (now : Tick) (s : State) : ∀ t, execFz3Received handle msg now s = .next t → fixedPart t = fixedPart s := by
  grind (splits := 24) [execFz3Received, advanceTo_fixed, chargeSession_fixed, logAuthFail_fixed, raise_fixed, setTag_fixed, tagAnswer_fixed, tagErr_fixed]

theorem execTam1Received_fixed (handle : BitVec 16) (msg : Bytes) (s : State) : ∀ t, execTam1Received handle msg s = .next t → fixedPart t = fixedPart s := by
  intro t h
  unfold execTam1Received at h
  (repeat' split at h) <;> cases h
  · simp
  · simp
  · have e := drbgTake_fixed _ _ _ ‹_›
    have e2 := chargeKey_fixed _ _ _ _ ‹_›
    simp_all
  · exact drbgTake_fixed _ _ _ ‹_›
  · simp

@[simp] theorem tagCounted_fixed (s : State) : fixedPart (tagCounted s) = fixedPart s := by
  grind [tagCounted, closeTagSession_fixed, setTag_fixed]

@[simp] theorem tagSend_fixed (typ : Byte) (plain : Bytes) (s : State) : fixedPart (tagSend typ plain s) = fixedPart s := by
  grind [tagSend, setTag_fixed, tagAnswer_fixed, tagCounted_fixed]

@[simp] theorem publishNow_fixed (s : State) : fixedPart (publishNow s) = fixedPart s := by
  (unfold publishNow; simp; done)

theorem execSessionMessage_fixed (handle : BitVec 16) (msg : Bytes) (s : State) : ∀ t, execSessionMessage handle msg s = .next t → fixedPart t = fixedPart s := by
  (unfold execSessionMessage; (repeat' ((try dsimp only); split)) <;> ((try dsimp only) <;> first | (simp only [chargeSession_fixed, closeTagSession_fixed, publishNow_fixed, setTag_fixed, tagCounted_fixed, tagErr_fixed, tagSend_fixed]; done) | (simp only [chargeSession_fixed, closeTagSession_fixed, publishNow_fixed, setTag_fixed, tagCounted_fixed, tagErr_fixed, tagSend_fixed]; rfl) | (simp; done) | grind [chargeSession_fixed, closeTagSession_fixed, publishNow_fixed, setTag_fixed, tagCounted_fixed, tagErr_fixed, tagSend_fixed] | rfl))

@[simp] theorem answerRequest_fixed (plain : Bytes) (s : State) : fixedPart (answerRequest plain s) = fixedPart s := by
  grind [answerRequest, setTag_fixed, tagSend_fixed]

theorem execReadoutRead_fixed (off : BitVec 16) (len : BitVec 8) (s : State) : ∀ t, execReadoutRead off len s = .next t → fixedPart t = fixedPart s := by
  grind (splits := 24) [execReadoutRead, answerRequest_fixed, publishNow_fixed]

theorem execReadoutInfo_fixed (now : Tick) (s : State) : ∀ t, execReadoutInfo now s = .next t → fixedPart t = fixedPart s := by
  grind (splits := 24) [execReadoutInfo, advanceTo_fixed, answerRequest_fixed]

theorem execReadoutClose_fixed (s : State) : ∀ t, execReadoutClose s = .next t → fixedPart t = fixedPart s := by
  grind (splits := 24) [execReadoutClose, answerRequest_fixed, closeTagSession_fixed]

theorem execAuthBackoffExpiry_fixed (now : Tick) (s : State) : ∀ t, execAuthBackoffExpiry now s = .next t → fixedPart t = fixedPart s := by
  grind (splits := 24) [execAuthBackoffExpiry, advanceTo_fixed, setTag_fixed]

@[simp] theorem exchangeBegin_fixed (t : Tenant) (seq : BitVec 16) (key asel : Nat) (epc : Bytes) (kind : Fin 48 → AccKind) (busy : Bool) (results : Bytes) (note : Fin 48 → SecSess → SecSess) (s : State) : fixedPart (exchangeBegin t seq key asel epc kind busy results note s) = fixedPart s := by
  grind [exchangeBegin, accTune_fixed, modSess_fixed, refuse_fixed, reply_fixed, startBuiltin_fixed]

theorem execSecTam1_fixed (c : Cmd) (s : State) : ∀ t, execSecTam1 c s = .next t → fixedPart t = fixedPart s := by
  intro t h
  cases h
  apply keelRun_fixed
  intro r
  grind [exchangeBegin_fixed, keelRun_fixed, refuse_fixed]

theorem execSecFarzOpen_fixed (c : Cmd) (s : State) : ∀ t, execSecFarzOpen c s = .next t → fixedPart t = fixedPart s := by
  intro t h
  cases h
  apply keelRun_fixed
  intro r
  grind [exchangeBegin_fixed, keelRun_fixed, refuse_fixed]

@[simp] theorem sessAir_fixed (t : Tenant) (msg : Bytes) (gap : Nat) (s : State) : fixedPart (sessAir t msg gap s) = fixedPart s := by
  grind [sessAir, compApply_fixed, dpdFrame_fixed, fwdEnd_fixed, modSess_fixed, setCommit_fixed, setRdr_fixed]

@[simp] theorem sessSend_fixed (t : Tenant) (tseq : BitVec 16) (data : Bytes) (gap : Nat) (s : State) : fixedPart (sessSend t tseq data gap s) = fixedPart s := by
  grind [sessSend, chargeSession_fixed, closeSession_fixed, modSess_fixed, sessAir_fixed]

theorem execSecFarzSend_fixed (c : Cmd) (s : State) : ∀ t, execSecFarzSend c s = .next t → fixedPart t = fixedPart s := by
  intro t h
  cases h
  apply keelRun_fixed
  intro r
  grind [closeSession_fixed, keelRun_fixed, modSess_fixed, refuse_fixed, reply_fixed, sessSend_fixed]

theorem execSecClose_fixed (c : Cmd) (s : State) : ∀ t, execSecClose c s = .next t → fixedPart t = fixedPart s := by
  intro t h
  cases h
  apply keelRun_fixed
  intro r
  grind [closeSession_fixed, keelRun_fixed, refuse_fixed, reply_fixed]

@[simp] theorem farzFails_fixed (x : Tenant) (s : State) : fixedPart (farzFails x s) = fixedPart s := by
  grind [farzFails, endAcc_fixed, logAuthFail_fixed]

@[simp] theorem exchangeHeard_fixed (x : Tenant) (step : AccStep) (hz : Nat) (s : State) : fixedPart (exchangeHeard x step hz s).2 = fixedPart s := by
  grind [exchangeHeard, accFrameOver_fixed, countHz_fixed, countStale_fixed, replyBegan_fixed]

theorem execFz2Reply_fixed (x : Tenant) (msg : Bytes) (hz : Nat) (now : Tick) (s : State) : ∀ t, execFz2Reply x msg hz now s = .next t → fixedPart t = fixedPart s := by
  (unfold execFz2Reply; (repeat' ((try dsimp only); split)) <;> ((try dsimp only) <;> first | (simp only [accFrameOver_fixed, accSend_fixed, advanceTo_fixed, chargeSession_fixed, endAcc_fixed, exchangeHeard_fixed, farzFails_fixed, modSess_fixed, setSvy_fixed]; done) | (simp only [accFrameOver_fixed, accSend_fixed, advanceTo_fixed, chargeSession_fixed, endAcc_fixed, exchangeHeard_fixed, farzFails_fixed, modSess_fixed, setSvy_fixed]; rfl) | (simp; done) | grind [accFrameOver_fixed, accSend_fixed, advanceTo_fixed, chargeSession_fixed, endAcc_fixed, exchangeHeard_fixed, farzFails_fixed, modSess_fixed, setSvy_fixed] | rfl))

@[simp] theorem holdAsSession_fixed (x : Tenant) (s : State) : fixedPart (holdAsSession x s) = fixedPart s := by
  grind [holdAsSession, setHold_fixed]

theorem execFz3Reply_fixed (x : Tenant) (msg : Bytes) (hz : Nat) (now : Tick) (s : State) : ∀ t, execFz3Reply x msg hz now s = .next t → fixedPart t = fixedPart s := by
  (unfold execFz3Reply; (repeat' ((try dsimp only); split)) <;> ((try dsimp only) <;> first | (simp only [advanceTo_fixed, chargeSession_fixed, endAcc_fixed, endProgram_fixed, exchangeHeard_fixed, farzFails_fixed, holdAsSession_fixed, modSess_fixed, raise_fixed, setAcc_fixed]; done) | (simp only [advanceTo_fixed, chargeSession_fixed, endAcc_fixed, endProgram_fixed, exchangeHeard_fixed, farzFails_fixed, holdAsSession_fixed, modSess_fixed, raise_fixed, setAcc_fixed]; rfl) | (simp; done) | grind [advanceTo_fixed, chargeSession_fixed, endAcc_fixed, endProgram_fixed, exchangeHeard_fixed, farzFails_fixed, holdAsSession_fixed, modSess_fixed, raise_fixed, setAcc_fixed] | rfl))

theorem execTam1Response_fixed (x : Tenant) (msg : Bytes) (hz : Nat) (now : Tick) (s : State) : ∀ t, execTam1Response x msg hz now s = .next t → fixedPart t = fixedPart s := by
  grind (splits := 24) [execTam1Response, advanceTo_fixed, endAcc_fixed, exchangeHeard_fixed, logAuthFail_fixed, setSvy_fixed]

@[simp] theorem sessNext_fixed (x : Tenant) (s : State) : fixedPart (sessNext x s) = fixedPart s := by
  grind [sessNext, modSess_fixed, sessSend_fixed]

theorem execSessionReply_fixed (x : Tenant) (msg : Bytes) (hz : Nat) (now : Tick) (s : State) : ∀ t, execSessionReply x msg hz now s = .next t → fixedPart t = fixedPart s := by
  (unfold execSessionReply; (repeat' ((try dsimp only); split)) <;> ((try dsimp only) <;> first | (simp only [advanceTo_fixed, chargeSession_fixed, closeSession_fixed, countHz_fixed, frameEnd_fixed, logAuthFail_fixed, modSess_fixed, raise_fixed, sessNext_fixed, sessSend_fixed]; done) | (simp only [advanceTo_fixed, chargeSession_fixed, closeSession_fixed, countHz_fixed, frameEnd_fixed, logAuthFail_fixed, modSess_fixed, raise_fixed, sessNext_fixed, sessSend_fixed]; rfl) | (simp; done) | grind [advanceTo_fixed, chargeSession_fixed, closeSession_fixed, countHz_fixed, frameEnd_fixed, logAuthFail_fixed, modSess_fixed, raise_fixed, sessNext_fixed, sessSend_fixed] | rfl))

theorem execTagReplyTimeout_fixed (x : Tenant) (now : Tick) (s : State) : ∀ t, execTagReplyTimeout x now s = .next t → fixedPart t = fixedPart s := by
  grind (splits := 24) [execTagReplyTimeout, advanceTo_fixed, closeSession_fixed, endAcc_fixed]

theorem execSessionIdleTimeout_fixed (x : Tenant) (now : Tick) (s : State) : ∀ t, execSessionIdleTimeout x now s = .next t → fixedPart t = fixedPart s := by
  grind (splits := 24) [execSessionIdleTimeout, advanceTo_fixed, closeSession_fixed]

theorem execSessionDwellHop_fixed (x : Tenant) (now : Tick) (cal : Cal) (s : State) : ∀ t, execSessionDwellHop x now cal s = .next t → fixedPart t = fixedPart s := by
  (intro t h; unfold execSessionDwellHop at h; (repeat' ((try dsimp only at h); split at h)) <;> (first | cases h | (simp only [Host.Outcome.next.injEq] at h; subst h)) <;> ((try dsimp only) <;> first | (simp only [advanceTo_fixed, calibrate_fixed, carrierOff_fixed, carrierOn_fixed, closeSession_fixed, compApply_fixed, compHop_fixed, grantAir_fixed, leaveChannel_fixed, modSess_fixed, rampUp_fixed, sessionGone_fixed]; done) | (simp only [advanceTo_fixed, calibrate_fixed, carrierOff_fixed, carrierOn_fixed, closeSession_fixed, compApply_fixed, compHop_fixed, grantAir_fixed, leaveChannel_fixed, modSess_fixed, rampUp_fixed, sessionGone_fixed]; rfl) | (simp; done) | (have e := nextChannel_fixed _ _ _ _ ‹_›; (try simp only [advanceTo_fixed, calibrate_fixed, carrierOff_fixed, carrierOn_fixed, closeSession_fixed, compApply_fixed, compHop_fixed, grantAir_fixed, leaveChannel_fixed, modSess_fixed, rampUp_fixed, sessionGone_fixed] at e ⊢); exact e) | grind [advanceTo_fixed, calibrate_fixed, carrierOff_fixed, carrierOn_fixed, closeSession_fixed, compApply_fixed, compHop_fixed, grantAir_fixed, leaveChannel_fixed, modSess_fixed, nextChannel_fixed, rampUp_fixed, sessionGone_fixed] | rfl))

-- ------------------------------------------------------------ LinkMac

@[simp] theorem takeFrame_fixed (k : Fin 48) (s : State) : fixedPart (takeFrame k s).2 = fixedPart s := by
  grind [takeFrame, modSlot_fixed, queueCommit_fixed]

@[simp] theorem takeMseq_fixed (s : State) : fixedPart (takeMseq s).2 = fixedPart s := by
  grind [takeMseq, setLink_fixed]

@[simp] theorem sendTold_fixed (e : Send) (status : Byte) (s : State) : fixedPart (sendTold e status s) = fixedPart s := by
  grind [sendTold, freeBuf_fixed, raise_fixed]

@[simp] theorem sendEnd_fixed (status : Byte) (s : State) : fixedPart (sendEnd status s) = fixedPart s := by
  grind [sendEnd, releaseAir_fixed, sendTold_fixed, setLink_fixed]

@[simp] theorem sendDrop_fixed (e : Send) (status : Byte) (s : State) : fixedPart (sendDrop e status s) = fixedPart s := by
  grind [sendDrop, dropWaiters_fixed, sendTold_fixed, setLink_fixed]

@[simp] theorem sendAsk_fixed (e : Send) (s : State) : fixedPart (sendAsk e s) = fixedPart s := by
  grind [sendAsk, requestAir_fixed]

@[simp] theorem listenEnd_fixed (x : Tenant) (status : Byte) (s : State) : fixedPart (listenEnd x status s) = fixedPart s := by
  grind [listenEnd, chargeListen_fixed, dropWaiters_fixed, raise_fixed, releaseAir_fixed, setLink_fixed]

@[simp] theorem listensDue_fixed (s : State) : fixedPart (listensDue s) = fixedPart s := by
  grind [listensDue, forTenants_fixed, listenEnd_fixed]

theorem execSendTimeDue_fixed (now : Tick) (s : State) : ∀ t, execSendTimeDue now s = .next t → fixedPart t = fixedPart s := by
  grind (splits := 24) [execSendTimeDue, advanceTo_fixed, sendDrop_fixed, sendEnd_fixed]

theorem execCsmaBackoffEnd_fixed (now : Tick) (s : State) : ∀ t, execCsmaBackoffEnd now s = .next t → fixedPart t = fixedPart s := by
  (intro t h; unfold execCsmaBackoffEnd at h; (repeat' ((try dsimp only at h); split at h)) <;> (first | cases h | (simp only [Host.Outcome.next.injEq] at h; subst h)) <;> ((try dsimp only) <;> first | (simp only [advanceTo_fixed, calResult_fixed, sendEnd_fixed, setCore_fixed, setLink_fixed]; done) | (simp only [advanceTo_fixed, calResult_fixed, sendEnd_fixed, setCore_fixed, setLink_fixed]; rfl) | (simp; done) | (have e := drbgTake_fixed _ _ _ ‹_›; (try simp only [advanceTo_fixed, calResult_fixed, sendEnd_fixed, setCore_fixed, setLink_fixed] at e ⊢); exact e) | grind [advanceTo_fixed, calResult_fixed, drbgTake_fixed, sendEnd_fixed, setCore_fixed, setLink_fixed] | rfl))

theorem execCcaResult_fixed (now : Tick) (dbm : Int) (s : State) : ∀ t, execCcaResult now dbm s = .next t → fixedPart t = fixedPart s := by
  grind (splits := 24) [execCcaResult, advanceTo_fixed, drawNat_fixed, sendEnd_fixed, setCore_fixed, setLink_fixed, transmit_fixed]

@[simp] theorem ackOver_fixed (s : State) : fixedPart (ackOver s) = fixedPart s := by
  grind [ackOver, coexTrack_fixed, frameEnd_fixed, listensDue_fixed, setCore_fixed, setHold_fixed, setLink_fixed, setRadio_fixed, trswEnd_fixed]

theorem execLinkTxEnd_fixed (now : Tick) (s : State) : ∀ t, execLinkTxEnd now s = .next t → fixedPart t = fixedPart s := by
  grind (splits := 24) [execLinkTxEnd, ackOver_fixed, advanceTo_fixed, dutyAdd_fixed, sendEnd_fixed, setCore_fixed, setHold_fixed, setLink_fixed]

@[simp] theorem noAck_fixed (s : State) : fixedPart (noAck s) = fixedPart s := by
  grind [noAck, raise_fixed, setLink_fixed]

theorem execAckWindowExpiry_fixed (now : Tick) (s : State) : ∀ t, execAckWindowExpiry now s = .next t → fixedPart t = fixedPart s := by
  grind (splits := 24) [execAckWindowExpiry, advanceTo_fixed, frameEnd_fixed, noAck_fixed, sendEnd_fixed, setCore_fixed, setHold_fixed, setLink_fixed]

theorem execAckTransmit_fixed (now : Tick) (s : State) : ∀ t, execAckTransmit now s = .next t → fixedPart t = fixedPart s := by
  grind (splits := 24) [execAckTransmit, ackOver_fixed, advanceTo_fixed, dutyAdd_fixed, linkCompApply_fixed, setCore_fixed, setLink_fixed, trswSpan_fixed]

@[simp] theorem beaconPlan_fixed (start : Tick) (s : State) : fixedPart (beaconPlan start s) = fixedPart s := by
  grind [beaconPlan, drawNat_fixed, setLink_fixed]

theorem beaconKey_fixed (k : Fin 48) (s : State) : ∀ r, beaconKey k s = some r → fixedPart r.2.2 = fixedPart s := by
  (intro r h; unfold beaconKey at h; (repeat' ((try dsimp only at h); split at h)) <;> (first | cases h | (simp only [Option.some.injEq, Except.ok.injEq] at h; subst h)) <;> ((try dsimp only) <;> first | (simp only [takeFrame_fixed]; done) | (simp only [takeFrame_fixed]; rfl) | (simp; done) | (have e := useKey_fixed _ _ _ _ _ ‹_›; (try simp only [takeFrame_fixed] at e ⊢); exact e) | grind [takeFrame_fixed, useKey_fixed] | rfl))

theorem execBeaconDue_fixed (now : Tick) (s : State) : ∀ t, execBeaconDue now s = .next t → fixedPart t = fixedPart s := by
  (intro t h; unfold execBeaconDue at h; (repeat' ((try dsimp only at h); split at h)) <;> (first | cases h | (simp only [Host.Outcome.next.injEq] at h; subst h)) <;> ((try dsimp only) <;> first | (simp only [advanceTo_fixed, beaconPlan_fixed, sendAsk_fixed, setLink_fixed, takeMseq_fixed]; done) | (simp only [advanceTo_fixed, beaconPlan_fixed, sendAsk_fixed, setLink_fixed, takeMseq_fixed]; rfl) | (simp; done) | (have e := beaconKey_fixed _ _ _ ‹_›; (try simp only [advanceTo_fixed, beaconPlan_fixed, sendAsk_fixed, setLink_fixed, takeMseq_fixed] at e ⊢); exact e) | grind [advanceTo_fixed, beaconKey_fixed, beaconPlan_fixed, sendAsk_fixed, setLink_fixed, takeMseq_fixed] | rfl))

@[simp] theorem nbrLost_fixed (addr : BitVec 16) (reason : Byte) (s : State) : fixedPart (nbrLost addr reason s) = fixedPart s := by
  grind [nbrLost, raise_fixed, setLink_fixed]

theorem execNbrAgeing_fixed (now : Tick) (s : State) : ∀ t, execNbrAgeing now s = .next t → fixedPart t = fixedPart s := by
  (unfold execNbrAgeing; (repeat' ((try dsimp only); split)) <;> ((try dsimp only) <;> first | (simp only [advanceTo_fixed, nbrLost_fixed, setLink_fixed]; done) | (simp only [advanceTo_fixed, nbrLost_fixed, setLink_fixed]; rfl) | (simp; done) | grind [advanceTo_fixed, nbrLost_fixed, setLink_fixed] | rfl))

theorem execListenDurExpiry_fixed (x : Tenant) (now : Tick) (s : State) : ∀ t, execListenDurExpiry x now s = .next t → fixedPart t = fixedPart s := by
  grind (splits := 24) [execListenDurExpiry, advanceTo_fixed, listenEnd_fixed]

-- ------------------------------------------------------------ LinkAir

@[simp] theorem laneTaken_fixed (lane : Fin 6) (s : State) : fixedPart (laneTaken lane s) = fixedPart s := by
  grind [laneTaken, setLink_fixed]

@[simp] theorem aerialKept_fixed (lkb : Bool) (s : State) : fixedPart (aerialKept lkb s) = fixedPart s := by
  grind [aerialKept, setLink_fixed]

theorem execLaneDetection_fixed (found : List (Fin 6 × Nat)) (now : Tick) (s : State) : ∀ t, execLaneDetection found now s = .next t → fixedPart t = fixedPart s := by
  grind (splits := 24) [execLaneDetection, advanceTo_fixed, calResult_fixed, forTenants_fixed, laneTaken_fixed, listenEnd_fixed]

theorem execDiversityDecision_fixed (here there : Nat) (s : State) : ∀ t, execDiversityDecision here there s = .next t → fixedPart t = fixedPart s := by
  grind (splits := 24) [execDiversityDecision, aerialKept_fixed, drawBool_fixed]

theorem execSfdTimeout_fixed (now : Tick) (s : State) : ∀ t, execSfdTimeout now s = .next t → fixedPart t = fixedPart s := by
  grind (splits := 24) [execSfdTimeout, advanceTo_fixed, searchAgain_fixed, setLink_fixed]

@[simp] theorem sfdFound_fixed (s : State) : fixedPart (sfdFound s) = fixedPart s := by
  grind [sfdFound, aerialKept_fixed, setLink_fixed]

theorem execPhrReceived_fixed (len hcs : Byte) (asksAck : Bool) (s : State) : ∀ t, execPhrReceived len hcs asksAck s = .next t → fixedPart t = fixedPart s := by
  grind (splits := 24) [execPhrReceived, coexTrack_fixed, searchAgain_fixed, setCommit_fixed, setLink_fixed, setRadio_fixed, sfdFound_fixed]

@[simp] theorem ackOwe_fixed (f : RxFrame) (s : State) : fixedPart (ackOwe f s) = fixedPart s := by
  grind [ackOwe, coexTrack_fixed, setHold_fixed, setLink_fixed, setRadio_fixed]

@[simp] theorem countDrop_fixed (d : Drop) (s : State) : fixedPart (countDrop d s) = fixedPart s := by
  (unfold countDrop; simp; done)

@[simp] theorem nbrHeard_fixed (f : RxFrame) (m : MacFrame) (s : State) : fixedPart (nbrHeard f m s) = fixedPart s := by
  grind [nbrHeard, setLink_fixed]

@[simp] theorem beaconHeard_fixed (f : RxFrame) (m : MacFrame) (body : Bytes) (s : State) : fixedPart (beaconHeard f m body s) = fixedPart s := by
  (unfold beaconHeard; (repeat' ((try dsimp only); split)) <;> ((try dsimp only) <;> first | (simp only [raise_fixed, setLink_fixed]; done) | (simp only [raise_fixed, setLink_fixed]; rfl) | (simp; done) | grind [raise_fixed, setLink_fixed] | rfl))

@[simp] theorem deliver_fixed (f : RxFrame) (m : MacFrame) (p : Bytes) (s : State) : fixedPart (deliver f m p s) = fixedPart s := by
  grind [deliver, forTenants_fixed, raise_fixed, setLink_fixed]

@[simp] theorem macProcess_fixed (f : RxFrame) (s : State) : fixedPart (macProcess f s) = fixedPart s := by
  grind [macProcess, beaconHeard_fixed, countDrop_fixed, deliver_fixed, nbrHeard_fixed, setLink_fixed]

theorem execLinkFrameReceived_fixed (f : RxFrame) (now : Tick) (s : State) : ∀ t, execLinkFrameReceived f now s = .next t → fixedPart t = fixedPart s := by
  grind (splits := 24) [execLinkFrameReceived, ackOwe_fixed, advanceTo_fixed, coexTrack_fixed, frameEnd_fixed, linkHeard_fixed, listensDue_fixed, macProcess_fixed, setRadio_fixed]

theorem execAckReceived_fixed (now : Tick) (f : RxFrame) (s : State) : ∀ t, execAckReceived now f s = .next t → fixedPart t = fixedPart s := by
  grind (splits := 24) [execAckReceived, advanceTo_fixed, linkHeard_fixed, sendEnd_fixed, setLink_fixed]

-- ------------------------------------------------------------ LinkCmds

theorem execLnkNode_fixed (c : Cmd) (s : State) : ∀ t, execLnkNode c s = .next t → fixedPart t = fixedPart s := by
  intro t h
  cases h
  apply keelRun_fixed
  intro r
  grind [beaconPlan_fixed, keelRun_fixed, refuse_fixed, reply_fixed, setLink_fixed]

theorem sendKey_fixed (t : Tenant) (key : Nat) (s : State) : ∀ r, sendKey t key s = .ok r → fixedPart r.2 = fixedPart s := by
  (intro r h; unfold sendKey at h; (repeat' ((try dsimp only at h); split at h)) <;> (first | cases h | (simp only [Option.some.injEq, Except.ok.injEq] at h; subst h)) <;> ((try dsimp only) <;> first | (simp only [takeFrame_fixed]; done) | (simp only [takeFrame_fixed]; rfl) | (simp; done) | (have e := useKey_fixed _ _ _ _ _ ‹_›; (try simp only [takeFrame_fixed] at e ⊢); exact e) | grind [takeFrame_fixed, useKey_fixed] | rfl))

theorem execLnkSend_fixed (c : Cmd) (s : State) : ∀ t, execLnkSend c s = .next t → fixedPart t = fixedPart s := by
  intro t h
  cases h
  apply keelRun_fixed
  intro r
  ((repeat' ((try dsimp only); split)) <;> ((try dsimp only) <;> first | (simp only [keelRun_fixed, missBuf_fixed, modBuf_fixed, refuse_fixed, reply_fixed, sendAsk_fixed, serveBuf_fixed, setLink_fixed, takeMseq_fixed]; done) | (simp only [keelRun_fixed, missBuf_fixed, modBuf_fixed, refuse_fixed, reply_fixed, sendAsk_fixed, serveBuf_fixed, setLink_fixed, takeMseq_fixed]; rfl) | (simp; done) | (have e := sendKey_fixed _ _ _ _ ‹_›; (try simp only [keelRun_fixed, missBuf_fixed, modBuf_fixed, refuse_fixed, reply_fixed, sendAsk_fixed, serveBuf_fixed, setLink_fixed, takeMseq_fixed] at e ⊢); exact e) | grind [keelRun_fixed, missBuf_fixed, modBuf_fixed, refuse_fixed, reply_fixed, sendAsk_fixed, sendKey_fixed, serveBuf_fixed, setLink_fixed, takeMseq_fixed] | rfl))

theorem execLnkListen_fixed (c : Cmd) (s : State) : ∀ t, execLnkListen c s = .next t → fixedPart t = fixedPart s := by
  intro t h
  cases h
  apply keelRun_fixed
  intro r
  grind [keelRun_fixed, refuse_fixed, reply_fixed, requestAir_fixed, setLink_fixed]

@[simp] theorem sendStop_fixed (e : Send) (status : Byte) (s : State) : fixedPart (sendStop e status s) = fixedPart s := by
  grind [sendStop, sendDrop_fixed, sendEnd_fixed, setLink_fixed]

theorem execLnkCancel_fixed (c : Cmd) (s : State) : ∀ t, execLnkCancel c s = .next t → fixedPart t = fixedPart s := by
  intro t h
  cases h
  apply keelRun_fixed
  intro r
  grind [keelRun_fixed, listenEnd_fixed, refuse_fixed, sendStop_fixed, setLink_fixed]

theorem execLnkReset_fixed (c : Cmd) (s : State) : ∀ t, execLnkReset c s = .next t → fixedPart t = fixedPart s := by
  intro t h
  cases h
  apply keelRun_fixed
  intro r
  extract_lets t u1 u2 u3 u4 u5 u6 u7
  have h1 : fixedPart u1 = fixedPart r := by simp [u1]
  have h2 : fixedPart u2 = fixedPart r := by simp only [u2]; rw [foldl_fixed _ _ _ (by intros; simp)]; exact h1
  have h3 : fixedPart u3 = fixedPart r := by simp only [u3]; split <;> simp [h2]
  have h4 : fixedPart u4 = fixedPart r := by simp only [u4]; split <;> simp [h3]
  have h5 : fixedPart u5 = fixedPart r := by simp only [u5]; split <;> simp [h4]
  have h7 : fixedPart u7 = fixedPart r := by simp [u7, u6, h5]
  clear_value u7
  (repeat' split) <;> simp [h7]

theorem execNbrList_fixed (c : Cmd) (s : State) : ∀ t, execNbrList c s = .next t → fixedPart t = fixedPart s := by
  intro t h
  cases h
  apply keelRun_fixed
  intro r
  grind [keelRun_fixed, refuse_fixed, reply_fixed]

theorem execNbrForget_fixed (c : Cmd) (s : State) : ∀ t, execNbrForget c s = .next t → fixedPart t = fixedPart s := by
  intro t h
  cases h
  apply keelRun_fixed
  intro r
  grind [keelRun_fixed, nbrLost_fixed, refuse_fixed, reply_fixed]

-- ------------------------------------------------------------ RadioCmds

theorem execRadioStatus_fixed (c : Cmd) (s : State) : ∀ t, execRadioStatus c s = .next t → fixedPart t = fixedPart s := by
  intro t h
  cases h
  apply keelRun_fixed
  intro r
  grind [keelRun_fixed, refuse_fixed, reply_fixed]

theorem execCoexConfig_fixed (c : Cmd) (s : State) : ∀ t, execCoexConfig c s = .next t → fixedPart t = fixedPart s := by
  intro t h
  cases h
  apply keelRun_fixed
  intro r
  grind [keelRun_fixed, modProf_fixed, refuse_fixed, reply_fixed]

theorem execRadioHoptable_fixed (c : Cmd) (s : State) : ∀ t, execRadioHoptable c s = .next t → fixedPart t = fixedPart s := by
  intro t h
  cases h
  apply keelRun_fixed
  intro r
  grind [keelRun_fixed, modProf_fixed, refuse_fixed, reply_fixed, setRdr_fixed]

theorem execDeepCalibration_fixed (core : CoreId) (now : Tick) (temp : Int) (s : State) : ∀ t, execDeepCalibration core now temp s = .next t → fixedPart t = fixedPart s := by
  grind (splits := 24) [execDeepCalibration, advanceTo_fixed, deepRan_fixed]

@[simp] theorem programWithdrawn_fixed (t : Tenant) (h : Hold) (s : State) : fixedPart (programWithdrawn t h s) = fixedPart s := by
  grind [programWithdrawn, charge_fixed, coexTrack_fixed, coreDown_fixed, loseAir_fixed, modCtx_fixed, setHold_fixed, setRadio_fixed]

@[simp] theorem readerWithdrawn_fixed (s : State) : fixedPart (readerWithdrawn s) = fixedPart s := by
  grind [readerWithdrawn, accWithdrawn_fixed, builtinTune_fixed, closeSession_fixed, invNext_fixed, loseAir_fixed, programWithdrawn_fixed, releaseAir_fixed, roundTold_fixed, setInv_fixed]

@[simp] theorem cutCounted_fixed (s : State) : fixedPart (cutCounted s) = fixedPart s := by
  (unfold cutCounted; simp; done)

@[simp] theorem sendWithdrawn_fixed (e : Send) (r : List Send) (s : State) : fixedPart (sendWithdrawn e r s) = fixedPart s := by
  grind [sendWithdrawn, cutCounted_fixed, dutyAdd_fixed, noAck_fixed, releaseAir_fixed, sendAsk_fixed, sendEnd_fixed, sendMissed_fixed, setLink_fixed, trswEnd_fixed]

@[simp] theorem giveLkb_fixed (t : Tenant) (s : State) : fixedPart (giveLkb t s) = fixedPart s := by
  grind [giveLkb, setLink_fixed, setRadio_fixed]

@[simp] theorem ltxWithdrawn_fixed (t : Tenant) (p : Pend) (r : AirReq) (s : State) : fixedPart (ltxWithdrawn t p r s) = fixedPart s := by
  grind [ltxWithdrawn, coexTrack_fixed, cutCounted_fixed, dutyAdd_fixed, loseAir_fixed, modCtx_fixed, setCommit_fixed, setCore_fixed, setRadio_fixed, trswEnd_fixed]

@[simp] theorem macWithdrawn_fixed (s : State) : fixedPart (macWithdrawn s) = fixedPart s := by
  unfold macWithdrawn
  generalize s.link.step = a, s.link.sends = b, s.link.ackEnd = c
  cases a <;> cases b <;> cases c <;>
    first | rfl | simp only [giveLkb_fixed, ackOver_fixed, cutCounted_fixed, sendWithdrawn_fixed]

@[simp] theorem linkWithdrawn_fixed (s : State) : fixedPart (linkWithdrawn s) = fixedPart s := by
  unfold linkWithdrawn
  cases s.radio.lHold with
  | none => rfl
  | some h =>
    dsimp only
    cases h.req.who
    case ctx t =>
      dsimp only
      cases s.ctxs[t].pend with
      | none => rfl
      | some p => exact ite_fixed (by simp only [ltxWithdrawn_fixed]) (ite_fixed (by simp only [giveLkb_fixed]) rfl)
    case listen => exact ite_fixed (by simp only [ackOver_fixed, cutCounted_fixed, giveLkb_fixed]) (by simp only [giveLkb_fixed])
    all_goals first
      | rfl
      | simp only [macWithdrawn_fixed, loseAir_fixed]

theorem execCoexGntChange_fixed (now : Tick) (ns : Nat) (level : Bool) (s : State) : ∀ t, execCoexGntChange now ns level s = .next t → fixedPart t = fixedPart s := by
  grind (splits := 24) [execCoexGntChange, advanceTo_fixed, forTenants_fixed, linkWithdrawn_fixed, modCtx_fixed, readerWithdrawn_fixed, setRadio_fixed]

theorem execCoexLeadElapsed_fixed (now : Tick) (s : State) : ∀ t, execCoexLeadElapsed now s = .next t → fixedPart t = fixedPart s := by
  grind (splits := 24) [execCoexLeadElapsed, advanceTo_fixed, setRadio_fixed]

@[simp] theorem coexDenied_fixed (r : AirReq) (s : State) : fixedPart (coexDenied r s) = fixedPart s := by
  unfold coexDenied
  extract_lets u1 u2
  have h : fixedPart u2 = fixedPart s := by simp only [u2, u1, coexTrack_fixed, setRadio_fixed]
  clear_value u2
  cases r.who with
  | ctx t => dsimp only; (repeat' split) <;> simp only [invDone_fixed, endAcc_fixed, endWait_fixed, h]
  | send t q => dsimp only; split <;> simp only [sendDrop_fixed, h]
  | beacon => dsimp only; split <;> simp only [sendDrop_fixed, h]
  | listen => dsimp only; rw [forTenants_fixed _ _ (by intros; simp only [listenEnd_fixed])]; exact h
  | sniff _ => dsimp only; simp only [setRdr_fixed, h]
  | sweep => dsimp only; simp only [sweepEnd_fixed, h]
  | _ => exact h

theorem execCoexWaitExpiry_fixed (now : Tick) (s : State) : ∀ t, execCoexWaitExpiry now s = .next t → fixedPart t = fixedPart s := by
  grind (splits := 24) [execCoexWaitExpiry, ackOver_fixed, advanceTo_fixed, coexDenied_fixed, setRadio_fixed]

end Sys2Proof.Machine
end

