-- ==== Sys2Proof/Machine/Tap.lean ====
section
/-!
DEFINITION. The test access port, master M6 (2.7, R55, R630): its controller, its reset, and the IDCODE register. PRESUMED (log
entry 69): the controller's states and moves are those of IEEE 1149.1, which Table 0-2 and 2.7 name.
-/
namespace Sys2Proof.Machine

/-- Silicon step, part and manufacturer in the IDCODE's places: version in bits 31:28, part in 27:12, manufacturer in 11:1, and
1 in bit 0 (R630). -/
def idcodeOf (version : BitVec 4) (part : BitVec 16) (maker : BitVec 11) : BitVec 32 := version ++ part ++ maker ++ (1 : BitVec 1)

/-- The TAP IDCODE of step B1 (R630). -/
def idcode : BitVec 32 := idcodeOf 0x1 0x4C40 0x05A

/-- The controller's move at a rising edge of TCK with this level of TMS. Log entry 69 PRESUMED. -/
def tapNext (tms : Bool) : TapState → TapState
  | .testLogicReset => if tms then .testLogicReset else .runTestIdle
  | .runTestIdle => if tms then .selectDr else .runTestIdle
  | .selectDr => if tms then .selectIr else .captureDr
  | .captureDr => if tms then .exit1Dr else .shiftDr
  | .shiftDr => if tms then .exit1Dr else .shiftDr
  | .exit1Dr => if tms then .updateDr else .pauseDr
  | .pauseDr => if tms then .exit2Dr else .pauseDr
  | .exit2Dr => if tms then .updateDr else .shiftDr
  | .updateDr => if tms then .selectDr else .runTestIdle
  | .selectIr => if tms then .testLogicReset else .captureIr
  | .captureIr => if tms then .exit1Ir else .shiftIr
  | .shiftIr => if tms then .exit1Ir else .shiftIr
  | .exit1Ir => if tms then .updateIr else .pauseIr
  | .pauseIr => if tms then .exit2Ir else .pauseIr
  | .exit2Ir => if tms then .updateIr else .shiftIr
  | .updateIr => if tms then .selectDr else .runTestIdle

/-- One TCK cycle with these levels of TMS and TDI: Capture-DR loads the IDCODE, Shift-DR passes it out of TDO from bit 0 on, and
Test-Logic-Reset selects IDCODE. The instruction codes are not in the spec, so which register an Update-IR selects is free.
Log entries 9 DESIGN CHOICE, 69 PRESUMED. -/
def tapClock (tms tdi : Bool) (s : State) : State :=
  let t := s.tap
  let to_ := tapNext tms t.st
  let dr := match t.st with
    | .captureDr => if t.idSel then idcode else t.dr
    | .shiftDr => (BitVec.ofBool tdi ++ t.dr.extractLsb 31 1 : BitVec 32)
    | _ => t.dr
  let tdo := match to_ with
    | .shiftDr => some (dr.getLsbD 0)
    | .shiftIr => some tdi
    | _ => none
  match to_ with
  | .testLogicReset => { s with tap := { st := to_, idSel := true, dr := dr, tdo := none } }
  | .updateIr =>
    let (b, s) := drawBool s
    { s with tap := { st := to_, idSel := b, dr := dr, tdo := none } }
  | _ => { s with tap := { t with st := to_, dr := dr, tdo := tdo } }

/-- TCK cycles one after the other, TMS and TDI for each. -/
def tapClocks : List (Bool × Bool) → State → State
  | [], s => s
  | (tms, tdi) :: r, s => tapClocks r (tapClock tms tdi s)

/-- What the internal pulls give TMS and TDI where they are unconnected (Table 2-2): both high. TCK is pulled down then, so it
gives no edge (R55). -/
def tapPulls : Bool × Bool := (true, true)

end Sys2Proof.Machine
end

