-- ==== Sys2Proof/Laws/FixedPart.lean ====
section
/-!
SUPPORT. Frame lemmas of Store, registers, ports, Mend, power and the test access port: nothing here touches the queue
of commands, the serial number or the binding of ports to tenants.
-/
namespace Sys2Proof.Machine
set_option linter.all false

-- ------------------------------------------------------------ Store

@[simp] theorem countWrites_fixed (p n : Nat) (s : State) : fixedPart (countWrites p n s) = fixedPart s := by
  grind [countWrites, setStore_fixed]

@[simp] theorem remap_fixed (l p : Nat) (s : State) : fixedPart (remap l p s) = fixedPart s := by
  (unfold remap; simp; done)

@[simp] theorem ballastSample_fixed (vhu : Nat) (s : State) : fixedPart (ballastSample vhu s) = fixedPart s := by
  (unfold ballastSample; simp; done)

theorem execNvmRead_fixed (c : Cmd) (s : State) : ∀ t, execNvmRead c s = .next t → fixedPart t = fixedPart s := by
  intro t h
  cases h
  apply keelRun_fixed
  intro r
  grind [keelRun_fixed, refuse_fixed, reply_fixed]

theorem execNvmWrite_fixed (c : Cmd) (s : State) : ∀ t, execNvmWrite c s = .next t → fixedPart t = fixedPart s := by
  intro t h
  cases h
  apply keelRun_fixed
  intro r
  grind [keelRun_fixed, queueCommit_fixed, refuse_fixed]

theorem execNvmBallast_fixed (c : Cmd) (s : State) : ∀ t, execNvmBallast c s = .next t → fixedPart t = fixedPart s := by
  intro t h
  cases h
  apply keelRun_fixed
  intro r
  grind [keelRun_fixed, queueCommit_fixed, refuse_fixed, reply_fixed, setStore_fixed]

theorem execNvmStatus_fixed (c : Cmd) (s : State) : ∀ t, execNvmStatus c s = .next t → fixedPart t = fixedPart s := by
  intro t h
  cases h
  apply keelRun_fixed
  intro r
  grind [keelRun_fixed, refuse_fixed, reply_fixed]

@[simp] theorem commitSectors_fixed (c : Commit) (s : State) : fixedPart (commitSectors c s).2 = fixedPart s := by
  grind [commitSectors, drawNat_fixed]

@[simp] theorem queueMap_fixed (wear : Bool) (s : State) : fixedPart (queueMap wear s) = fixedPart s := by
  (unfold queueMap; simp; done)

@[simp] theorem storeLoss_fixed (p : Nat) (s : State) : fixedPart (storeLoss p s) = fixedPart s := by
  grind [storeLoss, logEntry_fixed, mendLoss_fixed, setStore_fixed]

@[simp] theorem retireSector_fixed (l : Nat) (s : State) : fixedPart (retireSector l s).2 = fixedPart s := by
  grind [retireSector, countWrites_fixed, mendEvent_fixed, queueMap_fixed, remap_fixed, setStore_fixed, storeLoss_fixed]

@[simp] theorem retireAll_fixed (y0 : Nat) (y1 : List Nat) (s : State) : fixedPart (retireAll y0 y1 s).2 = fixedPart s := by
  induction y0 generalizing y1 s with
  | zero => unfold retireAll; rfl
  | succ n ih =>
    cases y1 with
    | nil => rfl
    | cons l r =>
      unfold retireAll
      have e := retireSector_fixed l s
      split
      · rename_i h; rw [h] at e; exact e
      · rename_i h; rw [h] at e; rw [ih]; exact e

@[simp] theorem writePages_fixed (ls : List Nat) (s : State) : fixedPart (writePages ls s) = fixedPart s := by
  (unfold writePages; (repeat' ((try dsimp only); split)) <;> ((try dsimp only) <;> first | (simp only [countWrites_fixed, setStore_fixed]; done) | (simp only [countWrites_fixed, setStore_fixed]; rfl) | (simp; done) | grind [countWrites_fixed, setStore_fixed] | rfl))

@[simp] theorem eraseSlot_fixed (k : Fin 48) (s : State) : fixedPart (eraseSlot k s) = fixedPart s := by
  grind [eraseSlot, dropOrphans_fixed, forTenants_fixed, modCtx_fixed, modSess_fixed, modSlot_fixed, setStore_fixed, setTag_fixed]

@[simp] theorem logLand_fixed (es : List LogEntry) (s : State) : fixedPart (logLand es s) = fixedPart s := by
  (unfold logLand; simp; done)

@[simp] theorem mapLand_fixed (wear : Bool) (copies : BitVec 3) (s : State) : fixedPart (mapLand wear copies s) = fixedPart s := by
  grind [mapLand, remap_fixed, setMend_fixed, setStore_fixed]

@[simp] theorem landCommit_fixed (k : CommitKind) (s : State) : fixedPart (landCommit k s) = fixedPart s := by
  (unfold landCommit; (repeat' ((try dsimp only); split)) <;> ((try dsimp only) <;> first | (simp only [dropOrphans_fixed, eraseSlot_fixed, logLand_fixed, mapLand_fixed, modSlot_fixed, raise_fixed, reply_fixed, setBri_fixed, setLdg_fixed, setStore_fixed]; done) | (simp only [dropOrphans_fixed, eraseSlot_fixed, logLand_fixed, mapLand_fixed, modSlot_fixed, raise_fixed, reply_fixed, setBri_fixed, setLdg_fixed, setStore_fixed]; rfl) | (simp; done) | grind [dropOrphans_fixed, eraseSlot_fixed, logLand_fixed, mapLand_fixed, modSlot_fixed, raise_fixed, reply_fixed, setBri_fixed, setLdg_fixed, setStore_fixed] | rfl))

@[simp] theorem failCommit_fixed (k : CommitKind) (st : Byte) (s : State) : fixedPart (failCommit k st s) = fixedPart s := by
  (unfold failCommit; (repeat' ((try dsimp only); split)) <;> ((try dsimp only) <;> first | (simp only [modSlot_fixed, refuse_fixed]; done) | (simp only [modSlot_fixed, refuse_fixed]; rfl) | (simp; done) | grind [modSlot_fixed, refuse_fixed] | rfl))

@[simp] theorem runMap_fixed (wear : Bool) (bad : Nat) (s : State) : fixedPart (runMap wear bad s) = fixedPart s := by
  grind [runMap, countWrites_fixed, mapLand_fixed, setMend_fixed, storeLoss_fixed]

@[simp] theorem runCommit_fixed (c : Commit) (bad : Nat) (s : State) : fixedPart (runCommit c bad s) = fixedPart s := by
  grind [runCommit, commitSectors_fixed, failCommit_fixed, landCommit_fixed, retireAll_fixed, runMap_fixed, writePages_fixed]

@[simp] theorem deferCommit_fixed (c : Commit) (s : State) : fixedPart (deferCommit c s) = fixedPart s := by
  grind [deferCommit, failCommit_fixed, setStore_fixed]

theorem execStoreCommit_fixed (vhu badWrites : Nat) (s : State) : ∀ t, execStoreCommit vhu badWrites s = .next t → fixedPart t = fixedPart s := by
  grind (splits := 24) [execStoreCommit, ballastSample_fixed, deferCommit_fixed, runCommit_fixed, setStore_fixed]

theorem execBallastRecheck_fixed (now : Tick) (vhu badWrites : Nat) (s : State) : ∀ t, execBallastRecheck now vhu badWrites s = .next t → fixedPart t = fixedPart s := by
  grind (splits := 24) [execBallastRecheck, advanceTo_fixed, ballastSample_fixed, runCommit_fixed, setStore_fixed]

theorem execWearMoveStep_fixed (s : State) : ∀ t, execWearMoveStep s = .next t → fixedPart t = fixedPart s := by
  grind (splits := 24) [execWearMoveStep, countWrites_fixed, queueMap_fixed, setStore_fixed]

theorem execColdSectorMove_fixed (sector : Nat) (s : State) : ∀ t, execColdSectorMove sector s = .next t → fixedPart t = fixedPart s := by
  grind (splits := 24) [execColdSectorMove, drawNat_fixed, setStore_fixed]

-- ------------------------------------------------------------ Mend

@[simp] theorem lanesApply_fixed (s : State) : fixedPart (lanesApply s) = fixedPart s := by
  grind [lanesApply, setLink_fixed]

@[simp] theorem mendRepair_fixed (r : MendRes) (s : State) : fixedPart (mendRepair r s) = fixedPart s := by
  grind [mendRepair, lanesApply_fixed, mendEvent_fixed, mendLoss_fixed, queueMap_fixed, setMend_fixed]

@[simp] theorem startRepair_fixed (r : MendRes) (s : State) : fixedPart (startRepair r s) = fixedPart s := by
  grind [startRepair, lanesApply_fixed, logEntry_fixed, setMend_fixed]

theorem execDaylightWindowOpen_fixed (now : Tick) (s : State) : ∀ t, execDaylightWindowOpen now s = .next t → fixedPart t = fixedPart s := by
  grind (splits := 24) [execDaylightWindowOpen, advanceTo_fixed, setMend_fixed, startWake_fixed]

theorem execDaylightWindowEnd_fixed (s : State) : ∀ t, execDaylightWindowEnd s = .next t → fixedPart t = fixedPart s := by
  grind (splits := 24) [execDaylightWindowEnd, setMend_fixed]

@[simp] theorem keyTested_fixed (n : Nat) (s : State) : fixedPart (keyTested n s) = fixedPart s := by
  grind [keyTested, modSlot_fixed]

@[simp] theorem testDone_fixed (s : State) : fixedPart (testDone s) = fixedPart s := by
  grind [testDone, queueMap_fixed, setMend_fixed]

@[simp] theorem stepRepair_fixed (n : Nat) (found : Option MendRes) (s : State) : fixedPart (stepRepair n found s) = fixedPart s := by
  (unfold stepRepair; (repeat' ((try dsimp only); split)) <;> ((try dsimp only) <;> first | (simp only [mendRepair_fixed]; done) | (simp only [mendRepair_fixed]; rfl) | (simp; done) | grind [mendRepair_fixed] | rfl))

theorem execMendStep_fixed (now : Tick) (found : Option MendRes) (s : State) : ∀ t, execMendStep now found s = .next t → fixedPart t = fixedPart s := by
  grind (splits := 24) [execMendStep, advanceTo_fixed, keyTested_fixed, setMend_fixed, stepRepair_fixed, testDone_fixed]

theorem execSramCorrection_fixed (bank : Fin 16) (row : BitVec 8) (now : Tick) (s : State) : ∀ t, execSramCorrection bank row now s = .next t → fixedPart t = fixedPart s := by
  grind (splits := 24) [execSramCorrection, advanceTo_fixed, mendRepair_fixed, setMend_fixed]

theorem execSynthCheckCalibration_fixed (core : CoreId) (passed : Bool) (s : State) : ∀ t, execSynthCheckCalibration core passed s = .next t → fixedPart t = fixedPart s := by
  (unfold execSynthCheckCalibration; (repeat' ((try dsimp only); split)) <;> ((try dsimp only) <;> first | (simp only [mendRepair_fixed, setMend_fixed]; done) | (simp only [mendRepair_fixed, setMend_fixed]; rfl) | (simp; done) | grind [mendRepair_fixed, setMend_fixed] | rfl))

theorem execMendResourceSwitch_fixed (r : MendRes) (s : State) : ∀ t, execMendResourceSwitch r s = .next t → fixedPart t = fixedPart s := by
  grind (splits := 24) [execMendResourceSwitch, mendRepair_fixed, setMend_fixed]

theorem execMendStatus_fixed (c : Cmd) (s : State) : ∀ t, execMendStatus c s = .next t → fixedPart t = fixedPart s := by
  intro t h
  cases h
  apply keelRun_fixed
  intro r
  grind [keelRun_fixed, refuse_fixed, reply_fixed]

theorem execMendWindow_fixed (c : Cmd) (s : State) : ∀ t, execMendWindow c s = .next t → fixedPart t = fixedPart s := by
  intro t h
  cases h
  apply keelRun_fixed
  intro r
  grind [keelRun_fixed, queueCommit_fixed, refuse_fixed, reply_fixed, setMend_fixed]

-- ------------------------------------------------------------ Tenants

theorem execSysInfo_fixed (c : Cmd) (s : State) : ∀ t, execSysInfo c s = .next t → fixedPart t = fixedPart s := by
  intro t h
  cases h
  apply keelRun_fixed
  intro r
  grind [keelRun_fixed, refuse_fixed, reply_fixed]

theorem execSysSleep_fixed (c : Cmd) (s : State) : ∀ t, execSysSleep c s = .next t → fixedPart t = fixedPart s := by
  intro t h
  cases h
  apply keelRun_fixed
  intro r
  grind [keelRun_fixed, refuse_fixed, reply_fixed, setPower_fixed]

theorem execSysPatch_fixed (c : Cmd) (s : State) : ∀ t, execSysPatch c s = .next t → fixedPart t = fixedPart s := by
  intro t h
  cases h
  apply keelRun_fixed
  intro r
  grind [keelRun_fixed, queueCommit_fixed, refuse_fixed]

@[simp] theorem replyAhead_fixed (t : Tenant) (s : State) : fixedPart (replyAhead t s) = fixedPart s := by
  grind [replyAhead, modTen_fixed]

theorem execTenLock_fixed (c : Cmd) (s : State) : ∀ t, execTenLock c s = .next t → fixedPart t = fixedPart s := by
  intro t h
  cases h
  apply keelRun_fixed
  intro r
  ((repeat' ((try dsimp only); split)) <;> ((try dsimp only) <;> first | (simp only [keelRun_fixed, refuse_fixed, reply_fixed]; done) | (simp only [keelRun_fixed, refuse_fixed, reply_fixed]; rfl) | (simp; done) | grind [keelRun_fixed, refuse_fixed, reply_fixed] | rfl))

theorem execTenShare_fixed (c : Cmd) (s : State) : ∀ t, execTenShare c s = .next t → fixedPart t = fixedPart s := by
  intro t h
  cases h
  apply keelRun_fixed
  intro r
  ((repeat' ((try dsimp only); split)) <;> ((try dsimp only) <;> first | (simp only [keelRun_fixed, refuse_fixed, reply_fixed]; done) | (simp only [keelRun_fixed, refuse_fixed, reply_fixed]; rfl) | (simp; done) | grind [keelRun_fixed, refuse_fixed, reply_fixed] | rfl))

theorem execUnassignedOpcode_fixed (c : Cmd) (op : BitVec 16) (s : State) : ∀ t, execUnassignedOpcode c op s = .next t → fixedPart t = fixedPart s := by
  grind (splits := 24) [execUnassignedOpcode, keelRun_fixed, refuse_fixed]

-- ------------------------------------------------------------ Regs

@[simp] theorem readEffect_fixed (a : Nat) (s : State) : fixedPart (readEffect a s) = fixedPart s := by
  grind [readEffect, advanceTo_fixed, drawNat_fixed, modCap_fixed, modDc_fixed, modSlot_fixed]

@[simp] theorem readRun_fixed (t : Tenant) (y0 : Nat) (y1 : Nat) (s : State) : fixedPart (readRun t y0 y1 s).2 = fixedPart s := by
  induction y0 generalizing y1 s with
  | zero => rfl
  | succ n ih => unfold readRun; dsimp only; rw [ih]; simp

@[simp] theorem regRead_fixed (c : Cmd) (s : State) : fixedPart (regRead c s) = fixedPart s := by
  grind [regRead, readRun_fixed, refuse_fixed, reply_fixed]

@[simp] theorem profWrite_fixed (t : Tenant) (a : Nat) (v : Reg16) (s : State) : fixedPart (profWrite t a v s) = fixedPart s := by
  (unfold profWrite; simp; done)

@[simp] theorem writeDiv_fixed (t : Tenant) (w : Reg16) (s : State) : fixedPart (writeDiv t w s) = fixedPart s := by
  (unfold writeDiv; (repeat' ((try dsimp only); split)) <;> ((try dsimp only) <;> first | (simp; done) | grind [] | rfl))

@[simp] theorem writeReel_fixed (a : Nat) (w : Reg16) (s : State) : fixedPart (writeReel a w s) = fixedPart s := by
  grind [writeReel, goRelease_fixed, modCap_fixed, modCmp_fixed, modDc_fixed, modTout_fixed, toutAct_fixed]

@[simp] theorem regPut_fixed (t : Tenant) (a v : Nat) (s : State) : fixedPart (regPut t a v s) = fixedPart s := by
  grind [regPut, modChan_fixed, modCtx_fixed, modPort_fixed, profWrite_fixed, setLink_fixed, writeDiv_fixed, writeReel_fixed]

@[simp] theorem writeRun_fixed (t : Tenant) (y0 : Nat) (y1 : List Nat) (s : State) : fixedPart (writeRun t y0 y1 s) = fixedPart s := by
  induction y1 generalizing y0 s with
  | nil => rfl
  | cons v r ih => unfold writeRun; rw [ih]; simp

@[simp] theorem regWrite_fixed (c : Cmd) (s : State) : fixedPart (regWrite c s) = fixedPart s := by
  grind [regWrite, refuse_fixed, reply_fixed, writeRun_fixed]

theorem execRegRead_fixed (c : Cmd) (s : State) : ∀ t, execRegRead c s = .next t → fixedPart t = fixedPart s := by
  intro t h
  cases h
  apply keelRun_fixed
  intro r
  grind [keelRun_fixed, regRead_fixed]

theorem execRegWrite_fixed (c : Cmd) (s : State) : ∀ t, execRegWrite c s = .next t → fixedPart t = fixedPart s := by
  intro t h
  cases h
  apply keelRun_fixed
  intro r
  grind [keelRun_fixed, regWrite_fixed]

-- ------------------------------------------------------------ Ports

@[simp] theorem countBad_fixed (p : Port) (s : State) : fixedPart (countBad p s) = fixedPart s := by
  (unfold countBad; simp; done)

@[simp] theorem countAbort_fixed (p : Port) (s : State) : fixedPart (countAbort p s) = fixedPart s := by
  (unfold countAbort; simp; done)

@[simp] theorem countPortDrop_fixed (p : Port) (s : State) : fixedPart (countPortDrop p s) = fixedPart s := by
  (unfold countPortDrop; simp; done)

@[simp] theorem acceptFrame_fixed (p : Port) (s : State) : fixedPart (acceptFrame p s) = fixedPart s := by
  grind [acceptFrame, modPort_fixed, raise_fixed, setPower_fixed]

@[simp] theorem acceptCommand_fixed (p : Port) (op seq : BitVec 16) (args : Bytes) (y0 : Tenant) (s : State) : fixedPart (acceptCommand p op seq args y0 s) = fixedPart s := by
  (unfold acceptCommand; simp; done)

@[simp] theorem takeFrames_fixed (p : Port) (lag : Nat) (y0 : Nat) (y1 : Bool) (y2 : Bytes) (s : State) : fixedPart (takeFrames p lag y0 y1 y2 s) = fixedPart s := by
  induction y0 generalizing y1 y2 s with
  | zero => rfl
  | succ f ih =>
    unfold takeFrames
    dsimp only
    split
    · simp
    · split
      · rw [ih]; simp
      · split
        · rw [ih]; simp
        · split
          · simp
          · split
            · rw [ih]; split <;> simp
            · rw [ih]; simp

@[simp] theorem busNack_fixed (p : Port) (s : State) : fixedPart (busNack p s) = fixedPart s := by
  grind [busNack, modPort_fixed]

theorem execHostFrame_fixed (p : Port) (bus : Bus) (data : List Bool) (lag : Nat) (s : State) : ∀ t, execHostFrame p bus data lag s = .next t → fixedPart t = fixedPart s := by
  grind (splits := 24) [execHostFrame, busNack_fixed, modPort_fixed, takeFrames_fixed]

theorem execSpiInvalidTransaction_fixed (p : Port) (first : Byte) (s : State) : ∀ t, execSpiInvalidTransaction p first s = .next t → fixedPart t = fixedPart s := by
  grind (splits := 24) [execSpiInvalidTransaction, countBad_fixed]

@[simp] theorem cutFrame_fixed (p : Port) (s : State) : fixedPart (cutFrame p s) = fixedPart s := by
  grind [cutFrame, countAbort_fixed, modPort_fixed]

theorem execFrameAbort_fixed (p : Port) (s : State) : ∀ t, execFrameAbort p s = .next t → fixedPart t = fixedPart s := by
  grind (splits := 24) [execFrameAbort, cutFrame_fixed]

theorem execUartGapTimeout_fixed (s : State) : ∀ t, execUartGapTimeout s = .next t → fixedPart t = fixedPart s := by
  grind (splits := 24) [execUartGapTimeout, cutFrame_fixed]

theorem execUartFramingError_fixed (s : State) : ∀ t, execUartFramingError s = .next t → fixedPart t = fixedPart s := by
  grind (splits := 24) [execUartFramingError, cutFrame_fixed]

@[simp] theorem dequeueOut_fixed (p : Port) (s : State) : fixedPart (dequeueOut p s) = fixedPart s := by
  grind [dequeueOut, modTen_fixed]

@[simp] theorem divSwitch_fixed (o : Out) (s : State) : fixedPart (divSwitch o s) = fixedPart s := by
  (unfold divSwitch; (repeat' ((try dsimp only); split)) <;> ((try dsimp only) <;> first | (simp; done) | grind [] | rfl))

@[simp] theorem deliverToHost_fixed (p : Port) (bus : Bus) (s : State) : fixedPart (deliverToHost p bus s) = fixedPart s := by
  grind [deliverToHost, dequeueOut_fixed, divSwitch_fixed, modPort_fixed]

theorem execOutgoingFrameDelivered_fixed (p : Port) (bus : Bus) (s : State) : ∀ t, execOutgoingFrameDelivered p bus s = .next t → fixedPart t = fixedPart s := by
  grind (splits := 24) [execOutgoingFrameDelivered, deliverToHost_fixed]

theorem execPartialDelivery_fixed (p : Port) (bus : Bus) (n : Nat) (s : State) : ∀ t, execPartialDelivery p bus n s = .next t → fixedPart t = fixedPart s := by
  grind (splits := 24) [execPartialDelivery, modPort_fixed]

@[simp] theorem deliverMany_fixed (y0 : Nat) (s : State) : fixedPart (deliverMany y0 s).2 = fixedPart s := by
  induction y0 generalizing s with
  | zero => rfl
  | succ n ih =>
    unfold deliverMany
    split
    · rfl
    · dsimp only; rw [ih]; simp

theorem execUartHdxReply_fixed (n : Nat) (s : State) : ∀ t, execUartHdxReply n s = .next t → fixedPart t = fixedPart s := by
  grind (splits := 24) [execUartHdxReply, deliverMany_fixed, modPort_fixed]

@[simp] theorem detach_fixed (p : Port) (reason : Byte) (s : State) : fixedPart (detach p reason s) = fixedPart s := by
  grind [detach, breakSems_fixed, modPort_fixed, raise_fixed, setLink_fixed, setPower_fixed, tagOff_fixed]

@[simp] theorem portReset_fixed (p : Port) (s : State) : fixedPart (portReset p s) = fixedPart s := by
  grind [portReset, cutFrame_fixed, detach_fixed, modPort_fixed, modTen_fixed]

theorem execSpiPortResetSequence_fixed (p : Port) (s : State) : ∀ t, execSpiPortResetSequence p s = .next t → fixedPart t = fixedPart s := by
  grind (splits := 24) [execSpiPortResetSequence, portReset_fixed]

theorem execI2cStuckBus_fixed (s : State) : ∀ t, execI2cStuckBus s = .next t → fixedPart t = fixedPart s := by
  grind (splits := 24) [execI2cStuckBus, portReset_fixed]

theorem execUartBreak_fixed (s : State) : ∀ t, execUartBreak s = .next t → fixedPart t = fixedPart s := by
  grind (splits := 24) [execUartBreak, portReset_fixed]

theorem execVioLoss_fixed (s : State) : ∀ t, execVioLoss s = .next t → fixedPart t = fixedPart s := by
  grind (splits := 24) [execVioLoss, setPower_fixed]

theorem execVioReturn_fixed (s : State) : ∀ t, execVioReturn s = .next t → fixedPart t = fixedPart s := by
  grind (splits := 24) [execVioReturn, portReset_fixed, setPower_fixed]

theorem execPresenceTimeout_fixed (p : Port) (now : Tick) (s : State) : ∀ t, execPresenceTimeout p now s = .next t → fixedPart t = fixedPart s := by
  grind (splits := 24) [execPresenceTimeout, advanceTo_fixed, detach_fixed]

-- ------------------------------------------------------------ Power

@[simp] theorem clearFor_fixed (cause : BitVec 3) (s : State) : fixedPart (clearFor cause true s) = fixedPart s := by
  rfl

@[simp] theorem mendStart_fixed (f : StartFinds) (s : State) : fixedPart (mendStart f s) = fixedPart s := by
  unfold mendStart
  extract_lets good u1 u2 lg u3 u4 u5
  have h2 : fixedPart u2 = fixedPart s := by simp only [u2]; split <;> simp [u1]
  have h3 : fixedPart u3 = fixedPart s := by simp only [u3]; rw [foldl_fixed _ _ _ (by intros; simp)]; exact h2
  have h4 : fixedPart u4 = fixedPart s := by simp only [u4]; rw [foldl_fixed _ _ _ (by intros; split <;> simp)]; exact h3
  have h5 : fixedPart u5 = fixedPart s := by simp [u5, h4]
  clear_value u5
  split <;> simp [h5]

@[simp] theorem rootStart_fixed (f : StartFinds) (s : State) : fixedPart (rootStart f s) = fixedPart s := by
  grind [rootStart, setBri_fixed]

@[simp] theorem counterLost_fixed (s : State) : fixedPart (counterLost s).2 = fixedPart s := by
  grind [counterLost, drawNat_fixed]

@[simp] theorem useResume_fixed (k : Fin 48) (key : Key) (s : State) : fixedPart (useResume k key s) = fixedPart s := by
  grind [useResume, modSlot_fixed, queueCommit_fixed]

@[simp] theorem frameResume_fixed (k : Fin 48) (s : State) : fixedPart (frameResume k s) = fixedPart s := by
  grind [frameResume, modSlot_fixed, queueCommit_fixed]

@[simp] theorem slotStart_fixed (f : StartFinds) (k : Fin 48) (s : State) : fixedPart (slotStart f k s) = fixedPart s := by
  grind [slotStart, counterLost_fixed, frameResume_fixed, logEntry_fixed, modSlot_fixed, useResume_fixed]

@[simp] theorem journalReplay_fixed (s : State) : fixedPart (journalReplay s) = fixedPart s := by
  grind [journalReplay, setStore_fixed, writePages_fixed]

@[simp] theorem dayResume_fixed (s : State) : fixedPart (dayResume s) = fixedPart s := by
  rfl

@[simp] theorem startWork_fixed (f : StartFinds) (s : State) : fixedPart (startWork f s) = fixedPart s := by
  (unfold startWork; (repeat' ((try dsimp only); split)) <;> ((try dsimp only) <;> first | (simp only [dayResume_fixed, drbgStart_fixed, journalReplay_fixed, ledgerStart_fixed, mendStart_fixed, rootStart_fixed, setBri_fixed, setPower_fixed, setStore_fixed, slotStart_fixed]; done) | (simp only [dayResume_fixed, drbgStart_fixed, journalReplay_fixed, ledgerStart_fixed, mendStart_fixed, rootStart_fixed, setBri_fixed, setPower_fixed, setStore_fixed, slotStart_fixed]; rfl) | (simp; done) | grind [dayResume_fixed, drbgStart_fixed, journalReplay_fixed, ledgerStart_fixed, mendStart_fixed, rootStart_fixed, setBri_fixed, setPower_fixed, setStore_fixed, slotStart_fixed] | rfl))

@[simp] theorem warmStart_fixed (cause : BitVec 3) (f : StartFinds) (s : State) : fixedPart (warmStart cause f s) = fixedPart s := by
  grind [warmStart, clearFor_fixed, startWork_fixed]

@[simp] theorem startLive_fixed (s : State) : fixedPart (startLive s) = fixedPart s := by
  unfold startLive
  extract_lets d u1 u2 ch u3
  have h2 : fixedPart u2 = fixedPart s := by simp [u2, u1]
  have h3 : fixedPart u3 = fixedPart s := by
    simp only [u3]; rw [foldl_fixed _ _ _ (by intros; split <;> simp)]; exact h2
  clear_value u3
  split <;> simp [h3]

theorem execResetRelease_fixed (spaSdo addr1 addr0 test : Bool) (f : StartFinds) (s : State) : ∀ t, execResetRelease spaSdo addr1 addr0 test f s = .next t → fixedPart t = fixedPart s := by
  grind (splits := 24) [execResetRelease, setPower_fixed, startWork_fixed]

@[simp] theorem tamperIfLatched_fixed (s : State) : fixedPart (tamperIfLatched s) = fixedPart s := by
  grind [tamperIfLatched, tamperApply_fixed]

theorem execStartComplete_fixed (s : State) : ∀ t, execStartComplete s = .next t → fixedPart t = fixedPart s := by
  grind (splits := 24) [execStartComplete, advanceTo_fixed, drawNat_fixed, setPower_fixed, startLive_fixed, tamperIfLatched_fixed]

theorem execKeelWatchdogExpiry_fixed (f : StartFinds) (s : State) : ∀ t, execKeelWatchdogExpiry f s = .next t → fixedPart t = fixedPart s := by
  grind (splits := 24) [execKeelWatchdogExpiry, warmStart_fixed]

@[simp] theorem landNow_fixed (s : State) (c : Commit) : fixedPart (landNow s c) = fixedPart s := by
  grind [landNow, runCommit_fixed]

@[simp] theorem emergencySet_fixed (vhu : Nat) (s : State) : fixedPart (emergencySet vhu s).2 = fixedPart s := by
  (unfold emergencySet; (repeat' ((try dsimp only); split)) <;> ((try dsimp only) <;> first | (simp only [ballastSample_fixed, landNow_fixed, setStore_fixed]; done) | (simp only [ballastSample_fixed, landNow_fixed, setStore_fixed]; rfl) | (simp; done) | grind [ballastSample_fixed, landNow_fixed, setStore_fixed] | rfl))

theorem execSysReset_fixed (c : Cmd) (vhu : Nat) (f : StartFinds) (s : State) : ∀ t, execSysReset c vhu f s = .next t → fixedPart t = fixedPart s := by
  intro t h
  cases h
  apply keelRun_fixed
  intro r
  grind [emergencySet_fixed, keelRun_fixed, refuse_fixed, setPower_fixed, warmStart_fixed]

@[simp] theorem logCommitNow_fixed (vhu : Nat) (s : State) : fixedPart (logCommitNow vhu s) = fixedPart s := by
  (unfold logCommitNow; (repeat' ((try dsimp only); split)) <;> ((try dsimp only) <;> first | (simp only [ballastSample_fixed, landNow_fixed, logPartial_fixed, setStore_fixed]; done) | (simp only [ballastSample_fixed, landNow_fixed, logPartial_fixed, setStore_fixed]; rfl) | (simp; done) | grind [ballastSample_fixed, landNow_fixed, logPartial_fixed, setStore_fixed] | rfl))

theorem execUncorrectableSramError_fixed (bank : Fin 16) (row : BitVec 8) (vhu : Nat) (f : StartFinds) (s : State) : ∀ t, execUncorrectableSramError bank row vhu f s = .next t → fixedPart t = fixedPart s := by
  grind (splits := 24) [execUncorrectableSramError, logCommitNow_fixed, logEntry_fixed, warmStart_fixed]

theorem execXo32Timeout_fixed (s : State) : ∀ t, execXo32Timeout s = .next t → fixedPart t = fixedPart s := by
  grind (splits := 24) [execXo32Timeout, setPower_fixed]

theorem execXo32Stop_fixed (s : State) : ∀ t, execXo32Stop s = .next t → fixedPart t = fixedPart s := by
  grind (splits := 24) [execXo32Stop, setPower_fixed]

theorem execXo32Ready_fixed (s : State) : ∀ t, execXo32Ready s = .next t → fixedPart t = fixedPart s := by
  grind (splits := 24) [execXo32Ready, setPower_fixed]

@[simp] theorem untrust_fixed (rc : Bool) (s : State) : fixedPart (untrust rc s) = fixedPart s := by
  grind [untrust, setLdg_fixed, setPower_fixed]

@[simp] theorem coresTo_fixed (x : CoreSt) (s : State) : fixedPart (coresTo x s) = fixedPart s := by
  grind [coresTo, setCore_fixed, setRadio_fixed]

@[simp] theorem reelResume_fixed (now : Tick) (s : State) : fixedPart (reelResume now s) = fixedPart s := by
  (unfold reelResume; (repeat' ((try dsimp only); split)) <;> ((try dsimp only) <;> first | (simp only [setRadio_fixed]; done) | (simp only [setRadio_fixed]; rfl) | (simp; done) | grind [setRadio_fixed] | rfl))

@[simp] theorem limpEntry_fixed (s : State) : fixedPart (limpEntry s) = fixedPart s := by
  grind [limpEntry, coresTo_fixed, logEntry_fixed, raiseAll_fixed, setPower_fixed, sniffStop_fixed, startLive_fixed, tagOff_fixed, tamperIfLatched_fixed, untrust_fixed]

theorem execXo24Timeout_fixed (s : State) : ∀ t, execXo24Timeout s = .next t → fixedPart t = fixedPart s := by
  (intro t h; unfold execXo24Timeout at h; (repeat' ((try dsimp only at h); split at h)) <;> (first | cases h | (simp only [Host.Outcome.next.injEq] at h; subst h)) <;> ((try dsimp only) <;> first | (simp only [drawNat_fixed, limpEntry_fixed, reelResume_fixed, setPower_fixed]; done) | (simp only [drawNat_fixed, limpEntry_fixed, reelResume_fixed, setPower_fixed]; rfl) | (simp; done) | grind [drawNat_fixed, limpEntry_fixed, reelResume_fixed, setPower_fixed] | rfl))

@[simp] theorem flushQueue_fixed (vhu : Nat) (y0 : Nat) (s : State) : fixedPart (flushQueue vhu y0 s) = fixedPart s := by
  induction y0 generalizing s with
  | zero => rfl
  | succ n ih =>
    unfold flushQueue
    dsimp only
    (repeat' split) <;> first | rfl | (rw [ih]; simp)

@[simp] theorem sleepCommits_fixed (vhu : Nat) (s : State) : fixedPart (sleepCommits vhu s) = fixedPart s := by
  grind [sleepCommits, flushQueue_fixed, logPartial_fixed, queueCommit_fixed]

@[simp] theorem rfWiresLow_fixed (s : State) : fixedPart (rfWiresLow s) = fixedPart s := by
  grind [rfWiresLow, setLink_fixed, setRdr_fixed]

@[simp] theorem enterSleep_fixed (s : State) : fixedPart (enterSleep s) = fixedPart s := by
  (unfold enterSleep; (repeat' ((try dsimp only); split)) <;> ((try dsimp only) <;> first | (simp only [coresTo_fixed, rfWiresLow_fixed, setPower_fixed, untrust_fixed]; done) | (simp only [coresTo_fixed, rfWiresLow_fixed, setPower_fixed, untrust_fixed]; rfl) | (simp; done) | grind [coresTo_fixed, rfWiresLow_fixed, setPower_fixed, untrust_fixed] | rfl))

theorem execSleepEntry_fixed (now : Tick) (vhu : Nat) (s : State) : ∀ t, execSleepEntry now vhu s = .next t → fixedPart t = fixedPart s := by
  grind (splits := 24) [execSleepEntry, advanceTo_fixed, enterSleep_fixed, sleepCommits_fixed]

theorem execWakePin_fixed (s : State) : ∀ t, execWakePin s = .next t → fixedPart t = fixedPart s := by
  grind (splits := 24) [execWakePin, startWake_fixed]

theorem execPortWakeEdge_fixed (e : Edge) (addr : BitVec 7) (s : State) : ∀ t, execPortWakeEdge e addr s = .next t → fixedPart t = fixedPart s := by
  grind (splits := 24) [execPortWakeEdge, startWake_fixed]

theorem execCompareWakeLead_fixed (aonCycles : Nat) (s : State) : ∀ t, execCompareWakeLead aonCycles s = .next t → fixedPart t = fixedPart s := by
  grind (splits := 24) [execCompareWakeLead, startWake_fixed]

@[simp] theorem tellWake_fixed (c : Option WakeCause) (s : State) : fixedPart (tellWake c s) = fixedPart s := by
  (unfold tellWake; (repeat' ((try dsimp only); split)) <;> ((try dsimp only) <;> first | (simp only [raise_fixed, raiseAll_fixed]; done) | (simp only [raise_fixed, raiseAll_fixed]; rfl) | (simp; done) | grind [raise_fixed, raiseAll_fixed] | rfl))

theorem execWakeComplete_fixed (aonCycles : Nat) (s : State) : ∀ t, execWakeComplete aonCycles s = .next t → fixedPart t = fixedPart s := by
  grind (splits := 24) [execWakeComplete, coresTo_fixed, evFieldTo_fixed, lanternHold_fixed, reelResume_fixed, setPower_fixed, setTag_fixed, startLive_fixed, tamperIfLatched_fixed, tellWake_fixed, untrust_fixed]

theorem execRegulatorTimeout_fixed (s : State) : ∀ t, execRegulatorTimeout s = .next t → fixedPart t = fixedPart s := by
  (intro t h; unfold execRegulatorTimeout at h; (repeat' ((try dsimp only at h); split at h)) <;> (first | cases h | (simp only [Host.Outcome.next.injEq] at h; subst h)) <;> ((try dsimp only) <;> first | (simp only [setPower_fixed, untrust_fixed]; done) | (simp only [setPower_fixed, untrust_fixed]; rfl) | (simp; done) | grind [setPower_fixed, untrust_fixed] | rfl))

@[simp] theorem abortCommands_fixed (t : Tenant) (s : State) : fixedPart (abortCommands t s) = fixedPart s := by
  grind [abortCommands, modTen_fixed, refuse_fixed]

@[simp] theorem abortTenant_fixed (t : Tenant) (s : State) : fixedPart (abortTenant t s) = fixedPart s := by
  grind [abortTenant, closeSession_fixed, endAcc_fixed, endProgram_fixed, invDone_fixed, listenEnd_fixed]

@[simp] theorem abortSend_fixed (s : State) (e : Send) : fixedPart (abortSend s e) = fixedPart s := by
  grind [abortSend, sendDrop_fixed, sendEnd_fixed]

@[simp] theorem rfOff_fixed (s : State) : fixedPart (rfOff s) = fixedPart s := by
  unfold rfOff
  extract_lets u1 u2 u3 u4 u5 u6
  have h1 : fixedPart u1 = fixedPart s := by simp only [u1]; rw [foldl_fixed _ _ _ (by intros; simp)]
  have h3 : fixedPart u3 = fixedPart s := by simp only [u3]; rw [forTenants_fixed _ _ (by intros; simp)]; simp [u2, h1]
  have h4 : fixedPart u4 = fixedPart s := by simp only [u4]; split <;> simp [h3]
  clear_value u4
  simp [u6, u5, h4]

@[simp] theorem cutWrites_fixed (headerLanded : Bool) (s : State) : fixedPart (cutWrites headerLanded s) = fixedPart s := by
  grind [cutWrites, setStore_fixed]

@[simp] theorem holdFromSleep_fixed (s : State) : fixedPart (holdFromSleep s) = fixedPart s := by
  grind [holdFromSleep, logEntry_fixed, raiseAll_fixed, setPower_fixed]

theorem execPwrfail_fixed (now : Tick) (ns vhu : Nat) (headerLanded : Bool) (s : State) : ∀ t, execPwrfail now ns vhu headerLanded s = .next t → fixedPart t = fixedPart s := by
  grind (splits := 24) [execPwrfail, abortCommands_fixed, advanceTo_fixed, cutWrites_fixed, emergencySet_fixed, forTenants_fixed, holdFromSleep_fixed, logEntry_fixed, raiseAll_fixed, rfOff_fixed, setPower_fixed]

theorem execHoldEntry_fixed (s : State) : ∀ t, execHoldEntry s = .next t → fixedPart t = fixedPart s := by
  (intro t h; unfold execHoldEntry at h; (repeat' ((try dsimp only at h); split at h)) <;> (first | cases h | (simp only [Host.Outcome.next.injEq] at h; subst h)) <;> ((try dsimp only) <;> first | (simp only [coresTo_fixed, setPower_fixed, untrust_fixed]; done) | (simp only [coresTo_fixed, setPower_fixed, untrust_fixed]; rfl) | (simp; done) | grind [coresTo_fixed, setPower_fixed, untrust_fixed] | rfl))

theorem execPwrfailClear_fixed (s : State) : ∀ t, execPwrfailClear s = .next t → fixedPart t = fixedPart s := by
  grind (splits := 24) [execPwrfailClear, journalReplay_fixed, setPower_fixed]

-- ------------------------------------------------------------ RegRows

@[simp] theorem regWriteRow_fixed (p : Nat → Bool) (c : Cmd) (s : State) : fixedPart (regWriteRow p c s) = fixedPart s := by
  grind [regWriteRow, keelRun_fixed, regWrite_fixed]

@[simp] theorem regReadRow_fixed (p : Nat → Bool) (c : Cmd) (s : State) : fixedPart (regReadRow p c s) = fixedPart s := by
  grind [regReadRow, keelRun_fixed, regRead_fixed]

theorem execCmpRegisterWrite_fixed (c : Cmd) (s : State) : ∀ t, execCmpRegisterWrite c s = .next t → fixedPart t = fixedPart s := by
  grind (splits := 24) [execCmpRegisterWrite, regWriteRow_fixed]

theorem execReelGoWrite_fixed (c : Cmd) (s : State) : ∀ t, execReelGoWrite c s = .next t → fixedPart t = fixedPart s := by
  grind (splits := 24) [execReelGoWrite, regWriteRow_fixed]

theorem execDcCfgWrite_fixed (c : Cmd) (s : State) : ∀ t, execDcCfgWrite c s = .next t → fixedPart t = fixedPart s := by
  grind (splits := 24) [execDcCfgWrite, regWriteRow_fixed]

theorem execDcRldWrite_fixed (c : Cmd) (s : State) : ∀ t, execDcRldWrite c s = .next t → fixedPart t = fixedPart s := by
  grind (splits := 24) [execDcRldWrite, regWriteRow_fixed]

theorem execDcSleptClear_fixed (c : Cmd) (s : State) : ∀ t, execDcSleptClear c s = .next t → fixedPart t = fixedPart s := by
  grind (splits := 24) [execDcSleptClear, regWriteRow_fixed]

theorem execCapOvrClear_fixed (c : Cmd) (s : State) : ∀ t, execCapOvrClear c s = .next t → fixedPart t = fixedPart s := by
  grind (splits := 24) [execCapOvrClear, regWriteRow_fixed]

theorem execToutCtlActWrite_fixed (c : Cmd) (s : State) : ∀ t, execToutCtlActWrite c s = .next t → fixedPart t = fixedPart s := by
  grind (splits := 24) [execToutCtlActWrite, regWriteRow_fixed]

theorem execCapV2Read_fixed (c : Cmd) (s : State) : ∀ t, execCapV2Read c s = .next t → fixedPart t = fixedPart s := by
  grind (splits := 24) [execCapV2Read, regReadRow_fixed]

theorem execDcCnt0Read_fixed (c : Cmd) (s : State) : ∀ t, execDcCnt0Read c s = .next t → fixedPart t = fixedPart s := by
  grind (splits := 24) [execDcCnt0Read, regReadRow_fixed]

theorem execKslotLinkRead_fixed (c : Cmd) (s : State) : ∀ t, execKslotLinkRead c s = .next t → fixedPart t = fixedPart s := by
  grind (splits := 24) [execKslotLinkRead, regReadRow_fixed]

theorem execGdlCollClear_fixed (c : Cmd) (s : State) : ∀ t, execGdlCollClear c s = .next t → fixedPart t = fixedPart s := by
  grind (splits := 24) [execGdlCollClear, regWriteRow_fixed]

theorem execPort3DivWrite_fixed (c : Cmd) (s : State) : ∀ t, execPort3DivWrite c s = .next t → fixedPart t = fixedPart s := by
  grind (splits := 24) [execPort3DivWrite, regWriteRow_fixed]

theorem execCoexCfgWrite_fixed (c : Cmd) (s : State) : ∀ t, execCoexCfgWrite c s = .next t → fixedPart t = fixedPart s := by
  grind (splits := 24) [execCoexCfgWrite, regWriteRow_fixed]

theorem execSplDataAccess_fixed (c : Cmd) (write : Bool) (s : State) : ∀ t, execSplDataAccess c write s = .next t → fixedPart t = fixedPart s := by
  grind (splits := 24) [execSplDataAccess, regReadRow_fixed, regWriteRow_fixed]

-- ------------------------------------------------------------ SpoolCmds

theorem execSpoolLoad_fixed (c : Cmd) (s : State) : ∀ t, execSpoolLoad c s = .next t → fixedPart t = fixedPart s := by
  intro t h
  cases h
  apply keelRun_fixed
  intro r
  grind [keelRun_fixed, modCtx_fixed, refuse_fixed, reply_fixed]

@[simp] theorem startProgram_fixed (how : Starter) (c : Cmd) (down : State → Option Byte) (prof : Profile → Profile → Profile) (s : State) : fixedPart (startProgram how c down prof s) = fixedPart s := by
  (unfold startProgram; (repeat' ((try dsimp only); split)) <;> ((try dsimp only) <;> first | (simp only [modCtx_fixed, refuse_fixed]; done) | (simp only [modCtx_fixed, refuse_fixed]; rfl) | (simp; done) | grind [modCtx_fixed, refuse_fixed] | rfl))

theorem execSpoolStart_fixed (c : Cmd) (s : State) : ∀ t, execSpoolStart c s = .next t → fixedPart t = fixedPart s := by
  intro t h
  cases h
  apply keelRun_fixed
  intro r
  grind [keelRun_fixed, startProgram_fixed]

theorem execRdrRunSpool_fixed (c : Cmd) (s : State) : ∀ t, execRdrRunSpool c s = .next t → fixedPart t = fixedPart s := by
  intro t h
  cases h
  apply keelRun_fixed
  intro r
  grind [keelRun_fixed, startProgram_fixed]

theorem execLnkRunSpool_fixed (c : Cmd) (s : State) : ∀ t, execLnkRunSpool c s = .next t → fixedPart t = fixedPart s := by
  intro t h
  cases h
  apply keelRun_fixed
  intro r
  grind [keelRun_fixed, startProgram_fixed]

theorem execSpoolStop_fixed (c : Cmd) (s : State) : ∀ t, execSpoolStop c s = .next t → fixedPart t = fixedPart s := by
  intro t h
  cases h
  apply keelRun_fixed
  intro r
  grind [keelRun_fixed, refuse_fixed, stopProgram_fixed]

theorem execSpoolStatus_fixed (c : Cmd) (s : State) : ∀ t, execSpoolStatus c s = .next t → fixedPart t = fixedPart s := by
  intro t h
  cases h
  apply keelRun_fixed
  intro r
  grind [keelRun_fixed, refuse_fixed, reply_fixed]

theorem execSpoolReset_fixed (c : Cmd) (s : State) : ∀ t, execSpoolReset c s = .next t → fixedPart t = fixedPart s := by
  intro t h
  cases h
  apply keelRun_fixed
  intro r
  grind [builtinReset_fixed, keelRun_fixed, modCtx_fixed, refuse_fixed, reply_fixed, stopProgram_fixed]

-- ------------------------------------------------------------ V1

@[simp] theorem v1Pop_fixed (s : State) : fixedPart (v1Pop s).2 = fixedPart s := by
  grind [v1Pop, setV1_fixed]

@[simp] theorem v1Begin_fixed (single : Bool) (s : State) : fixedPart (v1Begin single s) = fixedPart s := by
  grind [v1Begin, invStart_fixed, setV1_fixed, v1Error_fixed]

@[simp] theorem v1End_fixed (s : State) : fixedPart (v1End s) = fixedPart s := by
  grind [v1End, invDone_fixed, setInv_fixed]

@[simp] theorem v1Ctrl_fixed (w : Byte) (s : State) : fixedPart (v1Ctrl w s) = fixedPart s := by
  grind [v1Ctrl, v1Begin_fixed, v1End_fixed]

@[simp] theorem v1Region_fixed (w : Byte) (s : State) : fixedPart (v1Region w s) = fixedPart s := by
  grind [v1Region, setV1_fixed, v1Error_fixed]

@[simp] theorem v1Link_fixed (w : Byte) (s : State) : fixedPart (v1Link w s) = fixedPart s := by
  grind [v1Link, setV1_fixed, v1Error_fixed]

@[simp] theorem v1Power_fixed (w : Byte) (s : State) : fixedPart (v1Power w s) = fixedPart s := by
  (unfold v1Power; simp; done)

@[simp] theorem v1Clear_fixed (w : Byte) (s : State) : fixedPart (v1Clear w s) = fixedPart s := by
  (unfold v1Clear; simp; done)

@[simp] theorem v1Put_fixed (a : Nat) (w : Byte) (s : State) : fixedPart (v1Put a w s) = fixedPart s := by
  (unfold v1Put; (repeat' ((try dsimp only); split)) <;> ((try dsimp only) <;> first | (simp only [setV1_fixed, v1Clear_fixed, v1Ctrl_fixed, v1Link_fixed, v1Power_fixed, v1Region_fixed]; done) | (simp only [setV1_fixed, v1Clear_fixed, v1Ctrl_fixed, v1Link_fixed, v1Power_fixed, v1Region_fixed]; rfl) | (simp; done) | grind [setV1_fixed, v1Clear_fixed, v1Ctrl_fixed, v1Link_fixed, v1Power_fixed, v1Region_fixed] | rfl))

@[simp] theorem v1Writes_fixed (y0 : Nat) (y1 : Bytes) (s : State) : fixedPart (v1Writes y0 y1 s) = fixedPart s := by
  induction y1 generalizing y0 s with
  | nil => rfl
  | cons b r ih => unfold v1Writes; rw [ih]; simp

@[simp] theorem v1Reads_fixed (y0 : Nat) (y1 : Nat) (s : State) : fixedPart (v1Reads y0 y1 s).2 = fixedPart s := by
  induction y0 generalizing y1 s with
  | zero => rfl
  | succ n ih => unfold v1Reads; dsimp only; rw [ih]; split <;> simp

theorem execV1Transaction_fixed (sdi : Bytes) (s : State) : ∀ t, execV1Transaction sdi s = .next t → fixedPart t = fixedPart s := by
  (unfold execV1Transaction; (repeat' ((try dsimp only); split)) <;> ((try dsimp only) <;> first | (simp only [setV1_fixed, v1Reads_fixed, v1Writes_fixed]; done) | (simp only [setV1_fixed, v1Reads_fixed, v1Writes_fixed]; rfl) | (simp; done) | grind [setV1_fixed, v1Reads_fixed, v1Writes_fixed] | rfl))

theorem execV1Start_fixed (s : State) : ∀ t, execV1Start s = .next t → fixedPart t = fixedPart s := by
  grind (splits := 24) [execV1Start, v1Begin_fixed]

theorem execV1Stop_fixed (s : State) : ∀ t, execV1Stop s = .next t → fixedPart t = fixedPart s := by
  grind (splits := 24) [execV1Stop, v1End_fixed]

theorem execV1Single_fixed (s : State) : ∀ t, execV1Single s = .next t → fixedPart t = fixedPart s := by
  grind (splits := 24) [execV1Single, v1Begin_fixed]

theorem execV1FifoRead_fixed (s : State) : ∀ t, execV1FifoRead s = .next t → fixedPart t = fixedPart s := by
  grind (splits := 24) [execV1FifoRead, setV1_fixed, v1Pop_fixed]

theorem execV1IrqflgClear_fixed (mask : Byte) (s : State) : ∀ t, execV1IrqflgClear mask s = .next t → fixedPart t = fixedPart s := by
  grind (splits := 24) [execV1IrqflgClear, v1Clear_fixed]

theorem execV1RegionWrite_fixed (v : Byte) (s : State) : ∀ t, execV1RegionWrite v s = .next t → fixedPart t = fixedPart s := by
  grind (splits := 24) [execV1RegionWrite, v1Region_fixed]

theorem execV1LinkWrite_fixed (v : Byte) (s : State) : ∀ t, execV1LinkWrite v s = .next t → fixedPart t = fixedPart s := by
  grind (splits := 24) [execV1LinkWrite, v1Link_fixed]

theorem execV1PowerWrite_fixed (v : Byte) (s : State) : ∀ t, execV1PowerWrite v s = .next t → fixedPart t = fixedPart s := by
  grind (splits := 24) [execV1PowerWrite, v1Power_fixed]

theorem execV1DwellExpiry_fixed (now : Tick) (s : State) : ∀ t, execV1DwellExpiry now s = .next t → fixedPart t = fixedPart s := by
  grind (splits := 24) [execV1DwellExpiry, advanceTo_fixed, v1End_fixed]

-- ------------------------------------------------------------ Tap

@[simp] theorem tapClock_fixed (tms tdi : Bool) (s : State) : fixedPart (tapClock tms tdi s) = fixedPart s := by
  (unfold tapClock; (repeat' ((try dsimp only); split)) <;> ((try dsimp only) <;> first | (simp only [drawBool_fixed]; done) | (simp only [drawBool_fixed]; rfl) | (simp; done) | grind [drawBool_fixed] | rfl))

@[simp] theorem tapClocks_fixed (y0 : List (Bool × Bool)) (s : State) : fixedPart (tapClocks y0 s) = fixedPart s := by
  induction y0 generalizing s with
  | nil => rfl
  | cons b r ih => unfold tapClocks; rw [ih]; simp

end Sys2Proof.Machine
end

