-- ==== Sys2Proof/Laws/State.lean ====
section
/-!
SUPPORT. What each update of the state leaves alone and what it changes: one lemma per field, so that no later proof unfolds
a record update.
-/
namespace Sys2Proof.Machine

/-- An entry of a vector after one entry is changed. -/
theorem vmod_get {α : Type} {n : Nat} (v : Vector α n) (i j : Fin n) (f : α → α) :
    (vmod v i f)[(j : Nat)] = if j = i then f v[(i : Nat)] else v[(j : Nat)] := by
  simp only [vmod, Vector.getElem_set, Fin.val_inj, Fin.getElem_fin]
  by_cases h : i = j
  · subst h; simp
  · simp [h, Ne.symm h]

@[simp] theorem vmod_self {α : Type} {n : Nat} (v : Vector α n) (i : Fin n) (f : α → α) :
    (vmod v i f)[(i : Nat)] = f v[(i : Nat)] := by simp [vmod_get]

theorem vmod_ne {α : Type} {n : Nat} (v : Vector α n) (i j : Fin n) (f : α → α) (h : j ≠ i) :
    (vmod v i f)[(j : Nat)] = v[(j : Nat)] := by simp [vmod_get, h]

@[simp] theorem vmod_id {α : Type} {n : Nat} (v : Vector α n) (i : Fin n) : vmod v i (fun a => a) = v := by
  simp [vmod]

@[simp] theorem vmod_vmod {α : Type} {n : Nat} (v : Vector α n) (i : Fin n) (f g : α → α) :
    vmod (vmod v i f) i g = vmod v i (fun a => g (f a)) := by
  ext j hj; simp only [vmod, Vector.getElem_set]; split <;> simp_all

-- modPort
@[simp] theorem modPort_pending (i : Port) (f : PortSt → PortSt) (s : State) : (modPort i f s).pending = s.pending := rfl
@[simp] theorem modPort_power (i : Port) (f : PortSt → PortSt) (s : State) : (modPort i f s).power = s.power := rfl
@[simp] theorem modPort_binding (i : Port) (f : PortSt → PortSt) (s : State) : (modPort i f s).binding = s.binding := rfl
@[simp] theorem modPort_bindLock (i : Port) (f : PortSt → PortSt) (s : State) : (modPort i f s).bindLock = s.bindLock := rfl
@[simp] theorem modPort_shareLock (i : Port) (f : PortSt → PortSt) (s : State) : (modPort i f s).shareLock = s.shareLock := rfl
@[simp] theorem modPort_div (i : Port) (f : PortSt → PortSt) (s : State) : (modPort i f s).div = s.div := rfl
@[simp] theorem modPort_divNew (i : Port) (f : PortSt → PortSt) (s : State) : (modPort i f s).divNew = s.divNew := rfl
@[simp] theorem modPort_tens (i : Port) (f : PortSt → PortSt) (s : State) : (modPort i f s).tens = s.tens := rfl
@[simp] theorem modPort_prof (i : Port) (f : PortSt → PortSt) (s : State) : (modPort i f s).prof = s.prof := rfl
@[simp] theorem modPort_loaded (i : Port) (f : PortSt → PortSt) (s : State) : (modPort i f s).loaded = s.loaded := rfl
@[simp] theorem modPort_v1 (i : Port) (f : PortSt → PortSt) (s : State) : (modPort i f s).v1 = s.v1 := rfl
@[simp] theorem modPort_bufs (i : Port) (f : PortSt → PortSt) (s : State) : (modPort i f s).bufs = s.bufs := rfl
@[simp] theorem modPort_bufPtr (i : Port) (f : PortSt → PortSt) (s : State) : (modPort i f s).bufPtr = s.bufPtr := rfl
@[simp] theorem modPort_ctxs (i : Port) (f : PortSt → PortSt) (s : State) : (modPort i f s).ctxs = s.ctxs := rfl
@[simp] theorem modPort_radio (i : Port) (f : PortSt → PortSt) (s : State) : (modPort i f s).radio = s.radio := rfl
@[simp] theorem modPort_rdr (i : Port) (f : PortSt → PortSt) (s : State) : (modPort i f s).rdr = s.rdr := rfl
@[simp] theorem modPort_tag (i : Port) (f : PortSt → PortSt) (s : State) : (modPort i f s).tag = s.tag := rfl
@[simp] theorem modPort_sess (i : Port) (f : PortSt → PortSt) (s : State) : (modPort i f s).sess = s.sess := rfl
@[simp] theorem modPort_link (i : Port) (f : PortSt → PortSt) (s : State) : (modPort i f s).link = s.link := rfl
@[simp] theorem modPort_reel (i : Port) (f : PortSt → PortSt) (s : State) : (modPort i f s).reel = s.reel := rfl
@[simp] theorem modPort_bri (i : Port) (f : PortSt → PortSt) (s : State) : (modPort i f s).bri = s.bri := rfl
@[simp] theorem modPort_gdl (i : Port) (f : PortSt → PortSt) (s : State) : (modPort i f s).gdl = s.gdl := rfl
@[simp] theorem modPort_cvu (i : Port) (f : PortSt → PortSt) (s : State) : (modPort i f s).cvu = s.cvu := rfl
@[simp] theorem modPort_cvuLink (i : Port) (f : PortSt → PortSt) (s : State) : (modPort i f s).cvuLink = s.cvuLink := rfl
@[simp] theorem modPort_cvuRdr (i : Port) (f : PortSt → PortSt) (s : State) : (modPort i f s).cvuRdr = s.cvuRdr := rfl
@[simp] theorem modPort_store (i : Port) (f : PortSt → PortSt) (s : State) : (modPort i f s).store = s.store := rfl
@[simp] theorem modPort_ldg (i : Port) (f : PortSt → PortSt) (s : State) : (modPort i f s).ldg = s.ldg := rfl
@[simp] theorem modPort_svy (i : Port) (f : PortSt → PortSt) (s : State) : (modPort i f s).svy = s.svy := rfl
@[simp] theorem modPort_mend (i : Port) (f : PortSt → PortSt) (s : State) : (modPort i f s).mend = s.mend := rfl
@[simp] theorem modPort_epoch (i : Port) (f : PortSt → PortSt) (s : State) : (modPort i f s).epoch = s.epoch := rfl
@[simp] theorem modPort_serial (i : Port) (f : PortSt → PortSt) (s : State) : (modPort i f s).serial = s.serial := rfl
@[simp] theorem modPort_bufRound (i : Port) (f : PortSt → PortSt) (s : State) : (modPort i f s).bufRound = s.bufRound := rfl
@[simp] theorem modPort_turn (i : Port) (f : PortSt → PortSt) (s : State) : (modPort i f s).turn = s.turn := rfl
@[simp] theorem modPort_tap (i : Port) (f : PortSt → PortSt) (s : State) : (modPort i f s).tap = s.tap := rfl
@[simp] theorem modPort_free (i : Port) (f : PortSt → PortSt) (s : State) : (modPort i f s).free = s.free := rfl
@[simp] theorem modPort_ports (i : Port) (f : PortSt → PortSt) (s : State) : (modPort i f s).ports = vmod s.ports i f := rfl
-- modTen
@[simp] theorem modTen_pending (i : Tenant) (f : TenantSt → TenantSt) (s : State) : (modTen i f s).pending = s.pending := rfl
@[simp] theorem modTen_power (i : Tenant) (f : TenantSt → TenantSt) (s : State) : (modTen i f s).power = s.power := rfl
@[simp] theorem modTen_ports (i : Tenant) (f : TenantSt → TenantSt) (s : State) : (modTen i f s).ports = s.ports := rfl
@[simp] theorem modTen_binding (i : Tenant) (f : TenantSt → TenantSt) (s : State) : (modTen i f s).binding = s.binding := rfl
@[simp] theorem modTen_bindLock (i : Tenant) (f : TenantSt → TenantSt) (s : State) : (modTen i f s).bindLock = s.bindLock := rfl
@[simp] theorem modTen_shareLock (i : Tenant) (f : TenantSt → TenantSt) (s : State) : (modTen i f s).shareLock = s.shareLock := rfl
@[simp] theorem modTen_div (i : Tenant) (f : TenantSt → TenantSt) (s : State) : (modTen i f s).div = s.div := rfl
@[simp] theorem modTen_divNew (i : Tenant) (f : TenantSt → TenantSt) (s : State) : (modTen i f s).divNew = s.divNew := rfl
@[simp] theorem modTen_prof (i : Tenant) (f : TenantSt → TenantSt) (s : State) : (modTen i f s).prof = s.prof := rfl
@[simp] theorem modTen_loaded (i : Tenant) (f : TenantSt → TenantSt) (s : State) : (modTen i f s).loaded = s.loaded := rfl
@[simp] theorem modTen_v1 (i : Tenant) (f : TenantSt → TenantSt) (s : State) : (modTen i f s).v1 = s.v1 := rfl
@[simp] theorem modTen_bufs (i : Tenant) (f : TenantSt → TenantSt) (s : State) : (modTen i f s).bufs = s.bufs := rfl
@[simp] theorem modTen_bufPtr (i : Tenant) (f : TenantSt → TenantSt) (s : State) : (modTen i f s).bufPtr = s.bufPtr := rfl
@[simp] theorem modTen_ctxs (i : Tenant) (f : TenantSt → TenantSt) (s : State) : (modTen i f s).ctxs = s.ctxs := rfl
@[simp] theorem modTen_radio (i : Tenant) (f : TenantSt → TenantSt) (s : State) : (modTen i f s).radio = s.radio := rfl
@[simp] theorem modTen_rdr (i : Tenant) (f : TenantSt → TenantSt) (s : State) : (modTen i f s).rdr = s.rdr := rfl
@[simp] theorem modTen_tag (i : Tenant) (f : TenantSt → TenantSt) (s : State) : (modTen i f s).tag = s.tag := rfl
@[simp] theorem modTen_sess (i : Tenant) (f : TenantSt → TenantSt) (s : State) : (modTen i f s).sess = s.sess := rfl
@[simp] theorem modTen_link (i : Tenant) (f : TenantSt → TenantSt) (s : State) : (modTen i f s).link = s.link := rfl
@[simp] theorem modTen_reel (i : Tenant) (f : TenantSt → TenantSt) (s : State) : (modTen i f s).reel = s.reel := rfl
@[simp] theorem modTen_bri (i : Tenant) (f : TenantSt → TenantSt) (s : State) : (modTen i f s).bri = s.bri := rfl
@[simp] theorem modTen_gdl (i : Tenant) (f : TenantSt → TenantSt) (s : State) : (modTen i f s).gdl = s.gdl := rfl
@[simp] theorem modTen_cvu (i : Tenant) (f : TenantSt → TenantSt) (s : State) : (modTen i f s).cvu = s.cvu := rfl
@[simp] theorem modTen_cvuLink (i : Tenant) (f : TenantSt → TenantSt) (s : State) : (modTen i f s).cvuLink = s.cvuLink := rfl
@[simp] theorem modTen_cvuRdr (i : Tenant) (f : TenantSt → TenantSt) (s : State) : (modTen i f s).cvuRdr = s.cvuRdr := rfl
@[simp] theorem modTen_store (i : Tenant) (f : TenantSt → TenantSt) (s : State) : (modTen i f s).store = s.store := rfl
@[simp] theorem modTen_ldg (i : Tenant) (f : TenantSt → TenantSt) (s : State) : (modTen i f s).ldg = s.ldg := rfl
@[simp] theorem modTen_svy (i : Tenant) (f : TenantSt → TenantSt) (s : State) : (modTen i f s).svy = s.svy := rfl
@[simp] theorem modTen_mend (i : Tenant) (f : TenantSt → TenantSt) (s : State) : (modTen i f s).mend = s.mend := rfl
@[simp] theorem modTen_epoch (i : Tenant) (f : TenantSt → TenantSt) (s : State) : (modTen i f s).epoch = s.epoch := rfl
@[simp] theorem modTen_serial (i : Tenant) (f : TenantSt → TenantSt) (s : State) : (modTen i f s).serial = s.serial := rfl
@[simp] theorem modTen_bufRound (i : Tenant) (f : TenantSt → TenantSt) (s : State) : (modTen i f s).bufRound = s.bufRound := rfl
@[simp] theorem modTen_turn (i : Tenant) (f : TenantSt → TenantSt) (s : State) : (modTen i f s).turn = s.turn := rfl
@[simp] theorem modTen_tap (i : Tenant) (f : TenantSt → TenantSt) (s : State) : (modTen i f s).tap = s.tap := rfl
@[simp] theorem modTen_free (i : Tenant) (f : TenantSt → TenantSt) (s : State) : (modTen i f s).free = s.free := rfl
@[simp] theorem modTen_tens (i : Tenant) (f : TenantSt → TenantSt) (s : State) : (modTen i f s).tens = vmod s.tens i f := rfl
-- modProf
@[simp] theorem modProf_pending (i : Tenant) (f : Profile → Profile) (s : State) : (modProf i f s).pending = s.pending := rfl
@[simp] theorem modProf_power (i : Tenant) (f : Profile → Profile) (s : State) : (modProf i f s).power = s.power := rfl
@[simp] theorem modProf_ports (i : Tenant) (f : Profile → Profile) (s : State) : (modProf i f s).ports = s.ports := rfl
@[simp] theorem modProf_binding (i : Tenant) (f : Profile → Profile) (s : State) : (modProf i f s).binding = s.binding := rfl
@[simp] theorem modProf_bindLock (i : Tenant) (f : Profile → Profile) (s : State) : (modProf i f s).bindLock = s.bindLock := rfl
@[simp] theorem modProf_shareLock (i : Tenant) (f : Profile → Profile) (s : State) : (modProf i f s).shareLock = s.shareLock := rfl
@[simp] theorem modProf_div (i : Tenant) (f : Profile → Profile) (s : State) : (modProf i f s).div = s.div := rfl
@[simp] theorem modProf_divNew (i : Tenant) (f : Profile → Profile) (s : State) : (modProf i f s).divNew = s.divNew := rfl
@[simp] theorem modProf_tens (i : Tenant) (f : Profile → Profile) (s : State) : (modProf i f s).tens = s.tens := rfl
@[simp] theorem modProf_loaded (i : Tenant) (f : Profile → Profile) (s : State) : (modProf i f s).loaded = s.loaded := rfl
@[simp] theorem modProf_v1 (i : Tenant) (f : Profile → Profile) (s : State) : (modProf i f s).v1 = s.v1 := rfl
@[simp] theorem modProf_bufs (i : Tenant) (f : Profile → Profile) (s : State) : (modProf i f s).bufs = s.bufs := rfl
@[simp] theorem modProf_bufPtr (i : Tenant) (f : Profile → Profile) (s : State) : (modProf i f s).bufPtr = s.bufPtr := rfl
@[simp] theorem modProf_ctxs (i : Tenant) (f : Profile → Profile) (s : State) : (modProf i f s).ctxs = s.ctxs := rfl
@[simp] theorem modProf_radio (i : Tenant) (f : Profile → Profile) (s : State) : (modProf i f s).radio = s.radio := rfl
@[simp] theorem modProf_rdr (i : Tenant) (f : Profile → Profile) (s : State) : (modProf i f s).rdr = s.rdr := rfl
@[simp] theorem modProf_tag (i : Tenant) (f : Profile → Profile) (s : State) : (modProf i f s).tag = s.tag := rfl
@[simp] theorem modProf_sess (i : Tenant) (f : Profile → Profile) (s : State) : (modProf i f s).sess = s.sess := rfl
@[simp] theorem modProf_link (i : Tenant) (f : Profile → Profile) (s : State) : (modProf i f s).link = s.link := rfl
@[simp] theorem modProf_reel (i : Tenant) (f : Profile → Profile) (s : State) : (modProf i f s).reel = s.reel := rfl
@[simp] theorem modProf_bri (i : Tenant) (f : Profile → Profile) (s : State) : (modProf i f s).bri = s.bri := rfl
@[simp] theorem modProf_gdl (i : Tenant) (f : Profile → Profile) (s : State) : (modProf i f s).gdl = s.gdl := rfl
@[simp] theorem modProf_cvu (i : Tenant) (f : Profile → Profile) (s : State) : (modProf i f s).cvu = s.cvu := rfl
@[simp] theorem modProf_cvuLink (i : Tenant) (f : Profile → Profile) (s : State) : (modProf i f s).cvuLink = s.cvuLink := rfl
@[simp] theorem modProf_cvuRdr (i : Tenant) (f : Profile → Profile) (s : State) : (modProf i f s).cvuRdr = s.cvuRdr := rfl
@[simp] theorem modProf_store (i : Tenant) (f : Profile → Profile) (s : State) : (modProf i f s).store = s.store := rfl
@[simp] theorem modProf_ldg (i : Tenant) (f : Profile → Profile) (s : State) : (modProf i f s).ldg = s.ldg := rfl
@[simp] theorem modProf_svy (i : Tenant) (f : Profile → Profile) (s : State) : (modProf i f s).svy = s.svy := rfl
@[simp] theorem modProf_mend (i : Tenant) (f : Profile → Profile) (s : State) : (modProf i f s).mend = s.mend := rfl
@[simp] theorem modProf_epoch (i : Tenant) (f : Profile → Profile) (s : State) : (modProf i f s).epoch = s.epoch := rfl
@[simp] theorem modProf_serial (i : Tenant) (f : Profile → Profile) (s : State) : (modProf i f s).serial = s.serial := rfl
@[simp] theorem modProf_bufRound (i : Tenant) (f : Profile → Profile) (s : State) : (modProf i f s).bufRound = s.bufRound := rfl
@[simp] theorem modProf_turn (i : Tenant) (f : Profile → Profile) (s : State) : (modProf i f s).turn = s.turn := rfl
@[simp] theorem modProf_tap (i : Tenant) (f : Profile → Profile) (s : State) : (modProf i f s).tap = s.tap := rfl
@[simp] theorem modProf_free (i : Tenant) (f : Profile → Profile) (s : State) : (modProf i f s).free = s.free := rfl
@[simp] theorem modProf_prof (i : Tenant) (f : Profile → Profile) (s : State) : (modProf i f s).prof = vmod s.prof i f := rfl
-- modCtx
@[simp] theorem modCtx_pending (i : Tenant) (f : Ctx → Ctx) (s : State) : (modCtx i f s).pending = s.pending := rfl
@[simp] theorem modCtx_power (i : Tenant) (f : Ctx → Ctx) (s : State) : (modCtx i f s).power = s.power := rfl
@[simp] theorem modCtx_ports (i : Tenant) (f : Ctx → Ctx) (s : State) : (modCtx i f s).ports = s.ports := rfl
@[simp] theorem modCtx_binding (i : Tenant) (f : Ctx → Ctx) (s : State) : (modCtx i f s).binding = s.binding := rfl
@[simp] theorem modCtx_bindLock (i : Tenant) (f : Ctx → Ctx) (s : State) : (modCtx i f s).bindLock = s.bindLock := rfl
@[simp] theorem modCtx_shareLock (i : Tenant) (f : Ctx → Ctx) (s : State) : (modCtx i f s).shareLock = s.shareLock := rfl
@[simp] theorem modCtx_div (i : Tenant) (f : Ctx → Ctx) (s : State) : (modCtx i f s).div = s.div := rfl
@[simp] theorem modCtx_divNew (i : Tenant) (f : Ctx → Ctx) (s : State) : (modCtx i f s).divNew = s.divNew := rfl
@[simp] theorem modCtx_tens (i : Tenant) (f : Ctx → Ctx) (s : State) : (modCtx i f s).tens = s.tens := rfl
@[simp] theorem modCtx_prof (i : Tenant) (f : Ctx → Ctx) (s : State) : (modCtx i f s).prof = s.prof := rfl
@[simp] theorem modCtx_loaded (i : Tenant) (f : Ctx → Ctx) (s : State) : (modCtx i f s).loaded = s.loaded := rfl
@[simp] theorem modCtx_v1 (i : Tenant) (f : Ctx → Ctx) (s : State) : (modCtx i f s).v1 = s.v1 := rfl
@[simp] theorem modCtx_bufs (i : Tenant) (f : Ctx → Ctx) (s : State) : (modCtx i f s).bufs = s.bufs := rfl
@[simp] theorem modCtx_bufPtr (i : Tenant) (f : Ctx → Ctx) (s : State) : (modCtx i f s).bufPtr = s.bufPtr := rfl
@[simp] theorem modCtx_radio (i : Tenant) (f : Ctx → Ctx) (s : State) : (modCtx i f s).radio = s.radio := rfl
@[simp] theorem modCtx_rdr (i : Tenant) (f : Ctx → Ctx) (s : State) : (modCtx i f s).rdr = s.rdr := rfl
@[simp] theorem modCtx_tag (i : Tenant) (f : Ctx → Ctx) (s : State) : (modCtx i f s).tag = s.tag := rfl
@[simp] theorem modCtx_sess (i : Tenant) (f : Ctx → Ctx) (s : State) : (modCtx i f s).sess = s.sess := rfl
@[simp] theorem modCtx_link (i : Tenant) (f : Ctx → Ctx) (s : State) : (modCtx i f s).link = s.link := rfl
@[simp] theorem modCtx_reel (i : Tenant) (f : Ctx → Ctx) (s : State) : (modCtx i f s).reel = s.reel := rfl
@[simp] theorem modCtx_bri (i : Tenant) (f : Ctx → Ctx) (s : State) : (modCtx i f s).bri = s.bri := rfl
@[simp] theorem modCtx_gdl (i : Tenant) (f : Ctx → Ctx) (s : State) : (modCtx i f s).gdl = s.gdl := rfl
@[simp] theorem modCtx_cvu (i : Tenant) (f : Ctx → Ctx) (s : State) : (modCtx i f s).cvu = s.cvu := rfl
@[simp] theorem modCtx_cvuLink (i : Tenant) (f : Ctx → Ctx) (s : State) : (modCtx i f s).cvuLink = s.cvuLink := rfl
@[simp] theorem modCtx_cvuRdr (i : Tenant) (f : Ctx → Ctx) (s : State) : (modCtx i f s).cvuRdr = s.cvuRdr := rfl
@[simp] theorem modCtx_store (i : Tenant) (f : Ctx → Ctx) (s : State) : (modCtx i f s).store = s.store := rfl
@[simp] theorem modCtx_ldg (i : Tenant) (f : Ctx → Ctx) (s : State) : (modCtx i f s).ldg = s.ldg := rfl
@[simp] theorem modCtx_svy (i : Tenant) (f : Ctx → Ctx) (s : State) : (modCtx i f s).svy = s.svy := rfl
@[simp] theorem modCtx_mend (i : Tenant) (f : Ctx → Ctx) (s : State) : (modCtx i f s).mend = s.mend := rfl
@[simp] theorem modCtx_epoch (i : Tenant) (f : Ctx → Ctx) (s : State) : (modCtx i f s).epoch = s.epoch := rfl
@[simp] theorem modCtx_serial (i : Tenant) (f : Ctx → Ctx) (s : State) : (modCtx i f s).serial = s.serial := rfl
@[simp] theorem modCtx_bufRound (i : Tenant) (f : Ctx → Ctx) (s : State) : (modCtx i f s).bufRound = s.bufRound := rfl
@[simp] theorem modCtx_turn (i : Tenant) (f : Ctx → Ctx) (s : State) : (modCtx i f s).turn = s.turn := rfl
@[simp] theorem modCtx_tap (i : Tenant) (f : Ctx → Ctx) (s : State) : (modCtx i f s).tap = s.tap := rfl
@[simp] theorem modCtx_free (i : Tenant) (f : Ctx → Ctx) (s : State) : (modCtx i f s).free = s.free := rfl
@[simp] theorem modCtx_ctxs (i : Tenant) (f : Ctx → Ctx) (s : State) : (modCtx i f s).ctxs = vmod s.ctxs i f := rfl
-- modSess
@[simp] theorem modSess_pending (i : Tenant) (f : SecSess → SecSess) (s : State) : (modSess i f s).pending = s.pending := rfl
@[simp] theorem modSess_power (i : Tenant) (f : SecSess → SecSess) (s : State) : (modSess i f s).power = s.power := rfl
@[simp] theorem modSess_ports (i : Tenant) (f : SecSess → SecSess) (s : State) : (modSess i f s).ports = s.ports := rfl
@[simp] theorem modSess_binding (i : Tenant) (f : SecSess → SecSess) (s : State) : (modSess i f s).binding = s.binding := rfl
@[simp] theorem modSess_bindLock (i : Tenant) (f : SecSess → SecSess) (s : State) : (modSess i f s).bindLock = s.bindLock := rfl
@[simp] theorem modSess_shareLock (i : Tenant) (f : SecSess → SecSess) (s : State) : (modSess i f s).shareLock = s.shareLock := rfl
@[simp] theorem modSess_div (i : Tenant) (f : SecSess → SecSess) (s : State) : (modSess i f s).div = s.div := rfl
@[simp] theorem modSess_divNew (i : Tenant) (f : SecSess → SecSess) (s : State) : (modSess i f s).divNew = s.divNew := rfl
@[simp] theorem modSess_tens (i : Tenant) (f : SecSess → SecSess) (s : State) : (modSess i f s).tens = s.tens := rfl
@[simp] theorem modSess_prof (i : Tenant) (f : SecSess → SecSess) (s : State) : (modSess i f s).prof = s.prof := rfl
@[simp] theorem modSess_loaded (i : Tenant) (f : SecSess → SecSess) (s : State) : (modSess i f s).loaded = s.loaded := rfl
@[simp] theorem modSess_v1 (i : Tenant) (f : SecSess → SecSess) (s : State) : (modSess i f s).v1 = s.v1 := rfl
@[simp] theorem modSess_bufs (i : Tenant) (f : SecSess → SecSess) (s : State) : (modSess i f s).bufs = s.bufs := rfl
@[simp] theorem modSess_bufPtr (i : Tenant) (f : SecSess → SecSess) (s : State) : (modSess i f s).bufPtr = s.bufPtr := rfl
@[simp] theorem modSess_ctxs (i : Tenant) (f : SecSess → SecSess) (s : State) : (modSess i f s).ctxs = s.ctxs := rfl
@[simp] theorem modSess_radio (i : Tenant) (f : SecSess → SecSess) (s : State) : (modSess i f s).radio = s.radio := rfl
@[simp] theorem modSess_rdr (i : Tenant) (f : SecSess → SecSess) (s : State) : (modSess i f s).rdr = s.rdr := rfl
@[simp] theorem modSess_tag (i : Tenant) (f : SecSess → SecSess) (s : State) : (modSess i f s).tag = s.tag := rfl
@[simp] theorem modSess_link (i : Tenant) (f : SecSess → SecSess) (s : State) : (modSess i f s).link = s.link := rfl
@[simp] theorem modSess_reel (i : Tenant) (f : SecSess → SecSess) (s : State) : (modSess i f s).reel = s.reel := rfl
@[simp] theorem modSess_bri (i : Tenant) (f : SecSess → SecSess) (s : State) : (modSess i f s).bri = s.bri := rfl
@[simp] theorem modSess_gdl (i : Tenant) (f : SecSess → SecSess) (s : State) : (modSess i f s).gdl = s.gdl := rfl
@[simp] theorem modSess_cvu (i : Tenant) (f : SecSess → SecSess) (s : State) : (modSess i f s).cvu = s.cvu := rfl
@[simp] theorem modSess_cvuLink (i : Tenant) (f : SecSess → SecSess) (s : State) : (modSess i f s).cvuLink = s.cvuLink := rfl
@[simp] theorem modSess_cvuRdr (i : Tenant) (f : SecSess → SecSess) (s : State) : (modSess i f s).cvuRdr = s.cvuRdr := rfl
@[simp] theorem modSess_store (i : Tenant) (f : SecSess → SecSess) (s : State) : (modSess i f s).store = s.store := rfl
@[simp] theorem modSess_ldg (i : Tenant) (f : SecSess → SecSess) (s : State) : (modSess i f s).ldg = s.ldg := rfl
@[simp] theorem modSess_svy (i : Tenant) (f : SecSess → SecSess) (s : State) : (modSess i f s).svy = s.svy := rfl
@[simp] theorem modSess_mend (i : Tenant) (f : SecSess → SecSess) (s : State) : (modSess i f s).mend = s.mend := rfl
@[simp] theorem modSess_epoch (i : Tenant) (f : SecSess → SecSess) (s : State) : (modSess i f s).epoch = s.epoch := rfl
@[simp] theorem modSess_serial (i : Tenant) (f : SecSess → SecSess) (s : State) : (modSess i f s).serial = s.serial := rfl
@[simp] theorem modSess_bufRound (i : Tenant) (f : SecSess → SecSess) (s : State) : (modSess i f s).bufRound = s.bufRound := rfl
@[simp] theorem modSess_turn (i : Tenant) (f : SecSess → SecSess) (s : State) : (modSess i f s).turn = s.turn := rfl
@[simp] theorem modSess_tap (i : Tenant) (f : SecSess → SecSess) (s : State) : (modSess i f s).tap = s.tap := rfl
@[simp] theorem modSess_free (i : Tenant) (f : SecSess → SecSess) (s : State) : (modSess i f s).free = s.free := rfl
@[simp] theorem modSess_sess (i : Tenant) (f : SecSess → SecSess) (s : State) : (modSess i f s).sess = vmod s.sess i f := rfl
-- modBuf
@[simp] theorem modBuf_pending (i : Fin 32) (f : Buf → Buf) (s : State) : (modBuf i f s).pending = s.pending := rfl
@[simp] theorem modBuf_power (i : Fin 32) (f : Buf → Buf) (s : State) : (modBuf i f s).power = s.power := rfl
@[simp] theorem modBuf_ports (i : Fin 32) (f : Buf → Buf) (s : State) : (modBuf i f s).ports = s.ports := rfl
@[simp] theorem modBuf_binding (i : Fin 32) (f : Buf → Buf) (s : State) : (modBuf i f s).binding = s.binding := rfl
@[simp] theorem modBuf_bindLock (i : Fin 32) (f : Buf → Buf) (s : State) : (modBuf i f s).bindLock = s.bindLock := rfl
@[simp] theorem modBuf_shareLock (i : Fin 32) (f : Buf → Buf) (s : State) : (modBuf i f s).shareLock = s.shareLock := rfl
@[simp] theorem modBuf_div (i : Fin 32) (f : Buf → Buf) (s : State) : (modBuf i f s).div = s.div := rfl
@[simp] theorem modBuf_divNew (i : Fin 32) (f : Buf → Buf) (s : State) : (modBuf i f s).divNew = s.divNew := rfl
@[simp] theorem modBuf_tens (i : Fin 32) (f : Buf → Buf) (s : State) : (modBuf i f s).tens = s.tens := rfl
@[simp] theorem modBuf_prof (i : Fin 32) (f : Buf → Buf) (s : State) : (modBuf i f s).prof = s.prof := rfl
@[simp] theorem modBuf_loaded (i : Fin 32) (f : Buf → Buf) (s : State) : (modBuf i f s).loaded = s.loaded := rfl
@[simp] theorem modBuf_v1 (i : Fin 32) (f : Buf → Buf) (s : State) : (modBuf i f s).v1 = s.v1 := rfl
@[simp] theorem modBuf_bufPtr (i : Fin 32) (f : Buf → Buf) (s : State) : (modBuf i f s).bufPtr = s.bufPtr := rfl
@[simp] theorem modBuf_ctxs (i : Fin 32) (f : Buf → Buf) (s : State) : (modBuf i f s).ctxs = s.ctxs := rfl
@[simp] theorem modBuf_radio (i : Fin 32) (f : Buf → Buf) (s : State) : (modBuf i f s).radio = s.radio := rfl
@[simp] theorem modBuf_rdr (i : Fin 32) (f : Buf → Buf) (s : State) : (modBuf i f s).rdr = s.rdr := rfl
@[simp] theorem modBuf_tag (i : Fin 32) (f : Buf → Buf) (s : State) : (modBuf i f s).tag = s.tag := rfl
@[simp] theorem modBuf_sess (i : Fin 32) (f : Buf → Buf) (s : State) : (modBuf i f s).sess = s.sess := rfl
@[simp] theorem modBuf_link (i : Fin 32) (f : Buf → Buf) (s : State) : (modBuf i f s).link = s.link := rfl
@[simp] theorem modBuf_reel (i : Fin 32) (f : Buf → Buf) (s : State) : (modBuf i f s).reel = s.reel := rfl
@[simp] theorem modBuf_bri (i : Fin 32) (f : Buf → Buf) (s : State) : (modBuf i f s).bri = s.bri := rfl
@[simp] theorem modBuf_gdl (i : Fin 32) (f : Buf → Buf) (s : State) : (modBuf i f s).gdl = s.gdl := rfl
@[simp] theorem modBuf_cvu (i : Fin 32) (f : Buf → Buf) (s : State) : (modBuf i f s).cvu = s.cvu := rfl
@[simp] theorem modBuf_cvuLink (i : Fin 32) (f : Buf → Buf) (s : State) : (modBuf i f s).cvuLink = s.cvuLink := rfl
@[simp] theorem modBuf_cvuRdr (i : Fin 32) (f : Buf → Buf) (s : State) : (modBuf i f s).cvuRdr = s.cvuRdr := rfl
@[simp] theorem modBuf_store (i : Fin 32) (f : Buf → Buf) (s : State) : (modBuf i f s).store = s.store := rfl
@[simp] theorem modBuf_ldg (i : Fin 32) (f : Buf → Buf) (s : State) : (modBuf i f s).ldg = s.ldg := rfl
@[simp] theorem modBuf_svy (i : Fin 32) (f : Buf → Buf) (s : State) : (modBuf i f s).svy = s.svy := rfl
@[simp] theorem modBuf_mend (i : Fin 32) (f : Buf → Buf) (s : State) : (modBuf i f s).mend = s.mend := rfl
@[simp] theorem modBuf_epoch (i : Fin 32) (f : Buf → Buf) (s : State) : (modBuf i f s).epoch = s.epoch := rfl
@[simp] theorem modBuf_serial (i : Fin 32) (f : Buf → Buf) (s : State) : (modBuf i f s).serial = s.serial := rfl
@[simp] theorem modBuf_bufRound (i : Fin 32) (f : Buf → Buf) (s : State) : (modBuf i f s).bufRound = s.bufRound := rfl
@[simp] theorem modBuf_turn (i : Fin 32) (f : Buf → Buf) (s : State) : (modBuf i f s).turn = s.turn := rfl
@[simp] theorem modBuf_tap (i : Fin 32) (f : Buf → Buf) (s : State) : (modBuf i f s).tap = s.tap := rfl
@[simp] theorem modBuf_free (i : Fin 32) (f : Buf → Buf) (s : State) : (modBuf i f s).free = s.free := rfl
@[simp] theorem modBuf_bufs (i : Fin 32) (f : Buf → Buf) (s : State) : (modBuf i f s).bufs = vmod s.bufs i f := rfl
-- modSlot
@[simp] theorem modSlot_pending (i : Fin 48) (f : Slot → Slot) (s : State) : (modSlot i f s).pending = s.pending := rfl
@[simp] theorem modSlot_power (i : Fin 48) (f : Slot → Slot) (s : State) : (modSlot i f s).power = s.power := rfl
@[simp] theorem modSlot_ports (i : Fin 48) (f : Slot → Slot) (s : State) : (modSlot i f s).ports = s.ports := rfl
@[simp] theorem modSlot_binding (i : Fin 48) (f : Slot → Slot) (s : State) : (modSlot i f s).binding = s.binding := rfl
@[simp] theorem modSlot_bindLock (i : Fin 48) (f : Slot → Slot) (s : State) : (modSlot i f s).bindLock = s.bindLock := rfl
@[simp] theorem modSlot_shareLock (i : Fin 48) (f : Slot → Slot) (s : State) : (modSlot i f s).shareLock = s.shareLock := rfl
@[simp] theorem modSlot_div (i : Fin 48) (f : Slot → Slot) (s : State) : (modSlot i f s).div = s.div := rfl
@[simp] theorem modSlot_divNew (i : Fin 48) (f : Slot → Slot) (s : State) : (modSlot i f s).divNew = s.divNew := rfl
@[simp] theorem modSlot_tens (i : Fin 48) (f : Slot → Slot) (s : State) : (modSlot i f s).tens = s.tens := rfl
@[simp] theorem modSlot_prof (i : Fin 48) (f : Slot → Slot) (s : State) : (modSlot i f s).prof = s.prof := rfl
@[simp] theorem modSlot_loaded (i : Fin 48) (f : Slot → Slot) (s : State) : (modSlot i f s).loaded = s.loaded := rfl
@[simp] theorem modSlot_v1 (i : Fin 48) (f : Slot → Slot) (s : State) : (modSlot i f s).v1 = s.v1 := rfl
@[simp] theorem modSlot_bufs (i : Fin 48) (f : Slot → Slot) (s : State) : (modSlot i f s).bufs = s.bufs := rfl
@[simp] theorem modSlot_bufPtr (i : Fin 48) (f : Slot → Slot) (s : State) : (modSlot i f s).bufPtr = s.bufPtr := rfl
@[simp] theorem modSlot_ctxs (i : Fin 48) (f : Slot → Slot) (s : State) : (modSlot i f s).ctxs = s.ctxs := rfl
@[simp] theorem modSlot_radio (i : Fin 48) (f : Slot → Slot) (s : State) : (modSlot i f s).radio = s.radio := rfl
@[simp] theorem modSlot_rdr (i : Fin 48) (f : Slot → Slot) (s : State) : (modSlot i f s).rdr = s.rdr := rfl
@[simp] theorem modSlot_tag (i : Fin 48) (f : Slot → Slot) (s : State) : (modSlot i f s).tag = s.tag := rfl
@[simp] theorem modSlot_sess (i : Fin 48) (f : Slot → Slot) (s : State) : (modSlot i f s).sess = s.sess := rfl
@[simp] theorem modSlot_link (i : Fin 48) (f : Slot → Slot) (s : State) : (modSlot i f s).link = s.link := rfl
@[simp] theorem modSlot_reel (i : Fin 48) (f : Slot → Slot) (s : State) : (modSlot i f s).reel = s.reel := rfl
@[simp] theorem modSlot_gdl (i : Fin 48) (f : Slot → Slot) (s : State) : (modSlot i f s).gdl = s.gdl := rfl
@[simp] theorem modSlot_cvu (i : Fin 48) (f : Slot → Slot) (s : State) : (modSlot i f s).cvu = s.cvu := rfl
@[simp] theorem modSlot_cvuLink (i : Fin 48) (f : Slot → Slot) (s : State) : (modSlot i f s).cvuLink = s.cvuLink := rfl
@[simp] theorem modSlot_cvuRdr (i : Fin 48) (f : Slot → Slot) (s : State) : (modSlot i f s).cvuRdr = s.cvuRdr := rfl
@[simp] theorem modSlot_store (i : Fin 48) (f : Slot → Slot) (s : State) : (modSlot i f s).store = s.store := rfl
@[simp] theorem modSlot_ldg (i : Fin 48) (f : Slot → Slot) (s : State) : (modSlot i f s).ldg = s.ldg := rfl
@[simp] theorem modSlot_svy (i : Fin 48) (f : Slot → Slot) (s : State) : (modSlot i f s).svy = s.svy := rfl
@[simp] theorem modSlot_mend (i : Fin 48) (f : Slot → Slot) (s : State) : (modSlot i f s).mend = s.mend := rfl
@[simp] theorem modSlot_epoch (i : Fin 48) (f : Slot → Slot) (s : State) : (modSlot i f s).epoch = s.epoch := rfl
@[simp] theorem modSlot_serial (i : Fin 48) (f : Slot → Slot) (s : State) : (modSlot i f s).serial = s.serial := rfl
@[simp] theorem modSlot_bufRound (i : Fin 48) (f : Slot → Slot) (s : State) : (modSlot i f s).bufRound = s.bufRound := rfl
@[simp] theorem modSlot_turn (i : Fin 48) (f : Slot → Slot) (s : State) : (modSlot i f s).turn = s.turn := rfl
@[simp] theorem modSlot_tap (i : Fin 48) (f : Slot → Slot) (s : State) : (modSlot i f s).tap = s.tap := rfl
@[simp] theorem modSlot_free (i : Fin 48) (f : Slot → Slot) (s : State) : (modSlot i f s).free = s.free := rfl
@[simp] theorem modSlot_bri (i : Fin 48) (f : Slot → Slot) (s : State) : (modSlot i f s).bri = { s.bri with slots := vmod s.bri.slots i f } := rfl
-- modChan
@[simp] theorem modChan_pending (i : Fin 16) (f : Chan → Chan) (s : State) : (modChan i f s).pending = s.pending := rfl
@[simp] theorem modChan_power (i : Fin 16) (f : Chan → Chan) (s : State) : (modChan i f s).power = s.power := rfl
@[simp] theorem modChan_ports (i : Fin 16) (f : Chan → Chan) (s : State) : (modChan i f s).ports = s.ports := rfl
@[simp] theorem modChan_binding (i : Fin 16) (f : Chan → Chan) (s : State) : (modChan i f s).binding = s.binding := rfl
@[simp] theorem modChan_bindLock (i : Fin 16) (f : Chan → Chan) (s : State) : (modChan i f s).bindLock = s.bindLock := rfl
@[simp] theorem modChan_shareLock (i : Fin 16) (f : Chan → Chan) (s : State) : (modChan i f s).shareLock = s.shareLock := rfl
@[simp] theorem modChan_div (i : Fin 16) (f : Chan → Chan) (s : State) : (modChan i f s).div = s.div := rfl
@[simp] theorem modChan_divNew (i : Fin 16) (f : Chan → Chan) (s : State) : (modChan i f s).divNew = s.divNew := rfl
@[simp] theorem modChan_tens (i : Fin 16) (f : Chan → Chan) (s : State) : (modChan i f s).tens = s.tens := rfl
@[simp] theorem modChan_prof (i : Fin 16) (f : Chan → Chan) (s : State) : (modChan i f s).prof = s.prof := rfl
@[simp] theorem modChan_loaded (i : Fin 16) (f : Chan → Chan) (s : State) : (modChan i f s).loaded = s.loaded := rfl
@[simp] theorem modChan_v1 (i : Fin 16) (f : Chan → Chan) (s : State) : (modChan i f s).v1 = s.v1 := rfl
@[simp] theorem modChan_bufs (i : Fin 16) (f : Chan → Chan) (s : State) : (modChan i f s).bufs = s.bufs := rfl
@[simp] theorem modChan_bufPtr (i : Fin 16) (f : Chan → Chan) (s : State) : (modChan i f s).bufPtr = s.bufPtr := rfl
@[simp] theorem modChan_ctxs (i : Fin 16) (f : Chan → Chan) (s : State) : (modChan i f s).ctxs = s.ctxs := rfl
@[simp] theorem modChan_radio (i : Fin 16) (f : Chan → Chan) (s : State) : (modChan i f s).radio = s.radio := rfl
@[simp] theorem modChan_rdr (i : Fin 16) (f : Chan → Chan) (s : State) : (modChan i f s).rdr = s.rdr := rfl
@[simp] theorem modChan_tag (i : Fin 16) (f : Chan → Chan) (s : State) : (modChan i f s).tag = s.tag := rfl
@[simp] theorem modChan_sess (i : Fin 16) (f : Chan → Chan) (s : State) : (modChan i f s).sess = s.sess := rfl
@[simp] theorem modChan_link (i : Fin 16) (f : Chan → Chan) (s : State) : (modChan i f s).link = s.link := rfl
@[simp] theorem modChan_reel (i : Fin 16) (f : Chan → Chan) (s : State) : (modChan i f s).reel = s.reel := rfl
@[simp] theorem modChan_bri (i : Fin 16) (f : Chan → Chan) (s : State) : (modChan i f s).bri = s.bri := rfl
@[simp] theorem modChan_cvu (i : Fin 16) (f : Chan → Chan) (s : State) : (modChan i f s).cvu = s.cvu := rfl
@[simp] theorem modChan_cvuLink (i : Fin 16) (f : Chan → Chan) (s : State) : (modChan i f s).cvuLink = s.cvuLink := rfl
@[simp] theorem modChan_cvuRdr (i : Fin 16) (f : Chan → Chan) (s : State) : (modChan i f s).cvuRdr = s.cvuRdr := rfl
@[simp] theorem modChan_store (i : Fin 16) (f : Chan → Chan) (s : State) : (modChan i f s).store = s.store := rfl
@[simp] theorem modChan_ldg (i : Fin 16) (f : Chan → Chan) (s : State) : (modChan i f s).ldg = s.ldg := rfl
@[simp] theorem modChan_svy (i : Fin 16) (f : Chan → Chan) (s : State) : (modChan i f s).svy = s.svy := rfl
@[simp] theorem modChan_mend (i : Fin 16) (f : Chan → Chan) (s : State) : (modChan i f s).mend = s.mend := rfl
@[simp] theorem modChan_epoch (i : Fin 16) (f : Chan → Chan) (s : State) : (modChan i f s).epoch = s.epoch := rfl
@[simp] theorem modChan_serial (i : Fin 16) (f : Chan → Chan) (s : State) : (modChan i f s).serial = s.serial := rfl
@[simp] theorem modChan_bufRound (i : Fin 16) (f : Chan → Chan) (s : State) : (modChan i f s).bufRound = s.bufRound := rfl
@[simp] theorem modChan_turn (i : Fin 16) (f : Chan → Chan) (s : State) : (modChan i f s).turn = s.turn := rfl
@[simp] theorem modChan_tap (i : Fin 16) (f : Chan → Chan) (s : State) : (modChan i f s).tap = s.tap := rfl
@[simp] theorem modChan_free (i : Fin 16) (f : Chan → Chan) (s : State) : (modChan i f s).free = s.free := rfl
@[simp] theorem modChan_gdl (i : Fin 16) (f : Chan → Chan) (s : State) : (modChan i f s).gdl = { s.gdl with chans := vmod s.gdl.chans i f } := rfl
-- modSem
@[simp] theorem modSem_pending (i : Fin 8) (f : Sem → Sem) (s : State) : (modSem i f s).pending = s.pending := rfl
@[simp] theorem modSem_power (i : Fin 8) (f : Sem → Sem) (s : State) : (modSem i f s).power = s.power := rfl
@[simp] theorem modSem_ports (i : Fin 8) (f : Sem → Sem) (s : State) : (modSem i f s).ports = s.ports := rfl
@[simp] theorem modSem_binding (i : Fin 8) (f : Sem → Sem) (s : State) : (modSem i f s).binding = s.binding := rfl
@[simp] theorem modSem_bindLock (i : Fin 8) (f : Sem → Sem) (s : State) : (modSem i f s).bindLock = s.bindLock := rfl
@[simp] theorem modSem_shareLock (i : Fin 8) (f : Sem → Sem) (s : State) : (modSem i f s).shareLock = s.shareLock := rfl
@[simp] theorem modSem_div (i : Fin 8) (f : Sem → Sem) (s : State) : (modSem i f s).div = s.div := rfl
@[simp] theorem modSem_divNew (i : Fin 8) (f : Sem → Sem) (s : State) : (modSem i f s).divNew = s.divNew := rfl
@[simp] theorem modSem_tens (i : Fin 8) (f : Sem → Sem) (s : State) : (modSem i f s).tens = s.tens := rfl
@[simp] theorem modSem_prof (i : Fin 8) (f : Sem → Sem) (s : State) : (modSem i f s).prof = s.prof := rfl
@[simp] theorem modSem_loaded (i : Fin 8) (f : Sem → Sem) (s : State) : (modSem i f s).loaded = s.loaded := rfl
@[simp] theorem modSem_v1 (i : Fin 8) (f : Sem → Sem) (s : State) : (modSem i f s).v1 = s.v1 := rfl
@[simp] theorem modSem_bufs (i : Fin 8) (f : Sem → Sem) (s : State) : (modSem i f s).bufs = s.bufs := rfl
@[simp] theorem modSem_bufPtr (i : Fin 8) (f : Sem → Sem) (s : State) : (modSem i f s).bufPtr = s.bufPtr := rfl
@[simp] theorem modSem_ctxs (i : Fin 8) (f : Sem → Sem) (s : State) : (modSem i f s).ctxs = s.ctxs := rfl
@[simp] theorem modSem_radio (i : Fin 8) (f : Sem → Sem) (s : State) : (modSem i f s).radio = s.radio := rfl
@[simp] theorem modSem_rdr (i : Fin 8) (f : Sem → Sem) (s : State) : (modSem i f s).rdr = s.rdr := rfl
@[simp] theorem modSem_tag (i : Fin 8) (f : Sem → Sem) (s : State) : (modSem i f s).tag = s.tag := rfl
@[simp] theorem modSem_sess (i : Fin 8) (f : Sem → Sem) (s : State) : (modSem i f s).sess = s.sess := rfl
@[simp] theorem modSem_link (i : Fin 8) (f : Sem → Sem) (s : State) : (modSem i f s).link = s.link := rfl
@[simp] theorem modSem_reel (i : Fin 8) (f : Sem → Sem) (s : State) : (modSem i f s).reel = s.reel := rfl
@[simp] theorem modSem_bri (i : Fin 8) (f : Sem → Sem) (s : State) : (modSem i f s).bri = s.bri := rfl
@[simp] theorem modSem_cvu (i : Fin 8) (f : Sem → Sem) (s : State) : (modSem i f s).cvu = s.cvu := rfl
@[simp] theorem modSem_cvuLink (i : Fin 8) (f : Sem → Sem) (s : State) : (modSem i f s).cvuLink = s.cvuLink := rfl
@[simp] theorem modSem_cvuRdr (i : Fin 8) (f : Sem → Sem) (s : State) : (modSem i f s).cvuRdr = s.cvuRdr := rfl
@[simp] theorem modSem_store (i : Fin 8) (f : Sem → Sem) (s : State) : (modSem i f s).store = s.store := rfl
@[simp] theorem modSem_ldg (i : Fin 8) (f : Sem → Sem) (s : State) : (modSem i f s).ldg = s.ldg := rfl
@[simp] theorem modSem_svy (i : Fin 8) (f : Sem → Sem) (s : State) : (modSem i f s).svy = s.svy := rfl
@[simp] theorem modSem_mend (i : Fin 8) (f : Sem → Sem) (s : State) : (modSem i f s).mend = s.mend := rfl
@[simp] theorem modSem_epoch (i : Fin 8) (f : Sem → Sem) (s : State) : (modSem i f s).epoch = s.epoch := rfl
@[simp] theorem modSem_serial (i : Fin 8) (f : Sem → Sem) (s : State) : (modSem i f s).serial = s.serial := rfl
@[simp] theorem modSem_bufRound (i : Fin 8) (f : Sem → Sem) (s : State) : (modSem i f s).bufRound = s.bufRound := rfl
@[simp] theorem modSem_turn (i : Fin 8) (f : Sem → Sem) (s : State) : (modSem i f s).turn = s.turn := rfl
@[simp] theorem modSem_tap (i : Fin 8) (f : Sem → Sem) (s : State) : (modSem i f s).tap = s.tap := rfl
@[simp] theorem modSem_free (i : Fin 8) (f : Sem → Sem) (s : State) : (modSem i f s).free = s.free := rfl
@[simp] theorem modSem_gdl (i : Fin 8) (f : Sem → Sem) (s : State) : (modSem i f s).gdl = { s.gdl with sems := vmod s.gdl.sems i f } := rfl
-- modCmp
@[simp] theorem modCmp_pending (i : Fin 12) (f : Compare → Compare) (s : State) : (modCmp i f s).pending = s.pending := rfl
@[simp] theorem modCmp_power (i : Fin 12) (f : Compare → Compare) (s : State) : (modCmp i f s).power = s.power := rfl
@[simp] theorem modCmp_ports (i : Fin 12) (f : Compare → Compare) (s : State) : (modCmp i f s).ports = s.ports := rfl
@[simp] theorem modCmp_binding (i : Fin 12) (f : Compare → Compare) (s : State) : (modCmp i f s).binding = s.binding := rfl
@[simp] theorem modCmp_bindLock (i : Fin 12) (f : Compare → Compare) (s : State) : (modCmp i f s).bindLock = s.bindLock := rfl
@[simp] theorem modCmp_shareLock (i : Fin 12) (f : Compare → Compare) (s : State) : (modCmp i f s).shareLock = s.shareLock := rfl
@[simp] theorem modCmp_div (i : Fin 12) (f : Compare → Compare) (s : State) : (modCmp i f s).div = s.div := rfl
@[simp] theorem modCmp_divNew (i : Fin 12) (f : Compare → Compare) (s : State) : (modCmp i f s).divNew = s.divNew := rfl
@[simp] theorem modCmp_tens (i : Fin 12) (f : Compare → Compare) (s : State) : (modCmp i f s).tens = s.tens := rfl
@[simp] theorem modCmp_prof (i : Fin 12) (f : Compare → Compare) (s : State) : (modCmp i f s).prof = s.prof := rfl
@[simp] theorem modCmp_loaded (i : Fin 12) (f : Compare → Compare) (s : State) : (modCmp i f s).loaded = s.loaded := rfl
@[simp] theorem modCmp_v1 (i : Fin 12) (f : Compare → Compare) (s : State) : (modCmp i f s).v1 = s.v1 := rfl
@[simp] theorem modCmp_bufs (i : Fin 12) (f : Compare → Compare) (s : State) : (modCmp i f s).bufs = s.bufs := rfl
@[simp] theorem modCmp_bufPtr (i : Fin 12) (f : Compare → Compare) (s : State) : (modCmp i f s).bufPtr = s.bufPtr := rfl
@[simp] theorem modCmp_ctxs (i : Fin 12) (f : Compare → Compare) (s : State) : (modCmp i f s).ctxs = s.ctxs := rfl
@[simp] theorem modCmp_radio (i : Fin 12) (f : Compare → Compare) (s : State) : (modCmp i f s).radio = s.radio := rfl
@[simp] theorem modCmp_rdr (i : Fin 12) (f : Compare → Compare) (s : State) : (modCmp i f s).rdr = s.rdr := rfl
@[simp] theorem modCmp_tag (i : Fin 12) (f : Compare → Compare) (s : State) : (modCmp i f s).tag = s.tag := rfl
@[simp] theorem modCmp_sess (i : Fin 12) (f : Compare → Compare) (s : State) : (modCmp i f s).sess = s.sess := rfl
@[simp] theorem modCmp_link (i : Fin 12) (f : Compare → Compare) (s : State) : (modCmp i f s).link = s.link := rfl
@[simp] theorem modCmp_bri (i : Fin 12) (f : Compare → Compare) (s : State) : (modCmp i f s).bri = s.bri := rfl
@[simp] theorem modCmp_gdl (i : Fin 12) (f : Compare → Compare) (s : State) : (modCmp i f s).gdl = s.gdl := rfl
@[simp] theorem modCmp_cvu (i : Fin 12) (f : Compare → Compare) (s : State) : (modCmp i f s).cvu = s.cvu := rfl
@[simp] theorem modCmp_cvuLink (i : Fin 12) (f : Compare → Compare) (s : State) : (modCmp i f s).cvuLink = s.cvuLink := rfl
@[simp] theorem modCmp_cvuRdr (i : Fin 12) (f : Compare → Compare) (s : State) : (modCmp i f s).cvuRdr = s.cvuRdr := rfl
@[simp] theorem modCmp_store (i : Fin 12) (f : Compare → Compare) (s : State) : (modCmp i f s).store = s.store := rfl
@[simp] theorem modCmp_ldg (i : Fin 12) (f : Compare → Compare) (s : State) : (modCmp i f s).ldg = s.ldg := rfl
@[simp] theorem modCmp_svy (i : Fin 12) (f : Compare → Compare) (s : State) : (modCmp i f s).svy = s.svy := rfl
@[simp] theorem modCmp_mend (i : Fin 12) (f : Compare → Compare) (s : State) : (modCmp i f s).mend = s.mend := rfl
@[simp] theorem modCmp_epoch (i : Fin 12) (f : Compare → Compare) (s : State) : (modCmp i f s).epoch = s.epoch := rfl
@[simp] theorem modCmp_serial (i : Fin 12) (f : Compare → Compare) (s : State) : (modCmp i f s).serial = s.serial := rfl
@[simp] theorem modCmp_bufRound (i : Fin 12) (f : Compare → Compare) (s : State) : (modCmp i f s).bufRound = s.bufRound := rfl
@[simp] theorem modCmp_turn (i : Fin 12) (f : Compare → Compare) (s : State) : (modCmp i f s).turn = s.turn := rfl
@[simp] theorem modCmp_tap (i : Fin 12) (f : Compare → Compare) (s : State) : (modCmp i f s).tap = s.tap := rfl
@[simp] theorem modCmp_free (i : Fin 12) (f : Compare → Compare) (s : State) : (modCmp i f s).free = s.free := rfl
@[simp] theorem modCmp_reel (i : Fin 12) (f : Compare → Compare) (s : State) : (modCmp i f s).reel = { s.reel with cmps := vmod s.reel.cmps i f } := rfl
-- modDc
@[simp] theorem modDc_pending (i : Tenant) (f : DownCnt → DownCnt) (s : State) : (modDc i f s).pending = s.pending := rfl
@[simp] theorem modDc_power (i : Tenant) (f : DownCnt → DownCnt) (s : State) : (modDc i f s).power = s.power := rfl
@[simp] theorem modDc_ports (i : Tenant) (f : DownCnt → DownCnt) (s : State) : (modDc i f s).ports = s.ports := rfl
@[simp] theorem modDc_binding (i : Tenant) (f : DownCnt → DownCnt) (s : State) : (modDc i f s).binding = s.binding := rfl
@[simp] theorem modDc_bindLock (i : Tenant) (f : DownCnt → DownCnt) (s : State) : (modDc i f s).bindLock = s.bindLock := rfl
@[simp] theorem modDc_shareLock (i : Tenant) (f : DownCnt → DownCnt) (s : State) : (modDc i f s).shareLock = s.shareLock := rfl
@[simp] theorem modDc_div (i : Tenant) (f : DownCnt → DownCnt) (s : State) : (modDc i f s).div = s.div := rfl
@[simp] theorem modDc_divNew (i : Tenant) (f : DownCnt → DownCnt) (s : State) : (modDc i f s).divNew = s.divNew := rfl
@[simp] theorem modDc_tens (i : Tenant) (f : DownCnt → DownCnt) (s : State) : (modDc i f s).tens = s.tens := rfl
@[simp] theorem modDc_prof (i : Tenant) (f : DownCnt → DownCnt) (s : State) : (modDc i f s).prof = s.prof := rfl
@[simp] theorem modDc_loaded (i : Tenant) (f : DownCnt → DownCnt) (s : State) : (modDc i f s).loaded = s.loaded := rfl
@[simp] theorem modDc_v1 (i : Tenant) (f : DownCnt → DownCnt) (s : State) : (modDc i f s).v1 = s.v1 := rfl
@[simp] theorem modDc_bufs (i : Tenant) (f : DownCnt → DownCnt) (s : State) : (modDc i f s).bufs = s.bufs := rfl
@[simp] theorem modDc_bufPtr (i : Tenant) (f : DownCnt → DownCnt) (s : State) : (modDc i f s).bufPtr = s.bufPtr := rfl
@[simp] theorem modDc_ctxs (i : Tenant) (f : DownCnt → DownCnt) (s : State) : (modDc i f s).ctxs = s.ctxs := rfl
@[simp] theorem modDc_radio (i : Tenant) (f : DownCnt → DownCnt) (s : State) : (modDc i f s).radio = s.radio := rfl
@[simp] theorem modDc_rdr (i : Tenant) (f : DownCnt → DownCnt) (s : State) : (modDc i f s).rdr = s.rdr := rfl
@[simp] theorem modDc_tag (i : Tenant) (f : DownCnt → DownCnt) (s : State) : (modDc i f s).tag = s.tag := rfl
@[simp] theorem modDc_sess (i : Tenant) (f : DownCnt → DownCnt) (s : State) : (modDc i f s).sess = s.sess := rfl
@[simp] theorem modDc_link (i : Tenant) (f : DownCnt → DownCnt) (s : State) : (modDc i f s).link = s.link := rfl
@[simp] theorem modDc_bri (i : Tenant) (f : DownCnt → DownCnt) (s : State) : (modDc i f s).bri = s.bri := rfl
@[simp] theorem modDc_gdl (i : Tenant) (f : DownCnt → DownCnt) (s : State) : (modDc i f s).gdl = s.gdl := rfl
@[simp] theorem modDc_cvu (i : Tenant) (f : DownCnt → DownCnt) (s : State) : (modDc i f s).cvu = s.cvu := rfl
@[simp] theorem modDc_cvuLink (i : Tenant) (f : DownCnt → DownCnt) (s : State) : (modDc i f s).cvuLink = s.cvuLink := rfl
@[simp] theorem modDc_cvuRdr (i : Tenant) (f : DownCnt → DownCnt) (s : State) : (modDc i f s).cvuRdr = s.cvuRdr := rfl
@[simp] theorem modDc_store (i : Tenant) (f : DownCnt → DownCnt) (s : State) : (modDc i f s).store = s.store := rfl
@[simp] theorem modDc_ldg (i : Tenant) (f : DownCnt → DownCnt) (s : State) : (modDc i f s).ldg = s.ldg := rfl
@[simp] theorem modDc_svy (i : Tenant) (f : DownCnt → DownCnt) (s : State) : (modDc i f s).svy = s.svy := rfl
@[simp] theorem modDc_mend (i : Tenant) (f : DownCnt → DownCnt) (s : State) : (modDc i f s).mend = s.mend := rfl
@[simp] theorem modDc_epoch (i : Tenant) (f : DownCnt → DownCnt) (s : State) : (modDc i f s).epoch = s.epoch := rfl
@[simp] theorem modDc_serial (i : Tenant) (f : DownCnt → DownCnt) (s : State) : (modDc i f s).serial = s.serial := rfl
@[simp] theorem modDc_bufRound (i : Tenant) (f : DownCnt → DownCnt) (s : State) : (modDc i f s).bufRound = s.bufRound := rfl
@[simp] theorem modDc_turn (i : Tenant) (f : DownCnt → DownCnt) (s : State) : (modDc i f s).turn = s.turn := rfl
@[simp] theorem modDc_tap (i : Tenant) (f : DownCnt → DownCnt) (s : State) : (modDc i f s).tap = s.tap := rfl
@[simp] theorem modDc_free (i : Tenant) (f : DownCnt → DownCnt) (s : State) : (modDc i f s).free = s.free := rfl
@[simp] theorem modDc_reel (i : Tenant) (f : DownCnt → DownCnt) (s : State) : (modDc i f s).reel = { s.reel with dcs := vmod s.reel.dcs i f } := rfl
-- modCap
@[simp] theorem modCap_pending (i : Tenant) (f : Capture → Capture) (s : State) : (modCap i f s).pending = s.pending := rfl
@[simp] theorem modCap_power (i : Tenant) (f : Capture → Capture) (s : State) : (modCap i f s).power = s.power := rfl
@[simp] theorem modCap_ports (i : Tenant) (f : Capture → Capture) (s : State) : (modCap i f s).ports = s.ports := rfl
@[simp] theorem modCap_binding (i : Tenant) (f : Capture → Capture) (s : State) : (modCap i f s).binding = s.binding := rfl
@[simp] theorem modCap_bindLock (i : Tenant) (f : Capture → Capture) (s : State) : (modCap i f s).bindLock = s.bindLock := rfl
@[simp] theorem modCap_shareLock (i : Tenant) (f : Capture → Capture) (s : State) : (modCap i f s).shareLock = s.shareLock := rfl
@[simp] theorem modCap_div (i : Tenant) (f : Capture → Capture) (s : State) : (modCap i f s).div = s.div := rfl
@[simp] theorem modCap_divNew (i : Tenant) (f : Capture → Capture) (s : State) : (modCap i f s).divNew = s.divNew := rfl
@[simp] theorem modCap_tens (i : Tenant) (f : Capture → Capture) (s : State) : (modCap i f s).tens = s.tens := rfl
@[simp] theorem modCap_prof (i : Tenant) (f : Capture → Capture) (s : State) : (modCap i f s).prof = s.prof := rfl
@[simp] theorem modCap_loaded (i : Tenant) (f : Capture → Capture) (s : State) : (modCap i f s).loaded = s.loaded := rfl
@[simp] theorem modCap_v1 (i : Tenant) (f : Capture → Capture) (s : State) : (modCap i f s).v1 = s.v1 := rfl
@[simp] theorem modCap_bufs (i : Tenant) (f : Capture → Capture) (s : State) : (modCap i f s).bufs = s.bufs := rfl
@[simp] theorem modCap_bufPtr (i : Tenant) (f : Capture → Capture) (s : State) : (modCap i f s).bufPtr = s.bufPtr := rfl
@[simp] theorem modCap_ctxs (i : Tenant) (f : Capture → Capture) (s : State) : (modCap i f s).ctxs = s.ctxs := rfl
@[simp] theorem modCap_radio (i : Tenant) (f : Capture → Capture) (s : State) : (modCap i f s).radio = s.radio := rfl
@[simp] theorem modCap_rdr (i : Tenant) (f : Capture → Capture) (s : State) : (modCap i f s).rdr = s.rdr := rfl
@[simp] theorem modCap_tag (i : Tenant) (f : Capture → Capture) (s : State) : (modCap i f s).tag = s.tag := rfl
@[simp] theorem modCap_sess (i : Tenant) (f : Capture → Capture) (s : State) : (modCap i f s).sess = s.sess := rfl
@[simp] theorem modCap_link (i : Tenant) (f : Capture → Capture) (s : State) : (modCap i f s).link = s.link := rfl
@[simp] theorem modCap_bri (i : Tenant) (f : Capture → Capture) (s : State) : (modCap i f s).bri = s.bri := rfl
@[simp] theorem modCap_gdl (i : Tenant) (f : Capture → Capture) (s : State) : (modCap i f s).gdl = s.gdl := rfl
@[simp] theorem modCap_cvu (i : Tenant) (f : Capture → Capture) (s : State) : (modCap i f s).cvu = s.cvu := rfl
@[simp] theorem modCap_cvuLink (i : Tenant) (f : Capture → Capture) (s : State) : (modCap i f s).cvuLink = s.cvuLink := rfl
@[simp] theorem modCap_cvuRdr (i : Tenant) (f : Capture → Capture) (s : State) : (modCap i f s).cvuRdr = s.cvuRdr := rfl
@[simp] theorem modCap_store (i : Tenant) (f : Capture → Capture) (s : State) : (modCap i f s).store = s.store := rfl
@[simp] theorem modCap_ldg (i : Tenant) (f : Capture → Capture) (s : State) : (modCap i f s).ldg = s.ldg := rfl
@[simp] theorem modCap_svy (i : Tenant) (f : Capture → Capture) (s : State) : (modCap i f s).svy = s.svy := rfl
@[simp] theorem modCap_mend (i : Tenant) (f : Capture → Capture) (s : State) : (modCap i f s).mend = s.mend := rfl
@[simp] theorem modCap_epoch (i : Tenant) (f : Capture → Capture) (s : State) : (modCap i f s).epoch = s.epoch := rfl
@[simp] theorem modCap_serial (i : Tenant) (f : Capture → Capture) (s : State) : (modCap i f s).serial = s.serial := rfl
@[simp] theorem modCap_bufRound (i : Tenant) (f : Capture → Capture) (s : State) : (modCap i f s).bufRound = s.bufRound := rfl
@[simp] theorem modCap_turn (i : Tenant) (f : Capture → Capture) (s : State) : (modCap i f s).turn = s.turn := rfl
@[simp] theorem modCap_tap (i : Tenant) (f : Capture → Capture) (s : State) : (modCap i f s).tap = s.tap := rfl
@[simp] theorem modCap_free (i : Tenant) (f : Capture → Capture) (s : State) : (modCap i f s).free = s.free := rfl
@[simp] theorem modCap_reel (i : Tenant) (f : Capture → Capture) (s : State) : (modCap i f s).reel = { s.reel with caps := vmod s.reel.caps i f } := rfl
-- modTout
@[simp] theorem modTout_pending (i : Tenant) (f : TimerOut → TimerOut) (s : State) : (modTout i f s).pending = s.pending := rfl
@[simp] theorem modTout_power (i : Tenant) (f : TimerOut → TimerOut) (s : State) : (modTout i f s).power = s.power := rfl
@[simp] theorem modTout_ports (i : Tenant) (f : TimerOut → TimerOut) (s : State) : (modTout i f s).ports = s.ports := rfl
@[simp] theorem modTout_binding (i : Tenant) (f : TimerOut → TimerOut) (s : State) : (modTout i f s).binding = s.binding := rfl
@[simp] theorem modTout_bindLock (i : Tenant) (f : TimerOut → TimerOut) (s : State) : (modTout i f s).bindLock = s.bindLock := rfl
@[simp] theorem modTout_shareLock (i : Tenant) (f : TimerOut → TimerOut) (s : State) : (modTout i f s).shareLock = s.shareLock := rfl
@[simp] theorem modTout_div (i : Tenant) (f : TimerOut → TimerOut) (s : State) : (modTout i f s).div = s.div := rfl
@[simp] theorem modTout_divNew (i : Tenant) (f : TimerOut → TimerOut) (s : State) : (modTout i f s).divNew = s.divNew := rfl
@[simp] theorem modTout_tens (i : Tenant) (f : TimerOut → TimerOut) (s : State) : (modTout i f s).tens = s.tens := rfl
@[simp] theorem modTout_prof (i : Tenant) (f : TimerOut → TimerOut) (s : State) : (modTout i f s).prof = s.prof := rfl
@[simp] theorem modTout_loaded (i : Tenant) (f : TimerOut → TimerOut) (s : State) : (modTout i f s).loaded = s.loaded := rfl
@[simp] theorem modTout_v1 (i : Tenant) (f : TimerOut → TimerOut) (s : State) : (modTout i f s).v1 = s.v1 := rfl
@[simp] theorem modTout_bufs (i : Tenant) (f : TimerOut → TimerOut) (s : State) : (modTout i f s).bufs = s.bufs := rfl
@[simp] theorem modTout_bufPtr (i : Tenant) (f : TimerOut → TimerOut) (s : State) : (modTout i f s).bufPtr = s.bufPtr := rfl
@[simp] theorem modTout_ctxs (i : Tenant) (f : TimerOut → TimerOut) (s : State) : (modTout i f s).ctxs = s.ctxs := rfl
@[simp] theorem modTout_radio (i : Tenant) (f : TimerOut → TimerOut) (s : State) : (modTout i f s).radio = s.radio := rfl
@[simp] theorem modTout_rdr (i : Tenant) (f : TimerOut → TimerOut) (s : State) : (modTout i f s).rdr = s.rdr := rfl
@[simp] theorem modTout_tag (i : Tenant) (f : TimerOut → TimerOut) (s : State) : (modTout i f s).tag = s.tag := rfl
@[simp] theorem modTout_sess (i : Tenant) (f : TimerOut → TimerOut) (s : State) : (modTout i f s).sess = s.sess := rfl
@[simp] theorem modTout_link (i : Tenant) (f : TimerOut → TimerOut) (s : State) : (modTout i f s).link = s.link := rfl
@[simp] theorem modTout_bri (i : Tenant) (f : TimerOut → TimerOut) (s : State) : (modTout i f s).bri = s.bri := rfl
@[simp] theorem modTout_gdl (i : Tenant) (f : TimerOut → TimerOut) (s : State) : (modTout i f s).gdl = s.gdl := rfl
@[simp] theorem modTout_cvu (i : Tenant) (f : TimerOut → TimerOut) (s : State) : (modTout i f s).cvu = s.cvu := rfl
@[simp] theorem modTout_cvuLink (i : Tenant) (f : TimerOut → TimerOut) (s : State) : (modTout i f s).cvuLink = s.cvuLink := rfl
@[simp] theorem modTout_cvuRdr (i : Tenant) (f : TimerOut → TimerOut) (s : State) : (modTout i f s).cvuRdr = s.cvuRdr := rfl
@[simp] theorem modTout_store (i : Tenant) (f : TimerOut → TimerOut) (s : State) : (modTout i f s).store = s.store := rfl
@[simp] theorem modTout_ldg (i : Tenant) (f : TimerOut → TimerOut) (s : State) : (modTout i f s).ldg = s.ldg := rfl
@[simp] theorem modTout_svy (i : Tenant) (f : TimerOut → TimerOut) (s : State) : (modTout i f s).svy = s.svy := rfl
@[simp] theorem modTout_mend (i : Tenant) (f : TimerOut → TimerOut) (s : State) : (modTout i f s).mend = s.mend := rfl
@[simp] theorem modTout_epoch (i : Tenant) (f : TimerOut → TimerOut) (s : State) : (modTout i f s).epoch = s.epoch := rfl
@[simp] theorem modTout_serial (i : Tenant) (f : TimerOut → TimerOut) (s : State) : (modTout i f s).serial = s.serial := rfl
@[simp] theorem modTout_bufRound (i : Tenant) (f : TimerOut → TimerOut) (s : State) : (modTout i f s).bufRound = s.bufRound := rfl
@[simp] theorem modTout_turn (i : Tenant) (f : TimerOut → TimerOut) (s : State) : (modTout i f s).turn = s.turn := rfl
@[simp] theorem modTout_tap (i : Tenant) (f : TimerOut → TimerOut) (s : State) : (modTout i f s).tap = s.tap := rfl
@[simp] theorem modTout_free (i : Tenant) (f : TimerOut → TimerOut) (s : State) : (modTout i f s).free = s.free := rfl
@[simp] theorem modTout_reel (i : Tenant) (f : TimerOut → TimerOut) (s : State) : (modTout i f s).reel = { s.reel with touts := vmod s.reel.touts i f } := rfl
-- setPower
@[simp] theorem setPower_pending (f : PowerSt → PowerSt) (s : State) : (setPower f s).pending = s.pending := rfl
@[simp] theorem setPower_ports (f : PowerSt → PowerSt) (s : State) : (setPower f s).ports = s.ports := rfl
@[simp] theorem setPower_binding (f : PowerSt → PowerSt) (s : State) : (setPower f s).binding = s.binding := rfl
@[simp] theorem setPower_bindLock (f : PowerSt → PowerSt) (s : State) : (setPower f s).bindLock = s.bindLock := rfl
@[simp] theorem setPower_shareLock (f : PowerSt → PowerSt) (s : State) : (setPower f s).shareLock = s.shareLock := rfl
@[simp] theorem setPower_div (f : PowerSt → PowerSt) (s : State) : (setPower f s).div = s.div := rfl
@[simp] theorem setPower_divNew (f : PowerSt → PowerSt) (s : State) : (setPower f s).divNew = s.divNew := rfl
@[simp] theorem setPower_tens (f : PowerSt → PowerSt) (s : State) : (setPower f s).tens = s.tens := rfl
@[simp] theorem setPower_prof (f : PowerSt → PowerSt) (s : State) : (setPower f s).prof = s.prof := rfl
@[simp] theorem setPower_loaded (f : PowerSt → PowerSt) (s : State) : (setPower f s).loaded = s.loaded := rfl
@[simp] theorem setPower_v1 (f : PowerSt → PowerSt) (s : State) : (setPower f s).v1 = s.v1 := rfl
@[simp] theorem setPower_bufs (f : PowerSt → PowerSt) (s : State) : (setPower f s).bufs = s.bufs := rfl
@[simp] theorem setPower_bufPtr (f : PowerSt → PowerSt) (s : State) : (setPower f s).bufPtr = s.bufPtr := rfl
@[simp] theorem setPower_ctxs (f : PowerSt → PowerSt) (s : State) : (setPower f s).ctxs = s.ctxs := rfl
@[simp] theorem setPower_radio (f : PowerSt → PowerSt) (s : State) : (setPower f s).radio = s.radio := rfl
@[simp] theorem setPower_rdr (f : PowerSt → PowerSt) (s : State) : (setPower f s).rdr = s.rdr := rfl
@[simp] theorem setPower_tag (f : PowerSt → PowerSt) (s : State) : (setPower f s).tag = s.tag := rfl
@[simp] theorem setPower_sess (f : PowerSt → PowerSt) (s : State) : (setPower f s).sess = s.sess := rfl
@[simp] theorem setPower_link (f : PowerSt → PowerSt) (s : State) : (setPower f s).link = s.link := rfl
@[simp] theorem setPower_reel (f : PowerSt → PowerSt) (s : State) : (setPower f s).reel = s.reel := rfl
@[simp] theorem setPower_bri (f : PowerSt → PowerSt) (s : State) : (setPower f s).bri = s.bri := rfl
@[simp] theorem setPower_gdl (f : PowerSt → PowerSt) (s : State) : (setPower f s).gdl = s.gdl := rfl
@[simp] theorem setPower_cvu (f : PowerSt → PowerSt) (s : State) : (setPower f s).cvu = s.cvu := rfl
@[simp] theorem setPower_cvuLink (f : PowerSt → PowerSt) (s : State) : (setPower f s).cvuLink = s.cvuLink := rfl
@[simp] theorem setPower_cvuRdr (f : PowerSt → PowerSt) (s : State) : (setPower f s).cvuRdr = s.cvuRdr := rfl
@[simp] theorem setPower_store (f : PowerSt → PowerSt) (s : State) : (setPower f s).store = s.store := rfl
@[simp] theorem setPower_ldg (f : PowerSt → PowerSt) (s : State) : (setPower f s).ldg = s.ldg := rfl
@[simp] theorem setPower_svy (f : PowerSt → PowerSt) (s : State) : (setPower f s).svy = s.svy := rfl
@[simp] theorem setPower_mend (f : PowerSt → PowerSt) (s : State) : (setPower f s).mend = s.mend := rfl
@[simp] theorem setPower_epoch (f : PowerSt → PowerSt) (s : State) : (setPower f s).epoch = s.epoch := rfl
@[simp] theorem setPower_serial (f : PowerSt → PowerSt) (s : State) : (setPower f s).serial = s.serial := rfl
@[simp] theorem setPower_bufRound (f : PowerSt → PowerSt) (s : State) : (setPower f s).bufRound = s.bufRound := rfl
@[simp] theorem setPower_turn (f : PowerSt → PowerSt) (s : State) : (setPower f s).turn = s.turn := rfl
@[simp] theorem setPower_tap (f : PowerSt → PowerSt) (s : State) : (setPower f s).tap = s.tap := rfl
@[simp] theorem setPower_free (f : PowerSt → PowerSt) (s : State) : (setPower f s).free = s.free := rfl
@[simp] theorem setPower_power (f : PowerSt → PowerSt) (s : State) : (setPower f s).power = f s.power := rfl
-- setRadio
@[simp] theorem setRadio_pending (f : RadioSt → RadioSt) (s : State) : (setRadio f s).pending = s.pending := rfl
@[simp] theorem setRadio_power (f : RadioSt → RadioSt) (s : State) : (setRadio f s).power = s.power := rfl
@[simp] theorem setRadio_ports (f : RadioSt → RadioSt) (s : State) : (setRadio f s).ports = s.ports := rfl
@[simp] theorem setRadio_binding (f : RadioSt → RadioSt) (s : State) : (setRadio f s).binding = s.binding := rfl
@[simp] theorem setRadio_bindLock (f : RadioSt → RadioSt) (s : State) : (setRadio f s).bindLock = s.bindLock := rfl
@[simp] theorem setRadio_shareLock (f : RadioSt → RadioSt) (s : State) : (setRadio f s).shareLock = s.shareLock := rfl
@[simp] theorem setRadio_div (f : RadioSt → RadioSt) (s : State) : (setRadio f s).div = s.div := rfl
@[simp] theorem setRadio_divNew (f : RadioSt → RadioSt) (s : State) : (setRadio f s).divNew = s.divNew := rfl
@[simp] theorem setRadio_tens (f : RadioSt → RadioSt) (s : State) : (setRadio f s).tens = s.tens := rfl
@[simp] theorem setRadio_prof (f : RadioSt → RadioSt) (s : State) : (setRadio f s).prof = s.prof := rfl
@[simp] theorem setRadio_loaded (f : RadioSt → RadioSt) (s : State) : (setRadio f s).loaded = s.loaded := rfl
@[simp] theorem setRadio_v1 (f : RadioSt → RadioSt) (s : State) : (setRadio f s).v1 = s.v1 := rfl
@[simp] theorem setRadio_bufs (f : RadioSt → RadioSt) (s : State) : (setRadio f s).bufs = s.bufs := rfl
@[simp] theorem setRadio_bufPtr (f : RadioSt → RadioSt) (s : State) : (setRadio f s).bufPtr = s.bufPtr := rfl
@[simp] theorem setRadio_ctxs (f : RadioSt → RadioSt) (s : State) : (setRadio f s).ctxs = s.ctxs := rfl
@[simp] theorem setRadio_rdr (f : RadioSt → RadioSt) (s : State) : (setRadio f s).rdr = s.rdr := rfl
@[simp] theorem setRadio_tag (f : RadioSt → RadioSt) (s : State) : (setRadio f s).tag = s.tag := rfl
@[simp] theorem setRadio_sess (f : RadioSt → RadioSt) (s : State) : (setRadio f s).sess = s.sess := rfl
@[simp] theorem setRadio_link (f : RadioSt → RadioSt) (s : State) : (setRadio f s).link = s.link := rfl
@[simp] theorem setRadio_reel (f : RadioSt → RadioSt) (s : State) : (setRadio f s).reel = s.reel := rfl
@[simp] theorem setRadio_bri (f : RadioSt → RadioSt) (s : State) : (setRadio f s).bri = s.bri := rfl
@[simp] theorem setRadio_gdl (f : RadioSt → RadioSt) (s : State) : (setRadio f s).gdl = s.gdl := rfl
@[simp] theorem setRadio_cvu (f : RadioSt → RadioSt) (s : State) : (setRadio f s).cvu = s.cvu := rfl
@[simp] theorem setRadio_cvuLink (f : RadioSt → RadioSt) (s : State) : (setRadio f s).cvuLink = s.cvuLink := rfl
@[simp] theorem setRadio_cvuRdr (f : RadioSt → RadioSt) (s : State) : (setRadio f s).cvuRdr = s.cvuRdr := rfl
@[simp] theorem setRadio_store (f : RadioSt → RadioSt) (s : State) : (setRadio f s).store = s.store := rfl
@[simp] theorem setRadio_ldg (f : RadioSt → RadioSt) (s : State) : (setRadio f s).ldg = s.ldg := rfl
@[simp] theorem setRadio_svy (f : RadioSt → RadioSt) (s : State) : (setRadio f s).svy = s.svy := rfl
@[simp] theorem setRadio_mend (f : RadioSt → RadioSt) (s : State) : (setRadio f s).mend = s.mend := rfl
@[simp] theorem setRadio_epoch (f : RadioSt → RadioSt) (s : State) : (setRadio f s).epoch = s.epoch := rfl
@[simp] theorem setRadio_serial (f : RadioSt → RadioSt) (s : State) : (setRadio f s).serial = s.serial := rfl
@[simp] theorem setRadio_bufRound (f : RadioSt → RadioSt) (s : State) : (setRadio f s).bufRound = s.bufRound := rfl
@[simp] theorem setRadio_turn (f : RadioSt → RadioSt) (s : State) : (setRadio f s).turn = s.turn := rfl
@[simp] theorem setRadio_tap (f : RadioSt → RadioSt) (s : State) : (setRadio f s).tap = s.tap := rfl
@[simp] theorem setRadio_free (f : RadioSt → RadioSt) (s : State) : (setRadio f s).free = s.free := rfl
@[simp] theorem setRadio_radio (f : RadioSt → RadioSt) (s : State) : (setRadio f s).radio = f s.radio := rfl
-- setRdr
@[simp] theorem setRdr_pending (f : ReaderSt → ReaderSt) (s : State) : (setRdr f s).pending = s.pending := rfl
@[simp] theorem setRdr_power (f : ReaderSt → ReaderSt) (s : State) : (setRdr f s).power = s.power := rfl
@[simp] theorem setRdr_ports (f : ReaderSt → ReaderSt) (s : State) : (setRdr f s).ports = s.ports := rfl
@[simp] theorem setRdr_binding (f : ReaderSt → ReaderSt) (s : State) : (setRdr f s).binding = s.binding := rfl
@[simp] theorem setRdr_bindLock (f : ReaderSt → ReaderSt) (s : State) : (setRdr f s).bindLock = s.bindLock := rfl
@[simp] theorem setRdr_shareLock (f : ReaderSt → ReaderSt) (s : State) : (setRdr f s).shareLock = s.shareLock := rfl
@[simp] theorem setRdr_div (f : ReaderSt → ReaderSt) (s : State) : (setRdr f s).div = s.div := rfl
@[simp] theorem setRdr_divNew (f : ReaderSt → ReaderSt) (s : State) : (setRdr f s).divNew = s.divNew := rfl
@[simp] theorem setRdr_tens (f : ReaderSt → ReaderSt) (s : State) : (setRdr f s).tens = s.tens := rfl
@[simp] theorem setRdr_prof (f : ReaderSt → ReaderSt) (s : State) : (setRdr f s).prof = s.prof := rfl
@[simp] theorem setRdr_loaded (f : ReaderSt → ReaderSt) (s : State) : (setRdr f s).loaded = s.loaded := rfl
@[simp] theorem setRdr_v1 (f : ReaderSt → ReaderSt) (s : State) : (setRdr f s).v1 = s.v1 := rfl
@[simp] theorem setRdr_bufs (f : ReaderSt → ReaderSt) (s : State) : (setRdr f s).bufs = s.bufs := rfl
@[simp] theorem setRdr_bufPtr (f : ReaderSt → ReaderSt) (s : State) : (setRdr f s).bufPtr = s.bufPtr := rfl
@[simp] theorem setRdr_ctxs (f : ReaderSt → ReaderSt) (s : State) : (setRdr f s).ctxs = s.ctxs := rfl
@[simp] theorem setRdr_radio (f : ReaderSt → ReaderSt) (s : State) : (setRdr f s).radio = s.radio := rfl
@[simp] theorem setRdr_tag (f : ReaderSt → ReaderSt) (s : State) : (setRdr f s).tag = s.tag := rfl
@[simp] theorem setRdr_sess (f : ReaderSt → ReaderSt) (s : State) : (setRdr f s).sess = s.sess := rfl
@[simp] theorem setRdr_link (f : ReaderSt → ReaderSt) (s : State) : (setRdr f s).link = s.link := rfl
@[simp] theorem setRdr_reel (f : ReaderSt → ReaderSt) (s : State) : (setRdr f s).reel = s.reel := rfl
@[simp] theorem setRdr_bri (f : ReaderSt → ReaderSt) (s : State) : (setRdr f s).bri = s.bri := rfl
@[simp] theorem setRdr_gdl (f : ReaderSt → ReaderSt) (s : State) : (setRdr f s).gdl = s.gdl := rfl
@[simp] theorem setRdr_cvu (f : ReaderSt → ReaderSt) (s : State) : (setRdr f s).cvu = s.cvu := rfl
@[simp] theorem setRdr_cvuLink (f : ReaderSt → ReaderSt) (s : State) : (setRdr f s).cvuLink = s.cvuLink := rfl
@[simp] theorem setRdr_cvuRdr (f : ReaderSt → ReaderSt) (s : State) : (setRdr f s).cvuRdr = s.cvuRdr := rfl
@[simp] theorem setRdr_store (f : ReaderSt → ReaderSt) (s : State) : (setRdr f s).store = s.store := rfl
@[simp] theorem setRdr_ldg (f : ReaderSt → ReaderSt) (s : State) : (setRdr f s).ldg = s.ldg := rfl
@[simp] theorem setRdr_svy (f : ReaderSt → ReaderSt) (s : State) : (setRdr f s).svy = s.svy := rfl
@[simp] theorem setRdr_mend (f : ReaderSt → ReaderSt) (s : State) : (setRdr f s).mend = s.mend := rfl
@[simp] theorem setRdr_epoch (f : ReaderSt → ReaderSt) (s : State) : (setRdr f s).epoch = s.epoch := rfl
@[simp] theorem setRdr_serial (f : ReaderSt → ReaderSt) (s : State) : (setRdr f s).serial = s.serial := rfl
@[simp] theorem setRdr_bufRound (f : ReaderSt → ReaderSt) (s : State) : (setRdr f s).bufRound = s.bufRound := rfl
@[simp] theorem setRdr_turn (f : ReaderSt → ReaderSt) (s : State) : (setRdr f s).turn = s.turn := rfl
@[simp] theorem setRdr_tap (f : ReaderSt → ReaderSt) (s : State) : (setRdr f s).tap = s.tap := rfl
@[simp] theorem setRdr_free (f : ReaderSt → ReaderSt) (s : State) : (setRdr f s).free = s.free := rfl
@[simp] theorem setRdr_rdr (f : ReaderSt → ReaderSt) (s : State) : (setRdr f s).rdr = f s.rdr := rfl
-- setLink
@[simp] theorem setLink_pending (f : LinkSt → LinkSt) (s : State) : (setLink f s).pending = s.pending := rfl
@[simp] theorem setLink_power (f : LinkSt → LinkSt) (s : State) : (setLink f s).power = s.power := rfl
@[simp] theorem setLink_ports (f : LinkSt → LinkSt) (s : State) : (setLink f s).ports = s.ports := rfl
@[simp] theorem setLink_binding (f : LinkSt → LinkSt) (s : State) : (setLink f s).binding = s.binding := rfl
@[simp] theorem setLink_bindLock (f : LinkSt → LinkSt) (s : State) : (setLink f s).bindLock = s.bindLock := rfl
@[simp] theorem setLink_shareLock (f : LinkSt → LinkSt) (s : State) : (setLink f s).shareLock = s.shareLock := rfl
@[simp] theorem setLink_div (f : LinkSt → LinkSt) (s : State) : (setLink f s).div = s.div := rfl
@[simp] theorem setLink_divNew (f : LinkSt → LinkSt) (s : State) : (setLink f s).divNew = s.divNew := rfl
@[simp] theorem setLink_tens (f : LinkSt → LinkSt) (s : State) : (setLink f s).tens = s.tens := rfl
@[simp] theorem setLink_prof (f : LinkSt → LinkSt) (s : State) : (setLink f s).prof = s.prof := rfl
@[simp] theorem setLink_loaded (f : LinkSt → LinkSt) (s : State) : (setLink f s).loaded = s.loaded := rfl
@[simp] theorem setLink_v1 (f : LinkSt → LinkSt) (s : State) : (setLink f s).v1 = s.v1 := rfl
@[simp] theorem setLink_bufs (f : LinkSt → LinkSt) (s : State) : (setLink f s).bufs = s.bufs := rfl
@[simp] theorem setLink_bufPtr (f : LinkSt → LinkSt) (s : State) : (setLink f s).bufPtr = s.bufPtr := rfl
@[simp] theorem setLink_ctxs (f : LinkSt → LinkSt) (s : State) : (setLink f s).ctxs = s.ctxs := rfl
@[simp] theorem setLink_radio (f : LinkSt → LinkSt) (s : State) : (setLink f s).radio = s.radio := rfl
@[simp] theorem setLink_rdr (f : LinkSt → LinkSt) (s : State) : (setLink f s).rdr = s.rdr := rfl
@[simp] theorem setLink_tag (f : LinkSt → LinkSt) (s : State) : (setLink f s).tag = s.tag := rfl
@[simp] theorem setLink_sess (f : LinkSt → LinkSt) (s : State) : (setLink f s).sess = s.sess := rfl
@[simp] theorem setLink_reel (f : LinkSt → LinkSt) (s : State) : (setLink f s).reel = s.reel := rfl
@[simp] theorem setLink_bri (f : LinkSt → LinkSt) (s : State) : (setLink f s).bri = s.bri := rfl
@[simp] theorem setLink_gdl (f : LinkSt → LinkSt) (s : State) : (setLink f s).gdl = s.gdl := rfl
@[simp] theorem setLink_cvu (f : LinkSt → LinkSt) (s : State) : (setLink f s).cvu = s.cvu := rfl
@[simp] theorem setLink_cvuLink (f : LinkSt → LinkSt) (s : State) : (setLink f s).cvuLink = s.cvuLink := rfl
@[simp] theorem setLink_cvuRdr (f : LinkSt → LinkSt) (s : State) : (setLink f s).cvuRdr = s.cvuRdr := rfl
@[simp] theorem setLink_store (f : LinkSt → LinkSt) (s : State) : (setLink f s).store = s.store := rfl
@[simp] theorem setLink_ldg (f : LinkSt → LinkSt) (s : State) : (setLink f s).ldg = s.ldg := rfl
@[simp] theorem setLink_svy (f : LinkSt → LinkSt) (s : State) : (setLink f s).svy = s.svy := rfl
@[simp] theorem setLink_mend (f : LinkSt → LinkSt) (s : State) : (setLink f s).mend = s.mend := rfl
@[simp] theorem setLink_epoch (f : LinkSt → LinkSt) (s : State) : (setLink f s).epoch = s.epoch := rfl
@[simp] theorem setLink_serial (f : LinkSt → LinkSt) (s : State) : (setLink f s).serial = s.serial := rfl
@[simp] theorem setLink_bufRound (f : LinkSt → LinkSt) (s : State) : (setLink f s).bufRound = s.bufRound := rfl
@[simp] theorem setLink_turn (f : LinkSt → LinkSt) (s : State) : (setLink f s).turn = s.turn := rfl
@[simp] theorem setLink_tap (f : LinkSt → LinkSt) (s : State) : (setLink f s).tap = s.tap := rfl
@[simp] theorem setLink_free (f : LinkSt → LinkSt) (s : State) : (setLink f s).free = s.free := rfl
@[simp] theorem setLink_link (f : LinkSt → LinkSt) (s : State) : (setLink f s).link = f s.link := rfl
-- setTag
@[simp] theorem setTag_pending (f : LanternSt → LanternSt) (s : State) : (setTag f s).pending = s.pending := rfl
@[simp] theorem setTag_power (f : LanternSt → LanternSt) (s : State) : (setTag f s).power = s.power := rfl
@[simp] theorem setTag_ports (f : LanternSt → LanternSt) (s : State) : (setTag f s).ports = s.ports := rfl
@[simp] theorem setTag_binding (f : LanternSt → LanternSt) (s : State) : (setTag f s).binding = s.binding := rfl
@[simp] theorem setTag_bindLock (f : LanternSt → LanternSt) (s : State) : (setTag f s).bindLock = s.bindLock := rfl
@[simp] theorem setTag_shareLock (f : LanternSt → LanternSt) (s : State) : (setTag f s).shareLock = s.shareLock := rfl
@[simp] theorem setTag_div (f : LanternSt → LanternSt) (s : State) : (setTag f s).div = s.div := rfl
@[simp] theorem setTag_divNew (f : LanternSt → LanternSt) (s : State) : (setTag f s).divNew = s.divNew := rfl
@[simp] theorem setTag_tens (f : LanternSt → LanternSt) (s : State) : (setTag f s).tens = s.tens := rfl
@[simp] theorem setTag_prof (f : LanternSt → LanternSt) (s : State) : (setTag f s).prof = s.prof := rfl
@[simp] theorem setTag_loaded (f : LanternSt → LanternSt) (s : State) : (setTag f s).loaded = s.loaded := rfl
@[simp] theorem setTag_v1 (f : LanternSt → LanternSt) (s : State) : (setTag f s).v1 = s.v1 := rfl
@[simp] theorem setTag_bufs (f : LanternSt → LanternSt) (s : State) : (setTag f s).bufs = s.bufs := rfl
@[simp] theorem setTag_bufPtr (f : LanternSt → LanternSt) (s : State) : (setTag f s).bufPtr = s.bufPtr := rfl
@[simp] theorem setTag_ctxs (f : LanternSt → LanternSt) (s : State) : (setTag f s).ctxs = s.ctxs := rfl
@[simp] theorem setTag_radio (f : LanternSt → LanternSt) (s : State) : (setTag f s).radio = s.radio := rfl
@[simp] theorem setTag_rdr (f : LanternSt → LanternSt) (s : State) : (setTag f s).rdr = s.rdr := rfl
@[simp] theorem setTag_sess (f : LanternSt → LanternSt) (s : State) : (setTag f s).sess = s.sess := rfl
@[simp] theorem setTag_link (f : LanternSt → LanternSt) (s : State) : (setTag f s).link = s.link := rfl
@[simp] theorem setTag_reel (f : LanternSt → LanternSt) (s : State) : (setTag f s).reel = s.reel := rfl
@[simp] theorem setTag_bri (f : LanternSt → LanternSt) (s : State) : (setTag f s).bri = s.bri := rfl
@[simp] theorem setTag_gdl (f : LanternSt → LanternSt) (s : State) : (setTag f s).gdl = s.gdl := rfl
@[simp] theorem setTag_cvu (f : LanternSt → LanternSt) (s : State) : (setTag f s).cvu = s.cvu := rfl
@[simp] theorem setTag_cvuLink (f : LanternSt → LanternSt) (s : State) : (setTag f s).cvuLink = s.cvuLink := rfl
@[simp] theorem setTag_cvuRdr (f : LanternSt → LanternSt) (s : State) : (setTag f s).cvuRdr = s.cvuRdr := rfl
@[simp] theorem setTag_store (f : LanternSt → LanternSt) (s : State) : (setTag f s).store = s.store := rfl
@[simp] theorem setTag_ldg (f : LanternSt → LanternSt) (s : State) : (setTag f s).ldg = s.ldg := rfl
@[simp] theorem setTag_svy (f : LanternSt → LanternSt) (s : State) : (setTag f s).svy = s.svy := rfl
@[simp] theorem setTag_mend (f : LanternSt → LanternSt) (s : State) : (setTag f s).mend = s.mend := rfl
@[simp] theorem setTag_epoch (f : LanternSt → LanternSt) (s : State) : (setTag f s).epoch = s.epoch := rfl
@[simp] theorem setTag_serial (f : LanternSt → LanternSt) (s : State) : (setTag f s).serial = s.serial := rfl
@[simp] theorem setTag_bufRound (f : LanternSt → LanternSt) (s : State) : (setTag f s).bufRound = s.bufRound := rfl
@[simp] theorem setTag_turn (f : LanternSt → LanternSt) (s : State) : (setTag f s).turn = s.turn := rfl
@[simp] theorem setTag_tap (f : LanternSt → LanternSt) (s : State) : (setTag f s).tap = s.tap := rfl
@[simp] theorem setTag_free (f : LanternSt → LanternSt) (s : State) : (setTag f s).free = s.free := rfl
@[simp] theorem setTag_tag (f : LanternSt → LanternSt) (s : State) : (setTag f s).tag = f s.tag := rfl
-- setBri
@[simp] theorem setBri_pending (f : BridleSt → BridleSt) (s : State) : (setBri f s).pending = s.pending := rfl
@[simp] theorem setBri_power (f : BridleSt → BridleSt) (s : State) : (setBri f s).power = s.power := rfl
@[simp] theorem setBri_ports (f : BridleSt → BridleSt) (s : State) : (setBri f s).ports = s.ports := rfl
@[simp] theorem setBri_binding (f : BridleSt → BridleSt) (s : State) : (setBri f s).binding = s.binding := rfl
@[simp] theorem setBri_bindLock (f : BridleSt → BridleSt) (s : State) : (setBri f s).bindLock = s.bindLock := rfl
@[simp] theorem setBri_shareLock (f : BridleSt → BridleSt) (s : State) : (setBri f s).shareLock = s.shareLock := rfl
@[simp] theorem setBri_div (f : BridleSt → BridleSt) (s : State) : (setBri f s).div = s.div := rfl
@[simp] theorem setBri_divNew (f : BridleSt → BridleSt) (s : State) : (setBri f s).divNew = s.divNew := rfl
@[simp] theorem setBri_tens (f : BridleSt → BridleSt) (s : State) : (setBri f s).tens = s.tens := rfl
@[simp] theorem setBri_prof (f : BridleSt → BridleSt) (s : State) : (setBri f s).prof = s.prof := rfl
@[simp] theorem setBri_loaded (f : BridleSt → BridleSt) (s : State) : (setBri f s).loaded = s.loaded := rfl
@[simp] theorem setBri_v1 (f : BridleSt → BridleSt) (s : State) : (setBri f s).v1 = s.v1 := rfl
@[simp] theorem setBri_bufs (f : BridleSt → BridleSt) (s : State) : (setBri f s).bufs = s.bufs := rfl
@[simp] theorem setBri_bufPtr (f : BridleSt → BridleSt) (s : State) : (setBri f s).bufPtr = s.bufPtr := rfl
@[simp] theorem setBri_ctxs (f : BridleSt → BridleSt) (s : State) : (setBri f s).ctxs = s.ctxs := rfl
@[simp] theorem setBri_radio (f : BridleSt → BridleSt) (s : State) : (setBri f s).radio = s.radio := rfl
@[simp] theorem setBri_rdr (f : BridleSt → BridleSt) (s : State) : (setBri f s).rdr = s.rdr := rfl
@[simp] theorem setBri_tag (f : BridleSt → BridleSt) (s : State) : (setBri f s).tag = s.tag := rfl
@[simp] theorem setBri_sess (f : BridleSt → BridleSt) (s : State) : (setBri f s).sess = s.sess := rfl
@[simp] theorem setBri_link (f : BridleSt → BridleSt) (s : State) : (setBri f s).link = s.link := rfl
@[simp] theorem setBri_reel (f : BridleSt → BridleSt) (s : State) : (setBri f s).reel = s.reel := rfl
@[simp] theorem setBri_gdl (f : BridleSt → BridleSt) (s : State) : (setBri f s).gdl = s.gdl := rfl
@[simp] theorem setBri_cvu (f : BridleSt → BridleSt) (s : State) : (setBri f s).cvu = s.cvu := rfl
@[simp] theorem setBri_cvuLink (f : BridleSt → BridleSt) (s : State) : (setBri f s).cvuLink = s.cvuLink := rfl
@[simp] theorem setBri_cvuRdr (f : BridleSt → BridleSt) (s : State) : (setBri f s).cvuRdr = s.cvuRdr := rfl
@[simp] theorem setBri_store (f : BridleSt → BridleSt) (s : State) : (setBri f s).store = s.store := rfl
@[simp] theorem setBri_ldg (f : BridleSt → BridleSt) (s : State) : (setBri f s).ldg = s.ldg := rfl
@[simp] theorem setBri_svy (f : BridleSt → BridleSt) (s : State) : (setBri f s).svy = s.svy := rfl
@[simp] theorem setBri_mend (f : BridleSt → BridleSt) (s : State) : (setBri f s).mend = s.mend := rfl
@[simp] theorem setBri_epoch (f : BridleSt → BridleSt) (s : State) : (setBri f s).epoch = s.epoch := rfl
@[simp] theorem setBri_serial (f : BridleSt → BridleSt) (s : State) : (setBri f s).serial = s.serial := rfl
@[simp] theorem setBri_bufRound (f : BridleSt → BridleSt) (s : State) : (setBri f s).bufRound = s.bufRound := rfl
@[simp] theorem setBri_turn (f : BridleSt → BridleSt) (s : State) : (setBri f s).turn = s.turn := rfl
@[simp] theorem setBri_tap (f : BridleSt → BridleSt) (s : State) : (setBri f s).tap = s.tap := rfl
@[simp] theorem setBri_free (f : BridleSt → BridleSt) (s : State) : (setBri f s).free = s.free := rfl
@[simp] theorem setBri_bri (f : BridleSt → BridleSt) (s : State) : (setBri f s).bri = f s.bri := rfl
-- setStore
@[simp] theorem setStore_pending (f : StoreSt → StoreSt) (s : State) : (setStore f s).pending = s.pending := rfl
@[simp] theorem setStore_power (f : StoreSt → StoreSt) (s : State) : (setStore f s).power = s.power := rfl
@[simp] theorem setStore_ports (f : StoreSt → StoreSt) (s : State) : (setStore f s).ports = s.ports := rfl
@[simp] theorem setStore_binding (f : StoreSt → StoreSt) (s : State) : (setStore f s).binding = s.binding := rfl
@[simp] theorem setStore_bindLock (f : StoreSt → StoreSt) (s : State) : (setStore f s).bindLock = s.bindLock := rfl
@[simp] theorem setStore_shareLock (f : StoreSt → StoreSt) (s : State) : (setStore f s).shareLock = s.shareLock := rfl
@[simp] theorem setStore_div (f : StoreSt → StoreSt) (s : State) : (setStore f s).div = s.div := rfl
@[simp] theorem setStore_divNew (f : StoreSt → StoreSt) (s : State) : (setStore f s).divNew = s.divNew := rfl
@[simp] theorem setStore_tens (f : StoreSt → StoreSt) (s : State) : (setStore f s).tens = s.tens := rfl
@[simp] theorem setStore_prof (f : StoreSt → StoreSt) (s : State) : (setStore f s).prof = s.prof := rfl
@[simp] theorem setStore_loaded (f : StoreSt → StoreSt) (s : State) : (setStore f s).loaded = s.loaded := rfl
@[simp] theorem setStore_v1 (f : StoreSt → StoreSt) (s : State) : (setStore f s).v1 = s.v1 := rfl
@[simp] theorem setStore_bufs (f : StoreSt → StoreSt) (s : State) : (setStore f s).bufs = s.bufs := rfl
@[simp] theorem setStore_bufPtr (f : StoreSt → StoreSt) (s : State) : (setStore f s).bufPtr = s.bufPtr := rfl
@[simp] theorem setStore_ctxs (f : StoreSt → StoreSt) (s : State) : (setStore f s).ctxs = s.ctxs := rfl
@[simp] theorem setStore_radio (f : StoreSt → StoreSt) (s : State) : (setStore f s).radio = s.radio := rfl
@[simp] theorem setStore_rdr (f : StoreSt → StoreSt) (s : State) : (setStore f s).rdr = s.rdr := rfl
@[simp] theorem setStore_tag (f : StoreSt → StoreSt) (s : State) : (setStore f s).tag = s.tag := rfl
@[simp] theorem setStore_sess (f : StoreSt → StoreSt) (s : State) : (setStore f s).sess = s.sess := rfl
@[simp] theorem setStore_link (f : StoreSt → StoreSt) (s : State) : (setStore f s).link = s.link := rfl
@[simp] theorem setStore_reel (f : StoreSt → StoreSt) (s : State) : (setStore f s).reel = s.reel := rfl
@[simp] theorem setStore_bri (f : StoreSt → StoreSt) (s : State) : (setStore f s).bri = s.bri := rfl
@[simp] theorem setStore_gdl (f : StoreSt → StoreSt) (s : State) : (setStore f s).gdl = s.gdl := rfl
@[simp] theorem setStore_cvu (f : StoreSt → StoreSt) (s : State) : (setStore f s).cvu = s.cvu := rfl
@[simp] theorem setStore_cvuLink (f : StoreSt → StoreSt) (s : State) : (setStore f s).cvuLink = s.cvuLink := rfl
@[simp] theorem setStore_cvuRdr (f : StoreSt → StoreSt) (s : State) : (setStore f s).cvuRdr = s.cvuRdr := rfl
@[simp] theorem setStore_ldg (f : StoreSt → StoreSt) (s : State) : (setStore f s).ldg = s.ldg := rfl
@[simp] theorem setStore_svy (f : StoreSt → StoreSt) (s : State) : (setStore f s).svy = s.svy := rfl
@[simp] theorem setStore_mend (f : StoreSt → StoreSt) (s : State) : (setStore f s).mend = s.mend := rfl
@[simp] theorem setStore_epoch (f : StoreSt → StoreSt) (s : State) : (setStore f s).epoch = s.epoch := rfl
@[simp] theorem setStore_serial (f : StoreSt → StoreSt) (s : State) : (setStore f s).serial = s.serial := rfl
@[simp] theorem setStore_bufRound (f : StoreSt → StoreSt) (s : State) : (setStore f s).bufRound = s.bufRound := rfl
@[simp] theorem setStore_turn (f : StoreSt → StoreSt) (s : State) : (setStore f s).turn = s.turn := rfl
@[simp] theorem setStore_tap (f : StoreSt → StoreSt) (s : State) : (setStore f s).tap = s.tap := rfl
@[simp] theorem setStore_free (f : StoreSt → StoreSt) (s : State) : (setStore f s).free = s.free := rfl
@[simp] theorem setStore_store (f : StoreSt → StoreSt) (s : State) : (setStore f s).store = f s.store := rfl
-- setLdg
@[simp] theorem setLdg_pending (f : LedgerSt → LedgerSt) (s : State) : (setLdg f s).pending = s.pending := rfl
@[simp] theorem setLdg_power (f : LedgerSt → LedgerSt) (s : State) : (setLdg f s).power = s.power := rfl
@[simp] theorem setLdg_ports (f : LedgerSt → LedgerSt) (s : State) : (setLdg f s).ports = s.ports := rfl
@[simp] theorem setLdg_binding (f : LedgerSt → LedgerSt) (s : State) : (setLdg f s).binding = s.binding := rfl
@[simp] theorem setLdg_bindLock (f : LedgerSt → LedgerSt) (s : State) : (setLdg f s).bindLock = s.bindLock := rfl
@[simp] theorem setLdg_shareLock (f : LedgerSt → LedgerSt) (s : State) : (setLdg f s).shareLock = s.shareLock := rfl
@[simp] theorem setLdg_div (f : LedgerSt → LedgerSt) (s : State) : (setLdg f s).div = s.div := rfl
@[simp] theorem setLdg_divNew (f : LedgerSt → LedgerSt) (s : State) : (setLdg f s).divNew = s.divNew := rfl
@[simp] theorem setLdg_tens (f : LedgerSt → LedgerSt) (s : State) : (setLdg f s).tens = s.tens := rfl
@[simp] theorem setLdg_prof (f : LedgerSt → LedgerSt) (s : State) : (setLdg f s).prof = s.prof := rfl
@[simp] theorem setLdg_loaded (f : LedgerSt → LedgerSt) (s : State) : (setLdg f s).loaded = s.loaded := rfl
@[simp] theorem setLdg_v1 (f : LedgerSt → LedgerSt) (s : State) : (setLdg f s).v1 = s.v1 := rfl
@[simp] theorem setLdg_bufs (f : LedgerSt → LedgerSt) (s : State) : (setLdg f s).bufs = s.bufs := rfl
@[simp] theorem setLdg_bufPtr (f : LedgerSt → LedgerSt) (s : State) : (setLdg f s).bufPtr = s.bufPtr := rfl
@[simp] theorem setLdg_ctxs (f : LedgerSt → LedgerSt) (s : State) : (setLdg f s).ctxs = s.ctxs := rfl
@[simp] theorem setLdg_radio (f : LedgerSt → LedgerSt) (s : State) : (setLdg f s).radio = s.radio := rfl
@[simp] theorem setLdg_rdr (f : LedgerSt → LedgerSt) (s : State) : (setLdg f s).rdr = s.rdr := rfl
@[simp] theorem setLdg_tag (f : LedgerSt → LedgerSt) (s : State) : (setLdg f s).tag = s.tag := rfl
@[simp] theorem setLdg_sess (f : LedgerSt → LedgerSt) (s : State) : (setLdg f s).sess = s.sess := rfl
@[simp] theorem setLdg_link (f : LedgerSt → LedgerSt) (s : State) : (setLdg f s).link = s.link := rfl
@[simp] theorem setLdg_reel (f : LedgerSt → LedgerSt) (s : State) : (setLdg f s).reel = s.reel := rfl
@[simp] theorem setLdg_bri (f : LedgerSt → LedgerSt) (s : State) : (setLdg f s).bri = s.bri := rfl
@[simp] theorem setLdg_gdl (f : LedgerSt → LedgerSt) (s : State) : (setLdg f s).gdl = s.gdl := rfl
@[simp] theorem setLdg_cvu (f : LedgerSt → LedgerSt) (s : State) : (setLdg f s).cvu = s.cvu := rfl
@[simp] theorem setLdg_cvuLink (f : LedgerSt → LedgerSt) (s : State) : (setLdg f s).cvuLink = s.cvuLink := rfl
@[simp] theorem setLdg_cvuRdr (f : LedgerSt → LedgerSt) (s : State) : (setLdg f s).cvuRdr = s.cvuRdr := rfl
@[simp] theorem setLdg_store (f : LedgerSt → LedgerSt) (s : State) : (setLdg f s).store = s.store := rfl
@[simp] theorem setLdg_svy (f : LedgerSt → LedgerSt) (s : State) : (setLdg f s).svy = s.svy := rfl
@[simp] theorem setLdg_mend (f : LedgerSt → LedgerSt) (s : State) : (setLdg f s).mend = s.mend := rfl
@[simp] theorem setLdg_epoch (f : LedgerSt → LedgerSt) (s : State) : (setLdg f s).epoch = s.epoch := rfl
@[simp] theorem setLdg_serial (f : LedgerSt → LedgerSt) (s : State) : (setLdg f s).serial = s.serial := rfl
@[simp] theorem setLdg_bufRound (f : LedgerSt → LedgerSt) (s : State) : (setLdg f s).bufRound = s.bufRound := rfl
@[simp] theorem setLdg_turn (f : LedgerSt → LedgerSt) (s : State) : (setLdg f s).turn = s.turn := rfl
@[simp] theorem setLdg_tap (f : LedgerSt → LedgerSt) (s : State) : (setLdg f s).tap = s.tap := rfl
@[simp] theorem setLdg_free (f : LedgerSt → LedgerSt) (s : State) : (setLdg f s).free = s.free := rfl
@[simp] theorem setLdg_ldg (f : LedgerSt → LedgerSt) (s : State) : (setLdg f s).ldg = f s.ldg := rfl
-- setSvy
@[simp] theorem setSvy_pending (f : SurveySt → SurveySt) (s : State) : (setSvy f s).pending = s.pending := rfl
@[simp] theorem setSvy_power (f : SurveySt → SurveySt) (s : State) : (setSvy f s).power = s.power := rfl
@[simp] theorem setSvy_ports (f : SurveySt → SurveySt) (s : State) : (setSvy f s).ports = s.ports := rfl
@[simp] theorem setSvy_binding (f : SurveySt → SurveySt) (s : State) : (setSvy f s).binding = s.binding := rfl
@[simp] theorem setSvy_bindLock (f : SurveySt → SurveySt) (s : State) : (setSvy f s).bindLock = s.bindLock := rfl
@[simp] theorem setSvy_shareLock (f : SurveySt → SurveySt) (s : State) : (setSvy f s).shareLock = s.shareLock := rfl
@[simp] theorem setSvy_div (f : SurveySt → SurveySt) (s : State) : (setSvy f s).div = s.div := rfl
@[simp] theorem setSvy_divNew (f : SurveySt → SurveySt) (s : State) : (setSvy f s).divNew = s.divNew := rfl
@[simp] theorem setSvy_tens (f : SurveySt → SurveySt) (s : State) : (setSvy f s).tens = s.tens := rfl
@[simp] theorem setSvy_prof (f : SurveySt → SurveySt) (s : State) : (setSvy f s).prof = s.prof := rfl
@[simp] theorem setSvy_loaded (f : SurveySt → SurveySt) (s : State) : (setSvy f s).loaded = s.loaded := rfl
@[simp] theorem setSvy_v1 (f : SurveySt → SurveySt) (s : State) : (setSvy f s).v1 = s.v1 := rfl
@[simp] theorem setSvy_bufs (f : SurveySt → SurveySt) (s : State) : (setSvy f s).bufs = s.bufs := rfl
@[simp] theorem setSvy_bufPtr (f : SurveySt → SurveySt) (s : State) : (setSvy f s).bufPtr = s.bufPtr := rfl
@[simp] theorem setSvy_ctxs (f : SurveySt → SurveySt) (s : State) : (setSvy f s).ctxs = s.ctxs := rfl
@[simp] theorem setSvy_radio (f : SurveySt → SurveySt) (s : State) : (setSvy f s).radio = s.radio := rfl
@[simp] theorem setSvy_rdr (f : SurveySt → SurveySt) (s : State) : (setSvy f s).rdr = s.rdr := rfl
@[simp] theorem setSvy_tag (f : SurveySt → SurveySt) (s : State) : (setSvy f s).tag = s.tag := rfl
@[simp] theorem setSvy_sess (f : SurveySt → SurveySt) (s : State) : (setSvy f s).sess = s.sess := rfl
@[simp] theorem setSvy_link (f : SurveySt → SurveySt) (s : State) : (setSvy f s).link = s.link := rfl
@[simp] theorem setSvy_reel (f : SurveySt → SurveySt) (s : State) : (setSvy f s).reel = s.reel := rfl
@[simp] theorem setSvy_bri (f : SurveySt → SurveySt) (s : State) : (setSvy f s).bri = s.bri := rfl
@[simp] theorem setSvy_gdl (f : SurveySt → SurveySt) (s : State) : (setSvy f s).gdl = s.gdl := rfl
@[simp] theorem setSvy_cvu (f : SurveySt → SurveySt) (s : State) : (setSvy f s).cvu = s.cvu := rfl
@[simp] theorem setSvy_cvuLink (f : SurveySt → SurveySt) (s : State) : (setSvy f s).cvuLink = s.cvuLink := rfl
@[simp] theorem setSvy_cvuRdr (f : SurveySt → SurveySt) (s : State) : (setSvy f s).cvuRdr = s.cvuRdr := rfl
@[simp] theorem setSvy_store (f : SurveySt → SurveySt) (s : State) : (setSvy f s).store = s.store := rfl
@[simp] theorem setSvy_ldg (f : SurveySt → SurveySt) (s : State) : (setSvy f s).ldg = s.ldg := rfl
@[simp] theorem setSvy_mend (f : SurveySt → SurveySt) (s : State) : (setSvy f s).mend = s.mend := rfl
@[simp] theorem setSvy_epoch (f : SurveySt → SurveySt) (s : State) : (setSvy f s).epoch = s.epoch := rfl
@[simp] theorem setSvy_serial (f : SurveySt → SurveySt) (s : State) : (setSvy f s).serial = s.serial := rfl
@[simp] theorem setSvy_bufRound (f : SurveySt → SurveySt) (s : State) : (setSvy f s).bufRound = s.bufRound := rfl
@[simp] theorem setSvy_turn (f : SurveySt → SurveySt) (s : State) : (setSvy f s).turn = s.turn := rfl
@[simp] theorem setSvy_tap (f : SurveySt → SurveySt) (s : State) : (setSvy f s).tap = s.tap := rfl
@[simp] theorem setSvy_free (f : SurveySt → SurveySt) (s : State) : (setSvy f s).free = s.free := rfl
@[simp] theorem setSvy_svy (f : SurveySt → SurveySt) (s : State) : (setSvy f s).svy = f s.svy := rfl
-- setMend
@[simp] theorem setMend_pending (f : MendSt → MendSt) (s : State) : (setMend f s).pending = s.pending := rfl
@[simp] theorem setMend_power (f : MendSt → MendSt) (s : State) : (setMend f s).power = s.power := rfl
@[simp] theorem setMend_ports (f : MendSt → MendSt) (s : State) : (setMend f s).ports = s.ports := rfl
@[simp] theorem setMend_binding (f : MendSt → MendSt) (s : State) : (setMend f s).binding = s.binding := rfl
@[simp] theorem setMend_bindLock (f : MendSt → MendSt) (s : State) : (setMend f s).bindLock = s.bindLock := rfl
@[simp] theorem setMend_shareLock (f : MendSt → MendSt) (s : State) : (setMend f s).shareLock = s.shareLock := rfl
@[simp] theorem setMend_div (f : MendSt → MendSt) (s : State) : (setMend f s).div = s.div := rfl
@[simp] theorem setMend_divNew (f : MendSt → MendSt) (s : State) : (setMend f s).divNew = s.divNew := rfl
@[simp] theorem setMend_tens (f : MendSt → MendSt) (s : State) : (setMend f s).tens = s.tens := rfl
@[simp] theorem setMend_prof (f : MendSt → MendSt) (s : State) : (setMend f s).prof = s.prof := rfl
@[simp] theorem setMend_loaded (f : MendSt → MendSt) (s : State) : (setMend f s).loaded = s.loaded := rfl
@[simp] theorem setMend_v1 (f : MendSt → MendSt) (s : State) : (setMend f s).v1 = s.v1 := rfl
@[simp] theorem setMend_bufs (f : MendSt → MendSt) (s : State) : (setMend f s).bufs = s.bufs := rfl
@[simp] theorem setMend_bufPtr (f : MendSt → MendSt) (s : State) : (setMend f s).bufPtr = s.bufPtr := rfl
@[simp] theorem setMend_ctxs (f : MendSt → MendSt) (s : State) : (setMend f s).ctxs = s.ctxs := rfl
@[simp] theorem setMend_radio (f : MendSt → MendSt) (s : State) : (setMend f s).radio = s.radio := rfl
@[simp] theorem setMend_rdr (f : MendSt → MendSt) (s : State) : (setMend f s).rdr = s.rdr := rfl
@[simp] theorem setMend_tag (f : MendSt → MendSt) (s : State) : (setMend f s).tag = s.tag := rfl
@[simp] theorem setMend_sess (f : MendSt → MendSt) (s : State) : (setMend f s).sess = s.sess := rfl
@[simp] theorem setMend_link (f : MendSt → MendSt) (s : State) : (setMend f s).link = s.link := rfl
@[simp] theorem setMend_reel (f : MendSt → MendSt) (s : State) : (setMend f s).reel = s.reel := rfl
@[simp] theorem setMend_bri (f : MendSt → MendSt) (s : State) : (setMend f s).bri = s.bri := rfl
@[simp] theorem setMend_gdl (f : MendSt → MendSt) (s : State) : (setMend f s).gdl = s.gdl := rfl
@[simp] theorem setMend_cvu (f : MendSt → MendSt) (s : State) : (setMend f s).cvu = s.cvu := rfl
@[simp] theorem setMend_cvuLink (f : MendSt → MendSt) (s : State) : (setMend f s).cvuLink = s.cvuLink := rfl
@[simp] theorem setMend_cvuRdr (f : MendSt → MendSt) (s : State) : (setMend f s).cvuRdr = s.cvuRdr := rfl
@[simp] theorem setMend_store (f : MendSt → MendSt) (s : State) : (setMend f s).store = s.store := rfl
@[simp] theorem setMend_ldg (f : MendSt → MendSt) (s : State) : (setMend f s).ldg = s.ldg := rfl
@[simp] theorem setMend_svy (f : MendSt → MendSt) (s : State) : (setMend f s).svy = s.svy := rfl
@[simp] theorem setMend_epoch (f : MendSt → MendSt) (s : State) : (setMend f s).epoch = s.epoch := rfl
@[simp] theorem setMend_serial (f : MendSt → MendSt) (s : State) : (setMend f s).serial = s.serial := rfl
@[simp] theorem setMend_bufRound (f : MendSt → MendSt) (s : State) : (setMend f s).bufRound = s.bufRound := rfl
@[simp] theorem setMend_turn (f : MendSt → MendSt) (s : State) : (setMend f s).turn = s.turn := rfl
@[simp] theorem setMend_tap (f : MendSt → MendSt) (s : State) : (setMend f s).tap = s.tap := rfl
@[simp] theorem setMend_free (f : MendSt → MendSt) (s : State) : (setMend f s).free = s.free := rfl
@[simp] theorem setMend_mend (f : MendSt → MendSt) (s : State) : (setMend f s).mend = f s.mend := rfl
-- setEpoch
@[simp] theorem setEpoch_pending (f : EpochSt → EpochSt) (s : State) : (setEpoch f s).pending = s.pending := rfl
@[simp] theorem setEpoch_power (f : EpochSt → EpochSt) (s : State) : (setEpoch f s).power = s.power := rfl
@[simp] theorem setEpoch_ports (f : EpochSt → EpochSt) (s : State) : (setEpoch f s).ports = s.ports := rfl
@[simp] theorem setEpoch_binding (f : EpochSt → EpochSt) (s : State) : (setEpoch f s).binding = s.binding := rfl
@[simp] theorem setEpoch_bindLock (f : EpochSt → EpochSt) (s : State) : (setEpoch f s).bindLock = s.bindLock := rfl
@[simp] theorem setEpoch_shareLock (f : EpochSt → EpochSt) (s : State) : (setEpoch f s).shareLock = s.shareLock := rfl
@[simp] theorem setEpoch_div (f : EpochSt → EpochSt) (s : State) : (setEpoch f s).div = s.div := rfl
@[simp] theorem setEpoch_divNew (f : EpochSt → EpochSt) (s : State) : (setEpoch f s).divNew = s.divNew := rfl
@[simp] theorem setEpoch_tens (f : EpochSt → EpochSt) (s : State) : (setEpoch f s).tens = s.tens := rfl
@[simp] theorem setEpoch_prof (f : EpochSt → EpochSt) (s : State) : (setEpoch f s).prof = s.prof := rfl
@[simp] theorem setEpoch_loaded (f : EpochSt → EpochSt) (s : State) : (setEpoch f s).loaded = s.loaded := rfl
@[simp] theorem setEpoch_v1 (f : EpochSt → EpochSt) (s : State) : (setEpoch f s).v1 = s.v1 := rfl
@[simp] theorem setEpoch_bufs (f : EpochSt → EpochSt) (s : State) : (setEpoch f s).bufs = s.bufs := rfl
@[simp] theorem setEpoch_bufPtr (f : EpochSt → EpochSt) (s : State) : (setEpoch f s).bufPtr = s.bufPtr := rfl
@[simp] theorem setEpoch_ctxs (f : EpochSt → EpochSt) (s : State) : (setEpoch f s).ctxs = s.ctxs := rfl
@[simp] theorem setEpoch_radio (f : EpochSt → EpochSt) (s : State) : (setEpoch f s).radio = s.radio := rfl
@[simp] theorem setEpoch_rdr (f : EpochSt → EpochSt) (s : State) : (setEpoch f s).rdr = s.rdr := rfl
@[simp] theorem setEpoch_tag (f : EpochSt → EpochSt) (s : State) : (setEpoch f s).tag = s.tag := rfl
@[simp] theorem setEpoch_sess (f : EpochSt → EpochSt) (s : State) : (setEpoch f s).sess = s.sess := rfl
@[simp] theorem setEpoch_link (f : EpochSt → EpochSt) (s : State) : (setEpoch f s).link = s.link := rfl
@[simp] theorem setEpoch_reel (f : EpochSt → EpochSt) (s : State) : (setEpoch f s).reel = s.reel := rfl
@[simp] theorem setEpoch_bri (f : EpochSt → EpochSt) (s : State) : (setEpoch f s).bri = s.bri := rfl
@[simp] theorem setEpoch_gdl (f : EpochSt → EpochSt) (s : State) : (setEpoch f s).gdl = s.gdl := rfl
@[simp] theorem setEpoch_cvu (f : EpochSt → EpochSt) (s : State) : (setEpoch f s).cvu = s.cvu := rfl
@[simp] theorem setEpoch_cvuLink (f : EpochSt → EpochSt) (s : State) : (setEpoch f s).cvuLink = s.cvuLink := rfl
@[simp] theorem setEpoch_cvuRdr (f : EpochSt → EpochSt) (s : State) : (setEpoch f s).cvuRdr = s.cvuRdr := rfl
@[simp] theorem setEpoch_store (f : EpochSt → EpochSt) (s : State) : (setEpoch f s).store = s.store := rfl
@[simp] theorem setEpoch_ldg (f : EpochSt → EpochSt) (s : State) : (setEpoch f s).ldg = s.ldg := rfl
@[simp] theorem setEpoch_svy (f : EpochSt → EpochSt) (s : State) : (setEpoch f s).svy = s.svy := rfl
@[simp] theorem setEpoch_mend (f : EpochSt → EpochSt) (s : State) : (setEpoch f s).mend = s.mend := rfl
@[simp] theorem setEpoch_serial (f : EpochSt → EpochSt) (s : State) : (setEpoch f s).serial = s.serial := rfl
@[simp] theorem setEpoch_bufRound (f : EpochSt → EpochSt) (s : State) : (setEpoch f s).bufRound = s.bufRound := rfl
@[simp] theorem setEpoch_turn (f : EpochSt → EpochSt) (s : State) : (setEpoch f s).turn = s.turn := rfl
@[simp] theorem setEpoch_tap (f : EpochSt → EpochSt) (s : State) : (setEpoch f s).tap = s.tap := rfl
@[simp] theorem setEpoch_free (f : EpochSt → EpochSt) (s : State) : (setEpoch f s).free = s.free := rfl
@[simp] theorem setEpoch_epoch (f : EpochSt → EpochSt) (s : State) : (setEpoch f s).epoch = f s.epoch := rfl
-- setV1
@[simp] theorem setV1_pending (f : V1St → V1St) (s : State) : (setV1 f s).pending = s.pending := rfl
@[simp] theorem setV1_power (f : V1St → V1St) (s : State) : (setV1 f s).power = s.power := rfl
@[simp] theorem setV1_ports (f : V1St → V1St) (s : State) : (setV1 f s).ports = s.ports := rfl
@[simp] theorem setV1_binding (f : V1St → V1St) (s : State) : (setV1 f s).binding = s.binding := rfl
@[simp] theorem setV1_bindLock (f : V1St → V1St) (s : State) : (setV1 f s).bindLock = s.bindLock := rfl
@[simp] theorem setV1_shareLock (f : V1St → V1St) (s : State) : (setV1 f s).shareLock = s.shareLock := rfl
@[simp] theorem setV1_div (f : V1St → V1St) (s : State) : (setV1 f s).div = s.div := rfl
@[simp] theorem setV1_divNew (f : V1St → V1St) (s : State) : (setV1 f s).divNew = s.divNew := rfl
@[simp] theorem setV1_tens (f : V1St → V1St) (s : State) : (setV1 f s).tens = s.tens := rfl
@[simp] theorem setV1_prof (f : V1St → V1St) (s : State) : (setV1 f s).prof = s.prof := rfl
@[simp] theorem setV1_loaded (f : V1St → V1St) (s : State) : (setV1 f s).loaded = s.loaded := rfl
@[simp] theorem setV1_bufs (f : V1St → V1St) (s : State) : (setV1 f s).bufs = s.bufs := rfl
@[simp] theorem setV1_bufPtr (f : V1St → V1St) (s : State) : (setV1 f s).bufPtr = s.bufPtr := rfl
@[simp] theorem setV1_ctxs (f : V1St → V1St) (s : State) : (setV1 f s).ctxs = s.ctxs := rfl
@[simp] theorem setV1_radio (f : V1St → V1St) (s : State) : (setV1 f s).radio = s.radio := rfl
@[simp] theorem setV1_rdr (f : V1St → V1St) (s : State) : (setV1 f s).rdr = s.rdr := rfl
@[simp] theorem setV1_tag (f : V1St → V1St) (s : State) : (setV1 f s).tag = s.tag := rfl
@[simp] theorem setV1_sess (f : V1St → V1St) (s : State) : (setV1 f s).sess = s.sess := rfl
@[simp] theorem setV1_link (f : V1St → V1St) (s : State) : (setV1 f s).link = s.link := rfl
@[simp] theorem setV1_reel (f : V1St → V1St) (s : State) : (setV1 f s).reel = s.reel := rfl
@[simp] theorem setV1_bri (f : V1St → V1St) (s : State) : (setV1 f s).bri = s.bri := rfl
@[simp] theorem setV1_gdl (f : V1St → V1St) (s : State) : (setV1 f s).gdl = s.gdl := rfl
@[simp] theorem setV1_cvu (f : V1St → V1St) (s : State) : (setV1 f s).cvu = s.cvu := rfl
@[simp] theorem setV1_cvuLink (f : V1St → V1St) (s : State) : (setV1 f s).cvuLink = s.cvuLink := rfl
@[simp] theorem setV1_cvuRdr (f : V1St → V1St) (s : State) : (setV1 f s).cvuRdr = s.cvuRdr := rfl
@[simp] theorem setV1_store (f : V1St → V1St) (s : State) : (setV1 f s).store = s.store := rfl
@[simp] theorem setV1_ldg (f : V1St → V1St) (s : State) : (setV1 f s).ldg = s.ldg := rfl
@[simp] theorem setV1_svy (f : V1St → V1St) (s : State) : (setV1 f s).svy = s.svy := rfl
@[simp] theorem setV1_mend (f : V1St → V1St) (s : State) : (setV1 f s).mend = s.mend := rfl
@[simp] theorem setV1_epoch (f : V1St → V1St) (s : State) : (setV1 f s).epoch = s.epoch := rfl
@[simp] theorem setV1_serial (f : V1St → V1St) (s : State) : (setV1 f s).serial = s.serial := rfl
@[simp] theorem setV1_bufRound (f : V1St → V1St) (s : State) : (setV1 f s).bufRound = s.bufRound := rfl
@[simp] theorem setV1_turn (f : V1St → V1St) (s : State) : (setV1 f s).turn = s.turn := rfl
@[simp] theorem setV1_tap (f : V1St → V1St) (s : State) : (setV1 f s).tap = s.tap := rfl
@[simp] theorem setV1_free (f : V1St → V1St) (s : State) : (setV1 f s).free = s.free := rfl
@[simp] theorem setV1_v1 (f : V1St → V1St) (s : State) : (setV1 f s).v1 = f s.v1 := rfl
-- setInv
@[simp] theorem setInv_pending (x : Tenant) (i : Option Inv) (s : State) : (setInv x i s).pending = s.pending := rfl
@[simp] theorem setInv_power (x : Tenant) (i : Option Inv) (s : State) : (setInv x i s).power = s.power := rfl
@[simp] theorem setInv_ports (x : Tenant) (i : Option Inv) (s : State) : (setInv x i s).ports = s.ports := rfl
@[simp] theorem setInv_binding (x : Tenant) (i : Option Inv) (s : State) : (setInv x i s).binding = s.binding := rfl
@[simp] theorem setInv_bindLock (x : Tenant) (i : Option Inv) (s : State) : (setInv x i s).bindLock = s.bindLock := rfl
@[simp] theorem setInv_shareLock (x : Tenant) (i : Option Inv) (s : State) : (setInv x i s).shareLock = s.shareLock := rfl
@[simp] theorem setInv_div (x : Tenant) (i : Option Inv) (s : State) : (setInv x i s).div = s.div := rfl
@[simp] theorem setInv_divNew (x : Tenant) (i : Option Inv) (s : State) : (setInv x i s).divNew = s.divNew := rfl
@[simp] theorem setInv_tens (x : Tenant) (i : Option Inv) (s : State) : (setInv x i s).tens = s.tens := rfl
@[simp] theorem setInv_prof (x : Tenant) (i : Option Inv) (s : State) : (setInv x i s).prof = s.prof := rfl
@[simp] theorem setInv_loaded (x : Tenant) (i : Option Inv) (s : State) : (setInv x i s).loaded = s.loaded := rfl
@[simp] theorem setInv_v1 (x : Tenant) (i : Option Inv) (s : State) : (setInv x i s).v1 = s.v1 := rfl
@[simp] theorem setInv_bufs (x : Tenant) (i : Option Inv) (s : State) : (setInv x i s).bufs = s.bufs := rfl
@[simp] theorem setInv_bufPtr (x : Tenant) (i : Option Inv) (s : State) : (setInv x i s).bufPtr = s.bufPtr := rfl
@[simp] theorem setInv_ctxs (x : Tenant) (i : Option Inv) (s : State) : (setInv x i s).ctxs = s.ctxs := rfl
@[simp] theorem setInv_radio (x : Tenant) (i : Option Inv) (s : State) : (setInv x i s).radio = s.radio := rfl
@[simp] theorem setInv_tag (x : Tenant) (i : Option Inv) (s : State) : (setInv x i s).tag = s.tag := rfl
@[simp] theorem setInv_sess (x : Tenant) (i : Option Inv) (s : State) : (setInv x i s).sess = s.sess := rfl
@[simp] theorem setInv_link (x : Tenant) (i : Option Inv) (s : State) : (setInv x i s).link = s.link := rfl
@[simp] theorem setInv_reel (x : Tenant) (i : Option Inv) (s : State) : (setInv x i s).reel = s.reel := rfl
@[simp] theorem setInv_bri (x : Tenant) (i : Option Inv) (s : State) : (setInv x i s).bri = s.bri := rfl
@[simp] theorem setInv_gdl (x : Tenant) (i : Option Inv) (s : State) : (setInv x i s).gdl = s.gdl := rfl
@[simp] theorem setInv_cvu (x : Tenant) (i : Option Inv) (s : State) : (setInv x i s).cvu = s.cvu := rfl
@[simp] theorem setInv_cvuLink (x : Tenant) (i : Option Inv) (s : State) : (setInv x i s).cvuLink = s.cvuLink := rfl
@[simp] theorem setInv_cvuRdr (x : Tenant) (i : Option Inv) (s : State) : (setInv x i s).cvuRdr = s.cvuRdr := rfl
@[simp] theorem setInv_store (x : Tenant) (i : Option Inv) (s : State) : (setInv x i s).store = s.store := rfl
@[simp] theorem setInv_ldg (x : Tenant) (i : Option Inv) (s : State) : (setInv x i s).ldg = s.ldg := rfl
@[simp] theorem setInv_svy (x : Tenant) (i : Option Inv) (s : State) : (setInv x i s).svy = s.svy := rfl
@[simp] theorem setInv_mend (x : Tenant) (i : Option Inv) (s : State) : (setInv x i s).mend = s.mend := rfl
@[simp] theorem setInv_epoch (x : Tenant) (i : Option Inv) (s : State) : (setInv x i s).epoch = s.epoch := rfl
@[simp] theorem setInv_serial (x : Tenant) (i : Option Inv) (s : State) : (setInv x i s).serial = s.serial := rfl
@[simp] theorem setInv_bufRound (x : Tenant) (i : Option Inv) (s : State) : (setInv x i s).bufRound = s.bufRound := rfl
@[simp] theorem setInv_turn (x : Tenant) (i : Option Inv) (s : State) : (setInv x i s).turn = s.turn := rfl
@[simp] theorem setInv_tap (x : Tenant) (i : Option Inv) (s : State) : (setInv x i s).tap = s.tap := rfl
@[simp] theorem setInv_free (x : Tenant) (i : Option Inv) (s : State) : (setInv x i s).free = s.free := rfl
@[simp] theorem setInv_rdr (x : Tenant) (i : Option Inv) (s : State) : (setInv x i s).rdr = { s.rdr with inv := s.rdr.inv.set x.val i x.isLt } := rfl
-- setAcc
@[simp] theorem setAcc_pending (x : Tenant) (i : Option Acc) (s : State) : (setAcc x i s).pending = s.pending := rfl
@[simp] theorem setAcc_power (x : Tenant) (i : Option Acc) (s : State) : (setAcc x i s).power = s.power := rfl
@[simp] theorem setAcc_ports (x : Tenant) (i : Option Acc) (s : State) : (setAcc x i s).ports = s.ports := rfl
@[simp] theorem setAcc_binding (x : Tenant) (i : Option Acc) (s : State) : (setAcc x i s).binding = s.binding := rfl
@[simp] theorem setAcc_bindLock (x : Tenant) (i : Option Acc) (s : State) : (setAcc x i s).bindLock = s.bindLock := rfl
@[simp] theorem setAcc_shareLock (x : Tenant) (i : Option Acc) (s : State) : (setAcc x i s).shareLock = s.shareLock := rfl
@[simp] theorem setAcc_div (x : Tenant) (i : Option Acc) (s : State) : (setAcc x i s).div = s.div := rfl
@[simp] theorem setAcc_divNew (x : Tenant) (i : Option Acc) (s : State) : (setAcc x i s).divNew = s.divNew := rfl
@[simp] theorem setAcc_tens (x : Tenant) (i : Option Acc) (s : State) : (setAcc x i s).tens = s.tens := rfl
@[simp] theorem setAcc_prof (x : Tenant) (i : Option Acc) (s : State) : (setAcc x i s).prof = s.prof := rfl
@[simp] theorem setAcc_loaded (x : Tenant) (i : Option Acc) (s : State) : (setAcc x i s).loaded = s.loaded := rfl
@[simp] theorem setAcc_v1 (x : Tenant) (i : Option Acc) (s : State) : (setAcc x i s).v1 = s.v1 := rfl
@[simp] theorem setAcc_bufs (x : Tenant) (i : Option Acc) (s : State) : (setAcc x i s).bufs = s.bufs := rfl
@[simp] theorem setAcc_bufPtr (x : Tenant) (i : Option Acc) (s : State) : (setAcc x i s).bufPtr = s.bufPtr := rfl
@[simp] theorem setAcc_ctxs (x : Tenant) (i : Option Acc) (s : State) : (setAcc x i s).ctxs = s.ctxs := rfl
@[simp] theorem setAcc_radio (x : Tenant) (i : Option Acc) (s : State) : (setAcc x i s).radio = s.radio := rfl
@[simp] theorem setAcc_tag (x : Tenant) (i : Option Acc) (s : State) : (setAcc x i s).tag = s.tag := rfl
@[simp] theorem setAcc_sess (x : Tenant) (i : Option Acc) (s : State) : (setAcc x i s).sess = s.sess := rfl
@[simp] theorem setAcc_link (x : Tenant) (i : Option Acc) (s : State) : (setAcc x i s).link = s.link := rfl
@[simp] theorem setAcc_reel (x : Tenant) (i : Option Acc) (s : State) : (setAcc x i s).reel = s.reel := rfl
@[simp] theorem setAcc_bri (x : Tenant) (i : Option Acc) (s : State) : (setAcc x i s).bri = s.bri := rfl
@[simp] theorem setAcc_gdl (x : Tenant) (i : Option Acc) (s : State) : (setAcc x i s).gdl = s.gdl := rfl
@[simp] theorem setAcc_cvu (x : Tenant) (i : Option Acc) (s : State) : (setAcc x i s).cvu = s.cvu := rfl
@[simp] theorem setAcc_cvuLink (x : Tenant) (i : Option Acc) (s : State) : (setAcc x i s).cvuLink = s.cvuLink := rfl
@[simp] theorem setAcc_cvuRdr (x : Tenant) (i : Option Acc) (s : State) : (setAcc x i s).cvuRdr = s.cvuRdr := rfl
@[simp] theorem setAcc_store (x : Tenant) (i : Option Acc) (s : State) : (setAcc x i s).store = s.store := rfl
@[simp] theorem setAcc_ldg (x : Tenant) (i : Option Acc) (s : State) : (setAcc x i s).ldg = s.ldg := rfl
@[simp] theorem setAcc_svy (x : Tenant) (i : Option Acc) (s : State) : (setAcc x i s).svy = s.svy := rfl
@[simp] theorem setAcc_mend (x : Tenant) (i : Option Acc) (s : State) : (setAcc x i s).mend = s.mend := rfl
@[simp] theorem setAcc_epoch (x : Tenant) (i : Option Acc) (s : State) : (setAcc x i s).epoch = s.epoch := rfl
@[simp] theorem setAcc_serial (x : Tenant) (i : Option Acc) (s : State) : (setAcc x i s).serial = s.serial := rfl
@[simp] theorem setAcc_bufRound (x : Tenant) (i : Option Acc) (s : State) : (setAcc x i s).bufRound = s.bufRound := rfl
@[simp] theorem setAcc_turn (x : Tenant) (i : Option Acc) (s : State) : (setAcc x i s).turn = s.turn := rfl
@[simp] theorem setAcc_tap (x : Tenant) (i : Option Acc) (s : State) : (setAcc x i s).tap = s.tap := rfl
@[simp] theorem setAcc_free (x : Tenant) (i : Option Acc) (s : State) : (setAcc x i s).free = s.free := rfl
@[simp] theorem setAcc_rdr (x : Tenant) (i : Option Acc) (s : State) : (setAcc x i s).rdr = { s.rdr with acc := s.rdr.acc.set x.val i x.isLt } := rfl

end Sys2Proof.Machine
end

