-- ==== Sys2Proof/Laws/Ops.lean ====
section
/-!
SUPPORT. The shared operations, each said once: taking a command up, completing it, raising an event, letting time pass.
-/
namespace Sys2Proof.Machine

-- ------------------------------------------------------------------ responses and events

theorem reply_some (t : Tenant) (st : Byte) (res : Bytes) (s : State) (job : Job) (h : s.tens[t].exec = some job) :
    reply t st res s = modTen t (fun q => { pushResponse job st res q with exec := none }) s := by
  unfold reply; rw [h]

theorem reply_none (t : Tenant) (st : Byte) (res : Bytes) (s : State) (h : s.tens[t].exec = none) :
    reply t st res s = s := by
  unfold reply; rw [h]

/-- Completing a command changes nothing but its tenant's queues. -/
theorem reply_only (t : Tenant) (st : Byte) (res : Bytes) (s : State) :
    reply t st res s = { s with tens := (reply t st res s).tens } := by
  unfold reply; split <;> rfl

theorem reply_other (t u : Tenant) (st : Byte) (res : Bytes) (s : State) (h : u ≠ t) :
    (reply t st res s).tens[(u : Nat)] = s.tens[(u : Nat)] := by
  unfold reply; split
  · rfl
  · simp [vmod_ne _ _ _ _ h]

/-- A response that is written stands last in the tenant's queue; the tenant executes nothing any more. -/
theorem reply_last (t : Tenant) (st : Byte) (res : Bytes) (s : State) (job : Job) (h : s.tens[t].exec = some job) :
    (reply t st res s).tens[(t : Nat)] = { s.tens[(t : Nat)] with
      outQ := s.tens[(t : Nat)].outQ ++ [.resp job.seq job.op st (if st = stOk then res else []) job.orphan]
      exec := none } := by
  rw [reply_some t st res s job h]; simp [pushResponse]

@[simp] theorem reply_pending (t : Tenant) (st : Byte) (res : Bytes) (s : State) : (reply t st res s).pending = s.pending := by rw [reply_only]
@[simp] theorem reply_power (t : Tenant) (st : Byte) (res : Bytes) (s : State) : (reply t st res s).power = s.power := by rw [reply_only]
@[simp] theorem reply_ports (t : Tenant) (st : Byte) (res : Bytes) (s : State) : (reply t st res s).ports = s.ports := by rw [reply_only]
@[simp] theorem reply_binding (t : Tenant) (st : Byte) (res : Bytes) (s : State) : (reply t st res s).binding = s.binding := by rw [reply_only]
@[simp] theorem reply_bindLock (t : Tenant) (st : Byte) (res : Bytes) (s : State) : (reply t st res s).bindLock = s.bindLock := by rw [reply_only]
@[simp] theorem reply_shareLock (t : Tenant) (st : Byte) (res : Bytes) (s : State) : (reply t st res s).shareLock = s.shareLock := by rw [reply_only]
@[simp] theorem reply_div (t : Tenant) (st : Byte) (res : Bytes) (s : State) : (reply t st res s).div = s.div := by rw [reply_only]
@[simp] theorem reply_divNew (t : Tenant) (st : Byte) (res : Bytes) (s : State) : (reply t st res s).divNew = s.divNew := by rw [reply_only]
@[simp] theorem reply_prof (t : Tenant) (st : Byte) (res : Bytes) (s : State) : (reply t st res s).prof = s.prof := by rw [reply_only]
@[simp] theorem reply_loaded (t : Tenant) (st : Byte) (res : Bytes) (s : State) : (reply t st res s).loaded = s.loaded := by rw [reply_only]
@[simp] theorem reply_v1 (t : Tenant) (st : Byte) (res : Bytes) (s : State) : (reply t st res s).v1 = s.v1 := by rw [reply_only]
@[simp] theorem reply_bufs (t : Tenant) (st : Byte) (res : Bytes) (s : State) : (reply t st res s).bufs = s.bufs := by rw [reply_only]
@[simp] theorem reply_bufPtr (t : Tenant) (st : Byte) (res : Bytes) (s : State) : (reply t st res s).bufPtr = s.bufPtr := by rw [reply_only]
@[simp] theorem reply_ctxs (t : Tenant) (st : Byte) (res : Bytes) (s : State) : (reply t st res s).ctxs = s.ctxs := by rw [reply_only]
@[simp] theorem reply_radio (t : Tenant) (st : Byte) (res : Bytes) (s : State) : (reply t st res s).radio = s.radio := by rw [reply_only]
@[simp] theorem reply_rdr (t : Tenant) (st : Byte) (res : Bytes) (s : State) : (reply t st res s).rdr = s.rdr := by rw [reply_only]
@[simp] theorem reply_tag (t : Tenant) (st : Byte) (res : Bytes) (s : State) : (reply t st res s).tag = s.tag := by rw [reply_only]
@[simp] theorem reply_sess (t : Tenant) (st : Byte) (res : Bytes) (s : State) : (reply t st res s).sess = s.sess := by rw [reply_only]
@[simp] theorem reply_link (t : Tenant) (st : Byte) (res : Bytes) (s : State) : (reply t st res s).link = s.link := by rw [reply_only]
@[simp] theorem reply_reel (t : Tenant) (st : Byte) (res : Bytes) (s : State) : (reply t st res s).reel = s.reel := by rw [reply_only]
@[simp] theorem reply_bri (t : Tenant) (st : Byte) (res : Bytes) (s : State) : (reply t st res s).bri = s.bri := by rw [reply_only]
@[simp] theorem reply_gdl (t : Tenant) (st : Byte) (res : Bytes) (s : State) : (reply t st res s).gdl = s.gdl := by rw [reply_only]
@[simp] theorem reply_cvu (t : Tenant) (st : Byte) (res : Bytes) (s : State) : (reply t st res s).cvu = s.cvu := by rw [reply_only]
@[simp] theorem reply_cvuLink (t : Tenant) (st : Byte) (res : Bytes) (s : State) : (reply t st res s).cvuLink = s.cvuLink := by rw [reply_only]
@[simp] theorem reply_cvuRdr (t : Tenant) (st : Byte) (res : Bytes) (s : State) : (reply t st res s).cvuRdr = s.cvuRdr := by rw [reply_only]
@[simp] theorem reply_store (t : Tenant) (st : Byte) (res : Bytes) (s : State) : (reply t st res s).store = s.store := by rw [reply_only]
@[simp] theorem reply_ldg (t : Tenant) (st : Byte) (res : Bytes) (s : State) : (reply t st res s).ldg = s.ldg := by rw [reply_only]
@[simp] theorem reply_svy (t : Tenant) (st : Byte) (res : Bytes) (s : State) : (reply t st res s).svy = s.svy := by rw [reply_only]
@[simp] theorem reply_mend (t : Tenant) (st : Byte) (res : Bytes) (s : State) : (reply t st res s).mend = s.mend := by rw [reply_only]
@[simp] theorem reply_epoch (t : Tenant) (st : Byte) (res : Bytes) (s : State) : (reply t st res s).epoch = s.epoch := by rw [reply_only]
@[simp] theorem reply_serial (t : Tenant) (st : Byte) (res : Bytes) (s : State) : (reply t st res s).serial = s.serial := by rw [reply_only]
@[simp] theorem reply_bufRound (t : Tenant) (st : Byte) (res : Bytes) (s : State) : (reply t st res s).bufRound = s.bufRound := by rw [reply_only]
@[simp] theorem reply_turn (t : Tenant) (st : Byte) (res : Bytes) (s : State) : (reply t st res s).turn = s.turn := by rw [reply_only]
@[simp] theorem reply_tap (t : Tenant) (st : Byte) (res : Bytes) (s : State) : (reply t st res s).tap = s.tap := by rw [reply_only]
@[simp] theorem reply_free (t : Tenant) (st : Byte) (res : Bytes) (s : State) : (reply t st res s).free = s.free := by rw [reply_only]
@[simp] theorem refuse_pending (t : Tenant) (st : Byte) (s : State) : (refuse t st s).pending = s.pending := by simp [refuse]
@[simp] theorem refuse_power (t : Tenant) (st : Byte) (s : State) : (refuse t st s).power = s.power := by simp [refuse]
@[simp] theorem refuse_ports (t : Tenant) (st : Byte) (s : State) : (refuse t st s).ports = s.ports := by simp [refuse]
@[simp] theorem refuse_binding (t : Tenant) (st : Byte) (s : State) : (refuse t st s).binding = s.binding := by simp [refuse]
@[simp] theorem refuse_bindLock (t : Tenant) (st : Byte) (s : State) : (refuse t st s).bindLock = s.bindLock := by simp [refuse]
@[simp] theorem refuse_shareLock (t : Tenant) (st : Byte) (s : State) : (refuse t st s).shareLock = s.shareLock := by simp [refuse]
@[simp] theorem refuse_div (t : Tenant) (st : Byte) (s : State) : (refuse t st s).div = s.div := by simp [refuse]
@[simp] theorem refuse_divNew (t : Tenant) (st : Byte) (s : State) : (refuse t st s).divNew = s.divNew := by simp [refuse]
@[simp] theorem refuse_prof (t : Tenant) (st : Byte) (s : State) : (refuse t st s).prof = s.prof := by simp [refuse]
@[simp] theorem refuse_loaded (t : Tenant) (st : Byte) (s : State) : (refuse t st s).loaded = s.loaded := by simp [refuse]
@[simp] theorem refuse_v1 (t : Tenant) (st : Byte) (s : State) : (refuse t st s).v1 = s.v1 := by simp [refuse]
@[simp] theorem refuse_bufs (t : Tenant) (st : Byte) (s : State) : (refuse t st s).bufs = s.bufs := by simp [refuse]
@[simp] theorem refuse_bufPtr (t : Tenant) (st : Byte) (s : State) : (refuse t st s).bufPtr = s.bufPtr := by simp [refuse]
@[simp] theorem refuse_ctxs (t : Tenant) (st : Byte) (s : State) : (refuse t st s).ctxs = s.ctxs := by simp [refuse]
@[simp] theorem refuse_radio (t : Tenant) (st : Byte) (s : State) : (refuse t st s).radio = s.radio := by simp [refuse]
@[simp] theorem refuse_rdr (t : Tenant) (st : Byte) (s : State) : (refuse t st s).rdr = s.rdr := by simp [refuse]
@[simp] theorem refuse_tag (t : Tenant) (st : Byte) (s : State) : (refuse t st s).tag = s.tag := by simp [refuse]
@[simp] theorem refuse_sess (t : Tenant) (st : Byte) (s : State) : (refuse t st s).sess = s.sess := by simp [refuse]
@[simp] theorem refuse_link (t : Tenant) (st : Byte) (s : State) : (refuse t st s).link = s.link := by simp [refuse]
@[simp] theorem refuse_reel (t : Tenant) (st : Byte) (s : State) : (refuse t st s).reel = s.reel := by simp [refuse]
@[simp] theorem refuse_bri (t : Tenant) (st : Byte) (s : State) : (refuse t st s).bri = s.bri := by simp [refuse]
@[simp] theorem refuse_gdl (t : Tenant) (st : Byte) (s : State) : (refuse t st s).gdl = s.gdl := by simp [refuse]
@[simp] theorem refuse_cvu (t : Tenant) (st : Byte) (s : State) : (refuse t st s).cvu = s.cvu := by simp [refuse]
@[simp] theorem refuse_cvuLink (t : Tenant) (st : Byte) (s : State) : (refuse t st s).cvuLink = s.cvuLink := by simp [refuse]
@[simp] theorem refuse_cvuRdr (t : Tenant) (st : Byte) (s : State) : (refuse t st s).cvuRdr = s.cvuRdr := by simp [refuse]
@[simp] theorem refuse_store (t : Tenant) (st : Byte) (s : State) : (refuse t st s).store = s.store := by simp [refuse]
@[simp] theorem refuse_ldg (t : Tenant) (st : Byte) (s : State) : (refuse t st s).ldg = s.ldg := by simp [refuse]
@[simp] theorem refuse_svy (t : Tenant) (st : Byte) (s : State) : (refuse t st s).svy = s.svy := by simp [refuse]
@[simp] theorem refuse_mend (t : Tenant) (st : Byte) (s : State) : (refuse t st s).mend = s.mend := by simp [refuse]
@[simp] theorem refuse_epoch (t : Tenant) (st : Byte) (s : State) : (refuse t st s).epoch = s.epoch := by simp [refuse]
@[simp] theorem refuse_serial (t : Tenant) (st : Byte) (s : State) : (refuse t st s).serial = s.serial := by simp [refuse]
@[simp] theorem refuse_bufRound (t : Tenant) (st : Byte) (s : State) : (refuse t st s).bufRound = s.bufRound := by simp [refuse]
@[simp] theorem refuse_turn (t : Tenant) (st : Byte) (s : State) : (refuse t st s).turn = s.turn := by simp [refuse]
@[simp] theorem refuse_tap (t : Tenant) (st : Byte) (s : State) : (refuse t st s).tap = s.tap := by simp [refuse]
@[simp] theorem refuse_free (t : Tenant) (st : Byte) (s : State) : (refuse t st s).free = s.free := by simp [refuse]
@[simp] theorem raise_pending (t : Tenant) (code : BitVec 16) (data : Bytes) (s : State) : (raise t code data s).pending = s.pending := rfl
@[simp] theorem raise_power (t : Tenant) (code : BitVec 16) (data : Bytes) (s : State) : (raise t code data s).power = s.power := rfl
@[simp] theorem raise_ports (t : Tenant) (code : BitVec 16) (data : Bytes) (s : State) : (raise t code data s).ports = s.ports := rfl
@[simp] theorem raise_binding (t : Tenant) (code : BitVec 16) (data : Bytes) (s : State) : (raise t code data s).binding = s.binding := rfl
@[simp] theorem raise_bindLock (t : Tenant) (code : BitVec 16) (data : Bytes) (s : State) : (raise t code data s).bindLock = s.bindLock := rfl
@[simp] theorem raise_shareLock (t : Tenant) (code : BitVec 16) (data : Bytes) (s : State) : (raise t code data s).shareLock = s.shareLock := rfl
@[simp] theorem raise_div (t : Tenant) (code : BitVec 16) (data : Bytes) (s : State) : (raise t code data s).div = s.div := rfl
@[simp] theorem raise_divNew (t : Tenant) (code : BitVec 16) (data : Bytes) (s : State) : (raise t code data s).divNew = s.divNew := rfl
@[simp] theorem raise_prof (t : Tenant) (code : BitVec 16) (data : Bytes) (s : State) : (raise t code data s).prof = s.prof := rfl
@[simp] theorem raise_loaded (t : Tenant) (code : BitVec 16) (data : Bytes) (s : State) : (raise t code data s).loaded = s.loaded := rfl
@[simp] theorem raise_v1 (t : Tenant) (code : BitVec 16) (data : Bytes) (s : State) : (raise t code data s).v1 = s.v1 := rfl
@[simp] theorem raise_bufs (t : Tenant) (code : BitVec 16) (data : Bytes) (s : State) : (raise t code data s).bufs = s.bufs := rfl
@[simp] theorem raise_bufPtr (t : Tenant) (code : BitVec 16) (data : Bytes) (s : State) : (raise t code data s).bufPtr = s.bufPtr := rfl
@[simp] theorem raise_ctxs (t : Tenant) (code : BitVec 16) (data : Bytes) (s : State) : (raise t code data s).ctxs = s.ctxs := rfl
@[simp] theorem raise_radio (t : Tenant) (code : BitVec 16) (data : Bytes) (s : State) : (raise t code data s).radio = s.radio := rfl
@[simp] theorem raise_rdr (t : Tenant) (code : BitVec 16) (data : Bytes) (s : State) : (raise t code data s).rdr = s.rdr := rfl
@[simp] theorem raise_tag (t : Tenant) (code : BitVec 16) (data : Bytes) (s : State) : (raise t code data s).tag = s.tag := rfl
@[simp] theorem raise_sess (t : Tenant) (code : BitVec 16) (data : Bytes) (s : State) : (raise t code data s).sess = s.sess := rfl
@[simp] theorem raise_link (t : Tenant) (code : BitVec 16) (data : Bytes) (s : State) : (raise t code data s).link = s.link := rfl
@[simp] theorem raise_reel (t : Tenant) (code : BitVec 16) (data : Bytes) (s : State) : (raise t code data s).reel = s.reel := rfl
@[simp] theorem raise_bri (t : Tenant) (code : BitVec 16) (data : Bytes) (s : State) : (raise t code data s).bri = s.bri := rfl
@[simp] theorem raise_gdl (t : Tenant) (code : BitVec 16) (data : Bytes) (s : State) : (raise t code data s).gdl = s.gdl := rfl
@[simp] theorem raise_cvu (t : Tenant) (code : BitVec 16) (data : Bytes) (s : State) : (raise t code data s).cvu = s.cvu := rfl
@[simp] theorem raise_cvuLink (t : Tenant) (code : BitVec 16) (data : Bytes) (s : State) : (raise t code data s).cvuLink = s.cvuLink := rfl
@[simp] theorem raise_cvuRdr (t : Tenant) (code : BitVec 16) (data : Bytes) (s : State) : (raise t code data s).cvuRdr = s.cvuRdr := rfl
@[simp] theorem raise_store (t : Tenant) (code : BitVec 16) (data : Bytes) (s : State) : (raise t code data s).store = s.store := rfl
@[simp] theorem raise_ldg (t : Tenant) (code : BitVec 16) (data : Bytes) (s : State) : (raise t code data s).ldg = s.ldg := rfl
@[simp] theorem raise_svy (t : Tenant) (code : BitVec 16) (data : Bytes) (s : State) : (raise t code data s).svy = s.svy := rfl
@[simp] theorem raise_mend (t : Tenant) (code : BitVec 16) (data : Bytes) (s : State) : (raise t code data s).mend = s.mend := rfl
@[simp] theorem raise_epoch (t : Tenant) (code : BitVec 16) (data : Bytes) (s : State) : (raise t code data s).epoch = s.epoch := rfl
@[simp] theorem raise_serial (t : Tenant) (code : BitVec 16) (data : Bytes) (s : State) : (raise t code data s).serial = s.serial := rfl
@[simp] theorem raise_bufRound (t : Tenant) (code : BitVec 16) (data : Bytes) (s : State) : (raise t code data s).bufRound = s.bufRound := rfl
@[simp] theorem raise_turn (t : Tenant) (code : BitVec 16) (data : Bytes) (s : State) : (raise t code data s).turn = s.turn := rfl
@[simp] theorem raise_tap (t : Tenant) (code : BitVec 16) (data : Bytes) (s : State) : (raise t code data s).tap = s.tap := rfl
@[simp] theorem raise_free (t : Tenant) (code : BitVec 16) (data : Bytes) (s : State) : (raise t code data s).free = s.free := rfl

@[simp] theorem raise_tens (t : Tenant) (code : BitVec 16) (data : Bytes) (s : State) :
    (raise t code data s).tens = vmod s.tens t (pushEvent s.reel.cnt code data) := rfl

/-- An event with room in the queue of 63 is queued with the next SEQ (R161). -/
theorem pushEvent_room (now : Tick) (code : BitVec 16) (data : Bytes) (q : TenantSt)
    (h : (q.outQ.filter Out.isOrdinary).length < 63) :
    pushEvent now code data q = { q with outQ := q.outQ ++ [.evt q.evSeq code now data], evSeq := q.evSeq + 1 } := by
  simp [pushEvent, h]

@[simp] theorem pushEvent_exec (now : Tick) (code : BitVec 16) (data : Bytes) (q : TenantSt) :
    (pushEvent now code data q).exec = q.exec := by
  unfold pushEvent; split <;> (try split) <;> rfl

-- ------------------------------------------------------------------ commands

theorem keelRun_some (op : BitVec 16) (c : Cmd) (body : State → State) (s u : State) (h : takeUp op c s = some u) :
    keelRun op c body s = body u := by
  simp [keelRun, h]

/-- What serving a tenant changes: its queues, and the tenant that comes next in the rotation (R156). -/
theorem serve_only (t : Tenant) (f : TenantSt → TenantSt) (s : State) :
    serve t f s = { s with tens := vmod s.tens t f, turn := t + 1 } := rfl

/-- What taking a command up does: nothing but that it leaves the queue of its tenant and executes, and that the rotation goes on to
the next tenant; its SEQ and arguments are those of the command. -/
theorem takeUp_spec (op : BitVec 16) (c : Cmd) (s u : State) (h : takeUp op c s = some u) :
    live s = true ∧ u = { s with tens := u.tens, turn := c.t + 1 } ∧ (∀ w, w ≠ c.t → u.tens[w] = s.tens[w]) ∧
    ∃ job, u.tens[c.t].exec = some job ∧ job.op = op ∧ job.seq = c.seq ∧ job.args = c.args ∧
      u.tens[c.t].outQ = s.tens[c.t].outQ := by
  unfold takeUp at h
  by_cases hl : (tenantHeard c.t s && isTurn s c.t) = true
  · rw [if_pos hl] at h
    have hlive : live s = true := by
      cases hv : live s
      · rw [tenantHeard, hv] at hl; simp at hl
      · rfl
    have ne : ∀ (f : TenantSt → TenantSt) w, w ≠ c.t → (serve c.t f s).tens[w] = s.tens[w] := by
      intro f w hw
      simp [serve_only, vmod_ne _ _ _ _ hw]
    refine ⟨hlive, ?_⟩
    dsimp only at h
    split at h
    · split at h
      · cases h
        exact ⟨rfl, ne _, jobOf op c s, by simp [serve_only], rfl, rfl, rfl, by simp [serve_only]⟩
      · cases h
    · split at h
      · rename_i j _ _ _ hj
        cases h
        exact ⟨rfl, ne _, j, by simp [serve_only], hj.1, hj.2.1, hj.2.2, by simp [serve_only]⟩
      · cases h
    · cases h
  · rw [if_neg hl] at h; cases h

/-- A tenant with nothing queued or executing, fewer than 8 outstanding and its turn come has its command taken up at once. -/
theorem takeUp_direct (op : BitVec 16) (c : Cmd) (s : State) (hl : (tenantHeard c.t s && isTurn s c.t) = true)
    (he : s.tens[c.t].exec = none) (hq : s.tens[c.t].cmdQ = []) (ho : outstanding s.tens[c.t] < 8) :
    takeUp op c s = some (serve c.t (fun q => { q with exec := some (jobOf op c s) }) s) := by
  unfold takeUp
  rw [if_pos hl]
  dsimp only [Fin.getElem_fin] at he hq ho ⊢
  rw [he, hq]
  simp [ho]

-- ------------------------------------------------------------------ time

/-- Reel's clock moves Reel, the down counters, the fair-sharing window and the presence of the ports, and nothing else. -/
theorem clockTo_only (now : Tick) (s : State) :
    clockTo now s = { s with ports := (clockTo now s).ports, reel := (clockTo now s).reel, radio := (clockTo now s).radio } := rfl

@[simp] theorem clockTo_cnt (now : Tick) (s : State) : (clockTo now s).reel.cnt = now := by
  simp only [clockTo, dayRun]; split <;> rfl

/-- With no send that has a TIME, nothing but the clock and the commit point of a slot comes about. -/
theorem runTo_quiet (now : Tick) (n : Nat) (s : State) (h : nextStop s = none) : runTo now n s = openDue (clockTo now s) := by
  cases n with
  | zero => rfl
  | succ n => unfold runTo; simp only [h]

theorem nextStop_nil (s : State) (h : s.link.sends = []) : nextStop s = none := by simp [nextStop, h]

/-- With no send waiting and no frame on its way to its commit point, time that passes only moves the clock (R436, R441). -/
theorem advanceTo_quiet (now : Tick) (s : State) (hn : nextStop s = none) (ho : s.rdr.opening = none) :
    advanceTo now s = if reelCounts s && reached now s.reel.cnt then clockTo now s else s := by
  unfold advanceTo
  split
  · rw [runTo_quiet _ _ _ hn]; simp [openDue, clockTo, ho]
  · rfl

end Sys2Proof.Machine
end

