-- ==== Sys2Proof/Laws/Spool.lean ====
section
/-!
SUPPORT. What every Spool instruction shares: issue, retirement, waits and their ends, each said once.
-/
namespace Sys2Proof.Machine

theorem modTen_only (t : Tenant) (f : TenantSt → TenantSt) (s : State) : modTen t f s = { s with tens := vmod s.tens t f } := rfl

theorem finishStart_ctx (x : Tenant) (st : Byte) (s : State) :
    (finishStart x st s).ctxs[(x : Nat)] = { s.ctxs[(x : Nat)] with
      start := none, early := if s.ctxs[(x : Nat)].start.isSome then [] else s.ctxs[(x : Nat)].early } := by
  unfold finishStart; split
  · rename_i h; simp only [Fin.getElem_fin] at h; simp only [h, Option.isSome_none, Bool.false_eq_true, if_false]; rw [← h]
  · rename_i h; simp only [Fin.getElem_fin] at h; simp [h]

theorem finishStart_ctx_ne (x y : Tenant) (st : Byte) (s : State) (h : y ≠ x) :
    (finishStart x st s).ctxs[(y : Nat)] = s.ctxs[(y : Nat)] := by
  unfold finishStart; split
  · rfl
  · simp [vmod_ne _ _ _ _ h]

theorem finishStart_ten_ne (x y : Tenant) (st : Byte) (s : State) (h : y ≠ x) :
    (finishStart x st s).tens[(y : Nat)] = s.tens[(y : Nat)] := by
  unfold finishStart; split
  · rfl
  · simp [vmod_ne _ _ _ _ h, reply_other _ _ _ _ _ h]

theorem finishStart_idle (x : Tenant) (st : Byte) (s : State) (h : s.ctxs[x].start = none) : finishStart x st s = s := by
  unfold finishStart; rw [h]

theorem finishStart_only (x : Tenant) (st : Byte) (s : State) :
    finishStart x st s = { s with ctxs := (finishStart x st s).ctxs, tens := (finishStart x st s).tens } := by
  unfold finishStart; split
  · rfl
  · rw [modTen_only, reply_only]; rfl

@[simp] theorem finishStart_pending (x : Tenant) (st : Byte) (s : State) : (finishStart x st s).pending = s.pending := by rw [finishStart_only]
@[simp] theorem finishStart_power (x : Tenant) (st : Byte) (s : State) : (finishStart x st s).power = s.power := by rw [finishStart_only]
@[simp] theorem finishStart_ports (x : Tenant) (st : Byte) (s : State) : (finishStart x st s).ports = s.ports := by rw [finishStart_only]
@[simp] theorem finishStart_binding (x : Tenant) (st : Byte) (s : State) : (finishStart x st s).binding = s.binding := by rw [finishStart_only]
@[simp] theorem finishStart_bindLock (x : Tenant) (st : Byte) (s : State) : (finishStart x st s).bindLock = s.bindLock := by rw [finishStart_only]
@[simp] theorem finishStart_shareLock (x : Tenant) (st : Byte) (s : State) : (finishStart x st s).shareLock = s.shareLock := by rw [finishStart_only]
@[simp] theorem finishStart_div (x : Tenant) (st : Byte) (s : State) : (finishStart x st s).div = s.div := by rw [finishStart_only]
@[simp] theorem finishStart_divNew (x : Tenant) (st : Byte) (s : State) : (finishStart x st s).divNew = s.divNew := by rw [finishStart_only]
@[simp] theorem finishStart_prof (x : Tenant) (st : Byte) (s : State) : (finishStart x st s).prof = s.prof := by rw [finishStart_only]
@[simp] theorem finishStart_loaded (x : Tenant) (st : Byte) (s : State) : (finishStart x st s).loaded = s.loaded := by rw [finishStart_only]
@[simp] theorem finishStart_v1 (x : Tenant) (st : Byte) (s : State) : (finishStart x st s).v1 = s.v1 := by rw [finishStart_only]
@[simp] theorem finishStart_bufs (x : Tenant) (st : Byte) (s : State) : (finishStart x st s).bufs = s.bufs := by rw [finishStart_only]
@[simp] theorem finishStart_bufPtr (x : Tenant) (st : Byte) (s : State) : (finishStart x st s).bufPtr = s.bufPtr := by rw [finishStart_only]
@[simp] theorem finishStart_radio (x : Tenant) (st : Byte) (s : State) : (finishStart x st s).radio = s.radio := by rw [finishStart_only]
@[simp] theorem finishStart_rdr (x : Tenant) (st : Byte) (s : State) : (finishStart x st s).rdr = s.rdr := by rw [finishStart_only]
@[simp] theorem finishStart_tag (x : Tenant) (st : Byte) (s : State) : (finishStart x st s).tag = s.tag := by rw [finishStart_only]
@[simp] theorem finishStart_sess (x : Tenant) (st : Byte) (s : State) : (finishStart x st s).sess = s.sess := by rw [finishStart_only]
@[simp] theorem finishStart_link (x : Tenant) (st : Byte) (s : State) : (finishStart x st s).link = s.link := by rw [finishStart_only]
@[simp] theorem finishStart_reel (x : Tenant) (st : Byte) (s : State) : (finishStart x st s).reel = s.reel := by rw [finishStart_only]
@[simp] theorem finishStart_bri (x : Tenant) (st : Byte) (s : State) : (finishStart x st s).bri = s.bri := by rw [finishStart_only]
@[simp] theorem finishStart_gdl (x : Tenant) (st : Byte) (s : State) : (finishStart x st s).gdl = s.gdl := by rw [finishStart_only]
@[simp] theorem finishStart_cvu (x : Tenant) (st : Byte) (s : State) : (finishStart x st s).cvu = s.cvu := by rw [finishStart_only]
@[simp] theorem finishStart_cvuLink (x : Tenant) (st : Byte) (s : State) : (finishStart x st s).cvuLink = s.cvuLink := by rw [finishStart_only]
@[simp] theorem finishStart_cvuRdr (x : Tenant) (st : Byte) (s : State) : (finishStart x st s).cvuRdr = s.cvuRdr := by rw [finishStart_only]
@[simp] theorem finishStart_store (x : Tenant) (st : Byte) (s : State) : (finishStart x st s).store = s.store := by rw [finishStart_only]
@[simp] theorem finishStart_ldg (x : Tenant) (st : Byte) (s : State) : (finishStart x st s).ldg = s.ldg := by rw [finishStart_only]
@[simp] theorem finishStart_svy (x : Tenant) (st : Byte) (s : State) : (finishStart x st s).svy = s.svy := by rw [finishStart_only]
@[simp] theorem finishStart_mend (x : Tenant) (st : Byte) (s : State) : (finishStart x st s).mend = s.mend := by rw [finishStart_only]
@[simp] theorem finishStart_epoch (x : Tenant) (st : Byte) (s : State) : (finishStart x st s).epoch = s.epoch := by rw [finishStart_only]
@[simp] theorem finishStart_serial (x : Tenant) (st : Byte) (s : State) : (finishStart x st s).serial = s.serial := by rw [finishStart_only]
@[simp] theorem finishStart_bufRound (x : Tenant) (st : Byte) (s : State) : (finishStart x st s).bufRound = s.bufRound := by rw [finishStart_only]
@[simp] theorem finishStart_turn (x : Tenant) (st : Byte) (s : State) : (finishStart x st s).turn = s.turn := by rw [finishStart_only]
@[simp] theorem finishStart_tap (x : Tenant) (st : Byte) (s : State) : (finishStart x st s).tap = s.tap := by rw [finishStart_only]
@[simp] theorem finishStart_free (x : Tenant) (st : Byte) (s : State) : (finishStart x st s).free = s.free := by rw [finishStart_only]

/-- Retiring changes the context, and its tenant's queues where the starting command completes. -/
theorem retireTo_only (x : Tenant) (pc n : Nat) (s : State) :
    retireTo x pc n s = { s with ctxs := (retireTo x pc n s).ctxs, tens := (retireTo x pc n s).tens } := by
  unfold retireTo; dsimp only; split
  · rfl
  · rw [finishStart_only]; rfl

@[simp] theorem retireTo_pending (x : Tenant) (pc n : Nat) (s : State) : (retireTo x pc n s).pending = s.pending := by rw [retireTo_only]
@[simp] theorem retireTo_power (x : Tenant) (pc n : Nat) (s : State) : (retireTo x pc n s).power = s.power := by rw [retireTo_only]
@[simp] theorem retireTo_ports (x : Tenant) (pc n : Nat) (s : State) : (retireTo x pc n s).ports = s.ports := by rw [retireTo_only]
@[simp] theorem retireTo_binding (x : Tenant) (pc n : Nat) (s : State) : (retireTo x pc n s).binding = s.binding := by rw [retireTo_only]
@[simp] theorem retireTo_bindLock (x : Tenant) (pc n : Nat) (s : State) : (retireTo x pc n s).bindLock = s.bindLock := by rw [retireTo_only]
@[simp] theorem retireTo_shareLock (x : Tenant) (pc n : Nat) (s : State) : (retireTo x pc n s).shareLock = s.shareLock := by rw [retireTo_only]
@[simp] theorem retireTo_div (x : Tenant) (pc n : Nat) (s : State) : (retireTo x pc n s).div = s.div := by rw [retireTo_only]
@[simp] theorem retireTo_divNew (x : Tenant) (pc n : Nat) (s : State) : (retireTo x pc n s).divNew = s.divNew := by rw [retireTo_only]
@[simp] theorem retireTo_prof (x : Tenant) (pc n : Nat) (s : State) : (retireTo x pc n s).prof = s.prof := by rw [retireTo_only]
@[simp] theorem retireTo_loaded (x : Tenant) (pc n : Nat) (s : State) : (retireTo x pc n s).loaded = s.loaded := by rw [retireTo_only]
@[simp] theorem retireTo_v1 (x : Tenant) (pc n : Nat) (s : State) : (retireTo x pc n s).v1 = s.v1 := by rw [retireTo_only]
@[simp] theorem retireTo_bufs (x : Tenant) (pc n : Nat) (s : State) : (retireTo x pc n s).bufs = s.bufs := by rw [retireTo_only]
@[simp] theorem retireTo_bufPtr (x : Tenant) (pc n : Nat) (s : State) : (retireTo x pc n s).bufPtr = s.bufPtr := by rw [retireTo_only]
@[simp] theorem retireTo_radio (x : Tenant) (pc n : Nat) (s : State) : (retireTo x pc n s).radio = s.radio := by rw [retireTo_only]
@[simp] theorem retireTo_rdr (x : Tenant) (pc n : Nat) (s : State) : (retireTo x pc n s).rdr = s.rdr := by rw [retireTo_only]
@[simp] theorem retireTo_tag (x : Tenant) (pc n : Nat) (s : State) : (retireTo x pc n s).tag = s.tag := by rw [retireTo_only]
@[simp] theorem retireTo_sess (x : Tenant) (pc n : Nat) (s : State) : (retireTo x pc n s).sess = s.sess := by rw [retireTo_only]
@[simp] theorem retireTo_link (x : Tenant) (pc n : Nat) (s : State) : (retireTo x pc n s).link = s.link := by rw [retireTo_only]
@[simp] theorem retireTo_reel (x : Tenant) (pc n : Nat) (s : State) : (retireTo x pc n s).reel = s.reel := by rw [retireTo_only]
@[simp] theorem retireTo_bri (x : Tenant) (pc n : Nat) (s : State) : (retireTo x pc n s).bri = s.bri := by rw [retireTo_only]
@[simp] theorem retireTo_gdl (x : Tenant) (pc n : Nat) (s : State) : (retireTo x pc n s).gdl = s.gdl := by rw [retireTo_only]
@[simp] theorem retireTo_cvu (x : Tenant) (pc n : Nat) (s : State) : (retireTo x pc n s).cvu = s.cvu := by rw [retireTo_only]
@[simp] theorem retireTo_cvuLink (x : Tenant) (pc n : Nat) (s : State) : (retireTo x pc n s).cvuLink = s.cvuLink := by rw [retireTo_only]
@[simp] theorem retireTo_cvuRdr (x : Tenant) (pc n : Nat) (s : State) : (retireTo x pc n s).cvuRdr = s.cvuRdr := by rw [retireTo_only]
@[simp] theorem retireTo_store (x : Tenant) (pc n : Nat) (s : State) : (retireTo x pc n s).store = s.store := by rw [retireTo_only]
@[simp] theorem retireTo_ldg (x : Tenant) (pc n : Nat) (s : State) : (retireTo x pc n s).ldg = s.ldg := by rw [retireTo_only]
@[simp] theorem retireTo_svy (x : Tenant) (pc n : Nat) (s : State) : (retireTo x pc n s).svy = s.svy := by rw [retireTo_only]
@[simp] theorem retireTo_mend (x : Tenant) (pc n : Nat) (s : State) : (retireTo x pc n s).mend = s.mend := by rw [retireTo_only]
@[simp] theorem retireTo_epoch (x : Tenant) (pc n : Nat) (s : State) : (retireTo x pc n s).epoch = s.epoch := by rw [retireTo_only]
@[simp] theorem retireTo_serial (x : Tenant) (pc n : Nat) (s : State) : (retireTo x pc n s).serial = s.serial := by rw [retireTo_only]
@[simp] theorem retireTo_bufRound (x : Tenant) (pc n : Nat) (s : State) : (retireTo x pc n s).bufRound = s.bufRound := by rw [retireTo_only]
@[simp] theorem retireTo_turn (x : Tenant) (pc n : Nat) (s : State) : (retireTo x pc n s).turn = s.turn := by rw [retireTo_only]
@[simp] theorem retireTo_tap (x : Tenant) (pc n : Nat) (s : State) : (retireTo x pc n s).tap = s.tap := by rw [retireTo_only]
@[simp] theorem retireTo_free (x : Tenant) (pc n : Nat) (s : State) : (retireTo x pc n s).free = s.free := by rw [retireTo_only]

/-- The context after an instruction retired (R210, R217, R229). -/
theorem retireTo_ctx (x : Tenant) (pc n : Nat) (s : State) :
    (retireTo x pc n s).ctxs[(x : Nat)] = { s.ctxs[(x : Nat)] with
      pc := pc, cursor := s.ctxs[(x : Nat)].cursor + BitVec.ofNat 48 (n * cycleTicks s)
      cyc := min 0xFFFFFFFF (s.ctxs[(x : Nat)].cyc + n), wdog := s.ctxs[(x : Nat)].wdog + n
      issues := s.ctxs[(x : Nat)].issues + 1
      start := if s.ctxs[(x : Nat)].issues + 1 < 16 then s.ctxs[(x : Nat)].start else none
      early := if s.ctxs[(x : Nat)].issues + 1 < 16 ∨ s.ctxs[(x : Nat)].start = none then s.ctxs[(x : Nat)].early else [] } := by
  unfold retireTo; dsimp only; split
  · rename_i h
    simp at h
    simp [h]
  · rename_i h
    rw [finishStart_ctx]
    simp at h
    have h' : ¬ s.ctxs[(x : Nat)].issues + 1 < 16 := by omega
    cases hs : s.ctxs[(x : Nat)].start <;> simp [h', hs]

theorem retireTo_ctx_ne (x y : Tenant) (pc n : Nat) (s : State) (h : y ≠ x) :
    (retireTo x pc n s).ctxs[(y : Nat)] = s.ctxs[(y : Nat)] := by
  unfold retireTo; dsimp only; split
  · simp [vmod_ne _ _ _ _ h]
  · rw [finishStart_ctx_ne _ _ _ _ h]; simp [vmod_ne _ _ _ _ h]

theorem retireTo_ten_ne (x y : Tenant) (pc n : Nat) (s : State) (h : y ≠ x) :
    (retireTo x pc n s).tens[(y : Nat)] = s.tens[(y : Nat)] := by
  unfold retireTo; dsimp only; split
  · simp
  · rw [finishStart_ten_ne _ _ _ _ h]; simp

theorem retireTo_tens (x : Tenant) (pc n : Nat) (s : State)
    (h : s.ctxs[x].start = none ∨ s.ctxs[x].issues + 1 < 16) : (retireTo x pc n s).tens = s.tens := by
  simp only [Fin.getElem_fin] at h
  unfold retireTo; dsimp only; split
  · simp
  · rename_i hi
    rw [finishStart_idle]
    · simp
    · rcases h with h | h
      · simpa using h
      · simp at hi; omega

/-- Entering a wait changes the context, and its tenant's queues where the starting command completes. -/
theorem enterWait_only (x : Tenant) (p : Pend) (s : State) :
    enterWait x p s = { s with ctxs := (enterWait x p s).ctxs, tens := (enterWait x p s).tens } := by
  unfold enterWait; rw [finishStart_only]; rfl

theorem enterWait_ctx (x : Tenant) (p : Pend) (s : State) :
    (enterWait x p s).ctxs[(x : Nat)] = { s.ctxs[(x : Nat)] with
      run := .waiting, pend := some { p with epoch := opEpoch p.op s }, issues := s.ctxs[(x : Nat)].issues + 1, start := none
      early := if s.ctxs[(x : Nat)].start.isSome then [] else s.ctxs[(x : Nat)].early } := by
  unfold enterWait; rw [finishStart_ctx]; simp

@[simp] theorem enterWait_pending (x : Tenant) (p : Pend) (s : State) : (enterWait x p s).pending = s.pending := by rw [enterWait_only]
@[simp] theorem enterWait_power (x : Tenant) (p : Pend) (s : State) : (enterWait x p s).power = s.power := by rw [enterWait_only]
@[simp] theorem enterWait_ports (x : Tenant) (p : Pend) (s : State) : (enterWait x p s).ports = s.ports := by rw [enterWait_only]
@[simp] theorem enterWait_binding (x : Tenant) (p : Pend) (s : State) : (enterWait x p s).binding = s.binding := by rw [enterWait_only]
@[simp] theorem enterWait_bindLock (x : Tenant) (p : Pend) (s : State) : (enterWait x p s).bindLock = s.bindLock := by rw [enterWait_only]
@[simp] theorem enterWait_shareLock (x : Tenant) (p : Pend) (s : State) : (enterWait x p s).shareLock = s.shareLock := by rw [enterWait_only]
@[simp] theorem enterWait_div (x : Tenant) (p : Pend) (s : State) : (enterWait x p s).div = s.div := by rw [enterWait_only]
@[simp] theorem enterWait_divNew (x : Tenant) (p : Pend) (s : State) : (enterWait x p s).divNew = s.divNew := by rw [enterWait_only]
@[simp] theorem enterWait_prof (x : Tenant) (p : Pend) (s : State) : (enterWait x p s).prof = s.prof := by rw [enterWait_only]
@[simp] theorem enterWait_loaded (x : Tenant) (p : Pend) (s : State) : (enterWait x p s).loaded = s.loaded := by rw [enterWait_only]
@[simp] theorem enterWait_v1 (x : Tenant) (p : Pend) (s : State) : (enterWait x p s).v1 = s.v1 := by rw [enterWait_only]
@[simp] theorem enterWait_bufs (x : Tenant) (p : Pend) (s : State) : (enterWait x p s).bufs = s.bufs := by rw [enterWait_only]
@[simp] theorem enterWait_bufPtr (x : Tenant) (p : Pend) (s : State) : (enterWait x p s).bufPtr = s.bufPtr := by rw [enterWait_only]
@[simp] theorem enterWait_radio (x : Tenant) (p : Pend) (s : State) : (enterWait x p s).radio = s.radio := by rw [enterWait_only]
@[simp] theorem enterWait_rdr (x : Tenant) (p : Pend) (s : State) : (enterWait x p s).rdr = s.rdr := by rw [enterWait_only]
@[simp] theorem enterWait_tag (x : Tenant) (p : Pend) (s : State) : (enterWait x p s).tag = s.tag := by rw [enterWait_only]
@[simp] theorem enterWait_sess (x : Tenant) (p : Pend) (s : State) : (enterWait x p s).sess = s.sess := by rw [enterWait_only]
@[simp] theorem enterWait_link (x : Tenant) (p : Pend) (s : State) : (enterWait x p s).link = s.link := by rw [enterWait_only]
@[simp] theorem enterWait_reel (x : Tenant) (p : Pend) (s : State) : (enterWait x p s).reel = s.reel := by rw [enterWait_only]
@[simp] theorem enterWait_bri (x : Tenant) (p : Pend) (s : State) : (enterWait x p s).bri = s.bri := by rw [enterWait_only]
@[simp] theorem enterWait_gdl (x : Tenant) (p : Pend) (s : State) : (enterWait x p s).gdl = s.gdl := by rw [enterWait_only]
@[simp] theorem enterWait_cvu (x : Tenant) (p : Pend) (s : State) : (enterWait x p s).cvu = s.cvu := by rw [enterWait_only]
@[simp] theorem enterWait_cvuLink (x : Tenant) (p : Pend) (s : State) : (enterWait x p s).cvuLink = s.cvuLink := by rw [enterWait_only]
@[simp] theorem enterWait_cvuRdr (x : Tenant) (p : Pend) (s : State) : (enterWait x p s).cvuRdr = s.cvuRdr := by rw [enterWait_only]
@[simp] theorem enterWait_store (x : Tenant) (p : Pend) (s : State) : (enterWait x p s).store = s.store := by rw [enterWait_only]
@[simp] theorem enterWait_ldg (x : Tenant) (p : Pend) (s : State) : (enterWait x p s).ldg = s.ldg := by rw [enterWait_only]
@[simp] theorem enterWait_svy (x : Tenant) (p : Pend) (s : State) : (enterWait x p s).svy = s.svy := by rw [enterWait_only]
@[simp] theorem enterWait_mend (x : Tenant) (p : Pend) (s : State) : (enterWait x p s).mend = s.mend := by rw [enterWait_only]
@[simp] theorem enterWait_epoch (x : Tenant) (p : Pend) (s : State) : (enterWait x p s).epoch = s.epoch := by rw [enterWait_only]
@[simp] theorem enterWait_serial (x : Tenant) (p : Pend) (s : State) : (enterWait x p s).serial = s.serial := by rw [enterWait_only]
@[simp] theorem enterWait_bufRound (x : Tenant) (p : Pend) (s : State) : (enterWait x p s).bufRound = s.bufRound := by rw [enterWait_only]
@[simp] theorem enterWait_turn (x : Tenant) (p : Pend) (s : State) : (enterWait x p s).turn = s.turn := by rw [enterWait_only]
@[simp] theorem enterWait_tap (x : Tenant) (p : Pend) (s : State) : (enterWait x p s).tap = s.tap := by rw [enterWait_only]
@[simp] theorem enterWait_free (x : Tenant) (p : Pend) (s : State) : (enterWait x p s).free = s.free := by rw [enterWait_only]

theorem endWait_only (x : Tenant) (now : Tick) (f : Ctx → Ctx) (s : State) :
    endWait x now f s = { s with ctxs := (endWait x now f s).ctxs } := rfl

@[simp] theorem endWait_pending (x : Tenant) (now : Tick) (f : Ctx → Ctx) (s : State) : (endWait x now f s).pending = s.pending := rfl
@[simp] theorem endWait_power (x : Tenant) (now : Tick) (f : Ctx → Ctx) (s : State) : (endWait x now f s).power = s.power := rfl
@[simp] theorem endWait_ports (x : Tenant) (now : Tick) (f : Ctx → Ctx) (s : State) : (endWait x now f s).ports = s.ports := rfl
@[simp] theorem endWait_binding (x : Tenant) (now : Tick) (f : Ctx → Ctx) (s : State) : (endWait x now f s).binding = s.binding := rfl
@[simp] theorem endWait_bindLock (x : Tenant) (now : Tick) (f : Ctx → Ctx) (s : State) : (endWait x now f s).bindLock = s.bindLock := rfl
@[simp] theorem endWait_shareLock (x : Tenant) (now : Tick) (f : Ctx → Ctx) (s : State) : (endWait x now f s).shareLock = s.shareLock := rfl
@[simp] theorem endWait_div (x : Tenant) (now : Tick) (f : Ctx → Ctx) (s : State) : (endWait x now f s).div = s.div := rfl
@[simp] theorem endWait_divNew (x : Tenant) (now : Tick) (f : Ctx → Ctx) (s : State) : (endWait x now f s).divNew = s.divNew := rfl
@[simp] theorem endWait_tens (x : Tenant) (now : Tick) (f : Ctx → Ctx) (s : State) : (endWait x now f s).tens = s.tens := rfl
@[simp] theorem endWait_prof (x : Tenant) (now : Tick) (f : Ctx → Ctx) (s : State) : (endWait x now f s).prof = s.prof := rfl
@[simp] theorem endWait_loaded (x : Tenant) (now : Tick) (f : Ctx → Ctx) (s : State) : (endWait x now f s).loaded = s.loaded := rfl
@[simp] theorem endWait_v1 (x : Tenant) (now : Tick) (f : Ctx → Ctx) (s : State) : (endWait x now f s).v1 = s.v1 := rfl
@[simp] theorem endWait_bufs (x : Tenant) (now : Tick) (f : Ctx → Ctx) (s : State) : (endWait x now f s).bufs = s.bufs := rfl
@[simp] theorem endWait_bufPtr (x : Tenant) (now : Tick) (f : Ctx → Ctx) (s : State) : (endWait x now f s).bufPtr = s.bufPtr := rfl
@[simp] theorem endWait_radio (x : Tenant) (now : Tick) (f : Ctx → Ctx) (s : State) : (endWait x now f s).radio = s.radio := rfl
@[simp] theorem endWait_rdr (x : Tenant) (now : Tick) (f : Ctx → Ctx) (s : State) : (endWait x now f s).rdr = s.rdr := rfl
@[simp] theorem endWait_tag (x : Tenant) (now : Tick) (f : Ctx → Ctx) (s : State) : (endWait x now f s).tag = s.tag := rfl
@[simp] theorem endWait_sess (x : Tenant) (now : Tick) (f : Ctx → Ctx) (s : State) : (endWait x now f s).sess = s.sess := rfl
@[simp] theorem endWait_link (x : Tenant) (now : Tick) (f : Ctx → Ctx) (s : State) : (endWait x now f s).link = s.link := rfl
@[simp] theorem endWait_reel (x : Tenant) (now : Tick) (f : Ctx → Ctx) (s : State) : (endWait x now f s).reel = s.reel := rfl
@[simp] theorem endWait_bri (x : Tenant) (now : Tick) (f : Ctx → Ctx) (s : State) : (endWait x now f s).bri = s.bri := rfl
@[simp] theorem endWait_gdl (x : Tenant) (now : Tick) (f : Ctx → Ctx) (s : State) : (endWait x now f s).gdl = s.gdl := rfl
@[simp] theorem endWait_cvu (x : Tenant) (now : Tick) (f : Ctx → Ctx) (s : State) : (endWait x now f s).cvu = s.cvu := rfl
@[simp] theorem endWait_cvuLink (x : Tenant) (now : Tick) (f : Ctx → Ctx) (s : State) : (endWait x now f s).cvuLink = s.cvuLink := rfl
@[simp] theorem endWait_cvuRdr (x : Tenant) (now : Tick) (f : Ctx → Ctx) (s : State) : (endWait x now f s).cvuRdr = s.cvuRdr := rfl
@[simp] theorem endWait_store (x : Tenant) (now : Tick) (f : Ctx → Ctx) (s : State) : (endWait x now f s).store = s.store := rfl
@[simp] theorem endWait_ldg (x : Tenant) (now : Tick) (f : Ctx → Ctx) (s : State) : (endWait x now f s).ldg = s.ldg := rfl
@[simp] theorem endWait_svy (x : Tenant) (now : Tick) (f : Ctx → Ctx) (s : State) : (endWait x now f s).svy = s.svy := rfl
@[simp] theorem endWait_mend (x : Tenant) (now : Tick) (f : Ctx → Ctx) (s : State) : (endWait x now f s).mend = s.mend := rfl
@[simp] theorem endWait_epoch (x : Tenant) (now : Tick) (f : Ctx → Ctx) (s : State) : (endWait x now f s).epoch = s.epoch := rfl
@[simp] theorem endWait_serial (x : Tenant) (now : Tick) (f : Ctx → Ctx) (s : State) : (endWait x now f s).serial = s.serial := rfl
@[simp] theorem endWait_bufRound (x : Tenant) (now : Tick) (f : Ctx → Ctx) (s : State) : (endWait x now f s).bufRound = s.bufRound := rfl
@[simp] theorem endWait_turn (x : Tenant) (now : Tick) (f : Ctx → Ctx) (s : State) : (endWait x now f s).turn = s.turn := rfl
@[simp] theorem endWait_tap (x : Tenant) (now : Tick) (f : Ctx → Ctx) (s : State) : (endWait x now f s).tap = s.tap := rfl
@[simp] theorem endWait_free (x : Tenant) (now : Tick) (f : Ctx → Ctx) (s : State) : (endWait x now f s).free = s.free := rfl

/-- Marking a run as begun: its cursor takes Reel at the first issue (R210). -/
def freshen (x : Tenant) (s : State) : State :=
  if s.ctxs[x].fresh then modCtx x (fun k => { k with fresh := false, cursor := s.reel.cnt }) s else s

theorem issueMoment_eq (x : Tenant) (s : State) : issueMoment x s = advanceTo (freshen x s).ctxs[x].cursor (freshen x s) := rfl

/-- The moment of issue leaves alone what the passing of time does. -/
theorem issueMoment_still (x : Tenant) (s : State) : stillPart (issueMoment x s) = stillPart s := by
  rw [issueMoment_eq, advanceTo_still]
  exact ite_still (modCtx_still _ _ _) rfl

@[simp] theorem issueMoment_pending (x : Tenant) (s : State) : (issueMoment x s).pending = s.pending := by
  have h := issueMoment_still x s; simp only [stillPart, Prod.mk.injEq] at h; simp only [h]
@[simp] theorem issueMoment_power (x : Tenant) (s : State) : (issueMoment x s).power = s.power := by
  have h := issueMoment_still x s; simp only [stillPart, Prod.mk.injEq] at h; simp only [h]
@[simp] theorem issueMoment_binding (x : Tenant) (s : State) : (issueMoment x s).binding = s.binding := by
  have h := issueMoment_still x s; simp only [stillPart, Prod.mk.injEq] at h; simp only [h]
@[simp] theorem issueMoment_bindLock (x : Tenant) (s : State) : (issueMoment x s).bindLock = s.bindLock := by
  have h := issueMoment_still x s; simp only [stillPart, Prod.mk.injEq] at h; simp only [h]
@[simp] theorem issueMoment_shareLock (x : Tenant) (s : State) : (issueMoment x s).shareLock = s.shareLock := by
  have h := issueMoment_still x s; simp only [stillPart, Prod.mk.injEq] at h; simp only [h]
@[simp] theorem issueMoment_div (x : Tenant) (s : State) : (issueMoment x s).div = s.div := by
  have h := issueMoment_still x s; simp only [stillPart, Prod.mk.injEq] at h; simp only [h]
@[simp] theorem issueMoment_divNew (x : Tenant) (s : State) : (issueMoment x s).divNew = s.divNew := by
  have h := issueMoment_still x s; simp only [stillPart, Prod.mk.injEq] at h; simp only [h]
@[simp] theorem issueMoment_prof (x : Tenant) (s : State) : (issueMoment x s).prof = s.prof := by
  have h := issueMoment_still x s; simp only [stillPart, Prod.mk.injEq] at h; simp only [h]
@[simp] theorem issueMoment_v1 (x : Tenant) (s : State) : (issueMoment x s).v1 = s.v1 := by
  have h := issueMoment_still x s; simp only [stillPart, Prod.mk.injEq] at h; simp only [h]
@[simp] theorem issueMoment_bufs (x : Tenant) (s : State) : (issueMoment x s).bufs = s.bufs := by
  have h := issueMoment_still x s; simp only [stillPart, Prod.mk.injEq] at h; simp only [h]
@[simp] theorem issueMoment_bufPtr (x : Tenant) (s : State) : (issueMoment x s).bufPtr = s.bufPtr := by
  have h := issueMoment_still x s; simp only [stillPart, Prod.mk.injEq] at h; simp only [h]
@[simp] theorem issueMoment_bufRound (x : Tenant) (s : State) : (issueMoment x s).bufRound = s.bufRound := by
  have h := issueMoment_still x s; simp only [stillPart, Prod.mk.injEq] at h; simp only [h]
@[simp] theorem issueMoment_tag (x : Tenant) (s : State) : (issueMoment x s).tag = s.tag := by
  have h := issueMoment_still x s; simp only [stillPart, Prod.mk.injEq] at h; simp only [h]
@[simp] theorem issueMoment_bri (x : Tenant) (s : State) : (issueMoment x s).bri = s.bri := by
  have h := issueMoment_still x s; simp only [stillPart, Prod.mk.injEq] at h; simp only [h]
@[simp] theorem issueMoment_gdl (x : Tenant) (s : State) : (issueMoment x s).gdl = s.gdl := by
  have h := issueMoment_still x s; simp only [stillPart, Prod.mk.injEq] at h; simp only [h]
@[simp] theorem issueMoment_cvu (x : Tenant) (s : State) : (issueMoment x s).cvu = s.cvu := by
  have h := issueMoment_still x s; simp only [stillPart, Prod.mk.injEq] at h; simp only [h]
@[simp] theorem issueMoment_cvuLink (x : Tenant) (s : State) : (issueMoment x s).cvuLink = s.cvuLink := by
  have h := issueMoment_still x s; simp only [stillPart, Prod.mk.injEq] at h; simp only [h]
@[simp] theorem issueMoment_cvuRdr (x : Tenant) (s : State) : (issueMoment x s).cvuRdr = s.cvuRdr := by
  have h := issueMoment_still x s; simp only [stillPart, Prod.mk.injEq] at h; simp only [h]
@[simp] theorem issueMoment_store (x : Tenant) (s : State) : (issueMoment x s).store = s.store := by
  have h := issueMoment_still x s; simp only [stillPart, Prod.mk.injEq] at h; simp only [h]
@[simp] theorem issueMoment_ldg (x : Tenant) (s : State) : (issueMoment x s).ldg = s.ldg := by
  have h := issueMoment_still x s; simp only [stillPart, Prod.mk.injEq] at h; simp only [h]
@[simp] theorem issueMoment_epoch (x : Tenant) (s : State) : (issueMoment x s).epoch = s.epoch := by
  have h := issueMoment_still x s; simp only [stillPart, Prod.mk.injEq] at h; simp only [h]
@[simp] theorem issueMoment_serial (x : Tenant) (s : State) : (issueMoment x s).serial = s.serial := by
  have h := issueMoment_still x s; simp only [stillPart, Prod.mk.injEq] at h; simp only [h]
@[simp] theorem issueMoment_turn (x : Tenant) (s : State) : (issueMoment x s).turn = s.turn := by
  have h := issueMoment_still x s; simp only [stillPart, Prod.mk.injEq] at h; simp only [h]
@[simp] theorem issueMoment_tap (x : Tenant) (s : State) : (issueMoment x s).tap = s.tap := by
  have h := issueMoment_still x s; simp only [stillPart, Prod.mk.injEq] at h; simp only [h]

/-- With no timed send and no frame on its way to its commit point, the moment of issue moves the clock and the cursor of a fresh
run, nothing else. -/
theorem issueMoment_quiet (x : Tenant) (s : State) (hn : nextStop (freshen x s) = none) (ho : s.rdr.opening = none) :
    issueMoment x s = if reelCounts s && reached (freshen x s).ctxs[x].cursor s.reel.cnt
      then clockTo (freshen x s).ctxs[x].cursor (freshen x s) else freshen x s := by
  have h1 : (freshen x s).rdr = s.rdr := by unfold freshen; split <;> rfl
  have h2 : reelCounts (freshen x s) = reelCounts s := by unfold freshen; split <;> rfl
  have h3 : (freshen x s).reel = s.reel := by unfold freshen; split <;> rfl
  rw [issueMoment_eq, advanceTo_quiet _ _ hn (by rw [h1]; exact ho), h2, h3]

/-- At a quiet issue a context keeps all but the cursor and the mark of a fresh run. -/
theorem issueMoment_ctx (x y : Tenant) (s : State) (hn : nextStop (freshen x s) = none) (ho : s.rdr.opening = none) :
    (issueMoment x s).ctxs[(y : Nat)] = { s.ctxs[(y : Nat)] with
      cursor := (issueMoment x s).ctxs[(y : Nat)].cursor, fresh := (issueMoment x s).ctxs[(y : Nat)].fresh } := by
  have hf : (freshen x s).ctxs[(y : Nat)] = { s.ctxs[(y : Nat)] with
      cursor := (freshen x s).ctxs[(y : Nat)].cursor, fresh := (freshen x s).ctxs[(y : Nat)].fresh } := by
    unfold freshen; split
    · simp only [modCtx_ctxs, vmod_get]; split
      · rename_i h; subst h; rfl
      · rfl
    · rfl
  rw [issueMoment_quiet x s hn ho]
  split
  · rw [clockTo_only]; exact hf
  · exact hf

/-- An own program issues the word that stands at its PC (R205). -/
theorem issue_word (x : Tenant) (w : BitVec 32) (body : State → State) (s : State) (hl : live s = true)
    (hr : s.ctxs[x].run = .running) (hb : isBuiltin s.ctxs[x] = false) (hp : s.ctxs[x].pc < s.ctxs[x].codeLen)
    (hs : s.ctxs[x].stopping = none) (hw : memWord s.ctxs[x].code s.ctxs[x].pc = w) : issue x w body s = body (issueMoment x s) := by
  unfold issue; dsimp only
  rw [if_pos (by rw [hr, hl]; rfl), if_neg (by rw [hb]; decide), if_neg (by rw [hs]; simp), if_neg (by omega), if_pos hw]

/-- Past the code every word faults with code 5 (R205). -/
theorem issue_past (x : Tenant) (w : BitVec 32) (body : State → State) (s : State) (hl : live s = true)
    (hr : s.ctxs[x].run = .running) (hb : isBuiltin s.ctxs[x] = false) (hp : s.ctxs[x].codeLen ≤ s.ctxs[x].pc)
    (hs : s.ctxs[x].stopping = none) :
    issue x w body s = spoolFault x 5 (issueMoment x s) := by
  unfold issue; dsimp only
  rw [if_pos (by rw [hr, hl]; rfl), if_neg (by rw [hb]; decide), if_neg (by rw [hs]; simp), if_pos hp]

end Sys2Proof.Machine
end

