-- ==== Sys2Proof/Machine/Pins.lean ====
section
/-!
DEFINITION. The levels of the output pins (Table 2-2), each read off the state that decides it.
-/
namespace Sys2Proof.Machine

/-- The level of an output pin: driven low or high, or not driven (high impedance, released, output off). -/
inductive Lvl where
  | low | high | z
  deriving DecidableEq, Repr

/-- A driven level. -/
def lvl (b : Bool) : Lvl := if b then .high else .low

/-- The output pins of Table 2-2 between two transactions of a port; what a port's data lines carried in the last one stands in
`PortSt.line`, `PortSt.acks` and `V1St.out`. PABIAS is a voltage in mV; RDTX and the oscillators are on or off; LKA and LKB carry the pulses of the link frame that is on the air. -/
structure Pins where
  rdtx    : Bool
  lka     : List Pulse
  lkb     : List Pulse
  paen    : Lvl
  pabias  : Nat
  asel    : Vector Lvl 2
  trsw    : Lvl
  femen   : Lvl
  xo24    : Bool
  xo32    : Bool
  fd      : Lvl
  coexReq : Lvl
  coexPri : Lvl
  spaSdo  : Lvl
  spbSdo  : Lvl
  i2cScl  : Lvl
  i2cSda  : Lvl
  uaTxd   : Lvl
  uaDe    : Lvl
  irq     : Vector Lvl 4
  tout    : Vector Lvl 4
  tdo     : Lvl
  deriving DecidableEq, Repr

/-- A tenant's IRQ pin is low while it has an outgoing frame pending (R19, R121); with SPI-A in V1 mode IRQ_A is low while
V1_IRQFLG AND V1_IRQEN is not zero (R131), in every power state. Log entry 67 DEDUCED. -/
def irqLow (s : State) (t : Tenant) : Bool :=
  if t = 0 ∧ s.power.strapV1 then (s.v1.irqflg &&& s.v1.irqen) != 0 else outPending s t

/-- The pulses that a link aerial sends: those of the frame on its way there, while TRSW is high (R382 to R384, R395). -/
def linkPulses (lkb : Bool) (s : State) : List Pulse :=
  match s.link.onAir with
  | some f => if f.lkb = lkb ∧ trswHigh s then chipPulses (phyChips f.lane s.link.sentPsdu) else []
  | none => []

/-- UA_DE is high while the UART sends: in full duplex as long as a frame waits that it may send, in half duplex during a reply
(R107, R109). -/
def uartDriving (s : State) : Bool :=
  live s && (if halfDuplex s then uartSending s else (nextOut 3 s).isSome)

/-- FEMEN is low in reset and in SLEEP (R38, Table 2-2); the spec does not give its level otherwise, so it is free there.
Log entry 67 DESIGN CHOICE. -/
def femenHigh (s : State) : Bool :=
  match s.power.mode with
  | .reset | .sleep => false
  | _ => Config.femen (coreIndex (coreState .link s))

/-- XO24 runs in every state but reset, SLEEP, HOLD, LOCKOUT and LIMP (Tables 2-2, 3-4, R84). -/
def xo24Driven (s : State) : Bool :=
  match s.power.mode with
  | .start | .stuck | .run | .waking | .drill | .factory => true
  | _ => false

/-- A pin of the VIO domain is not driven while VIO is lost (R36, Table 2-5). -/
def vioPin (s : State) (b : Bool) : Lvl := if s.power.vioLost then .z else lvl b

/-- The output pins of a state (Table 2-2, R31, R36, R38, R54). In reset and in factory test mode nothing but the Reset column holds,
since the blocks stand as reset leaves them. Log entry 67 DEDUCED. -/
def pins (s : State) : Pins :=
  let v := vioPin s
  { rdtx := s.rdr.carrier.isSome
    lka := linkPulses false s
    lkb := linkPulses true s
    paen := v (paenHigh s)
    pabias := paBias s
    asel := #v[v ((aerialNow s).val % 2 == 1), v (2 ≤ (aerialNow s).val)]
    trsw := v (trswHigh s)
    femen := v (femenHigh s)
    xo24 := xo24Driven s
    xo32 := !s.power.xo32Gone
    fd := v s.tag.fd
    coexReq := v (coexReq s)
    coexPri := v (coexPri s)
    spaSdo := .z
    spbSdo := .z
    i2cScl := .z
    i2cSda := .z
    uaTxd := v true
    uaDe := v (uartDriving s)
    irq := Vector.ofFn fun t => v (!irqLow s t)
    tout := s.reel.touts.map fun (o : TimerOut) => v (toutPin s.reel.cnt o)
    tdo := match s.tap.tdo with | some b => v b | none => .z }

end Sys2Proof.Machine
end

