-- ==== Sys2Proof/WellFormed.lean ====
section
/-!
DEFINITION. Which commands and happenings the outside world can send at all. The machine takes every term of `Instr`;
a term that fails these checks describes nothing the spec knows.
-/
namespace Sys2Proof

/-- A frame's payload is at most 1,024 bytes, two of them OPCODE (Table 6-1). -/
def Cmd.wf (c : Cmd) : Bool := decide (c.args.length ≤ 1022)

/-- A received link frame is 1 to 255 bytes, 127 in S-mode, and its EVM saturates at 1,000 (Table 13-4, R401). -/
def RxFrame.wf (f : RxFrame) : Bool :=
  decide (1 ≤ f.psdu.length ∧ f.psdu.length ≤ (if f.lane = 5 then 127 else 255) ∧ f.evm ≤ 1000)

/-- A sample lies in the converter's range (R549). -/
def Sample.wf (m : Sample) : Bool :=
  decide (m.vin ≤ 6000 ∧ m.vpa ≤ 6000 ∧ m.vio ≤ 6000 ∧ m.vhu ≤ 6000)

/-- The form of a row's own operands: a Keel command's argument length, the ranges that a finding, a frame, a sample or a
pulse can have at all. Log entry 60 DESIGN CHOICE. -/
def Instr.wf : Instr → Bool
  | .sysInfo c | .sysSleep c | .sysReset c _ _ | .sysPatch c | .tenBind c | .tenLock c | .tenShare c | .regRead c
  | .regWrite c | .rdrInventory c | .rdrStop c | .rdrAccess c | .rdrSniff c | .rdrBaseline c _ | .rdrRunSpool c
  | .rdrReset c | .tagEnable c | .tagDisable c | .tagPublish c | .secTam1 c | .secFarzOpen c | .secFarzSend c
  | .secClose c | .lnkNode c | .lnkSend c | .lnkListen c | .lnkCancel c | .lnkRunSpool c | .lnkReset c | .nbrList c
  | .nbrForget c | .radioStatus c | .coexConfig c | .radioHoptable c | .tmrRead c | .tmrCmp c | .tmrDc c | .tmrGo c
  | .tmrCap c | .tmrOut c | .keyDerive c | .keyUnwrap c | .keyErase c | .keyInvalidate c | .keyInfo c | .keyTamper c _
  | .rngGet c | .cryptoAes c | .cryptoCcm c | .cryptoCmac c | .cryptoReset c | .mbxBind c | .mbxLock c | .mbxWrite c
  | .mbxRead c | .semTake c | .semGive c | .cvuSet c | .cvuRun c | .nvmRead c | .nvmWrite c | .nvmBallast c
  | .nvmStatus c | .ledgerConfig c | .ledgerOwner c | .ledgerRead c | .ledgerAck c | .ledgerStatus c | .clockSet c
  | .measSweep c | .measSubscribe c | .measPartners c | .mendStatus c | .mendWindow c
  | .spoolLoad c | .spoolStart c | .spoolStop c | .spoolStatus c | .spoolReset c
    => c.wf
  | .measSnapshot c m => c.wf && m.wf
  | .hostFrame _ _ d _ => decide (d.length % 8 = 0)
  | .spiInvalidTransaction p first => decide (p.val ≤ 1 ∧ first ≠ 0x5A ∧ first ≠ 0x00)
  | .spiPortResetSequence p => decide (p.val ≤ 1)
  | .frameAbort p => decide (p.val ≤ 2)
  | .linkFrameReceived f _ | .ackReceived _ f => f.wf
  | .lrxComplete _ _ (some f) => f.wf
  | .surveySample _ m | .telemetrySnapshot _ m => m.wf
  | .coldSectorMove n => decide (3 ≤ n ∧ n ≤ 127)
  | .uartHdxReply n => decide (1 ≤ n ∧ n ≤ 4)
  | _ => true

end Sys2Proof
end

