-- ==== Sys2Proof/Tests/Slice0.lean ====
section
/-!
SUPPORT. Tests: values that the spec works out itself, ill-formed terms, and for every obligation with hypotheses a theorem
that shows states and operands meeting them, at the ends of their ranges.
-/
namespace Sys2Proof.Tests
open Sys2Proof.Machine
set_option Elab.async false
set_option linter.unusedVariables false
set_option linter.unreachableTactic false
set_option linter.unusedTactic false

/-- The part in STANDBY, everything else as after reset. -/
def run0 : State := setPower (fun p => { p with mode := .run }) State.reset

/-- The same in LIMP. -/
def limp0 : State := setPower (fun p => { p with mode := .limp }) State.reset

/-- A command of tenant t with the given argument bytes. -/
def cm (t : Tenant) (a : Bytes) : Cmd := { t := t, seq := 7, args := a }

/-- The state in which a taken-up command runs. -/
def up (op : BitVec 16) (c : Cmd) (s : State) : State := serve c.t (fun q => { q with exec := some (jobOf op c s) }) s

/-- Nothing hinders the tenant's command. -/
def free (c : Cmd) (s : State) : Bool :=
  tenantHeard c.t s && isTurn s c.t && s.tens[c.t].exec.isNone && s.tens[c.t].cmdQ.isEmpty &&
    decide (outstanding s.tens[c.t] < 8)

theorem taken_up {op : BitVec 16} {c : Cmd} {s : State} (h : free c s = true) : Taken op c s (up op c s) := by
  simp only [free, Bool.and_eq_true, Option.isNone_iff_eq_none, List.isEmpty_iff, decide_eq_true_eq] at h
  obtain ⟨⟨⟨⟨h1, h2⟩, h3⟩, h4⟩, h5⟩ := h
  simp only [Taken, takeUp, up, h1, h2, h3, h4, h5, Bool.and_self, if_true]

/-- Some command is taken up as opcode op in some state so that P holds of it and of the state it runs in. -/
def Can (op : BitVec 16) (P : Cmd → State → Prop) : Prop := ∃ c s u, Taken op c s u ∧ P c u

theorem can {op : BitVec 16} {P : Cmd → State → Prop} (c : Cmd) (s : State) (h : free c s = true) (p : P c (up op c s)) :
    Can op P := ⟨c, s, _, taken_up h, p⟩

/-- A patch image of one byte for slot 7, LEVEL 1. -/
def patchArgs : Bytes :=
  [0x50, 0x4B, 7, 0, 3, 2, 0, 0, 1, 0, 1, 0] ++ List.replicate 65 0

/-- Tenant x's own one-word program is about to issue the word. -/
def own (x : Tenant) (w : BitVec 32) (s : State) : State :=
  modCtx x (fun k => { k with run := .running, codeLen := 1, code := memPutWord [] 0 w }) s

theorem own_word (x : Tenant) (w : BitVec 32) : AtWord x w (own x w run0) := by
  have h : (own x w run0).ctxs[x] = { run0.ctxs[x] with run := .running, codeLen := 1, code := memPutWord [] 0 w } := by
    simp [own, modCtx, vmod]
  have hl : live (own x w run0) = true := rfl
  have h0 : run0.ctxs[x] = Ctx.reset := by simp [run0, setPower, State.reset]
  refine ⟨hl, by rw [h], by rw [h, h0]; rfl, by rw [h, h0]; rfl, by rw [h, h0]; exact Nat.zero_lt_one, ?_⟩
  rw [h, h0]
  have hb : ∀ i < 4, memGet (memPutWord [] 0 w) i = (leBytes 4 w.toNat).getD i 0 := by
    intro i hi
    rw [memPutWord, memGet_memPutAll _ _ _ _ rfl, leBytes_length]
    simp [hi]
  have hg : memGetAll (memPutWord [] 0 w) (4 * 0) 4 = leBytes 4 w.toNat := by
    have := hb 0 (by omega); have := hb 1 (by omega); have := hb 2 (by omega); have := hb 3 (by omega)
    simp_all [memGetAll, List.range, List.range.loop, leBytes]
  show BitVec.ofNat 32 (leNat (memGetAll (memPutWord [] 0 w) (4 * 0) 4)) = w
  rw [hg, leNat_leBytes 4 w.toNat (by have := w.isLt; omega)]
  simp

/-- `AtInstr`, computed. -/
def atB (x : Tenant) (i : Instr) (s : State) : Bool :=
  match spoolWord i with
  | some (y, w) => y == x && decide (live s = true ∧ s.ctxs[x].run = .running ∧ isBuiltin s.ctxs[x] = false ∧
      s.ctxs[x].stopping = none ∧ s.ctxs[x].pc < s.ctxs[x].codeLen ∧ memWord s.ctxs[x].code s.ctxs[x].pc = w)
  | none => false

theorem at_instr {x : Tenant} {i : Instr} {s : State} (h : atB x i s = true) : AtInstr x i s := by
  unfold atB at h
  split at h
  · rename_i y w e
    simp only [Bool.and_eq_true, beq_iff_eq, decide_eq_true_eq] at h
    obtain ⟨rfl, h⟩ := h
    exact ⟨w, e, h⟩
  · cases h

/-- Context 0's own program is about to issue the instruction, with A and B as given, buffer 3 held, both cores tuned. -/
def prog (i : Instr) (a b : Reg32) (s : State) : State :=
  match spoolWord i with
  | some (_, w) => own 0 w (modCtx 0 (fun k => { k with held := [3], tunedR := true, tunedL := true,
                                                        regs := (k.regs.set 2 a).set 3 b }) s)
  | none => s

/-- A hold of one core's air. -/
def hold (core : CoreId) (who : Who) : Hold :=
  { req := { core := core, who := who, cls := 3, freq := 1000, since := 0, gnt := false, wait := 0, noWait := false },
    granted := 0, commit := none, ends := none }

/-- Someone holds the reader core's air, its synthesizer locked. -/
def airR (who : Who) : State → State := setRadio fun r => { r with rState := .synth, rHold := some (hold .reader who) }
/-- Someone holds the link core's air. -/
def airL (who : Who) : State → State := setRadio fun r => { r with lState := .synth, lHold := some (hold .link who) }

/-- Context 0 waits in a W instruction that completes at tick 50. -/
def wait (op : WaitOp) (a : Reg32) (fn : BitVec 14) (noAir : Bool) : State → State :=
  modCtx 0 fun k => { k with
    run := .waiting
    pend := some { op := op, d := 1, a := a, b := 0, fn := fn, issued := 0, until_ := 50, noAir := noAir,
                   epoch := 0 } }

/-- The wrapping key of slot 0's blob, its GEN and the root's 0 (R472). -/
def blobKey0 : Bytes := kdf (kdf l0 lblTenant [0, 0, 0] 256) lblBlob [0, 0, 0] 128
/-- A wait of an instruction that completes at tick 50. -/
def pend0 (op : WaitOp) : Pend :=
  { op := op, d := 1, a := 0, b := 0, fn := 0, issued := 0, until_ := 50, noAir := false, epoch := 0 }
/-- Context 0 waits in that. -/
def pended (p : Pend) : State → State := modCtx 0 fun k => { k with run := .waiting, pend := some p }
/-- The same in a built-in program. -/
def builtin (p : Pend) (s : State) : State := modCtx 0 (fun k => { k with starter := .builtin }) (pended p s)

/-- An imported key of sixteen zero bytes, wrapped under tenant 0's root. -/
def key0 (c : KeyClass) : Key :=
  { cls := c, aes256 := false, expire := false, imported := true, clear := true, level := 2, parent := 48, pgen := 0,
    life := 0, uses := 0, src := .blob 0 (kwWrap blobKey0 (List.replicate 16 0)) }
/-- Key slot 0 of tenant 0 holds that key, and the DRBG is instantiated. -/
def keyed (c : KeyClass) (s : State) : State :=
  setBri (fun b => { b with rootOk := true, drbgOk := true }) (modSlot 0 (fun q => { q with key := some (key0 c) }) s)

/-- Nothing but the value of slot 0 could keep a tenant from using it. -/
def fit (t : Tenant) (ok : KeyClass → Bool) (c : KeyClass) (s : State) : Bool :=
  !s.bri.slots[(0 : Fin 48)].bad && s.bri.roots[(0 : Tenant)] == 0 && slotOwner 0 == t && s.bri.rootOk &&
    !s.mend.keyram.getLsbD 0 && ok c && !orphaned s 5 0

/-- The blob of slot 0 reads as the sixteen zero bytes. -/
theorem keyed_value {s : State} {c : KeyClass} (h : s.bri.slots[(0 : Fin 48)].key = some (key0 c))
    (hb : s.bri.slots[(0 : Fin 48)].bad = false) (hr : s.bri.roots[(0 : Tenant)] = 0) :
    keyValue s 5 0 = some (List.replicate 16 0) := by
  have hk : blobKey 0 0 s = blobKey0 := by
    simp only [blobKey, tenantRoot]
    rw [show slotOwner 0 = 0 from rfl, hr]
    rfl
  simp only [keyValue, h, hb, key0, hk, Bool.false_eq_true, if_false]
  refine kwUnwrap_kwWrap blobKey0 [List.replicate 8 0, List.replicate 8 0] ?_ (by decide) (by decide) (by decide)
  rw [← hk, blobKey_length]

/-- No check refuses slot 0. -/
theorem keyed_open {t : Tenant} {n : Nat} {ok : KeyClass → Bool} {c : KeyClass} {s : State} (hn : slotNo n = some 0)
    (h : s.bri.slots[(0 : Fin 48)].key = some (key0 c)) (f : fit t ok c s = true) : keyRefusal t n ok s = none := by
  simp only [fit, Bool.and_eq_true, Bool.not_eq_true', beq_iff_eq] at f
  obtain ⟨⟨⟨⟨⟨⟨h1, h2⟩, h3⟩, h4⟩, h5⟩, h6⟩, h7⟩ := f
  have h8 : (0 : Fin 48).val = 0 := rfl
  have h9 : (key0 c).cls = c := rfl
  simp only [keyRefusal, hn, h, h3, h4, h5, h7, h8, h9, h6, keyed_value h h1 h2, ne_eq, not_true_eq_false, if_false, Bool.not_true,
    Bool.false_eq_true, Option.isNone_some]

/-- Slot 0 may be a parent or a wrapping key. -/
theorem keyed_parent {t : Tenant} {n : Nat} {ok : KeyClass → Bool} {c : KeyClass} {s : State} (hn : slotNo n = some 0)
    (h : s.bri.slots[(0 : Fin 48)].key = some (key0 c)) (f : fit t ok c s = true) : parentRefusal t n ok s = none := by
  have h9 : (key0 c).level = 2 := rfl
  simp only [parentRefusal, hn, keyed_open hn h f, h, h9]
  simp

/-- The key of slot 0 serves for one use, as sixteen zero bytes. -/
theorem keyed_use {t : Tenant} {n : Nat} {ok : KeyClass → Bool} {c : KeyClass} {s : State} (hn : slotNo n = some 0)
    (h : s.bri.slots[(0 : Fin 48)].key = some (key0 c)) (f : fit t ok c s = true) (hc : (chargeKey 0 1 s).isSome = true) :
    ∃ w, useKey t n ok s = .ok (List.replicate 16 0, w) := by
  obtain ⟨w, hw⟩ := Option.isSome_iff_exists.mp hc
  have f' := f
  simp only [fit, Bool.and_eq_true, Bool.not_eq_true', beq_iff_eq] at f'
  obtain ⟨⟨⟨⟨⟨⟨h1, h2⟩, _⟩, _⟩, _⟩, _⟩, _⟩ := f'
  exact ⟨cacheKey 0 w, by simp only [useKey, keyed_open hn h f, hn, keyed_value h h1 h2, hw]⟩

/-- Slot 0 serves for one beacon. -/
theorem beacon_key {c : KeyClass} {s : State} (hf : noFrameLeft 0 s = false) (h : s.bri.slots[(0 : Fin 48)].key = some (key0 c))
    (f : fit 0 isEnc c s = true) (hc : (chargeKey 0 1 s).isSome = true) :
    ∃ w, beaconKey 0 s = some (List.replicate 16 0, (takeFrame 0 w).1, (takeFrame 0 w).2) := by
  obtain ⟨w, e⟩ := keyed_use (n := (0 : Fin 48).val) rfl h f hc
  exact ⟨w, by simp only [beaconKey, hf, show slotOwner 0 = 0 from rfl, e, Bool.false_eq_true, if_false]⟩

theorem drbgTake_eq {n : Nat} {s : State} (h : s.bri.drbgOk = true) :
    drbgTake n s = some ((drbgGenerate { key := s.bri.drbgKey, v := s.bri.drbgV } n).1,
      setBri (fun b => { b with
        drbgKey := (drbgGenerate { key := s.bri.drbgKey, v := s.bri.drbgV } n).2.key
        drbgV := (drbgGenerate { key := s.bri.drbgKey, v := s.bri.drbgV } n).2.v
        drbgCnt := b.drbgCnt + 1 }) s) := by
  simp only [drbgTake, h, if_true]

/-- RDR.INVENTORY's arguments: region 0, POWER −12.0 dBm, aerial 0. -/
def invArgs0 : InvArgs :=
  { region := 0, pset := 0, dur := 0, asel := 1, sess := 0, sbank := 0, sptr := 0, slen := 0, smask := [] }

def inv0 : Inv :=
  { args := invArgs0, tseq := 5, v1 := false, single := false, stage := .tune, sent := .select, running := false,
    resume := false, withdrawn := false, from_ := none, freq := 0, aerial := 0, visitFrom := 0, rounds := 0, tagsAll := 0, round := 0,
    slots := 0, sinceQ := 0, tags := 0, coll := 0, empty := 0, q := 0, qfp := 0, targetB := false, reply := false,
    ending := none }

def acc0 (kind : AccKind) (step : AccStep) : Acc :=
  { kind := kind, args := invArgs0, tseq := 5, asel := 0, epc := [0, 0], stage := .window, step := step, freq := 0,
    attempt := 0, rn := 0, handle := 0, tid := List.replicate 12 0, done := [], ending := none }

/-- A session context of zeros. -/
def sec0 : SecCtx :=
  { ktag := List.replicate 16 0, kenc := List.replicate 16 0, kmac := List.replicate 16 0, rch := List.replicate 8 0, tch := List.replicate 8 0 }

def sniff0 : Sniff :=
  { owner := 0, tseq := 5, ivl := 50, asel := 0, thr := 0, auto := false, armed := false, below := 0, waiting := false,
    due := 0 }

/-- The lantern tag of tenant 0 with handle 0x1234 in its field, 32-bit EPC, all options on. -/
def tagged (s : State) : State :=
  setTag (fun g => { g with enabled := true, field := true, flags := 7, epc := [0, 0, 0, 1], handle := some 0x1234 }) s

/-- The smallest image of Table 7-5: one word, one entry. -/
def image0 : Bytes :=
  [83, 80, 76, 26, 2, 0, 0, 0, 1, 0, 0, 0, 1, 0, 0, 0, 0, 0] ++ List.replicate 14 255 ++ [0, 0, 0, 0, 231, 171, 203, 104]

/-- Sixteen zero bytes, wrapped by AES-KW (RFC 3394) under a key of zeros. -/
def wrapped0 : Bytes :=
  [191, 59, 119, 181, 233, 12, 170, 159, 80, 9, 254, 150, 38, 228, 239, 226, 13, 237, 117, 238, 59, 26, 192, 213]

theorem unwrap0 : kwUnwrap (List.replicate 16 0) wrapped0 = some (List.replicate 16 0) := by decide +kernel

/-- The link is configured, its lock held by tenant 0. -/
def linked (s : State) : State := setLink (fun l => { l with configured := true, holder := some 0 }) s

def listen0 : Listen := { tseq := 5, dur := 0, from_ := none, frames := 0, ending := none }

def send0 : Send :=
  { owner := some 0, tseq := 5, dst := 1, mseq := 0, psdu := [0, 0], lane := 0, ar := true, time := none, tries := 0, nb := 0,
    be := 0, tstart := 0, power := 0, ending := none, buf := none, late := false }

def nbr0 : Nbr :=
  { addr := 9, cap := 0, rssi := 0, lqi := 0, missed := 0, smode := false, last := 0, bivl := 0, fcnts := [] }

theorem go0 (i : Nat) (h : (fld (cm 3 [0, 0x8E]).args 0 2).testBit i = true) :
    (3 * (cm 3 [0, 0x8E]).t.val ≤ i ∧ i < 3 * (cm 3 [0, 0x8E]).t.val + 3) ∨ i = 12 + (cm 3 [0, 0x8E]).t.val := by
  have h1 : Nat.testBit 0x8E00 i = true := h
  rcases Nat.lt_or_ge i 16 with hi | hi
  · exact (show ∀ i, i < 16 → Nat.testBit 0x8E00 i = true → (9 ≤ i ∧ i < 12) ∨ i = 15 by decide) i hi h1
  · rw [Nat.testBit_lt_two_pow (Nat.lt_of_lt_of_le (by decide : 0x8E00 < 2 ^ 16) (Nat.pow_le_pow_right (by decide) hi))] at h1
    cases h1

/-- A pair by its first part. -/
theorem pair_fst {α β : Type} {p : α × β} {a : α} (h : p.1 = a) : p = (a, p.2) := by cases p; cases h; rfl

/-- A TAM1 response of Table 12-2's form for a challenge of zeros, under a tag key of zeros. -/
def tam0 : Bytes := aesEnc sec0.ktag ([0x96, 0xC5, 0, 0, 0, 0] ++ List.replicate 10 0)

/-- An FZ2 message for challenges of zeros under the same tag key. -/
def farz0 : Bytes := [0x02] ++ List.replicate 8 0 ++ tproof (secKeys sec0.ktag (List.replicate 8 0) (List.replicate 8 0))

/-- An empty message of counter 1 in the session of zeros. -/
def sealed0 (type dir : Byte) : Bytes :=
  [type, 1, 0, 0, 0] ++ ccmEnc sec0.kenc (secNonce sec0 dir 1) [type, 1, 0, 0, 0] [] 8

/-- No element of a list is such, computed. -/
theorem none_of {α : Type} {l : List α} {f : α → Bool} (h : l.all (fun v => !f v) = true) : ∀ v ∈ l, f v = false := fun v m => by
  simpa using List.all_eq_true.mp h v m

theorem ccm0 : ccmDec (List.replicate 16 0)
    (((cm 0 ([1, 0, 7] ++ List.replicate 7 0 ++ [4, 0, 0, 4, 0] ++
      ccmEnc (List.replicate 16 0) (List.replicate 7 0) [] [] 4)).args.drop 3).take 7)
    (((cm 0 ([1, 0, 7] ++ List.replicate 7 0 ++ [4, 0, 0, 4, 0] ++
      ccmEnc (List.replicate 16 0) (List.replicate 7 0) [] [] 4)).args.drop (6 + 7)).take 0)
    ((cm 0 ([1, 0, 7] ++ List.replicate 7 0 ++ [4, 0, 0, 4, 0] ++
      ccmEnc (List.replicate 16 0) (List.replicate 7 0) [] [] 4)).args.drop (8 + 7 + 0)) 4 = some [] := by decide +kernel

def sample0 : Sample := { vin := 0, vpa := 0, vio := 0, vhu := 0, temp := 0 }

/-- An acknowledgement of MSEQ 0 to address 0. -/
def ack0 : Bytes := [1, 0, 0, 0, 1, 0, 0, 0]

-- ------------------------------------------------------------------ the spec's own worked values

/-- "123456789". -/
def nine : Bytes := [0x31, 0x32, 0x33, 0x34, 0x35, 0x36, 0x37, 0x38, 0x39]

/-- The check column of Table 18-3. -/
theorem test_check_values : checkValue (cvuPreset 1) nine = 0x00 ∧ checkValue (cvuPreset 2) nine = 0xD64E ∧
    checkValue (cvuPreset 3) nine = 0x2189 ∧ checkValue (cvuPreset 4) nine = 0xCBF43926 := by decide +kernel

/-- 18.4: a handle's CRC-16, and the register under preset 3 up to the fifth byte of an acknowledgement. The case goes on to
0x8075 for the sixth byte 04, where R509 gives 0x804D; the rule binds, the case does not (0.5.4). -/
theorem test_worked_check_values : checkValue (cvuPreset 2) [0xA5, 0x3C] = 0xF7A4 ∧
    checkValue (cvuPreset 3) [0x01] = 0x1189 ∧ checkValue (cvuPreset 3) [0x01, 0x37] = 0x5CE4 ∧
    checkValue (cvuPreset 3) [0x01, 0x37, 0x12, 0x04, 0x13] = 0x65C0 := by decide +kernel

/-- 13.5: LEN 0x14 has HCS 0x6C. -/
theorem test_hcs : hcsOf 0x14 = 0x6C := by decide +kernel

/-- 4.5: the null frame with SEQ 1. -/
theorem test_null_frame : hostFrame 0 1 [] = [0x5A, 0x00, 0x01, 0x00, 0x00, 0x00, 0xB8, 0x67] := by decide +kernel

/-- 14.7: a PSDU of 61 bytes at SF16 takes 8,832 µs, its acknowledgement 2,048 µs. -/
theorem test_air_time : airTicks 1 false 61 = 8832 * 24 ∧ airTicks 1 false 8 = 2048 * 24 := by decide

/-- 19.2: 17 commits need 184 µJ; 220 µF above 2.70 V give them at 3.00 V and not at 2.95 V. -/
theorem test_ballast : ballastOk { StoreSt.reset with balC := 220, vmin := 2700 } 3000 17 = true ∧
    ballastOk { StoreSt.reset with balC := 220, vmin := 2700 } 2950 17 = false := by decide +kernel

/-- 15.6: cycle 98,200 of AON brings the keeper to 2,471,923,828, cycle 98,230 to 2,471,945,800. -/
theorem test_keeper : (keeperAt 98200 { run0 with reel := { run0.reel with keeper := 2400000000 } }) = 2471923828 ∧
    (keeperAt 98230 { run0 with reel := { run0.reel with keeper := 2400000000 } }) = 2471945800 := by decide +kernel

/-- 11.1: at 4.4 V the ceiling is 74 units, at 4.5 V (6.4) 76. -/
theorem test_ceiling : ceilUnits 4400 = 74 ∧ ceilUnits 4500 = 76 := by decide

/-- 26.3: 0xB4 binds SPI-A to T0, SPI-B to T1, I2C to T3 and UART to T2. -/
theorem test_bind_map : mapOneToOne 0xB4 = true ∧ mapPort 0xB4 0 = 0 ∧ mapPort 0xB4 1 = 1 ∧ mapPort 0xB4 2 = 3 ∧
    mapPort 0xB4 3 = 2 := by decide +kernel

/-- 20.7: STEP −120,000 ms. -/
theorem test_step_bytes : leInt 8 (-120000) = [0x40, 0x2B, 0xFE, 0xFF, 0xFF, 0xFF, 0xFF, 0xFF] := by decide +kernel

/-- 16.5: a 128-bit key from LABEL "CNT" and CTX 01 00 is one CMAC over nine bytes. -/
theorem test_kdf_input (k : Bytes) : kdf k [0x43, 0x4E, 0x54] [0x01, 0x00] 128 =
    (cmac k [0x01, 0x43, 0x4E, 0x54, 0x00, 0x01, 0x00, 0x00, 0x80]).take 16 := by
  simp [kdf, beBytes, leBytes]

/-- Table 8-9's words. -/
theorem test_spool_words :
    spoolWord (.spBufAlloc 0 5) = some (0, 0xD9400000) ∧ spoolWord (.spJ 0 3 15) = some (0, 0x40C0000F) ∧
    spoolWord (.spLd 0 8 7 0) = some (0, 0xD21C0000) ∧ spoolWord (.spBufWrw 0 8 5 6) = some (0, 0xDA158003) ∧
    spoolWord (.spAddi 0 6 6 4) = some (0, 0x29980004) ∧ spoolWord (.spCmpi 0 7 5) = some (0, 0x381C0005) ∧
    spoolWord (.spJ 0 2 2) = some (0, 0x40800002) ∧ spoolWord (.spBufSetlen 0 0 5 6) = some (0, 0xD8158005) ∧
    spoolWord (.spLch 0 10 3 true false) = some (0, 0xB28C1000) ∧ spoolWord (.spJ 0 5 15) = some (0, 0x4140000F) ∧
    spoolWord (.spWaitt 0 0 1 2 (-435)) = some (0, 0x6004BE4D) ∧
    spoolWord (.spLtx 0 13 5 2 false false true true) = some (0, 0xB7542202) ∧
    spoolWord (.spAdd 0 1 13 0) = some (0, 0x00740000) ∧ spoolWord (.spHalt 0 0 0 0) = some (0, 0xFC000001) ∧
    spoolWord (.spAddi 0 1 0 (-1)) = some (0, 0x2843FFFF) := by decide +kernel

/-- What the last outgoing entry of a tenant is after one step of the command. -/
def lastAfter (c : Instr) (t : Tenant) (s : State) : Option Out :=
  match step { s with pending := [c] } with
  | .next u => u.tens[t].outQ.getLast?
  | _ => none

/-- 25.3: T1 may read CMP3 to CMP5, and gets ST_DENIED for a run that begins with CMP2. -/
theorem test_reg_read : lastAfter (.regRead (cm 1 [0x18, 0x18, 0x10])) 1 run0 = some (.resp 7 0x0110 0x05 [] false) ∧
    lastAfter (.regRead (cm 1 [0x24, 0x00, 0x04])) 1 (setEpoch (fun e => { e with rdr := 3, lnk := 1 }) run0) =
      some (.resp 7 0x0110 0x00 [3, 0, 1, 0, 0, 0, 0, 0] false) := by decide +kernel

/-- 27.2: the serial number 0x015B_0000_C207_913A as REG.READ gives it. -/
theorem test_serial : lastAfter (.regRead (cm 0 [0x08, 0x00, 0x04])) 0 { run0 with serial := 0x015B0000C207913A } =
    some (.resp 7 0x0110 0x00 [0x3A, 0x91, 0x07, 0xC2, 0x00, 0x00, 0x5B, 0x01] false) := by decide +kernel

/-- 6.4: PSET 76 under a ceiling of +19 dBm, first round 0x1A2B. -/
theorem test_inventory : lastAfter (.rdrInventory (cm 1 [1, 0x50, 0, 0xD0, 7, 3, 1, 0, 0, 0, 0])) 1
      (setRdr (fun r => { r with roundCnt := 0x1A2A }) (setSvy (fun v => { v with smp := { v.smp with vpa := 4500 } }) run0)) =
    some (.resp 7 0x1000 0x00 [0x4C, 0x00, 0x2B, 0x1A] false) := by decide +kernel

/-- 17.6: the writer is told MSEQ 0x2A and COLL 0. -/
theorem test_mailbox : lastAfter (.mbxWrite (cm 1 ([4, 3] ++ List.replicate 12 0))) 1
      (modChan 4 (fun g => { g with bound := some (1, 2), next := 0x2A }) run0) =
    some (.resp 7 0x5002 0x00 [0x2A, 0] false) := by decide +kernel

/-- FIPS 197, appendix C.1. -/
theorem test_aes : aesEnc ((List.range 16).map (BitVec.ofNat 8 ·)) ((List.range 16).map fun i => BitVec.ofNat 8 (17 * i)) =
    [0x69, 0xC4, 0xE0, 0xD8, 0x6A, 0x7B, 0x04, 0x30, 0xD8, 0xCD, 0xB7, 0x80, 0x70, 0xB4, 0xC5, 0x5A] := by decide +kernel

/-- R529 and R516: a new part has spare sectors 128 to 135. -/
theorem test_spares : spareSectors StoreSt.reset = [128, 129, 130, 131, 132, 133, 134, 135] := by decide +kernel

/-- An empty queue idles for one tick of Reel (log entry 2, the model's choice). -/
theorem test_idle : (match step run0 with | .next t => t.reel.cnt == 1 | _ => false) = true := by decide +kernel

/-- No row of the table has bits, so no word spells a command. -/
theorem test_no_words (n w : Nat) : decodeTableWord n w = none := rfl

-- ------------------------------------------------------------------ ill-formed terms

/-- A term that each check of `Instr.wf` refuses. -/
theorem test_ill_formed :
    (Instr.sysInfo (cm 0 (List.replicate 1023 0))).wf = false ∧ (Instr.measSnapshot (cm 0 (List.replicate 1023 0)) sample0).wf = false ∧
    (Instr.hostFrame 0 { sckHigh := false, addr := 0, first := true } [true] 0).wf = false ∧
    (Instr.spiInvalidTransaction 2 1).wf = false ∧ (Instr.spiInvalidTransaction 0 0x5A).wf = false ∧
    (Instr.spiInvalidTransaction 0 0).wf = false ∧ (Instr.spiPortResetSequence 2).wf = false ∧
    (Instr.frameAbort 3).wf = false ∧ (Instr.coldSectorMove 2).wf = false ∧ (Instr.coldSectorMove 128).wf = false ∧
    (Instr.uartHdxReply 0).wf = false ∧ (Instr.uartHdxReply 5).wf = false := by decide +kernel

/-- Frames and samples outside their ranges. -/
theorem test_ill_formed_data :
    RxFrame.wf { lane := 0, sfd := 0, psdu := [], rssi := 0, evm := 0, lkb := false } = false ∧
    RxFrame.wf { lane := 0, sfd := 0, psdu := List.replicate 256 0, rssi := 0, evm := 0, lkb := false } = false ∧
    RxFrame.wf { lane := 5, sfd := 0, psdu := List.replicate 128 0, rssi := 0, evm := 0, lkb := false } = false ∧
    RxFrame.wf { lane := 0, sfd := 0, psdu := [0], rssi := 0, evm := 1001, lkb := false } = false ∧
    Sample.wf { sample0 with vin := 6001 } = false ∧ Sample.wf { sample0 with vpa := 6001 } = false ∧
    Sample.wf { sample0 with vio := 6001 } = false ∧ Sample.wf { sample0 with vhu := 6001 } = false := by decide +kernel

/-- The Reset column of Table 2-2. -/
theorem test_pins_reset : pins State.reset =
    { rdtx := false, lka := [], lkb := [], paen := .low, pabias := 0, asel := #v[.low, .low], trsw := .low, femen := .low,
      xo24 := false, xo32 := true, fd := .low, coexReq := .low, coexPri := .low, spaSdo := .z, spbSdo := .z, i2cScl := .z,
      i2cSda := .z, uaTxd := .high, uaDe := .low, irq := #v[.high, .high, .high, .high],
      tout := #v[.low, .low, .low, .low], tdo := .z } := by decide +kernel

/-- 3.8, Table 3-3: an undelivered EV_RESET holds a tenant's IRQ pin low. -/
theorem test_irq : irqLow (raise 1 evReset [] run0) 1 = true ∧ irqLow (raise 1 evReset [] run0) 2 = false := by decide +kernel

-- ------------------------------------------------------------------ the obligations' hypotheses are met

/-- The conditions of `Obligations.SystemCommandsComplete` are met. -/
theorem witness_SystemCommandsComplete :
    (Can 0x0100 fun c _ => c.args = []) ∧
    (Can 0x0101 fun c _ => c.args = []) ∧
    (Can 0x0102 fun c _ => c.args = [] ∧ c.t = 0) ∧
    (Can 0x0103 fun c u => ∃ (slot : Nat) (level : Nat) (job : Job), patchForm c.args = some (slot, level) ∧ u.tens[c.t].exec = some job ∧ slotLevel u
      slot < level) := by
  refine ⟨?_, ?_, ?_, ?_⟩
  · exact can (cm 1 []) (run0) (by decide +kernel) (by decide +kernel)
  · exact can (cm 0 []) (run0) (by decide +kernel) (by decide +kernel)
  · exact can (cm 0 []) (run0) (by decide +kernel) (by decide +kernel)
  · exact can (cm 0 patchArgs) (run0)
      (by decide +kernel)
      (⟨_, _, _, by (repeat' apply And.intro) <;> first | with_reducible rfl | exact taken_up (by decide +kernel) | decide +kernel | rfl⟩)

/-- The conditions of `Obligations.RegisterCommandsComplete` are met. -/
theorem witness_RegisterCommandsComplete :
    (Can 0x0110 fun c u => c.args.length = 3 ∧ 1 ≤ fld c.args 2 1 ∧ fld c.args 2 1 ≤ 64 ∧ fld c.args 0 2 + fld c.args 2 1 ≤ 0x10000 ∧ (∀ i, i < fld
      c.args 2 1 → canRead c.t (fld c.args 0 2 + i) u = true)) ∧
    (Can 0x0111 fun c u => regWriteOk c u) := by
  refine ⟨?_, ?_⟩
  · exact can (cm 1 [0, 68, 64]) (run0) (by decide +kernel) (by decide +kernel)
  · exact can (cm 3 [0x36, 0x01, 1, 208, 0]) (run0) (by decide +kernel) (by unfold regWriteOk; decide +kernel)

/-- The conditions of `Obligations.RegisterRowsComplete` are met. -/
theorem witness_RegisterRowsComplete :
    (Can 0x0111 fun c u => regWriteOk c u ∧ runTouches c (fun a => decide (0x1810 ≤ a ∧ a < 0x1840)) = true) ∧
    (Can 0x0111 fun c u => regWriteOk c u ∧ runTouches c (fun a => a == 0x1804) = true) ∧
    (Can 0x0111 fun c u => regWriteOk c u ∧ runTouches c (fun a => decide (0x1840 ≤ a ∧ a < 0x1860) && a % 8 == 0) = true) ∧
    (Can 0x0111 fun c u => regWriteOk c u ∧ runTouches c (fun a => decide (0x1840 ≤ a ∧ a < 0x1860) && (a % 8 == 1 || a % 8 == 2)) = true) ∧
    (Can 0x0111 fun c u => regWriteOk c u ∧ runTouches c (fun a => decide (0x1840 ≤ a ∧ a < 0x1860) && a % 8 == 5) = true) ∧
    (Can 0x0111 fun c u => regWriteOk c u ∧ runTouches c (fun a => decide (0x1860 ≤ a ∧ a < 0x1870) && a % 4 == 3) = true) ∧
    (Can 0x0111 fun c u => regWriteOk c u ∧ runTouches c (fun a => decide (0x1870 ≤ a ∧ a < 0x1874)) = true) ∧
    (Can 0x0111 fun c u => regWriteOk c u ∧ runTouches c (fun a => decide (0x2000 ≤ a ∧ a < 0x2040) && a % 4 == 1) = true) ∧
    (Can 0x0111 fun c u => regWriteOk c u ∧ runTouches c (fun a => a == 0x136) = true) ∧
    (Can 0x0111 fun c u => regWriteOk c u ∧ runTouches c (fun a => a == 0x410) = true) ∧
    (Can 0x0111 fun c u => regWriteOk c u ∧ runTouches c (fun a => decide (0x4400 ≤ a ∧ a < 0x4600)) = true) ∧
    (Can 0x0110 fun c u => c.args.length = 3 ∧ 1 ≤ fld c.args 2 1 ∧ fld c.args 2 1 ≤ 64 ∧ fld c.args 0 2 + fld c.args 2 1 ≤ 0x10000 ∧ (∀ i, i < fld
      c.args 2 1 → canRead c.t (fld c.args 0 2 + i) u = true) ∧ runTouches c (fun a => decide (0x1840 ≤ a ∧ a < 0x1860) && a % 8 == 3) = true) ∧
    (Can 0x0110 fun c u => c.args.length = 3 ∧ 1 ≤ fld c.args 2 1 ∧ fld c.args 2 1 ≤ 64 ∧ fld c.args 0 2 + fld c.args 2 1 ≤ 0x10000 ∧ (∀ i, i < fld
      c.args 2 1 → canRead c.t (fld c.args 0 2 + i) u = true) ∧ runTouches c (fun a => decide (0x1C10 ≤ a ∧ a < 0x1D00) && (a - 0x1C10) % 5 == 1) =
      true) ∧
    (Can 0x0110 fun c u => c.args.length = 3 ∧ 1 ≤ fld c.args 2 1 ∧ fld c.args 2 1 ≤ 64 ∧ fld c.args 0 2 + fld c.args 2 1 ≤ 0x10000 ∧ (∀ i, i < fld
      c.args 2 1 → canRead c.t (fld c.args 0 2 + i) u = true) ∧ runTouches c (fun a => decide (0x4400 ≤ a ∧ a < 0x4600)) = true) ∧
    (Can 0x0110 fun c u => c.args.length = 3 ∧ 1 ≤ fld c.args 2 1 ∧ fld c.args 2 1 ≤ 64 ∧ fld c.args 0 2 + fld c.args 2 1 ≤ 0x10000 ∧ (∀ i, i < fld
      c.args 2 1 → canRead c.t (fld c.args 0 2 + i) u = true) ∧ runTouches c (fun a => decide (0x1860 ≤ a ∧ a < 0x1870) && a % 4 == 2) = true) := by
  refine ⟨?_, ?_, ?_, ?_, ?_, ?_, ?_, ?_, ?_, ?_, ?_, ?_, ?_, ?_, ?_⟩
  · exact can (cm 0 [19, 24, 1, 36, 0]) (run0) (by decide +kernel) (by unfold regWriteOk; decide +kernel)
  · exact can (cm 0 [4, 24, 1, 7, 16]) (run0) (by decide +kernel) (by unfold regWriteOk; decide +kernel)
  · exact can (cm 0 [64, 24, 1, 0, 0]) (run0) (by decide +kernel) (by unfold regWriteOk; decide +kernel)
  · exact can (cm 0 [65, 24, 2, 1, 0, 2, 0]) (run0) (by decide +kernel) (by unfold regWriteOk; decide +kernel)
  · exact can (cm 0 [69, 24, 1, 1, 0]) (run0) (by decide +kernel) (by unfold regWriteOk; decide +kernel)
  · exact can (cm 0 [99, 24, 1, 1, 0]) (run0) (by decide +kernel) (by unfold regWriteOk; decide +kernel)
  · exact can (cm 0 [112, 24, 1, 4, 0]) (run0) (by decide +kernel) (by unfold regWriteOk; decide +kernel)
  · exact can (cm 0 [1, 32, 1, 0, 0]) (modChan 0 (fun g => { g with bound := some (1, 0) }) run0)
      (by decide +kernel) (by unfold regWriteOk; decide +kernel)
  · exact can (cm 3 [0x36, 0x01, 1, 161, 1]) (run0) (by decide +kernel) (by unfold regWriteOk; decide +kernel)
  · exact can (cm 0 [16, 4, 1, 1, 0]) (run0) (by decide +kernel) (by unfold regWriteOk; decide +kernel)
  · exact can (cm 0 [255, 69, 1, 1, 0]) (run0) (by decide +kernel) (by unfold regWriteOk; decide +kernel)
  · exact can (cm 0 [0x43, 0x18, 1]) (run0) (by decide +kernel) (by decide +kernel)
  · exact can (cm 0 [0x11, 0x1C, 1]) (run0) (by decide +kernel) (by decide +kernel)
  · exact can (cm 0 [0x00, 0x44, 1]) (run0) (by decide +kernel) (by decide +kernel)
  · exact can (cm 0 [0x62, 0x18, 1]) (run0) (by decide +kernel) (by decide +kernel)

/-- The conditions of `Obligations.TenantCommandsComplete` are met. -/
theorem witness_TenantCommandsComplete :
    (Can 0x0300 fun c u => c.t = 0 ∧ c.args.length = 1 ∧ mapOneToOne (fld c.args 0 1) = true ∧ u.bindLock = false ∧ (∀ p : Fin 4, mapPort (fld c.args
      0 1) p ≠ u.binding[p] → outstanding u.tens[u.binding[p]] ≤ (if u.binding[p] = c.t then 1 else 0))) ∧
    (Can 0x0301 fun c _ => c.t = 0 ∧ c.args.length = 1 ∧ 1 ≤ fld c.args 0 1 ∧ fld c.args 0 1 ≤ 3) ∧
    (Can 0x0302 fun c u => c.t = 0 ∧ c.args.length = 4 ∧ fld c.args 0 1 + fld c.args 1 1 + fld c.args 2 1 + fld c.args 3 1 = 100 ∧ u.shareLock =
      false) := by
  refine ⟨?_, ?_, ?_⟩
  · exact can (cm 0 [0xE1]) (run0) (by decide +kernel) (by decide +kernel)
  · exact can (cm 0 [3]) (run0) (by decide +kernel) (by decide +kernel)
  · exact can (cm 0 [100, 0, 0, 0]) (run0) (by decide +kernel) (by decide +kernel)

/-- The conditions of `Obligations.SpoolRetirement` are met. -/
theorem witness_SpoolRetirement :
    (∃ (x : Tenant) (y : _), y ≠ x) ∧
    (∃ (x : Tenant) (u : State), (u.ctxs[x].start = none ∨ u.ctxs[x].issues + 1 < 16)) := by
  refine ⟨?_, ?_⟩
  · exact ⟨0, 1, by decide⟩
  · exact ⟨0, run0, by decide +kernel⟩

/-- The conditions of `Obligations.SpoolAluCompletes` are met. -/
theorem witness_SpoolAluCompletes :
    ∀ (x : Tenant) (w : BitVec 32), ∃ s, AtWord x w s := by
  exact fun x w => ⟨_, own_word x w⟩

/-- The conditions of `Obligations.SpoolJumpsComplete` are met. -/
theorem witness_SpoolJumpsComplete :
    (∃ (x : Tenant) (cond : Fin 8) (target : BitVec 10) (s : State), let u := issueMoment x s; let k := u.ctxs[x]; AtWord x (wordJ 0x10 cond target) s
      ∧ condHolds cond k = true ∧ target.toNat < k.codeLen) ∧
    (∃ (x : Tenant) (cond : Fin 8) (target : BitVec 10) (s : State), let u := issueMoment x s; let k := u.ctxs[x]; AtWord x (wordJ 0x10 cond target) s
      ∧ condHolds cond k = false) ∧
    (∃ (x : Tenant) (cond : Fin 8) (target : BitVec 10) (s : State), let u := issueMoment x s; let k := u.ctxs[x]; AtWord x (wordJ 0x11 cond target) s
      ∧ condHolds cond k = true ∧ k.stack.length < 8 ∧ target.toNat < k.codeLen) ∧
    (∃ (x : Tenant) (cond : Fin 8) (target : BitVec 10) (s : State), let u := issueMoment x s; let k := u.ctxs[x]; AtWord x (wordJ 0x11 cond target) s
      ∧ condHolds cond k = false) ∧
    (∃ (x : Tenant) (cond : Fin 8) (s : State) (r : _) (rest : _), let u := issueMoment x s; let k := u.ctxs[x]; AtWord x (wordJ 0x12 cond 0) s ∧
      condHolds cond k = true ∧ k.stack = r :: rest ∧ r.toNat < k.codeLen) ∧
    (∃ (x : Tenant) (cond : Fin 8) (s : State), let u := issueMoment x s; let k := u.ctxs[x]; AtWord x (wordJ 0x12 cond 0) s ∧ condHolds cond k =
      false) ∧
    (∃ (x : Tenant) (a : Fin 16) (s : State), let u := issueMoment x s; let k := u.ctxs[x]; AtWord x (wordA 0x13 0 a 0 0) s ∧ (rd k a).toNat % 1024 <
      k.codeLen) ∧
    (∃ (x : Tenant) (d : Fin 16) (imm : BitVec 18) (s : State), let u := issueMoment x s; let k := u.ctxs[x]; AtWord x (wordI 0x14 d 0 imm) s ∧ d ≠ 0
      ∧ rd k d = 1) ∧
    (∃ (x : Tenant) (d : Fin 16) (imm : BitVec 18) (s : State), let u := issueMoment x s; let k := u.ctxs[x]; AtWord x (wordI 0x14 d 0 imm) s ∧ d ≠ 0
      ∧ rd k d ≠ 1 ∧ (imm.signExtend 32).toNat < k.codeLen ∧ (imm.signExtend 32).toNat < 1024) := by
  refine ⟨?_, ?_, ?_, ?_, ?_, ?_, ?_, ?_, ?_⟩
  · exact ⟨0, 1, 0, (own 0 (wordJ 0x10 1 0) (modCtx 0 (fun k => { k with z := true }) (run0))),
      by unfold AtWord; dsimp only; decide +kernel⟩
  · exact ⟨0, 1, 1023, (own 0 (wordJ 0x10 1 1023) (run0)), by unfold AtWord; dsimp only; decide +kernel⟩
  · exact ⟨0, 0, 0, (own 0 (wordJ 0x11 0 0) (modCtx 0 (fun k => { k with stack := List.replicate 7 5 }) (run0))),
      by unfold AtWord; dsimp only; decide +kernel⟩
  · exact ⟨0, 5, 0, (own 0 (wordJ 0x11 5 0) (run0)), by unfold AtWord; dsimp only; decide +kernel⟩
  · exact ⟨0, 0, (own 0 (wordJ 0x12 0 0) (modCtx 0 (fun k => { k with stack := [0] }) (run0))), 0, [],
      by unfold AtWord; dsimp only; decide +kernel⟩
  · exact ⟨0, 5, (own 0 (wordJ 0x12 5 0) (run0)), by unfold AtWord; dsimp only; decide +kernel⟩
  · exact ⟨0, 2, (own 0 (wordA 0x13 0 2 0 0) (modCtx 0 (fun k => { k with regs := k.regs.set 2 1024 }) (run0))),
      by unfold AtWord; dsimp only; decide +kernel⟩
  · exact ⟨0, 1, 0, (own 0 (wordI 0x14 1 0 0) (modCtx 0 (fun k => { k with regs := k.regs.set 1 1 }) (run0))),
      by unfold AtWord; dsimp only; decide +kernel⟩
  · exact ⟨0, 1, 0, (own 0 (wordI 0x14 1 0 0) (modCtx 0 (fun k => { k with regs := k.regs.set 1 2 }) (run0))),
      by unfold AtWord; dsimp only; decide +kernel⟩

/-- The conditions of `Obligations.SpoolRegistersAndData` are met. -/
theorem witness_SpoolRegistersAndData :
    (∃ (d : Fin 16) (r : _), d ≠ 0 ∧ r ≠ d) ∧
    (∃ (m : Memory) (w : Nat) (a : _), Memory.wf m = true ∧ (a < 4 * w ∨ 4 * w + 4 ≤ a)) ∧
    (∃ (x : Tenant) (d : Fin 16) (a : Fin 16) (imm : BitVec 18) (s : State), let u := issueMoment x s;
      let w := (rd u.ctxs[x] a + imm.signExtend 32).toNat; w ≤ 255 ∧ AtWord x (wordI 0x34 d a imm) s) ∧
    (∃ (x : Tenant) (d : Fin 16) (a : Fin 16) (imm : BitVec 18) (s : State), let u := issueMoment x s;
      let w := (rd u.ctxs[x] a + imm.signExtend 32).toNat; w ≤ 255 ∧ AtWord x (wordI 0x35 d a imm) s) := by
  refine ⟨?_, ?_, ?_, ?_⟩
  · exact ⟨1, ((2 : Fin 16)), by decide⟩
  · exact ⟨[], 5, 24, by decide⟩
  · exact ⟨0, 1, 2, 255, (own 0 (wordI 0x34 1 2 255) (run0)), by unfold AtWord; dsimp only; decide +kernel⟩
  · exact ⟨0, 1, 2, 255, (own 0 (wordI 0x35 1 2 255) (run0)), by unfold AtWord; dsimp only; decide +kernel⟩

/-- The conditions of `Obligations.SpoolFaults` are met. -/
theorem witness_SpoolFaults :
    (∃ (x : Tenant) (w : BitVec 32) (s : State), AtWord x w s ∧ spoolLegal w = false) ∧
    (∃ (x : Tenant) (w : BitVec 32) (s : State), live s = true ∧ s.ctxs[x].run = .running ∧ isBuiltin s.ctxs[x] = false ∧ s.ctxs[x].stopping = none ∧ s.ctxs[x].codeLen ≤
      s.ctxs[x].pc ∧ spoolLegal w = false) ∧
    (∃ (x : Tenant) (cond : Fin 8) (target : BitVec 10) (s : State), let u := issueMoment x s; let k := u.ctxs[x]; AtWord x (wordJ 0x10 cond target) s
      ∧ condHolds cond k = true ∧ k.codeLen ≤ target.toNat) ∧
    (∃ (x : Tenant) (cond : Fin 8) (target : BitVec 10) (s : State), let u := issueMoment x s; let k := u.ctxs[x]; AtWord x (wordJ 0x11 cond target) s
      ∧ condHolds cond k = true ∧ 8 ≤ k.stack.length) ∧
    (∃ (x : Tenant) (cond : Fin 8) (s : State), let u := issueMoment x s; let k := u.ctxs[x]; AtWord x (wordJ 0x12 cond 0) s ∧ condHolds cond k = true
      ∧ k.stack = []) ∧
    (∃ (x : Tenant) (d : Fin 16) (a : Fin 16) (imm : BitVec 18) (s : State), let u := issueMoment x s; let k := u.ctxs[x]; AtWord x (wordI 0x34 d a
      imm) s ∧ 255 < (rd k a + imm.signExtend 32).toNat) ∧
    (∃ (x : Tenant) (d : Fin 16) (a : Fin 16) (imm : BitVec 18) (s : State), let u := issueMoment x s; let k := u.ctxs[x]; AtWord x (wordI 0x35 d a
      imm) s ∧ 255 < (rd k a + imm.signExtend 32).toNat) ∧
    (∃ (x : Tenant) (s : State), s.ctxs[x].run = .running ∧ 1000000 ≤ s.ctxs[x].wdog) ∧
    (∃ (x : Tenant) (u : State), u.ctxs[x].start = none ∧ (u.tens[x].outQ.filter Out.isOrdinary).length < 63) := by
  refine ⟨?_, ?_, ?_, ?_, ?_, ?_, ?_, ?_, ?_⟩
  · exact ⟨0, (((-1 : BitVec 32))), (own 0 ((-1 : BitVec 32)) (run0)), by unfold AtWord; decide +kernel⟩
  · exact ⟨0, (((-1 : BitVec 32))), (modCtx 0 (fun k => { k with run := .running }) run0), by decide +kernel⟩
  · exact ⟨0, 0, 1, (own 0 (wordJ 0x10 0 1) (run0)), by unfold AtWord; dsimp only; decide +kernel⟩
  · exact ⟨0, 0, 0, (own 0 (wordJ 0x11 0 0) (modCtx 0 (fun k => { k with stack := List.replicate 8 0 }) (run0))),
      by unfold AtWord; dsimp only; decide +kernel⟩
  · exact ⟨0, 0, (own 0 (wordJ 0x12 0 0) (run0)), by unfold AtWord; dsimp only; decide +kernel⟩
  · exact ⟨0, 1, 2, 256, (own 0 (wordI 0x34 1 2 256) (run0)), by unfold AtWord; dsimp only; decide +kernel⟩
  · exact ⟨0, 1, 2, -1, (own 0 (wordI 0x35 1 2 (-1)) (run0)), by unfold AtWord; dsimp only; decide +kernel⟩
  · exact ⟨0, (modCtx 0 (fun k => { k with run := .running, wdog := 1000000 }) run0), by decide +kernel⟩
  · exact ⟨0, run0, by decide +kernel⟩

/-- The conditions of `Obligations.SpoolTimeComplete` are met. -/
theorem witness_SpoolTimeComplete :
    (∃ (x : Tenant) (a : Fin 16) (imm : BitVec 18) (s : State), let u := issueMoment x s; let k := u.ctxs[x]; let n := rd k a + imm.signExtend 32;
      AtWord x (wordI 0x19 0 a imm) s ∧ n ≠ 0 ∧ n.toNat < 2 ^ 31) ∧
    (∃ (x : Tenant) (a : Fin 16) (imm : BitVec 18) (s : State), let u := issueMoment x s; let k := u.ctxs[x]; let n := rd k a + imm.signExtend 32;
      AtWord x (wordI 0x19 0 a imm) s ∧ (n = 0 ∨ 2 ^ 31 ≤ n.toNat)) ∧
    (∃ (x : Tenant) (d : Fin 16) (a : Fin 16) (b : Fin 16) (src : BitVec 4) (s : State), let u := issueMoment x s; let k := u.ctxs[x]; AtWord x (wordA
      0x1A d a b (src.setWidth 14)) s ∧ k.latch &&& src = 0 ∧ (rd k b).toNat < 2 ^ 31) ∧
    (∃ (x : Tenant) (d : Fin 16) (a : Fin 16) (b : Fin 16) (src : BitVec 4) (s : State), let u := issueMoment x s; let k := u.ctxs[x]; AtWord x (wordA
      0x1A d a b (src.setWidth 14)) s ∧ k.latch &&& src ≠ 0) ∧
    (∃ (x : Tenant) (d : Fin 16) (a : Fin 16) (b : Fin 16) (src : BitVec 4) (s : State), let u := issueMoment x s; let k := u.ctxs[x]; AtWord x (wordA
      0x1A d a b (src.setWidth 14)) s ∧ (k.latch &&& src ≠ 0 ∨ 2 ^ 31 ≤ (rd k b).toNat) ∧ k.latch &&& src = 0) ∧
    (∃ (x : Tenant) (d : Fin 16) (a : Fin 16) (b : Fin 16) (part : BitVec 2) (s : State), AtWord x (wordA 0x1B d a b (part.setWidth 14)) s) ∧
    (∃ (x : Tenant) (d : Fin 16) (a : Fin 16) (b : Fin 16) (s : State), AtWord x (wordA 0x3F d a b 0) s) ∧
    (∃ (x : Tenant) (d : Fin 16) (a : Fin 16) (b : Fin 16) (s : State), AtWord x (wordA 0x3F d a b 1) s) ∧
    (∃ (x : Tenant) (s : State), s.ctxs[x].run = .running ∧ 1000000 ≤ s.ctxs[x].wdog) ∧
    (∃ (x : Tenant) (d : Fin 16) (a : Fin 16) (b : Fin 16) (off : BitVec 14) (s : State), AtWord x (wordA 0x18 d a b off) s) := by
  refine ⟨?_, ?_, ?_, ?_, ?_, ?_, ?_, ?_, ?_, ?_⟩
  · exact ⟨0, 2, 0, (own 0 (wordI 0x19 0 2 0) (modCtx 0 (fun k => { k with regs := k.regs.set 2 0x7FFFFFFF }) (run0))),
      by unfold AtWord; dsimp only; decide +kernel⟩
  · exact ⟨0, 2, 0, (own 0 (wordI 0x19 0 2 0) (modCtx 0 (fun k => { k with regs := k.regs.set 2 0x80000000 }) (run0))),
      by unfold AtWord; dsimp only; decide +kernel⟩
  · exact ⟨0, 1, 2, 3, 4, (own 0 (wordA 0x1A 1 2 3 4) (modCtx 0 (fun k => { k with regs := k.regs.set 3 0x7FFFFFFF }) (run0))), by unfold AtWord; dsimp only; decide +kernel⟩
  · exact ⟨0, 1, 2, 3, 4, (own 0 (wordA 0x1A 1 2 3 4) (modCtx 0 (fun k => { k with latch := 4, regs := k.regs.set 3 0x7FFFFFFF }) (run0))), by unfold AtWord; dsimp only; decide +kernel⟩
  · exact ⟨0, 1, 2, 3, 4, (own 0 (wordA 0x1A 1 2 3 4) (modCtx 0 (fun k => { k with regs := k.regs.set 3 0x80000000 }) (run0))), by unfold AtWord; dsimp only; decide +kernel⟩
  · exact ⟨0, 1, 2, 3, 3, (own 0 (wordA 0x1B 1 2 3 3) (run0)), by unfold AtWord; decide +kernel⟩
  · exact ⟨0, 1, 2, 3, (own 0 (wordA 0x3F 1 2 3 0) (run0)), by unfold AtWord; decide +kernel⟩
  · exact ⟨0, 1, 2, 3, (own 0 (wordA 0x3F 1 2 3 1) (run0)), by unfold AtWord; decide +kernel⟩
  · exact ⟨0, (modCtx 0 (fun k => { k with run := .running, wdog := 1000000 }) run0), by decide +kernel⟩
  · exact ⟨0, 1, 2, 3, -1, (own 0 (wordA 0x18 1 2 3 (-1)) (run0)), by unfold AtWord; decide +kernel⟩

/-- The conditions of `Obligations.SpoolWaits` are met. -/
theorem witness_SpoolWaits :
    (∃ (x : Tenant) (now : Tick) (p : Pend) (s : State), let u := advanceTo now s; u.ctxs[x].run = .waiting ∧ u.ctxs[x].pend = some p ∧ p.noAir =
      false ∧ p.op = .waitt ∧ reached u.reel.cnt p.until_ = true) ∧
    (∃ (x : Tenant) (now : Tick) (p : Pend) (s : State), let u := advanceTo now s; u.ctxs[x].run = .waiting ∧ u.ctxs[x].pend = some p ∧ p.noAir =
      false ∧ p.op = .waitd ∧ reached u.reel.cnt p.until_ = true) ∧
    (∃ (x : Tenant) (now : Tick) (p : Pend) (s : State) (hit : _), let u := advanceTo now s; u.ctxs[x].run = .waiting ∧ u.ctxs[x].pend = some p ∧
      p.noAir = false ∧ p.op = .waite ∧ hit = u.ctxs[x].latch &&& p.fn.setWidth 4 ∧ hit ≠ 0) ∧
    (∃ (x : Tenant) (now : Tick) (p : Pend) (s : State), let u := advanceTo now s; u.ctxs[x].run = .waiting ∧ u.ctxs[x].pend = some p ∧ p.noAir =
      false ∧ p.op = .waite ∧ u.ctxs[x].latch &&& p.fn.setWidth 4 = 0 ∧ p.a ≠ 0 ∧ p.a.toNat < 2 ^ 31 ∧ reached u.reel.cnt p.until_ = true) ∧
    (∃ (x : Tenant) (y : _), y ≠ x) := by
  refine ⟨?_, ?_, ?_, ?_, ?_⟩
  · exact ⟨0, 100, ({ op := .waitt, d := 1, a := 0, b := 0, fn := 0, issued := 0, until_ := 50, noAir := false, epoch := 0 }), (wait .waitt 0 0 false (run0)),
      by dsimp only; decide +kernel⟩
  · exact ⟨0, 100, ({ op := .waitd, d := 1, a := 0, b := 0, fn := 0, issued := 0, until_ := 50, noAir := false, epoch := 0 }), (wait .waitd 0 0 false (run0)),
      by dsimp only; decide +kernel⟩
  · exact ⟨0, 100, ({ op := .waite, d := 1, a := 0, b := 0, fn := 4, issued := 0, until_ := 50, noAir := false, epoch := 0 }), (wait .waite 0 4 false (modCtx 0 (fun k => { k with latch := 4 }) (run0))), 4,
      by dsimp only; decide +kernel⟩
  · exact ⟨0, 100, ({ op := .waite, d := 1, a := 0x7FFFFFFF, b := 0, fn := 4, issued := 0, until_ := 50, noAir := false, epoch := 0 }), (wait .waite 0x7FFFFFFF 4 false (run0)),
      by dsimp only; decide +kernel⟩
  · exact ⟨0, 1, by decide⟩

/-- The conditions of `Obligations.SpoolBuffersAndServices` are met. -/
theorem witness_SpoolBuffersAndServices :
    (∃ (x : Tenant) (d : Fin 16) (h : Fin 32) (s : State), let u := issueMoment x s; let k := u.ctxs[x]; AtWord x (wordA 0x36 d 0 0 0) s ∧
      k.held.length < 4 ∧ findBuf (posOf x) u = some h) ∧
    (∃ (x : Tenant) (d : Fin 16) (h : Fin 32) (s : State), let u := issueMoment x s; let k := u.ctxs[x]; AtWord x (wordA 0x36 d 0 0 0) s ∧
      4 ≤ k.held.length ∧ findBuf (posOf x) u = some h) ∧
    (∃ (x : Tenant) (d : Fin 16) (a : Fin 16) (h : Fin 32) (s : State), let u := issueMoment x s; let k := u.ctxs[x]; rd k a = BitVec.ofNat 32 h.val ∧
      h ∈ k.held ∧ AtWord x (wordA 0x36 d a 0 1) s) ∧
    (∃ (x : Tenant) (d : Fin 16) (a : Fin 16) (b : Fin 16) (h : Fin 32) (s : State), let u := issueMoment x s; let k := u.ctxs[x];
      let o := (rd k b).toNat; rd k a = BitVec.ofNat 32 h.val ∧ h ∈ k.held ∧ AtWord x (wordA 0x36 d a b 2) s ∧ o ≤ 252) ∧
    (∃ (x : Tenant) (d : Fin 16) (a : Fin 16) (b : Fin 16) (h : Fin 32) (s : State), let u := issueMoment x s; let k := u.ctxs[x];
      let o := (rd k b).toNat; rd k a = BitVec.ofNat 32 h.val ∧ h ∈ k.held ∧ AtWord x (wordA 0x36 d a b 3) s ∧ o ≤ 252) ∧
    (∃ (x : Tenant) (d : Fin 16) (a : Fin 16) (h : Fin 32) (s : State), let u := issueMoment x s; let k := u.ctxs[x]; rd k a = BitVec.ofNat 32 h.val ∧
      h ∈ k.held ∧ AtWord x (wordA 0x36 d a 0 4) s) ∧
    (∃ (x : Tenant) (d : Fin 16) (a : Fin 16) (b : Fin 16) (h : Fin 32) (s : State), let u := issueMoment x s; let k := u.ctxs[x];
      let o := (rd k b).toNat; rd k a = BitVec.ofNat 32 h.val ∧ h ∈ k.held ∧ AtWord x (wordA 0x36 d a b 5) s ∧ o ≤ 256) ∧
    (∃ (x : Tenant) (d : Fin 16) (a : Fin 16) (b : Fin 16) (h : Fin 32) (preset : Fin 5) (s : State), let u := issueMoment x s; let k := u.ctxs[x];
      let o := (rd k b).toNat; AtWord x (wordA 0x3A d a b (BitVec.ofNat 14 preset.val)) s ∧ preset ≠ 0 ∧ rd k a = BitVec.ofNat 32 h.val ∧ h ∈ k.held ∧
      o ≤ 256) ∧
    (∃ (x : Tenant) (d : Fin 16) (a : Fin 16) (b : Fin 16) (n : Fin 9) (g : Fin 16) (s : State), let u := issueMoment x s; let k := u.ctxs[x];
      let o := (rd k b).toNat; AtWord x (wordA 0x3C d a b (BitVec.ofNat 14 n.val)) s ∧ (rd k a).toNat % 16 = g.val ∧ senderOf g u.gdl.chans[g] = some
      (.spool x) ∧ (n.val = 0 ∨ o + n.val ≤ 256)) ∧
    (∃ (x : Tenant) (d : Fin 16) (a : Fin 16) (b : Fin 16) (g : Fin 16) (s : State) (m : _), let u := issueMoment x s; let k := u.ctxs[x];
      let o := (rd k b).toNat; AtWord x (wordA 0x3F d a b 2) s ∧ (rd k a).toNat % 16 = g.val ∧ receiverOf g u.gdl.chans[g] = some (.spool x) ∧
      u.gdl.chans[g].msg = some m ∧ m.hand = none ∧ o + m.words.length ≤ 256) ∧
    (∃ (x : Tenant) (d : Fin 16) (a : Fin 16) (s : State), AtWord x (wordA 0x3D d a 0 0) s) ∧
    (∃ (x : Tenant) (d : Fin 16) (act : Fin 5) (s : State), AtWord x (wordA 0x3E d 0 0 (BitVec.ofNat 14 act.val)) s ∧ act ≠ 0) ∧
    (∃ (x : Tenant) (d : Fin 16) (s : State), AtWord x (wordA 0x36 d 0 0 0) s ∧ findBuf (posOf x) (issueMoment x s) = none) := by
  refine ⟨?_, ?_, ?_, ?_, ?_, ?_, ?_, ?_, ?_, ?_, ?_, ?_, ?_⟩
  · exact ⟨0, 1, 0, (own 0 (wordA 0x36 1 0 0 0) (modCtx 0 (fun k => { k with held := [1, 2, 3] }) (run0))),
      by unfold AtWord; dsimp only; decide +kernel⟩
  · exact ⟨0, 1, 0, (own 0 (wordA 0x36 1 0 0 0) (modCtx 0 (fun k => { k with held := [1, 2, 3, 4] }) (run0))),
      by unfold AtWord; dsimp only; decide +kernel⟩
  · exact ⟨0, 1, 2, 3, (own 0 (wordA 0x36 1 2 0 1) (modCtx 0 (fun k => { k with held := [3], regs := k.regs.set 2 3 }) (run0))),
      by unfold AtWord; dsimp only; decide +kernel⟩
  · exact ⟨0, 1, 2, 3, 3, (own 0 (wordA 0x36 1 2 3 2) (modCtx 0 (fun k => { k with held := [3], regs := (k.regs.set 2 3).set 3 252 }) (run0))),
      by unfold AtWord; dsimp only; decide +kernel⟩
  · exact ⟨0, 1, 2, 3, 3, (own 0 (wordA 0x36 1 2 3 3) (modCtx 0 (fun k => { k with held := [3], regs := (k.regs.set 2 3).set 3 252 }) (run0))),
      by unfold AtWord; dsimp only; decide +kernel⟩
  · exact ⟨0, 1, 2, 3, (own 0 (wordA 0x36 1 2 0 4) (modCtx 0 (fun k => { k with held := [3], regs := k.regs.set 2 3 }) (run0))),
      by unfold AtWord; dsimp only; decide +kernel⟩
  · exact ⟨0, 1, 2, 3, 3, (own 0 (wordA 0x36 1 2 3 5) (modCtx 0 (fun k => { k with held := [3], regs := (k.regs.set 2 3).set 3 256 }) (run0))),
      by unfold AtWord; dsimp only; decide +kernel⟩
  · exact ⟨0, 1, 2, 3, 3, 4, (own 0 (wordA 0x3A 1 2 3 4) (modCtx 0 (fun k => { k with held := [3], regs := (k.regs.set 2 3).set 3 256 }) (run0))),
      by unfold AtWord; dsimp only; decide +kernel⟩
  · exact ⟨0, 1, 2, 3, 8, 15, (own 0 (wordA 0x3C 1 2 3 8) (modChan 15 (fun g => { g with bound := some (4, 0) }) (modCtx 0 (fun k => { k with regs := (k.regs.set 2 15).set 3 248 }) (run0)))),
      by unfold AtWord; dsimp only; decide +kernel⟩
  · exact ⟨0, 1, 2, 3, 15, (own 0 (wordA 0x3F 1 2 3 2) (modChan 15 (fun g => { g with bound := some (0, 4), msg := some { snd := 0, mseq := 0, words := [1], hand := none } }) (modCtx 0 (fun k => { k with regs := (k.regs.set 2 15).set 3 255 }) (run0)))), ({ snd := 0, mseq := 0, words := [1], hand := none }),
      by unfold AtWord; dsimp only; decide +kernel⟩
  · exact ⟨0, 1, 2, (own 0 (wordA 0x3D 1 2 0 0) (run0)), by unfold AtWord; decide +kernel⟩
  · exact ⟨0, 1, 4, (own 0 (wordA 0x3E 1 0 0 4) (run0)), by unfold AtWord; decide +kernel⟩
  · exact ⟨0, 1, (own 0 (wordA 0x36 1 0 0 0) { run0 with bufs := Vector.replicate 32 { Buf.reset with used := true } }),
      by unfold AtWord; decide +kernel⟩

/-- The conditions of `Obligations.SpoolEngine` are met. -/
theorem witness_SpoolEngine :
    (∃ (x : Tenant) (d : Fin 16) (a : Fin 16) (b : Fin 16) (s : State), AtWord x (wordA 0x38 d a b 0) s) ∧
    (∃ (x : Tenant) (d : Fin 16) (a : Fin 16) (b : Fin 16) (h : Fin 32) (dec : Bool) (s : State), let u := issueMoment x s; let k := u.ctxs[x]; AtWord
      x (wordA 0x39 d a b (if dec then 1 else 0)) s ∧ rd k a = BitVec.ofNat 32 h.val ∧ h ∈ k.held ∧ (rd k b).toNat % 16 = 0 ∧ (rd k b).toNat ≤ 240 ∧
      k.ksel.isSome = true) ∧
    (∃ (x : Tenant) (d : Fin 16) (a : Fin 16) (b : Fin 16) (h : Fin 32) (dec : Bool) (s : State), let u := issueMoment x s; let k := u.ctxs[x]; AtWord
      x (wordA 0x39 d a b (if dec then 1 else 0)) s ∧ rd k a = BitVec.ofNat 32 h.val ∧ h ∈ k.held ∧ (rd k b).toNat % 16 = 0 ∧ (rd k b).toNat ≤ 240 ∧
      k.ksel = none) ∧
    (∃ (x : Tenant) (d : Fin 16) (a : Fin 16) (b : Fin 16) (s : State), let u := issueMoment x s; AtWord x (wordA 0x3B d a b 0) s ∧ u.bri.drbgOk =
      true) ∧
    (∃ (x : Tenant) (d : Fin 16) (a : Fin 16) (b : Fin 16) (s : State), let u := issueMoment x s; AtWord x (wordA 0x3B d a b 0) s ∧ u.bri.drbgOk =
      false) ∧
    (∃ (x : Tenant) (now : Tick) (p : Pend) (s : State) (k : Fin 48), let u := advanceTo now s; u.ctxs[x].run = .waiting ∧ u.ctxs[x].pend = some p ∧
      p.noAir = false ∧ p.op = .ksel ∧ p.a.toNat % 64 = k.val ∧ keyRefusal x k.val isAes u = none ∧ noUseLeft k 1 u = false) ∧
    (∃ (x : Tenant) (now : Tick) (p : Pend) (s : State) (q : KeySel) (h : Fin 32) (key : Bytes) (w : State), let u := advanceTo now s;
      let v := engineDone x u; u.ctxs[x].run = .waiting ∧ u.ctxs[x].pend = some p ∧ p.noAir = false ∧ p.op = .aesb ∧ u.ctxs[x].ksel = some q ∧ q.gone
      = false ∧ heldBuf u.ctxs[x] p.a = some h ∧ useKey x q.slot.val (if bit p.fn 0 then isDec else isEnc) v = .ok (key, w)) ∧
    (∃ (x : Tenant) (now : Tick) (p : Pend) (s : State) (out : Bytes) (w : State), let u := advanceTo now s; u.ctxs[x].run =
      .waiting ∧ u.ctxs[x].pend = some p ∧ p.noAir = false ∧ p.op = .rng ∧
      (u.bri.engine.find? fun e => e.who == x && !e.stale).bind (·.out) = none ∧
      drbgTake 4 (engineDone x u) = some (out, w)) ∧
    (∃ (x : Tenant) (now : Tick) (p : Pend) (s : State) (out : Bytes), let u := advanceTo now s; u.ctxs[x].run =
      .waiting ∧ u.ctxs[x].pend = some p ∧ p.noAir = false ∧ p.op = .rng ∧
      (u.bri.engine.find? fun e => e.who == x && !e.stale).bind (·.out) = some out) := by
  refine ⟨?_, ?_, ?_, ?_, ?_, ?_, ?_, ?_, ?_⟩
  · exact ⟨0, 1, 2, 3, (own 0 (wordA 0x38 1 2 3 0) (run0)), by unfold AtWord; decide +kernel⟩
  · exact ⟨0, 1, 2, 3, 3, true, (own 0 (wordA 0x39 1 2 3 1) (modCtx 0 (fun k => { k with held := [3], regs := (k.regs.set 2 3).set 3 240, ksel := some { slot := 0, gone := false } }) (run0))),
      by unfold AtWord; dsimp only; decide +kernel⟩
  · exact ⟨0, 1, 2, 3, 3, false, (own 0 (wordA 0x39 1 2 3 0) (modCtx 0 (fun k => { k with held := [3], regs := (k.regs.set 2 3).set 3 0 }) (run0))),
      by unfold AtWord; dsimp only; decide +kernel⟩
  · exact ⟨0, 1, 2, 3, (own 0 (wordA 0x3B 1 2 3 0) (keyed .enc run0)), by unfold AtWord; dsimp only; decide +kernel⟩
  · exact ⟨0, 1, 2, 3, (own 0 (wordA 0x3B 1 2 3 0) (run0)), by unfold AtWord; dsimp only; decide +kernel⟩
  · exact ⟨0, 100, ({ op := .ksel, d := 1, a := 0x40, b := 0, fn := 0, issued := 0, until_ := 50, noAir := false, epoch := 0 }), (wait .ksel 0x40 0 false (keyed .enc run0)), 0,
      by decide +kernel, rfl, rfl, rfl, rfl, keyed_open rfl rfl (by decide +kernel), by decide +kernel⟩
  · exact ⟨0, 100, { op := .aesb, d := 1, a := 3, b := 0, fn := 1, issued := 0, until_ := 50, noAir := false, epoch := 0 }, wait .aesb 3 1 false (keyed .dec (modCtx 0 (fun k => { k with held := [3], ksel := some { slot := 0, gone := false } }) (run0))), { slot := 0, gone := false }, 3, _, _,
      by decide +kernel, rfl, rfl, rfl, rfl, rfl, by decide +kernel,
      (keyed_use rfl rfl (by decide +kernel) (by decide +kernel)).choose_spec⟩
  · exact ⟨0, 100, { op := .rng, d := 1, a := 0, b := 0, fn := 0, issued := 0, until_ := 50, noAir := false, epoch := 0 }, wait .rng 0 0 false (keyed .enc run0), _, _,
      by decide +kernel, rfl, rfl, rfl, by decide +kernel, drbgTake_eq (by decide +kernel)⟩
  · exact ⟨0, 100, { op := .rng, d := 1, a := 0, b := 0, fn := 0, issued := 0, until_ := 50, noAir := false, epoch := 0 }, wait .rng 0 0 false (setBri (fun b => { b with engine := [{ who := 0, epoch := 0, stale := false, rng := true, out := some [1, 2, 3, 4] }] }) run0), [1, 2, 3, 4],
      by decide +kernel, rfl, rfl, rfl, by decide +kernel⟩

/-- The conditions of `Obligations.SpoolReaderAirComplete` are met. -/
theorem witness_SpoolReaderAirComplete :
    (∃ (x : Tenant) (d a b : Fin 16) (nw : Bool) (h : Fin 32) (s : State), let i := issueMoment x s; let u := airClass x .reader (airCursor x i); let k := u.ctxs[x];
      AtInstr x (.spHop x d a nw) s ∧ AirClear x .reader (fun _ => false) i ∧ (rd k a).toNat ≤ 4800 ∧ u.rdr.carrier = none) ∧
    (∃ (x : Tenant) (d a b : Fin 16) (nw : Bool) (h : Fin 32) (s : State), let i := issueMoment x s; let u := airClass x .reader (airCursor x i); let k := u.ctxs[x];
      AtInstr x (.spHop x d a nw) s ∧ AirClear x .reader (fun _ => false) i ∧ (rd k a).toNat ≤ 4800 ∧ (u.rdr.carrier = none ∨ holds (.ctx x) .reader u = false) ∧ u.rdr.carrier.isSome = true) ∧
    (∃ (x : Tenant) (d a b : Fin 16) (nw : Bool) (h : Fin 32) (s : State), let i := issueMoment x s; let u := airClass x .reader (airCursor x i); let k := u.ctxs[x];
      AtInstr x (.spHop x d a nw) s ∧ AirClear x .reader (fun _ => false) i ∧ (rd k a).toNat ≤ 4800 ∧ u.rdr.carrier.isSome = true ∧ holds (.ctx x) .reader u = true) ∧
    (∃ (x : Tenant) (d a b : Fin 16) (nw : Bool) (h : Fin 32) (s : State), let i := issueMoment x s; let u := airClass x .reader (airCursor x i); let k := u.ctxs[x];
      AtInstr x (.spHop x d a nw) s ∧ AirClear x .reader (fun _ => false) i ∧ 4800 < (rd k a).toNat) ∧
    (∃ (x : Tenant) (d a b : Fin 16) (nw : Bool) (h : Fin 32) (s : State) (v : Int), let i := issueMoment x s; let u := airClass x .reader (airCursor x i); let k := u.ctxs[x];
      AtInstr x (.spPwr x d a nw) s ∧ AirClear x .reader paBad i ∧ holds (.ctx x) .reader u = true ∧ v = sWord ((rd k a).toNat % 65536) ∧ -120 ≤ v) ∧
    (∃ (x : Tenant) (d a b : Fin 16) (nw : Bool) (h : Fin 32) (s : State) (v : Int), let i := issueMoment x s; let u := airClass x .reader (airCursor x i); let k := u.ctxs[x];
      AtInstr x (.spPwr x d a nw) s ∧ AirClear x .reader paBad i ∧ holds (.ctx x) .reader u = true ∧ v = sWord ((rd k a).toNat % 65536) ∧ v < -120) ∧
    (∃ (x : Tenant) (d a b : Fin 16) (nw : Bool) (h : Fin 32) (s : State), let i := issueMoment x s; let u := airClass x .reader (airCursor x i); let k := u.ctxs[x];
      AtInstr x (.spAsel x d a nw) s ∧ AirClear x .reader (fun _ => false) i ∧ holds (.ctx x) .reader u = true ∧ u.rdr.carrier = none) ∧
    (∃ (x : Tenant) (d a b : Fin 16) (nw : Bool) (h : Fin 32) (s : State), let i := issueMoment x s; let u := airClass x .reader (airCursor x i); let k := u.ctxs[x];
      AtInstr x (.spAsel x d a nw) s ∧ AirClear x .reader (fun _ => false) i ∧ holds (.ctx x) .reader u = true ∧ u.rdr.carrier.isSome = true) ∧
    (∃ (x : Tenant) (d a b : Fin 16) (nw : Bool) (h : Fin 32) (s : State), let i := issueMoment x s; let u := airClass x .reader (airCursor x i); let k := u.ctxs[x];
      AtInstr x (.spTxcw x d true nw) s ∧ AirClear x .reader paBad i ∧ tuned x .reader u = true ∧ u.rdr.carrier = none) ∧
    (∃ (x : Tenant) (d a b : Fin 16) (nw : Bool) (h : Fin 32) (s : State), let i := issueMoment x s; let u := airClass x .reader (airCursor x i); let k := u.ctxs[x];
      AtInstr x (.spTxcw x d true nw) s ∧ AirClear x .reader paBad i ∧ tuned x .reader u = true ∧ u.rdr.carrier.isSome = true) ∧
    (∃ (x : Tenant) (d a b : Fin 16) (nw : Bool) (h : Fin 32) (s : State), let i := issueMoment x s; let u := airClass x .reader (airCursor x i); let k := u.ctxs[x];
      AtInstr x (.spTxcw x d false nw) s ∧ AirClear x .reader (fun _ => false) i ∧ holds (.ctx x) .reader u = true ∧ u.rdr.carrier = none) ∧
    (∃ (x : Tenant) (d a b : Fin 16) (nw : Bool) (h : Fin 32) (s : State), let i := issueMoment x s; let u := airClass x .reader (airCursor x i); let k := u.ctxs[x];
      AtInstr x (.spTxcw x d false nw) s ∧ AirClear x .reader (fun _ => false) i ∧ holds (.ctx x) .reader u = true ∧ u.rdr.carrier.isSome = true) ∧
    (∃ (x : Tenant) (d a b : Fin 16) (nw : Bool) (h : Fin 32) (s : State) (src : Fin 3) (pre qry : Bool) (fr : List Bool), let i := issueMoment x s; let u := airClass x .reader (airCursor x i); let k := u.ctxs[x];
      AtInstr x (.spTxsym x d a b src pre qry nw) s ∧ symCountOk src (rd i.ctxs[x] b).toNat = true ∧ symBits x src (rd i.ctxs[x] a) (rd i.ctxs[x] b).toNat i = some fr ∧ AirClear x .reader (fun p => fwdBad p || (pre && backBad p)) i ∧ holds (.ctx x) .reader u = true ∧ u.rdr.carrier.isSome = true ∧ k.stopping = none) ∧
    (∃ (x : Tenant) (d a b : Fin 16) (nw : Bool) (h : Fin 32) (s : State) (count : BitVec 10) (pclen crc : Bool), let i := issueMoment x s; let u := airClass x .reader (airCursor x i); let k := u.ctxs[x];
      AtInstr x (.spRxwin x d a b count pclen crc nw) s ∧ (pclen = true → count = 0) ∧ heldBuf i.ctxs[x] (rd i.ctxs[x] a) = some h ∧ AirClear x .reader backBad i ∧ lostReaderRx u = false ∧ tuned x .reader u = true ∧ rd k b ≠ 0) ∧
    (∃ (x : Tenant) (d a b : Fin 16) (nw : Bool) (h : Fin 32) (s : State) (count : BitVec 10) (pclen crc : Bool), let i := issueMoment x s; let u := airClass x .reader (airCursor x i); let k := u.ctxs[x];
      AtInstr x (.spRxwin x d a b count pclen crc nw) s ∧ (pclen = true → count = 0) ∧ heldBuf i.ctxs[x] (rd i.ctxs[x] a) = some h ∧ AirClear x .reader backBad i ∧ lostReaderRx u = false ∧ tuned x .reader u = true ∧ rd k b = 0) ∧
    (∃ (x : Tenant) (d a b : Fin 16) (nw : Bool) (h : Fin 32) (s : State), let i := issueMoment x s; let u := airClass x .reader (airCursor x i); let k := u.ctxs[x];
      AtInstr x (.spRssi x d nw) s ∧ AirClear x .reader (fun _ => false) i ∧ holds (.ctx x) .reader u = true) ∧
    (∃ (x : Tenant) (d a b : Fin 16) (nw : Bool) (h : Fin 32) (s : State), let i := issueMoment x s; let u := airClass x .reader (airCursor x i); let k := u.ctxs[x];
      AtInstr x (.spSniff x d nw) s ∧ AirClear x .reader paBad i ∧ tuned x .reader u = true ∧ u.rdr.carrier = none) ∧
    (∃ (x : Tenant) (d a b : Fin 16) (nw : Bool) (h : Fin 32) (s : State), let i := issueMoment x s; let u := airClass x .reader (airCursor x i); let k := u.ctxs[x];
      AtInstr x (.spRfoff x d nw) s ∧ AirClear x .reader (fun _ => false) i ∧ holds (.ctx x) .reader u = true) ∧
    (∃ (x : Tenant) (d a b : Fin 16) (nw : Bool) (h : Fin 32) (s : State), let i := issueMoment x s; let u := airClass x .reader (airCursor x i); let k := u.ctxs[x];
      AtInstr x (.spPwr x d a nw) s ∧ holds (.ctx x) .reader u = false ∧ AirClear x .reader paBad i) ∧
    (∃ (x : Tenant) (d a b : Fin 16) (nw : Bool) (h : Fin 32) (s : State), let i := issueMoment x s; let u := airClass x .reader (airCursor x i); let k := u.ctxs[x];
      AtInstr x (.spAsel x d a nw) s ∧ holds (.ctx x) .reader u = false ∧ AirClear x .reader (fun _ => false) i) ∧
    (∃ (x : Tenant) (d a b : Fin 16) (nw : Bool) (h : Fin 32) (s : State), let i := issueMoment x s; let u := airClass x .reader (airCursor x i); let k := u.ctxs[x];
      AtInstr x (.spTxcw x d false nw) s ∧ holds (.ctx x) .reader u = false ∧ AirClear x .reader (fun _ => false) i) ∧
    (∃ (x : Tenant) (d a b : Fin 16) (nw : Bool) (h : Fin 32) (s : State), let i := issueMoment x s; let u := airClass x .reader (airCursor x i); let k := u.ctxs[x];
      AtInstr x (.spRssi x d nw) s ∧ holds (.ctx x) .reader u = false ∧ AirClear x .reader (fun _ => false) i) ∧
    (∃ (x : Tenant) (d a b : Fin 16) (nw : Bool) (h : Fin 32) (s : State), let i := issueMoment x s; let u := airClass x .reader (airCursor x i); let k := u.ctxs[x];
      AtInstr x (.spRfoff x d nw) s ∧ holds (.ctx x) .reader u = false ∧ AirClear x .reader (fun _ => false) i) ∧
    (∃ (w : Bool) (x : Tenant) (core : CoreId) (d : Fin 16) (bad : Profile → Bool) (st : Byte) (body : State → State) (u t : State),
      airBlock x core bad u = some st ∧ airIssue w x core d bad body u = t ∧ inLimp u = true) ∧
    (∃ (w : Bool) (x : Tenant) (core : CoreId) (d : Fin 16) (bad : Profile → Bool) (st : Byte) (body : State → State) (u t : State),
      airBlock x core bad u = some st ∧ airIssue w x core d bad body u = t ∧ inLimp u = false ∧ noSyn u = true) ∧
    (∃ (w : Bool) (x : Tenant) (core : CoreId) (d : Fin 16) (bad : Profile → Bool) (st : Byte) (body : State → State) (u t : State),
      airBlock x core bad u = some st ∧ airIssue w x core d bad body u = t ∧ inLimp u = false ∧ noSyn u = false ∧ core = .link ∧ u.ctxs[x].lostL = true) ∧
    (∃ (x : Tenant) (core : CoreId) (bad : Profile → Bool) (u : State), airBlock x core bad u = none ∧ holds (.ctx x) core u = true) := by
  refine ⟨?_, ?_, ?_, ?_, ?_, ?_, ?_, ?_, ?_, ?_, ?_, ?_, ?_, ?_, ?_, ?_, ?_, ?_, ?_, ?_, ?_, ?_, ?_, ?_, ?_, ?_, ?_⟩
  · exact ⟨0, 1, 2, 3, true, 3, prog (.spHop 0 1 2 true) 4800 0 (run0),
      by (try dsimp only); (repeat' apply And.intro) <;> first | exact at_instr (by decide +kernel) | decide +kernel | (unfold AirClear; decide +kernel) | rfl⟩
  · exact ⟨0, 1, 2, 3, false, 3, prog (.spHop 0 1 2 false) 0 0 (setRdr (fun r => { r with carrier := some 0 }) run0),
      by (try dsimp only); (repeat' apply And.intro) <;> first | exact at_instr (by decide +kernel) | decide +kernel | (unfold AirClear; decide +kernel) | rfl⟩
  · exact ⟨0, 1, 2, 3, false, 3, prog (.spHop 0 1 2 false) 4800 0 (airR (.ctx 0) (setRdr (fun r => { r with carrier := some 0 }) run0)),
      by (try dsimp only); (repeat' apply And.intro) <;> first | exact at_instr (by decide +kernel) | decide +kernel | (unfold AirClear; decide +kernel) | rfl⟩
  · exact ⟨0, 1, 2, 3, false, 3, prog (.spHop 0 1 2 false) 4801 0 (run0),
      by (try dsimp only); (repeat' apply And.intro) <;> first | exact at_instr (by decide +kernel) | decide +kernel | (unfold AirClear; decide +kernel) | rfl⟩
  · exact ⟨0, 1, 2, 3, false, 3, prog (.spPwr 0 1 2 false) 65416 0 (airR (.ctx 0) run0), -120,
      by (try dsimp only); (repeat' apply And.intro) <;> first | exact at_instr (by decide +kernel) | decide +kernel | (unfold AirClear; decide +kernel) | rfl⟩
  · exact ⟨0, 1, 2, 3, true, 3, prog (.spPwr 0 1 2 true) 65415 0 (airR (.ctx 0) run0), -121,
      by (try dsimp only); (repeat' apply And.intro) <;> first | exact at_instr (by decide +kernel) | decide +kernel | (unfold AirClear; decide +kernel) | rfl⟩
  · exact ⟨0, 1, 2, 3, false, 3, prog (.spAsel 0 1 2 false) 3 0 (airR (.ctx 0) run0),
      by (try dsimp only); (repeat' apply And.intro) <;> first | exact at_instr (by decide +kernel) | decide +kernel | (unfold AirClear; decide +kernel) | rfl⟩
  · exact ⟨0, 1, 2, 3, false, 3, prog (.spAsel 0 1 2 false) 3 0 (airR (.ctx 0) (setRdr (fun r => { r with carrier := some 0 }) run0)),
      by (try dsimp only); (repeat' apply And.intro) <;> first | exact at_instr (by decide +kernel) | decide +kernel | (unfold AirClear; decide +kernel) | rfl⟩
  · exact ⟨0, 1, 2, 3, false, 3, prog (.spTxcw 0 1 true false) 0 0 (airR (.ctx 0) run0),
      by (try dsimp only); (repeat' apply And.intro) <;> first | exact at_instr (by decide +kernel) | decide +kernel | (unfold AirClear; decide +kernel) | rfl⟩
  · exact ⟨0, 1, 2, 3, false, 3, prog (.spTxcw 0 1 true false) 0 0 (airR (.ctx 0) (setRdr (fun r => { r with carrier := some 0 }) run0)),
      by (try dsimp only); (repeat' apply And.intro) <;> first | exact at_instr (by decide +kernel) | decide +kernel | (unfold AirClear; decide +kernel) | rfl⟩
  · exact ⟨0, 1, 2, 3, false, 3, prog (.spTxcw 0 1 false false) 0 0 (airR (.ctx 0) run0),
      by (try dsimp only); (repeat' apply And.intro) <;> first | exact at_instr (by decide +kernel) | decide +kernel | (unfold AirClear; decide +kernel) | rfl⟩
  · exact ⟨0, 1, 2, 3, true, 3, prog (.spTxcw 0 1 false true) 0 0 (airR (.ctx 0) (setRdr (fun r => { r with carrier := some 0 }) run0)),
      by (try dsimp only); (repeat' apply And.intro) <;> first | exact at_instr (by decide +kernel) | decide +kernel | (unfold AirClear; decide +kernel) | rfl⟩
  · exact ⟨0, 1, 2, 3, false, 3, prog (.spTxsym 0 1 2 3 0 true true false) 3 2048 (airR (.ctx 0) (setRdr (fun r => { r with carrier := some 0 }) run0)), 0, true, true, _,
      by (try dsimp only); (repeat' apply And.intro) <;> first | exact at_instr (by decide +kernel) | decide +kernel | (unfold AirClear; decide +kernel) | rfl⟩
  · exact ⟨0, 1, 2, 3, true, 3, prog (.spRxwin 0 1 2 3 1023 false true true) 3 1 (airR (.ctx 0) run0), 1023, false, true,
      by (try dsimp only); (repeat' apply And.intro) <;> first | exact at_instr (by decide +kernel) | decide +kernel | (unfold AirClear; decide +kernel) | rfl⟩
  · exact ⟨0, 1, 2, 3, false, 3, prog (.spRxwin 0 1 2 3 0 true false false) 3 0 (airR (.ctx 0) run0), 0, true, false,
      by (try dsimp only); (repeat' apply And.intro) <;> first | exact at_instr (by decide +kernel) | decide +kernel | (unfold AirClear; decide +kernel) | rfl⟩
  · exact ⟨0, 1, 2, 3, false, 3, prog (.spRssi 0 1 false) 0 0 (airR (.ctx 0) run0),
      by (try dsimp only); (repeat' apply And.intro) <;> first | exact at_instr (by decide +kernel) | decide +kernel | (unfold AirClear; decide +kernel) | rfl⟩
  · exact ⟨0, 1, 2, 3, false, 3, prog (.spSniff 0 1 false) 0 0 (airR (.ctx 0) run0),
      by (try dsimp only); (repeat' apply And.intro) <;> first | exact at_instr (by decide +kernel) | decide +kernel | (unfold AirClear; decide +kernel) | rfl⟩
  · exact ⟨0, 1, 2, 3, false, 3, prog (.spRfoff 0 1 false) 0 0 (airR (.ctx 0) run0),
      by (try dsimp only); (repeat' apply And.intro) <;> first | exact at_instr (by decide +kernel) | decide +kernel | (unfold AirClear; decide +kernel) | rfl⟩
  · exact ⟨0, 1, 2, 3, true, 3, prog (.spPwr 0 1 2 true) 0 0 (run0),
      by (try dsimp only); (repeat' apply And.intro) <;> first | exact at_instr (by decide +kernel) | decide +kernel | (unfold AirClear; decide +kernel) | rfl⟩
  · exact ⟨0, 1, 2, 3, false, 3, prog (.spAsel 0 1 2 false) 0 0 (run0),
      by (try dsimp only); (repeat' apply And.intro) <;> first | exact at_instr (by decide +kernel) | decide +kernel | (unfold AirClear; decide +kernel) | rfl⟩
  · exact ⟨0, 1, 2, 3, false, 3, prog (.spTxcw 0 1 false false) 0 0 (run0),
      by (try dsimp only); (repeat' apply And.intro) <;> first | exact at_instr (by decide +kernel) | decide +kernel | (unfold AirClear; decide +kernel) | rfl⟩
  · exact ⟨0, 1, 2, 3, true, 3, prog (.spRssi 0 1 true) 0 0 (run0),
      by (try dsimp only); (repeat' apply And.intro) <;> first | exact at_instr (by decide +kernel) | decide +kernel | (unfold AirClear; decide +kernel) | rfl⟩
  · exact ⟨0, 1, 2, 3, false, 3, prog (.spRfoff 0 1 false) 0 0 (run0),
      by (try dsimp only); (repeat' apply And.intro) <;> first | exact at_instr (by decide +kernel) | decide +kernel | (unfold AirClear; decide +kernel) | rfl⟩
  · exact ⟨true, 0, .link, 1, fun _ => false, stLimp, id, limp0, _, by (repeat' apply And.intro) <;> first | rfl | decide +kernel⟩
  · exact ⟨true, 0, .reader, 1, fun _ => false, stDegraded, id, setMend (fun m => { m with lost := 0x80 }) run0, _, by (repeat' apply And.intro) <;> first | rfl | decide +kernel⟩
  · exact ⟨true, 0, .link, 1, fun _ => false, stAirtime, id, modCtx 0 (fun k => { k with lostL := true }) run0, _, by (repeat' apply And.intro) <;> first | rfl | decide +kernel⟩
  · exact ⟨0, .reader, paBad, airR (.ctx 0) run0, by decide +kernel⟩

/-- The conditions of `Obligations.SpoolLinkAirComplete` are met. -/
theorem witness_SpoolLinkAirComplete :
    (∃ (x : Tenant) (d a b : Fin 16) (nw : Bool) (h : Fin 32) (s : State) (txi : Bool), let i := issueMoment x s; let u := airCursor x i; let k := u.ctxs[x];
      AtInstr x (.spLch x d a txi nw) s ∧ AirClear x .link linkProfileBad i ∧ (rd k a).toNat ≤ 4800) ∧
    (∃ (x : Tenant) (d a b : Fin 16) (nw : Bool) (h : Fin 32) (s : State) (txi : Bool), let i := issueMoment x s; let u := airCursor x i; let k := u.ctxs[x];
      AtInstr x (.spLch x d a txi nw) s ∧ AirClear x .link linkProfileBad i ∧ 4800 < (rd k a).toNat) ∧
    (∃ (x : Tenant) (d a b : Fin 16) (nw : Bool) (h : Fin 32) (s : State) (sf : Fin 5) (smode ack fcs : Bool) (psdu : Bytes) (lane : Fin 6), let i := issueMoment x s; let u := airCursor x i; let k := u.ctxs[x];
      AtInstr x (.spLtx x d a sf smode ack fcs nw) s ∧ (smode = true → sf = 0) ∧ heldBuf i.ctxs[x] (rd i.ctxs[x] a) = some h ∧ AirClear x .link linkProfileBad i ∧ psdu = (if fcs then withFcs (bufBytes u.bufs[h] u.bufs[h].len) else bufBytes u.bufs[h] u.bufs[h].len) ∧ lane = (if smode then 5 else ⟨sf.val, by omega⟩) ∧ 1 ≤ psdu.length ∧ psdu.length ≤ (if smode then 127 else 255) ∧ holds (.ctx x) .link u = true ∧ coreState .link u = .synth) ∧
    (∃ (x : Tenant) (d a b : Fin 16) (nw : Bool) (h : Fin 32) (s : State) (sf : Fin 5) (smode ack fcs : Bool) (psdu : Bytes) (lane : Fin 6), let i := issueMoment x s; let u := airCursor x i; let k := u.ctxs[x];
      AtInstr x (.spLtx x d a sf smode ack fcs nw) s ∧ (smode = true → sf = 0) ∧ heldBuf i.ctxs[x] (rd i.ctxs[x] a) = some h ∧ AirClear x .link linkProfileBad i ∧ psdu = (if fcs then withFcs (bufBytes u.bufs[h] u.bufs[h].len) else bufBytes u.bufs[h] u.bufs[h].len) ∧ lane = (if smode then 5 else ⟨sf.val, by omega⟩) ∧ 1 ≤ psdu.length ∧ psdu.length ≤ (if smode then 127 else 255) ∧ holds (.ctx x) .link u = true ∧ coreState .link u = .synth) ∧
    (∃ (x : Tenant) (d a b : Fin 16) (nw : Bool) (h : Fin 32) (s : State) (lanes : BitVec 6), let i := issueMoment x s; let u := airCursor x i; let k := u.ctxs[x];
      AtInstr x (.spLrx x d a b lanes nw) s ∧ heldBuf i.ctxs[x] (rd i.ctxs[x] a) = some h ∧ AirClear x .link (fun _ => false) i ∧ lostLinkRx u = false ∧ (if lanes = 0 then 0x3F else lanes) &&& u.link.uses &&& (if slowChips u.loaded[x] u then 0x1F else 0x3F) ≠ 0 ∧ tuned x .link u = true ∧ rd k b ≠ 0) ∧
    (∃ (x : Tenant) (d a b : Fin 16) (nw : Bool) (h : Fin 32) (s : State) (lanes : BitVec 6), let i := issueMoment x s; let u := airCursor x i; let k := u.ctxs[x];
      AtInstr x (.spLrx x d a b lanes nw) s ∧ heldBuf i.ctxs[x] (rd i.ctxs[x] a) = some h ∧ AirClear x .link (fun _ => false) i ∧ lostLinkRx u = false ∧ (if lanes = 0 then 0x3F else lanes) &&& u.link.uses &&& (if slowChips u.loaded[x] u then 0x1F else 0x3F) ≠ 0 ∧ tuned x .link u = true ∧ rd k b = 0) ∧
    (∃ (x : Tenant) (d a b : Fin 16) (nw : Bool) (h : Fin 32) (s : State) (txi : Bool), let i := issueMoment x s; let u := airCursor x i; let k := u.ctxs[x];
      AtInstr x (.spLcca x d txi nw) s ∧ AirClear x .link (fun _ => false) i ∧ lostLinkRx u = false ∧ tuned x .link u = true) ∧
    (∃ (x : Tenant) (d a b : Fin 16) (nw : Bool) (h : Fin 32) (s : State), let i := issueMoment x s; let u := airCursor x i; let k := u.ctxs[x];
      AtInstr x (.spLoff x d nw) s ∧ AirClear x .link (fun _ => false) i ∧ holds (.ctx x) .link u = true) ∧
    (∃ (x : Tenant) (d a b : Fin 16) (nw : Bool) (h : Fin 32) (s : State), let i := issueMoment x s; let u := airCursor x i; let k := u.ctxs[x];
      AtInstr x (.spLoff x d nw) s ∧ AirClear x .link (fun _ => false) i ∧ holds (.ctx x) .link u = false) := by
  refine ⟨?_, ?_, ?_, ?_, ?_, ?_, ?_, ?_, ?_⟩
  · exact ⟨0, 1, 2, 3, true, 3, prog (.spLch 0 1 2 true true) 4800 0 (run0), true,
      by (try dsimp only); (repeat' apply And.intro) <;> first | exact at_instr (by decide +kernel) | decide +kernel | (unfold AirClear; decide +kernel) | rfl⟩
  · exact ⟨0, 1, 2, 3, false, 3, prog (.spLch 0 1 2 false false) 4801 0 (run0), false,
      by (try dsimp only); (repeat' apply And.intro) <;> first | exact at_instr (by decide +kernel) | decide +kernel | (unfold AirClear; decide +kernel) | rfl⟩
  · exact ⟨0, 1, 2, 3, true, 3, prog (.spLtx 0 1 2 4 false true true true) 3 0 (airL (.ctx 0) (modBuf 3 (fun b => { b with len := 253 }) run0)), 4, false, true, true, _, _,
      by (try dsimp only); (repeat' apply And.intro) <;> first | exact at_instr (by decide +kernel) | decide +kernel | (unfold AirClear; decide +kernel) | rfl⟩
  · exact ⟨0, 1, 2, 3, false, 3, prog (.spLtx 0 1 2 0 true false false false) 3 0 (airL (.ctx 0) (modBuf 3 (fun b => { b with len := 127 }) run0)), 0, true, false, false, _, _,
      by (try dsimp only); (repeat' apply And.intro) <;> first | exact at_instr (by decide +kernel) | decide +kernel | (unfold AirClear; decide +kernel) | rfl⟩
  · exact ⟨0, 1, 2, 3, true, 3, prog (.spLrx 0 1 2 3 0x20 true) 3 1 (airL (.ctx 0) run0), 0x20,
      by (try dsimp only); (repeat' apply And.intro) <;> first | exact at_instr (by decide +kernel) | decide +kernel | (unfold AirClear; decide +kernel) | rfl⟩
  · exact ⟨0, 1, 2, 3, false, 3, prog (.spLrx 0 1 2 3 0 false) 3 0 (airL (.ctx 0) run0), 0,
      by (try dsimp only); (repeat' apply And.intro) <;> first | exact at_instr (by decide +kernel) | decide +kernel | (unfold AirClear; decide +kernel) | rfl⟩
  · exact ⟨0, 1, 2, 3, false, 3, prog (.spLcca 0 1 true false) 0 0 (airL (.ctx 0) run0), true,
      by (try dsimp only); (repeat' apply And.intro) <;> first | exact at_instr (by decide +kernel) | decide +kernel | (unfold AirClear; decide +kernel) | rfl⟩
  · exact ⟨0, 1, 2, 3, false, 3, prog (.spLoff 0 1 false) 0 0 (airL (.ctx 0) run0),
      by (try dsimp only); (repeat' apply And.intro) <;> first | exact at_instr (by decide +kernel) | decide +kernel | (unfold AirClear; decide +kernel) | rfl⟩
  · exact ⟨0, 1, 2, 3, true, 3, prog (.spLoff 0 1 true) 0 0 (run0),
      by (try dsimp only); (repeat' apply And.intro) <;> first | exact at_instr (by decide +kernel) | decide +kernel | (unfold AirClear; decide +kernel) | rfl⟩

/-- The conditions of `Obligations.SpoolAirEnds` are met. -/
theorem witness_SpoolAirEnds :
    (∃ (x : Tenant) (now : Tick) (p : Pend) (s : State), let u := advanceTo now s; u.ctxs[x].run = .waiting ∧ u.ctxs[x].pend = some p ∧ p.noAir = false ∧
      isBuiltin u.ctxs[x] = false ∧ u.ctxs[x].lostR = false ∧ p.op = .hop ∧ reached u.reel.cnt (p.until_ + p.b.setWidth 48) = true) ∧
    (∃ (x : Tenant) (now : Tick) (p : Pend) (s : State), let u := advanceTo now s; u.ctxs[x].run = .waiting ∧ u.ctxs[x].pend = some p ∧ p.noAir = false ∧
      isBuiltin u.ctxs[x] = false ∧ u.ctxs[x].lostR = false ∧ p.op = .txcw ∧ reached u.reel.cnt p.until_ = true) ∧
    (∃ (x : Tenant) (now : Tick) (p : Pend) (s : State), let u := advanceTo now s; u.ctxs[x].run = .waiting ∧ u.ctxs[x].pend = some p ∧ p.noAir = false ∧
      isBuiltin u.ctxs[x] = false ∧ u.ctxs[x].lostR = false ∧ p.op = .txsym ∧ u.ctxs[x].stopping = none ∧ reached u.reel.cnt p.until_ = true) ∧
    (∃ (x : Tenant) (now : Tick) (p : Pend) (s : State), let u := advanceTo now s; u.ctxs[x].run = .waiting ∧ u.ctxs[x].pend = some p ∧ p.noAir = false ∧
      isBuiltin u.ctxs[x] = false ∧ u.ctxs[x].lostR = false ∧ p.op = .rxwin ∧ u.ctxs[x].stopping = none ∧ reached u.reel.cnt p.until_ = true) ∧
    (∃ (x : Tenant) (now : Tick) (p : Pend) (r : Reply) (n : Nat) (good : Bool) (s : State), let u := advanceTo now s; u.ctxs[x].run = .waiting ∧ u.ctxs[x].pend = some p ∧ p.noAir = false ∧
      isBuiltin u.ctxs[x] = false ∧ u.ctxs[x].lostR = false ∧ p.op = .rxwin ∧ u.ctxs[x].stopping = none ∧ reached r.begun (p.until_ - p.b.setWidth 48) = true ∧
      reached r.begun p.until_ = false ∧ requestStale x .reader u = false ∧ r.decoded = true ∧ rateOk (profileSet u.loaded[x]) r = true ∧
      n = rxwinLen p.fn r ∧ n ≤ r.bits ∧ good = (bit p.fn 11 && crcGood ((byteBits r.bytes).take n))) ∧
    (∃ (x : Tenant) (now : Tick) (p : Pend) (r : Reply) (n : Nat) (good : Bool) (s : State), let u := advanceTo now s; u.ctxs[x].run = .waiting ∧ u.ctxs[x].pend = some p ∧ p.noAir = false ∧
      isBuiltin u.ctxs[x] = false ∧ u.ctxs[x].lostR = false ∧ p.op = .rxwin ∧ u.ctxs[x].stopping = none ∧ reached r.begun (p.until_ - p.b.setWidth 48) = true ∧
      reached r.begun p.until_ = false ∧ requestStale x .reader u = false ∧ r.decoded = true ∧ rateOk (profileSet u.loaded[x]) r = true ∧
      n = rxwinLen p.fn r ∧ n ≤ r.bits ∧ good = (bit p.fn 11 && crcGood ((byteBits r.bytes).take n)) ∧ good = true) ∧
    (∃ (x : Tenant) (now : Tick) (p : Pend) (s : State) (v : State), let u := advanceTo now s; u.ctxs[x].run = .waiting ∧ u.ctxs[x].pend = some p ∧ p.noAir = false ∧
      isBuiltin u.ctxs[x] = false ∧ u.ctxs[x].lostR = false ∧ p.op = .sniff ∧ reached u.reel.cnt p.until_ = true ∧ v = slotWithdrawn x (setCore .reader .synth (frameEnd .reader u)) ∧ p.epoch = v.epoch.rdr ∧ v.rdr.base[v.rdr.aerial] = none) ∧
    (∃ (x : Tenant) (now : Tick) (p : Pend) (s : State) (v : State) (b g : Gamma) (n : Nat) (w : State), let u := advanceTo now s; u.ctxs[x].run = .waiting ∧ u.ctxs[x].pend = some p ∧ p.noAir = false ∧
      isBuiltin u.ctxs[x] = false ∧ u.ctxs[x].lostR = false ∧ p.op = .sniff ∧ reached u.reel.cnt p.until_ = true ∧ v = slotWithdrawn x (setCore .reader .synth (frameEnd .reader u)) ∧ p.epoch = v.epoch.rdr ∧ v.rdr.base[v.rdr.aerial] = some b ∧ deltaOf g b v = (n, w)) ∧
    (∃ (x : Tenant) (now : Tick) (p : Pend) (s : State), let u := advanceTo now s; u.ctxs[x].run = .waiting ∧ u.ctxs[x].pend = some p ∧ p.noAir = false ∧
      isBuiltin u.ctxs[x] = false ∧ u.ctxs[x].lostR = false ∧ p.op = .rfoff ∧ reached u.reel.cnt p.until_ = true) ∧
    (∃ (x : Tenant) (now : Tick) (p : Pend) (i : Inv) (s : State), let u := advanceTo now s; u.ctxs[x].run = .waiting ∧ u.ctxs[x].pend = some p ∧ p.noAir = false ∧
      isBuiltin u.ctxs[x] = true ∧ u.rdr.inv[x] = some i ∧ p.op = .hop) ∧
    (∃ (x : Tenant) (now : Tick) (p : Pend) (i : Inv) (s : State), let u := advanceTo now s; u.ctxs[x].run = .waiting ∧ u.ctxs[x].pend = some p ∧ p.noAir = false ∧
      isBuiltin u.ctxs[x] = true ∧ u.rdr.inv[x] = some i ∧ p.op = .txcw ∧ reached u.reel.cnt p.until_ = true) ∧
    (∃ (x : Tenant) (now : Tick) (p : Pend) (i : Inv) (s : State), let u := advanceTo now s; u.ctxs[x].run = .waiting ∧ u.ctxs[x].pend = some p ∧ p.noAir = false ∧
      isBuiltin u.ctxs[x] = true ∧ u.rdr.inv[x] = some i ∧ p.op = .txsym ∧ reached u.reel.cnt p.until_ = true) ∧
    (∃ (x : Tenant) (now : Tick) (p : Pend) (i : Inv) (s : State), let u := advanceTo now s; u.ctxs[x].run = .waiting ∧ u.ctxs[x].pend = some p ∧ p.noAir = false ∧
      isBuiltin u.ctxs[x] = true ∧ u.rdr.inv[x] = some i ∧ p.op = .rxwin ∧ reached u.reel.cnt p.until_ = true) ∧
    (∃ (x : Tenant) (now : Tick) (p : Pend) (s : State), let u := advanceTo now s; u.ctxs[x].run = .waiting ∧ u.ctxs[x].pend = some p ∧ p.noAir = false ∧
      u.ctxs[x].lostL = false ∧ p.op = .lch ∧ reached u.reel.cnt p.until_ = true) ∧
    (∃ (x : Tenant) (now : Tick) (p : Pend) (s : State), let u := advanceTo now s; u.ctxs[x].run = .waiting ∧ u.ctxs[x].pend = some p ∧ p.noAir = false ∧
      u.ctxs[x].lostL = false ∧ p.op = .ltx ∧ reached u.reel.cnt (p.until_ + p.b.setWidth 48) = true) ∧
    (∃ (x : Tenant) (now : Tick) (p : Pend) (s : State), let u := advanceTo now s; u.ctxs[x].run = .waiting ∧ u.ctxs[x].pend = some p ∧ p.noAir = false ∧
      u.ctxs[x].lostL = false ∧ p.op = .lrx ∧ reached u.reel.cnt (p.until_ + 576 + p.b.setWidth 48) = true ∧ u.link.demod = false) ∧
    (∃ (x : Tenant) (now : Tick) (p : Pend) (f : RxFrame) (s : State), let u := advanceTo now s; u.ctxs[x].run = .waiting ∧ u.ctxs[x].pend = some p ∧ p.noAir = false ∧
      u.ctxs[x].lostL = false ∧ p.op = .lrx ∧ (bits p.fn 5 0 = 0 ∨ (bits p.fn 5 0).testBit f.lane.val = true) ∧
      sfdInWindow p f.sfd = true ∧ requestStale x .link u = false ∧ u.ctxs[x].stopping = none) ∧
    (∃ (x : Tenant) (now : Tick) (p : Pend) (f : RxFrame) (s : State), let u := advanceTo now s; u.ctxs[x].run = .waiting ∧ u.ctxs[x].pend = some p ∧ p.noAir = false ∧
      u.ctxs[x].lostL = false ∧ p.op = .lrx ∧ (bits p.fn 5 0 = 0 ∨ (bits p.fn 5 0).testBit f.lane.val = true) ∧
      sfdInWindow p f.sfd = true ∧ requestStale x .link u = false ∧ u.ctxs[x].stopping = none ∧ fcsGood f = true) ∧
    (∃ (x : Tenant) (now : Tick) (p : Pend) (s : State), let u := advanceTo now s; u.ctxs[x].run = .waiting ∧ u.ctxs[x].pend = some p ∧ p.noAir = false ∧
      u.ctxs[x].lostL = false ∧ p.op = .lcca ∧ reached u.reel.cnt (p.until_ + 3072) = true) ∧
    (∃ (x : Tenant) (now : Tick) (p : Pend) (s : State), let u := advanceTo now s; u.ctxs[x].run = .waiting ∧ u.ctxs[x].pend = some p ∧ p.noAir = false ∧
      u.ctxs[x].lostL = false ∧ p.op = .loff ∧ reached u.reel.cnt p.until_ = true) ∧
    (∃ (x : Tenant) (core : CoreId) (now : Tick) (d : Fin 16) (f : Ctx → Ctx) (u t : State),
      (match core with | .reader => u.ctxs[x].lostR | .link => u.ctxs[x].lostL) = true ∧ airDone x core now d f u = t) ∧
    (∃ (x : Tenant) (core : CoreId) (now : Tick) (d : Fin 16) (f : Ctx → Ctx) (u t : State),
      (match core with | .reader => u.ctxs[x].lostR | .link => u.ctxs[x].lostL) = true ∧ airDone x core now d f u = t) := by
  refine ⟨?_, ?_, ?_, ?_, ?_, ?_, ?_, ?_, ?_, ?_, ?_, ?_, ?_, ?_, ?_, ?_, ?_, ?_, ?_, ?_, ?_, ?_⟩
  · exact ⟨0, 290, { pend0 .hop with b := 240 }, pended ({ pend0 .hop with b := 240 }) (airR (.ctx 0) run0),
      by (try dsimp only); (repeat' apply And.intro) <;> first | decide +kernel | rfl⟩
  · exact ⟨0, 50, { pend0 .txcw with fn := 1 }, pended ({ pend0 .txcw with fn := 1 }) (airR (.ctx 0) run0),
      by (try dsimp only); (repeat' apply And.intro) <;> first | decide +kernel | rfl⟩
  · exact ⟨0, 50, pend0 .txsym, pended (pend0 .txsym) (airR (.ctx 0) run0),
      by (try dsimp only); (repeat' apply And.intro) <;> first | decide +kernel | rfl⟩
  · exact ⟨0, 50, pend0 .rxwin, pended (pend0 .rxwin) (airR (.ctx 0) run0),
      by (try dsimp only); (repeat' apply And.intro) <;> first | decide +kernel | rfl⟩
  · exact ⟨0, 60, { pend0 .rxwin with b := 20, fn := 16 ||| 0x800 }, { bytes := [1, 2], bits := 16, begun := 49, decoded := true, rateHz := 187500, rssi := 0, phase := 0 }, 16, false, pended ({ pend0 .rxwin with b := 20, fn := 16 ||| 0x800 }) (airR (.ctx 0) run0),
      by (try dsimp only); (repeat' apply And.intro) <;> first | decide +kernel | rfl⟩
  · exact ⟨0, 60, { pend0 .rxwin with b := 20, fn := 32 ||| 0x800 }, { bytes := bitBytes (withCrc16 (byteBits [0x12, 0x34])), bits := 40, begun := 30, decoded := true, rateHz := 312500, rssi := 0, phase := 0 }, 32, true, pended ({ pend0 .rxwin with b := 20, fn := 32 ||| 0x800 }) (airR (.ctx 0) run0),
      by (try dsimp only); (repeat' apply And.intro) <;> first | decide +kernel | rfl⟩
  · exact ⟨0, 50, pend0 .sniff, pended (pend0 .sniff) (airR (.ctx 0) run0), _,
      by (try dsimp only); refine ⟨?_, ?_, ?_, ?_, ?_, ?_, ?_, rfl, ?_, ?_⟩ <;> decide +kernel⟩
  · exact ⟨0, 50, pend0 .sniff, pended (pend0 .sniff) (setBase 0 { re := 0, im := 0 } (airR (.ctx 0) run0)), _, { re := 0, im := 0 }, { re := 0, im := 0 }, _, _,
      by (try dsimp only); refine ⟨?_, ?_, ?_, ?_, ?_, ?_, ?_, rfl, ?_, ?_, Prod.mk.eta.symm⟩ <;> decide +kernel⟩
  · exact ⟨0, 50, pend0 .rfoff, pended (pend0 .rfoff) (airR (.ctx 0) run0),
      by (try dsimp only); (repeat' apply And.intro) <;> first | decide +kernel | rfl⟩
  · exact ⟨0, 50, pend0 .hop, inv0, builtin (pend0 .hop) (setRdr (fun r => { r with inv := r.inv.set 0 (some inv0) }) (airR (.ctx 0) run0)),
      by (try dsimp only); (repeat' apply And.intro) <;> first | decide +kernel | rfl⟩
  · exact ⟨0, 50, pend0 .txcw, inv0, builtin (pend0 .txcw) (setRdr (fun r => { r with inv := r.inv.set 0 (some inv0) }) (airR (.ctx 0) run0)),
      by (try dsimp only); (repeat' apply And.intro) <;> first | decide +kernel | rfl⟩
  · exact ⟨0, 50, pend0 .txsym, inv0, builtin (pend0 .txsym) (setRdr (fun r => { r with inv := r.inv.set 0 (some inv0) }) (airR (.ctx 0) run0)),
      by (try dsimp only); (repeat' apply And.intro) <;> first | decide +kernel | rfl⟩
  · exact ⟨0, 50, pend0 .rxwin, inv0, builtin (pend0 .rxwin) (setRdr (fun r => { r with inv := r.inv.set 0 (some inv0) }) (airR (.ctx 0) run0)),
      by (try dsimp only); (repeat' apply And.intro) <;> first | decide +kernel | rfl⟩
  · exact ⟨0, 50, pend0 .lch, pended (pend0 .lch) (airL (.ctx 0) run0),
      by (try dsimp only); (repeat' apply And.intro) <;> first | decide +kernel | rfl⟩
  · exact ⟨0, 60, { pend0 .ltx with b := 10, fn := 0x100 }, pended ({ pend0 .ltx with b := 10, fn := 0x100 }) (airL (.ctx 0) run0),
      by (try dsimp only); (repeat' apply And.intro) <;> first | decide +kernel | rfl⟩
  · exact ⟨0, 726, { pend0 .lrx with b := 100 }, pended ({ pend0 .lrx with b := 100 }) (airL (.ctx 0) run0),
      by (try dsimp only); (repeat' apply And.intro) <;> first | decide +kernel | rfl⟩
  · exact ⟨0, 1000, { pend0 .lrx with b := 100, fn := 0x20 }, { lane := 5, sfd := 725, psdu := [1, 2, 3], rssi := 0, evm := 0, lkb := false }, pended ({ pend0 .lrx with b := 100, fn := 0x20 }) (airL (.ctx 0) run0),
      by (try dsimp only); (repeat' apply And.intro) <;> first | decide +kernel | rfl⟩
  · exact ⟨0, 1000, { pend0 .lrx with b := 100 }, { lane := 0, sfd := 626, psdu := withFcs [1], rssi := 0, evm := 1000, lkb := true }, pended ({ pend0 .lrx with b := 100 }) (airL (.ctx 0) run0),
      by (try dsimp only); (repeat' apply And.intro) <;> first | decide +kernel | rfl⟩
  · exact ⟨0, 3122, pend0 .lcca, pended (pend0 .lcca) (airL (.ctx 0) run0),
      by (try dsimp only); (repeat' apply And.intro) <;> first | decide +kernel | rfl⟩
  · exact ⟨0, 50, pend0 .loff, pended (pend0 .loff) (airL (.ctx 0) run0),
      by (try dsimp only); (repeat' apply And.intro) <;> first | decide +kernel | rfl⟩
  · exact ⟨0, .reader, 50, 1, id, modCtx 0 (fun k => { k with lostR := true }) run0, _, by decide +kernel, rfl⟩
  · exact ⟨0, .link, 50, 1, id, modCtx 0 (fun k => { k with lostL := true }) run0, _, by decide +kernel, rfl⟩

/-- The conditions of `Obligations.ReaderCommandsComplete` are met. -/
theorem witness_ReaderCommandsComplete :
    (Can 0x1000 fun c u => ∃ (a : InvArgs) (power : Int) (b : _), invArgsOf c.args = some (a, power) ∧ rdrRefusal c.t (a.region == 2) u = none ∧
      (a.region = 2 → u.prof[c.t].hop ≠ []) ∧ b = { a with pset := BitVec.ofInt 16 (clampPower u.prof[c.t] power u) }) ∧
    (Can 0x1001 fun c u => ∃ (i : Inv), u.rdr.inv[c.t] = some i ∧ c.args.length = 2 ∧ fld c.args 0 2 = i.tseq.toNat ∧ pastCommit .reader u = false) ∧
    (Can 0x1001 fun c u => ∃ (i : Inv), u.rdr.inv[c.t] = some i ∧ c.args.length = 2 ∧ fld c.args 0 2 = i.tseq.toNat ∧ holds (.ctx c.t) .reader u =
      true ∧ pastCommit .reader u = true ∧ i.stage ≠ .over ∧ i.ending = none) ∧
    (Can 0x1002 fun c u => ∃ (g : InvArgs) (n : Nat), u.rdr.lastInv[c.t] = some g ∧ inLimp u = false ∧ rdrRefusal c.t (g.region == 2) u = none ∧
      fld c.args 0 1 ≤ 2 ∧ fld c.args 1 1 ≤ 3 ∧ fld c.args 6 1 ≤ 3 ∧ (fld c.args 0 1 ≠ 2 → 1 ≤ fld c.args 9 1 ∧ fld c.args 9 1 ≤ 32) ∧
      (fld c.args 0 1 = 2 → fld c.args 9 1 ≤ 15) ∧ 1 ≤ fld c.args 10 1 ∧ fld c.args 10 1 ≤ 31 ∧ n = (if fld c.args 0 1 = 1 then fld c.args 9 1 else 0) ∧
      c.args.length = 11 + 2 * fld c.args 10 1 + 2 * n) ∧
    (Can 0x1002 fun c u => ∃ (g : InvArgs) (n : Nat), u.rdr.lastInv[c.t] = some g ∧ inLimp u = false ∧ rdrRefusal c.t (g.region == 2) u = none ∧
      fld c.args 0 1 ≤ 2 ∧ fld c.args 1 1 ≤ 3 ∧ fld c.args 6 1 ≤ 3 ∧ (fld c.args 0 1 ≠ 2 → 1 ≤ fld c.args 9 1 ∧ fld c.args 9 1 ≤ 32) ∧
      (fld c.args 0 1 = 2 → fld c.args 9 1 ≤ 15) ∧ 1 ≤ fld c.args 10 1 ∧ fld c.args 10 1 ≤ 31 ∧ n = (if fld c.args 0 1 = 1 then fld c.args 9 1 else 0) ∧
      c.args.length = 11 + 2 * fld c.args 10 1 + 2 * n) ∧
    (Can 0x1003 fun c u => c.args.length = 6 ∧ fld c.args 2 1 ≤ 3 ∧ fld c.args 5 1 ≤ 1 ∧ sniffDown u = none ∧ (∀ n, u.rdr.sniff = some n → n.owner =
      c.t) ∧ fld c.args 0 2 = 0) ∧
    (Can 0x1003 fun c u => c.args.length = 6 ∧ fld c.args 2 1 ≤ 3 ∧ fld c.args 5 1 ≤ 1 ∧ sniffDown u = none ∧ (∀ n, u.rdr.sniff = some n → n.owner =
      c.t) ∧ 50 ≤ fld c.args 0 2 ∧ fld c.args 0 2 ≤ 2000 ∧ paSniffBad u.prof[c.t] = false ∧ feedBad u.prof[c.t] = false) ∧
    (Can 0x1004 fun c u => ∃ (bursts : List Gamma), c.args.length = 1 ∧ fld c.args 0 1 ≤ 3 ∧ sniffDown u = none ∧ paSniffBad u.prof[c.t] = false ∧
      feedBad u.prof[c.t] = false ∧ (∀ n, u.rdr.sniff = some n → n.owner = c.t) ∧ airNow (baselineReq c.t u) u = true ∧ bursts.length = 16) := by
  refine ⟨?_, ?_, ?_, ?_, ?_, ?_, ?_, ?_⟩
  · exact can (cm 0 [0, 0x88, 0xFF, 0, 0, 1, 0, 0, 0, 0, 0]) (run0)
      (by decide +kernel) (⟨invArgs0, (-120), _, by refine ⟨?_, ?_, ?_, rfl⟩ <;> decide +kernel⟩)
  · exact can (cm 0 [5, 0]) (setRdr (fun r => { r with inv := r.inv.set 0 (some inv0) }) (run0))
      (by decide +kernel) (⟨inv0, by decide +kernel⟩)
  · exact can (cm 0 [5, 0]) (setRadio (fun r => { r with rHold := some { hold .reader (.ctx 0) with commit := some 0 } }) (setRdr (fun r => { r with inv := r.inv.set 0 (some inv0) }) (run0)))
      (by decide +kernel) (⟨inv0, by decide +kernel⟩)
  · exact can (cm 0 ([1, 3, 0, 0, 0, 0, 3, 0, 0, 32, 31] ++ List.replicate 126 0)) (setRdr (fun r => { r with lastInv := r.lastInv.set 0 (some invArgs0) }) (run0))
      (by decide +kernel) (⟨invArgs0, 32, by decide +kernel⟩)
  · exact can (cm 0 [2, 3, 0, 0, 0, 0, 3, 0, 0, 15, 1, 0, 0]) (setRdr (fun r => { r with lastInv := r.lastInv.set 0 (some invArgs0) }) (run0))
      (by decide +kernel) (⟨invArgs0, 0, by decide +kernel⟩)
  · exact can (cm 0 [0, 0, 3, 0, 0, 1]) (run0)
      (by decide +kernel)
      (by refine ⟨?_, ?_, ?_, ?_, ?_, ?_⟩ <;> first | decide +kernel | exact fun n h => nomatch (show (none : Option Sniff) = some n from h))
  · exact can (cm 0 [0xD0, 0x07, 3, 0, 0, 1]) (run0)
      (by decide +kernel)
      (by refine ⟨?_, ?_, ?_, ?_, ?_, ?_, ?_, ?_, ?_⟩ <;> first | decide +kernel | exact fun n h => nomatch (show (none : Option Sniff) = some n from h))
  · exact can (cm 0 [3]) (setRadio (fun r => { r with gnt := true }) run0)
      (by decide +kernel)
      (⟨(List.replicate 16 { re := 0, im := 0 }), by refine ⟨?_, ?_, ?_, ?_, ?_, ?_, ?_, ?_⟩ <;> first | decide +kernel | exact fun n h => nomatch (show (none : Option Sniff) = some n from h)⟩)

/-- The conditions of `Obligations.BlockResetsAndSpoolCommands` are met. -/
theorem witness_BlockResetsAndSpoolCommands :
    (Can 0x10F0 fun c u => c.args = [] ∧ (∀ t : Tenant, rdrActive t u = false) ∧ u.radio.rHold = none ∧ u.radio.waiters = [] ∧ u.rdr.inv[c.t] = none ∧
      u.rdr.acc[c.t] = none ∧ u.sess[c.t].opened = false ∧ u.rdr.sniff = none ∧ u.svy.sweep = none) ∧
    (Can 0x20F0 fun c u => c.args = [] ∧ (∀ t : Tenant, linkActive t u = false) ∧ u.radio.lHold = none ∧ u.radio.waiters = [] ∧ u.link.sends = [] ∧
      u.link.listens = Vector.replicate 4 none ∧ u.link.ackDue = none ∧ u.link.ackEnd = none ∧ u.svy.sweep = none) ∧
    (Can 0x48F0 fun c u => c.args = [] ∧ cryptoBusy c.t u = false ∧ u.ctxs[c.t].run ≠ .waiting ∧ u.radio.waiters = [] ∧ u.sess[c.t].opened = false ∧
      u.radio.rHold = none) ∧
    (Can 0x90F0 fun c u => c.args = [] ∧ (u.ctxs[c.t].run = .idle ∨ u.ctxs[c.t].run = .faulted)) ∧
    (Can 0x9000 fun c u => ∃ (got : Bytes) (b : Bytes), 5 ≤ c.args.length ∧ c.args.length = 5 + fld c.args 3 2 ∧ 1 ≤ fld c.args 3 2 ∧ fld c.args 3 2 ≤
      1000 ∧ (u.ctxs[c.t].run = .idle ∨ u.ctxs[c.t].run = .faulted) ∧ got = u.ctxs[c.t].load.getD [] ∧ fld c.args 0 2 = got.length ∧ got.length + fld
      c.args 3 2 ≤ maxImage ∧ b = got ++ c.args.drop 5 ∧ fld c.args 2 1 = 0) ∧
    (Can 0x9000 fun c u => ∃ (got : Bytes) (b : Bytes), 5 ≤ c.args.length ∧ c.args.length = 5 + fld c.args 3 2 ∧ 1 ≤ fld c.args 3 2 ∧ fld c.args 3 2 ≤
      1000 ∧ (u.ctxs[c.t].run = .idle ∨ u.ctxs[c.t].run = .faulted) ∧ got = u.ctxs[c.t].load.getD [] ∧ fld c.args 0 2 = got.length ∧ got.length + fld
      c.args 3 2 ≤ maxImage ∧ b = got ++ c.args.drop 5 ∧ fld c.args 2 1 = 1 ∧ imageOk b = true) ∧
    (Can 0x9000 fun c u => ∃ (got : Bytes) (b : Bytes), 5 ≤ c.args.length ∧ c.args.length = 5 + fld c.args 3 2 ∧ 1 ≤ fld c.args 3 2 ∧ fld c.args 3 2 ≤
      1000 ∧ (u.ctxs[c.t].run = .idle ∨ u.ctxs[c.t].run = .faulted) ∧ got = u.ctxs[c.t].load.getD [] ∧ fld c.args 0 2 = got.length ∧ got.length + fld
      c.args 3 2 ≤ maxImage ∧ b = got ++ c.args.drop 5 ∧ fld c.args 2 1 = 1 ∧ imageOk b = false) ∧
    (∃ (c : Cmd) (s : State) (u : State) (how : Starter) (pc : Nat), c.args.length = 17 ∧ fld c.args 0 1 ≤ 7 ∧ ctxBusy u.ctxs[c.t] = false ∧
      u.ctxs[c.t].entries[fld c.args 0 1]? = some pc ∧ how = .spoolStart ∧ Taken 0x9001 c s u) ∧
    (∃ (c : Cmd) (s : State) (u : State) (how : Starter) (pc : Nat), let p := u.prof[c.t]; c.args.length = 17 ∧ fld c.args 0 1 ≤ 7 ∧ ctxBusy
      u.ctxs[c.t] = false ∧ u.ctxs[c.t].entries[fld c.args 0 1]? = some pc ∧ how = .rdrRunSpool ∧ Taken 0x1010 c s u ∧ readerDown u = none ∧
      paSniffBad p = false ∧ feedBad p = false ∧ readerProfileBad p = false) ∧
    (∃ (c : Cmd) (s : State) (u : State) (how : Starter) (pc : Nat), let p := u.prof[c.t]; c.args.length = 17 ∧ fld c.args 0 1 ≤ 7 ∧ ctxBusy
      u.ctxs[c.t] = false ∧ u.ctxs[c.t].entries[fld c.args 0 1]? = some pc ∧ how = .lnkRunSpool ∧ Taken 0x2010 c s u ∧ inLimp u = false ∧ noSyn u =
      false ∧ linkProfileBad p = false) ∧
    (Can 0x9002 fun c u => c.args = [] ∧ ownRuns u.ctxs[c.t] = true ∧ progCommitted c.t u = false) ∧
    (Can 0x9003 fun c _ => c.args = []) := by
  refine ⟨?_, ?_, ?_, ?_, ?_, ?_, ?_, ?_, ?_, ?_, ?_, ?_⟩
  · exact can (cm 0 []) (run0) (by decide +kernel) (by decide +kernel)
  · exact can (cm 0 []) (run0) (by decide +kernel) (by decide +kernel)
  · exact can (cm 0 []) (run0) (by decide +kernel) (by decide +kernel)
  · exact can (cm 0 []) (modCtx 0 (fun k => { k with run := .faulted }) (run0)) (by decide +kernel) (by decide +kernel)
  · exact can (cm 0 ([0, 0, 0, 0xE8, 3] ++ List.replicate 1000 0)) (run0)
      (by decide +kernel) (⟨[], (List.replicate 1000 0), by decide +kernel⟩)
  · exact can (cm 0 ([0, 0, 1, 40, 0] ++ image0)) (run0) (by decide +kernel) (⟨[], image0, by decide +kernel⟩)
  · exact can (cm 0 [0, 0, 1, 1, 0, 9]) (run0) (by decide +kernel) (⟨[], [9], by decide +kernel⟩)
  · exact ⟨(cm 0 ([7] ++ List.replicate 16 0)), (modCtx 0 (fun k => { k with entries := List.replicate 8 0 }) (run0)), (up 0x9001 (cm 0 ([7] ++ List.replicate 16 0)) (modCtx 0 (fun k => { k with entries := List.replicate 8 0 }) (run0))), .spoolStart, 0,
      by (repeat' apply And.intro) <;> first | with_reducible rfl | exact taken_up (by decide +kernel) | decide +kernel | rfl⟩
  · exact ⟨(cm 0 ([7] ++ List.replicate 16 0)), (modCtx 0 (fun k => { k with entries := List.replicate 8 0 }) (run0)), (up 0x1010 (cm 0 ([7] ++ List.replicate 16 0)) (modCtx 0 (fun k => { k with entries := List.replicate 8 0 }) (run0))), .rdrRunSpool, 0,
      by dsimp only; (repeat' apply And.intro) <;> first | with_reducible rfl | exact taken_up (by decide +kernel) | decide +kernel | rfl⟩
  · exact ⟨(cm 0 ([7] ++ List.replicate 16 0)), (modCtx 0 (fun k => { k with entries := List.replicate 8 0 }) (run0)), (up 0x2010 (cm 0 ([7] ++ List.replicate 16 0)) (modCtx 0 (fun k => { k with entries := List.replicate 8 0 }) (run0))), .lnkRunSpool, 0,
      by dsimp only; (repeat' apply And.intro) <;> first | with_reducible rfl | exact taken_up (by decide +kernel) | decide +kernel | rfl⟩
  · exact can (cm 0 []) (modCtx 0 (fun k => { k with run := .running }) (run0)) (by decide +kernel) (by decide +kernel)
  · exact can (cm 0 []) (run0) (by decide +kernel) (by decide +kernel)

/-- The conditions of `Obligations.TagCommandsComplete` are met. -/
theorem witness_TagCommandsComplete :
    (Can 0x1100 fun c u => ∃ (k : Fin 48), 2 ≤ fld c.args 2 1 ∧ fld c.args 2 1 ≤ 8 ∧ c.args.length = 3 + 2 * fld c.args 2 1 ∧ fld c.args 1 1 ≤ 7 ∧
      inLimp u = false ∧ (u.tag.enabled = true → u.tag.owner = c.t) ∧ fld c.args 0 1 = k.val ∧ keyRefusal c.t k.val isDerive u = none) ∧
    (Can 0x1101 fun c u => c.args = [] ∧ u.tag.enabled = true ∧ u.tag.owner = c.t ∧ u.tag.session = false) ∧
    (Can 0x1102 fun c u => c.args.length = 4 + fld c.args 2 2 ∧ u.tag.enabled = true ∧ u.tag.owner = c.t ∧ 1 ≤ fld c.args 2 2 ∧ fld c.args 2 2 ≤ 512 ∧
      fld c.args 0 2 + fld c.args 2 2 ≤ 2048 ∧ u.tag.session = false) ∧
    (Can 0x1102 fun c u => c.args.length = 4 + fld c.args 2 2 ∧ u.tag.enabled = true ∧ u.tag.owner = c.t ∧ 1 ≤ fld c.args 2 2 ∧ fld c.args 2 2 ≤ 512 ∧
      fld c.args 0 2 + fld c.args 2 2 ≤ 2048 ∧ u.tag.session = true) ∧
    (Can 0x1200 fun c u => ∃ (k : Fin 48) (g : InvArgs) (n : Nat) (base : Nat) (kind : AccKind) (note : SecSess → SecSess) (res : Bytes),
      u.rdr.lastInv[c.t] = some g ∧ inLimp u = false ∧ rdrRefusal c.t (g.region == 2) u = none ∧ fld c.args 0 1 = k.val ∧ keyRefusal c.t k.val
      isDerive u = none ∧ u.bri.drbgOk = true ∧ u.sess[c.t].opened = false ∧ 1 ≤ n ∧ n ≤ 31 ∧ c.args.length = base + 2 * n ∧ base = 4 ∧ fld c.args 2 1
      ≤ 3 ∧ n = fld c.args 3 1 ∧ kind = .tam1 k (BitVec.ofNat 8 (fld c.args 1 1)) ∧ res = [] ∧ note = (fun q => { q with challenge := [] })) ∧
    (Can 0x1201 fun c u => ∃ (k : Fin 48) (g : InvArgs) (n : Nat) (base : Nat) (kind : AccKind) (note : SecSess → SecSess) (res : Bytes),
      u.rdr.lastInv[c.t] = some g ∧ inLimp u = false ∧ rdrRefusal c.t (g.region == 2) u = none ∧ fld c.args 0 1 = k.val ∧ keyRefusal c.t k.val
      isDerive u = none ∧ u.bri.drbgOk = true ∧ u.sess[c.t].opened = false ∧ 1 ≤ n ∧ n ≤ 31 ∧ c.args.length = base + 2 * n ∧ base = 3 ∧ fld c.args 1 1
      ≤ 3 ∧ n = fld c.args 2 1 ∧ kind = .farz k ∧ res = [nextSid u.sess[c.t].sid] ∧ note = (fun q =>
      { q with sid := nextSid u.sess[c.t].sid, tseq := c.seq, key := k, keyGone := false, challenge := [], ctx := none })) ∧
    (Can 0x1202 fun c u => ∃ (v : _), c.args.length = 3 + fld c.args 1 2 ∧ 1 ≤ fld c.args 1 2 ∧ fld c.args 1 2 ≤ 256 ∧ u.sess[c.t].opened = true ∧
      u.sess[c.t].sid.toNat = fld c.args 0 1 ∧ inLimp u = false ∧ u.mend.keyram.getLsbD u.sess[c.t].key.val = false ∧ noUseLeft u.sess[c.t].key (if
      200 < fld c.args 1 2 then 2 else 1) u = false ∧ v = modSess c.t (fun q => { q with idleFrom := u.reel.cnt }) (reply c.t stOk [] u) ∧
      u.sess[c.t].busy = none) ∧
    (Can 0x1202 fun c u => ∃ (v : _), c.args.length = 3 + fld c.args 1 2 ∧ 1 ≤ fld c.args 1 2 ∧ fld c.args 1 2 ≤ 256 ∧ u.sess[c.t].opened = true ∧
      u.sess[c.t].sid.toNat = fld c.args 0 1 ∧ inLimp u = false ∧ u.mend.keyram.getLsbD u.sess[c.t].key.val = false ∧ noUseLeft u.sess[c.t].key (if
      200 < fld c.args 1 2 then 2 else 1) u = false ∧ v = modSess c.t (fun q => { q with idleFrom := u.reel.cnt }) (reply c.t stOk [] u) ∧
      u.sess[c.t].busy.isSome = true) ∧
    (Can 0x1203 fun c u => c.args.length = 1 ∧ u.sess[c.t].opened = true ∧ u.sess[c.t].sid.toNat = fld c.args 0 1) := by
  refine ⟨?_, ?_, ?_, ?_, ?_, ?_, ?_, ?_, ?_⟩
  · exact can (cm 0 ([0, 7, 8] ++ List.replicate 16 0)) (keyed .derive_ run0) (by decide +kernel) (⟨0, by (repeat' apply And.intro) <;> first | exact keyed_open (c := .derive_) (by decide +kernel) rfl (by decide +kernel) | decide +kernel⟩)
  · exact can (cm 0 []) (tagged run0) (by decide +kernel) (by decide +kernel)
  · exact can (cm 0 ([0, 6, 0, 2] ++ List.replicate 512 0)) (tagged run0) (by decide +kernel) (by decide +kernel)
  · exact can (cm 0 ([0, 6, 0, 2] ++ List.replicate 512 0)) (setTag (fun g => { g with session := true }) (tagged run0))
      (by decide +kernel) (by decide +kernel)
  · exact can (cm 0 ([0, 9, 3, 31] ++ List.replicate 62 0)) (setRdr (fun r => { r with lastInv := r.lastInv.set 0 (some invArgs0) }) (keyed .derive_ run0))
      (by decide +kernel)
      (⟨0, invArgs0, 31, 4, _, _, _, by (repeat' apply And.intro) <;> first | with_reducible rfl | exact keyed_open (c := .derive_) (by decide +kernel) rfl (by decide +kernel) | exact taken_up (by decide +kernel) | decide +kernel | rfl⟩)
  · exact can (cm 0 ([0, 3, 1] ++ List.replicate 2 0)) (setRdr (fun r => { r with lastInv := r.lastInv.set 0 (some invArgs0) }) (keyed .derive_ run0))
      (by decide +kernel)
      (⟨0, invArgs0, 1, 3, _, _, _, by (repeat' apply And.intro) <;> first | with_reducible rfl | exact keyed_open (c := .derive_) (by decide +kernel) rfl (by decide +kernel) | exact taken_up (by decide +kernel) | decide +kernel | rfl⟩)
  · exact can (cm 0 ([0, 0, 1] ++ List.replicate 256 0)) (modSess 0 (fun q => { q with opened := true }) (keyed .derive_ run0))
      (by decide +kernel)
      (⟨_, by (repeat' apply And.intro) <;> first | with_reducible rfl | exact taken_up (by decide +kernel) | decide +kernel | rfl⟩)
  · exact can (cm 0 ([0, 1, 0, 7])) (modSess 0 (fun q => { q with opened := true, busy := some (3, []) }) (keyed .derive_ run0))
      (by decide +kernel)
      (⟨_, by (repeat' apply And.intro) <;> first | with_reducible rfl | exact taken_up (by decide +kernel) | decide +kernel | rfl⟩)
  · exact can (cm 0 [0]) (modSess 0 (fun q => { q with opened := true }) (run0)) (by decide +kernel) (by decide +kernel)

/-- The conditions of `Obligations.LinkCommandsComplete` are met. -/
theorem witness_LinkCommandsComplete :
    (Can 0x2000 fun c u => c.args.length = 13 ∧ (∀ h, u.link.holder = some h → h = c.t) ∧ fld c.args 12 1 = 1) ∧
    (Can 0x2000 fun c u => ∃ (v : _), c.args.length = 13 ∧ (∀ h, u.link.holder = some h → h = c.t) ∧ fld c.args 12 1 = 0 ∧ fld c.args 0 2 < 0xFFFE ∧
      fld c.args 2 2 ≤ 4800 ∧ fld c.args 4 1 ≤ 2 ∧ fld c.args 5 1 ≤ 1 ∧ fld c.args 6 2 ≤ 3600 ∧ fld c.args 8 4 < 2 ^ 28 ∧ (fld c.args 4 1 = 2 → 2480 ≤
      fld c.args 2 2 ∧ fld c.args 2 2 ≤ 3520) ∧ bandOk (fld c.args 2 2) (fld c.args 4 1) (fld c.args 5 1) = true ∧ linkBusy u = false ∧ v = setLink
      (fun l =>
      { l with configured := true, holder := some c.t, addr := BitVec.ofNat 16 (fld c.args 0 2), freq := fld c.args 2 2, rate := fld c.args 4 1, region := fld c.args 5 1, beacon := fld c.args 6 2, cap := BitVec.ofNat 28 (fld c.args 8 4), beaconAt := none })
      u) ∧
    (Can 0x2001 fun c u => ∃ (v : State) (kv : Option (Fin 48 × Bytes × Nat)) (h : Fin 32) (smode ar : Bool) (lane : Fin 6) (dst : BitVec 16)
      (mode key time : Nat), mode = fld c.args 3 1 ∧ key = fld c.args 4 1 ∧ time = fld c.args 7 6 ∧ smode = decide (mode = 128) ∧
      (mode ≤ 4 ∨ mode = 128) ∧ lane.val = (if mode = 128 then 5 else mode) ∧ dst = BitVec.ofNat 16 (fld c.args 0 2) ∧
      ar = (decide (fld c.args 6 1 = 1) && decide (dst ≠ 0xFFFF)) ∧ c.args.length = 15 + fld c.args 13 2 ∧ fld c.args 0 2 ≠ 0xFFFE ∧
      fld c.args 2 1 ≤ 3 ∧ (mode = 128 → fld c.args 2 1 = 0) ∧ (key ≤ 47 ∨ key = 0xFF) ∧ -40 ≤ sByte (fld c.args 5 1) ∧
      sByte (fld c.args 5 1) ≤ 28 ∧ fld c.args 6 1 ≤ 1 ∧ fld c.args 13 2 ≤ payloadMax smode (key != 0xFF) ∧
      linkRefusal c.t (ar || time == 0) u = none ∧ (mode = 128 → u.link.rate ≠ 1 ∧ 2480 ≤ u.link.freq ∧ u.link.freq ≤ 3520) ∧
      (ar = true → bit u.link.uses lane.val = true) ∧ findBuf (posOf c.t) u = some h ∧ sendKey c.t key u = .ok (kv, v)) ∧
    (Can 0x2001 fun c u => ∃ (v : State) (kv : Option (Fin 48 × Bytes × Nat)) (h : Fin 32) (smode ar : Bool) (lane : Fin 6) (dst : BitVec 16)
      (mode key time : Nat), mode = fld c.args 3 1 ∧ key = fld c.args 4 1 ∧ time = fld c.args 7 6 ∧ smode = decide (mode = 128) ∧
      (mode ≤ 4 ∨ mode = 128) ∧ lane.val = (if mode = 128 then 5 else mode) ∧ dst = BitVec.ofNat 16 (fld c.args 0 2) ∧
      ar = (decide (fld c.args 6 1 = 1) && decide (dst ≠ 0xFFFF)) ∧ c.args.length = 15 + fld c.args 13 2 ∧ fld c.args 0 2 ≠ 0xFFFE ∧
      fld c.args 2 1 ≤ 3 ∧ (mode = 128 → fld c.args 2 1 = 0) ∧ (key ≤ 47 ∨ key = 0xFF) ∧ -40 ≤ sByte (fld c.args 5 1) ∧
      sByte (fld c.args 5 1) ≤ 28 ∧ fld c.args 6 1 ≤ 1 ∧ fld c.args 13 2 ≤ payloadMax smode (key != 0xFF) ∧
      linkRefusal c.t (ar || time == 0) u = none ∧ (mode = 128 → u.link.rate ≠ 1 ∧ 2480 ≤ u.link.freq ∧ u.link.freq ≤ 3520) ∧
      (ar = true → bit u.link.uses lane.val = true) ∧ findBuf (posOf c.t) u = some h ∧ sendKey c.t key u = .ok (kv, v)) ∧
    (Can 0x2002 fun c u => ∃ (l : Listen) (v : _), c.args.length = 2 ∧ linkRefusal c.t true u = none ∧ u.link.uses ≠ 0 ∧ u.link.listens[c.t] = none ∧ l =
      { tseq := c.seq, dur := fld c.args 0 2, frames := 0, ending := none,
                        from_ := if holds .listen .link u then some u.reel.cnt else none } ∧ v =
      setLink (fun q => { q with listens := q.listens.set c.t.val (some l) c.t.isLt }) (reply c.t stOk [] u) ∧ u.link.listens.toList.all Option.isNone
      = false) ∧
    (Can 0x2002 fun c u => ∃ (l : Listen) (v : _), c.args.length = 2 ∧ linkRefusal c.t true u = none ∧ u.link.uses ≠ 0 ∧ u.link.listens[c.t] = none ∧ l =
      { tseq := c.seq, dur := fld c.args 0 2, frames := 0, ending := none,
                        from_ := if holds .listen .link u then some u.reel.cnt else none } ∧ v =
      setLink (fun q => { q with listens := q.listens.set c.t.val (some l) c.t.isLt }) (reply c.t stOk [] u) ∧ u.link.listens.toList.all Option.isNone
      = true) ∧
    (Can 0x2003 fun c u => ∃ (l : Listen) (seq : BitVec 16), c.args.length = 2 ∧ seq = BitVec.ofNat 16 (fld c.args 0 2) ∧ u.link.listens[c.t] = some l ∧
      l.tseq = seq ∧ (holds .listen .link u = false ∨ listenBusy u = false) ∧ holds .listen .link u = false) ∧
    (Can 0x2003 fun c u => ∃ (l : Listen) (seq : BitVec 16), c.args.length = 2 ∧ seq = BitVec.ofNat 16 (fld c.args 0 2) ∧ u.link.listens[c.t] = some l ∧
      l.tseq = seq ∧ (holds .listen .link u = false ∨ listenBusy u = false) ∧ holds .listen .link u = true) ∧
    (Can 0x2003 fun c u => ∃ (l : Listen) (seq : BitVec 16), c.args.length = 2 ∧ seq = BitVec.ofNat 16 (fld c.args 0 2) ∧ u.link.listens[c.t] = some l ∧
      l.tseq = seq ∧ holds .listen .link u = true ∧ listenBusy u = true) ∧
    (Can 0x2003 fun c u => ∃ (e : Send) (st : Byte) (seq : BitVec 16), c.args.length = 2 ∧ seq = BitVec.ofNat 16 (fld c.args 0 2) ∧
      (u.link.listens[c.t]).any (fun l => l.tseq == seq) = false ∧
      u.link.sends.find? (fun e => e.owner == some c.t && e.tseq == seq) = some e ∧ st = (if sendCommitted e u then stLateCancel else stCancelled) ∧ st = stCancelled) ∧
    (Can 0x2003 fun c u => ∃ (e : Send) (st : Byte) (seq : BitVec 16), c.args.length = 2 ∧ seq = BitVec.ofNat 16 (fld c.args 0 2) ∧
      (u.link.listens[c.t]).any (fun l => l.tseq == seq) = false ∧
      u.link.sends.find? (fun e => e.owner == some c.t && e.tseq == seq) = some e ∧ st = (if sendCommitted e u then stLateCancel else stCancelled) ∧ st = stLateCancel) ∧
    (Can 0x2100 fun c u => ∃ (l : _), c.args.length = 2 ∧ fld c.args 0 1 ≤ 63 ∧ 1 ≤ fld c.args 1 1 ∧ fld c.args 1 1 ≤ 32 ∧ l = (u.link.nbrs.drop (fld
      c.args 0 1)).take (fld c.args 1 1)) ∧
    (Can 0x2101 fun c u => c.args.length = 2 ∧ (nbrOf (BitVec.ofNat 16 (fld c.args 0 2)) u).isSome = true) := by
  refine ⟨?_, ?_, ?_, ?_, ?_, ?_, ?_, ?_, ?_, ?_, ?_, ?_, ?_⟩
  · exact can (cm 0 (List.replicate 12 0 ++ [1])) (linked run0) (by decide +kernel) (by decide +kernel)
  · exact can (cm 0 [0xFD, 0xFF, 0xC8, 0x09, 2, 0, 0x10, 0x0E, 0xFF, 0xFF, 0xFF, 0x0F, 0]) (linked run0)
      (by decide +kernel) (⟨_, by refine ⟨?_, ?_, ?_, ?_, ?_, ?_, ?_, ?_, ?_, ?_, ?_, ?_, rfl⟩ <;> decide +kernel⟩)
  · exact can (cm 0 ([0xFF, 0xFF, 3, 4, 0xFF, 0x1C, 0, 0, 0, 0, 0, 0, 0, 247, 0] ++ List.replicate 247 0)) (linked run0)
      (by decide +kernel)
      (⟨_, _, 0, false, false, 4, 0xFFFF, _, _, _, rfl, rfl, rfl, by decide +kernel, by decide +kernel, by decide +kernel, by decide +kernel, by decide +kernel, by decide +kernel, by decide +kernel, by decide +kernel,
        by decide +kernel, by decide +kernel, by decide +kernel, by decide +kernel, by decide +kernel, by decide +kernel, by decide +kernel, by decide +kernel, by decide +kernel, by decide +kernel, rfl⟩)
  · exact can (cm 0 ([9, 0, 0, 128, 0xFF, 0xD8, 1, 1, 0, 0, 0, 0, 0, 1, 0, 7])) (setLink (fun l => { l with freq := 2480 }) (linked run0))
      (by decide +kernel)
      (⟨_, _, 0, true, true, 5, 9, _, _, _, rfl, rfl, rfl, by decide +kernel, by decide +kernel, by decide +kernel, by decide +kernel, by decide +kernel, by decide +kernel, by decide +kernel, by decide +kernel,
        by decide +kernel, by decide +kernel, by decide +kernel, by decide +kernel, by decide +kernel, by decide +kernel, by decide +kernel, by decide +kernel, by decide +kernel, by decide +kernel, rfl⟩)
  · exact can (cm 0 [0, 0]) (setLink (fun l => { l with listens := l.listens.set 1 (some listen0) }) (linked run0))
      (by decide +kernel) (⟨_, _, by refine ⟨?_, ?_, ?_, ?_, rfl, rfl, ?_⟩ <;> decide +kernel⟩)
  · exact can (cm 0 [0, 0]) (linked run0)
      (by decide +kernel) (⟨_, _, by refine ⟨?_, ?_, ?_, ?_, rfl, rfl, ?_⟩ <;> decide +kernel⟩)
  · exact can (cm 0 [5, 0]) (setLink (fun l => { l with listens := l.listens.set 0 (some listen0) }) (linked run0))
      (by decide +kernel) (⟨listen0, 5, by decide +kernel⟩)
  · exact can (cm 0 [5, 0]) (setLink (fun l => { l with listens := l.listens.set 0 (some listen0) }) (airL .listen (linked run0)))
      (by decide +kernel) (⟨listen0, 5, by decide +kernel⟩)
  · exact can (cm 0 [5, 0]) (setLink (fun l => { l with listens := l.listens.set 0 (some listen0), afterSfd := true }) (airL .listen (linked run0)))
      (by decide +kernel) (⟨listen0, 5, by decide +kernel⟩)
  · exact can (cm 0 [5, 0]) (setLink (fun l => { l with sends := [send0] }) (linked run0))
      (by decide +kernel) (⟨send0, stCancelled, 5, by decide +kernel⟩)
  · exact can (cm 0 [5, 0]) (setLink (fun l => { l with sends := [{ send0 with tries := 1 }] }) (linked run0))
      (by decide +kernel) (⟨{ send0 with tries := 1 }, stLateCancel, 5, by decide +kernel⟩)
  · exact can (cm 0 [63, 32]) (setLink (fun l => { l with nbrs := List.replicate 64 nbr0 }) (linked run0))
      (by decide +kernel) (⟨[nbr0], by decide +kernel⟩)
  · exact can (cm 0 [9, 0]) (setLink (fun l => { l with nbrs := [nbr0] }) (linked run0))
      (by decide +kernel) (by decide +kernel)

/-- The conditions of `Obligations.RadioAndTimerCommands` are met. -/
theorem witness_RadioAndTimerCommands :
    (Can 0x2800 fun c _ => c.args = []) ∧
    (Can 0x2801 fun c _ => c.args.length = 2) ∧
    (Can 0x2802 fun c u => 1 ≤ fld c.args 0 1 ∧ fld c.args 0 1 ≤ 64 ∧ c.args.length = 3 + 2 * fld c.args 0 1 ∧ 1 ≤ fld c.args 1 2 ∧ fld c.args 1 2 ≤
      4000 ∧ (∀ i, i < fld c.args 0 1 → fld c.args (3 + 2 * i) 2 ≤ 4800) ∧ (∀ i, u.rdr.inv[c.t] = some i → i.v1 = false → i.args.region ≠ 2)) ∧
    (Can 0x3000 fun c _ => c.args = []) ∧
    (Can 0x3001 fun c _ => ∃ (k : Fin 12) (act : BitVec 6), c.args.length = 8 ∧ fld c.args 0 1 = k.val ∧ k.val / 3 = c.t.val ∧ fld c.args 7 1 =
      act.toNat ∧ act.toNat % 8 ≤ 4) ∧
    (Can 0x3002 fun c _ => c.args.length = 6 ∧ fld c.args 0 1 = c.t.val ∧ dcCfgBad (BitVec.ofNat 16 (fld c.args 4 2)) = false ∧ bits (BitVec.ofNat 16
      (fld c.args 4 2)) 5 4 = 0) ∧
    (Can 0x3003 fun c _ => c.args.length = 2 ∧ (∀ i, (fld c.args 0 2).testBit i = true → (3 * c.t.val ≤ i ∧ i < 3 * c.t.val + 3) ∨ i = 12 + c.t.val)) ∧
    (Can 0x3004 fun c _ => c.args.length = 2 ∧ fld c.args 0 1 = c.t.val ∧ fld c.args 1 1 ≤ 1) ∧
    (Can 0x3005 fun c _ => c.args.length = 2 ∧ fld c.args 0 1 = c.t.val ∧ fld c.args 1 1 % 8 ≤ 4) := by
  refine ⟨?_, ?_, ?_, ?_, ?_, ?_, ?_, ?_, ?_⟩
  · exact can (cm 0 []) (run0) (by decide +kernel) (by decide +kernel)
  · exact can (cm 1 [1, 2]) (run0) (by decide +kernel) (by decide +kernel)
  · exact can (cm 0 ([64, 0xA0, 0x0F] ++ (List.replicate 64 [0xC0, 0x12]).flatten)) (setRdr (fun r => { r with inv := r.inv.set 0 (some inv0) }) (run0))
      (by decide +kernel)
      (by refine ⟨?_, ?_, ?_, ?_, ?_, ?_, ?_⟩ <;> first | decide +kernel | exact fun i h _ => (show inv0 = i from Option.some.inj h) ▸ (by decide))
  · exact can (cm 0 []) (run0) (by decide +kernel) (by decide +kernel)
  · exact can (cm 3 [11, 1, 2, 3, 4, 5, 6, 0x24]) (run0) (by decide +kernel) (⟨11, 0x24, by decide +kernel⟩)
  · exact can (cm 3 [3, 1, 0, 0, 0x0A, 0x20]) (run0) (by decide +kernel) (by decide +kernel)
  · exact can (cm 3 [0, 0x8E]) (run0) (by decide +kernel) (by exact ⟨by decide +kernel, go0⟩)
  · exact can (cm 3 [3, 1]) (run0) (by decide +kernel) (by decide +kernel)
  · exact can (cm 3 [3, 0xFC]) (run0) (by decide +kernel) (by decide +kernel)

/-- The conditions of `Obligations.KeyCommandsComplete` are met. -/
theorem witness_KeyCommandsComplete :
    (Can 0x4000 fun c u => ∃ (k : Fin 48) (usage : Nat) (ll : Nat) (cl : Nat) (key : Key), usage = fld c.args 2 1 ∧ ll = fld c.args 7 1 ∧ cl = fld
      c.args (8 + ll) 1 ∧ ll ≤ 16 ∧ cl ≤ 32 ∧ c.args.length = 9 + ll + cl ∧ usageBad usage = false ∧ fld c.args 6 1 ≤ 1 ∧ fld c.args 0 1 = k.val ∧
      targetRefusal c.t k.val u = none ∧ key =
      { cls := usageClass usage, aes256 := decide (16 ≤ usage), expire := fld c.args 6 1 == 1, imported := false, clear := false, level := 2, parent := 48, pgen := u.bri.roots[c.t], life := fld c.args 3 3, uses := 0, src := .recipe ((c.args.drop 8).take ll) ((c.args.drop (9 + ll)).take cl) }
      ∧ fld c.args 1 1 = 0xFE ∧ rootRefusal c.t u = none) ∧
    (Can 0x4000 fun c u => ∃ (k : Fin 48) (usage : Nat) (ll : Nat) (cl : Nat) (key : Key) (p : Fin 48) (v : State), usage = fld c.args 2 1 ∧ ll = fld
      c.args 7 1 ∧ cl = fld c.args (8 + ll) 1 ∧ ll ≤ 16 ∧ cl ≤ 32 ∧ c.args.length = 9 + ll + cl ∧ usageBad usage = false ∧ fld c.args 6 1 ≤ 1 ∧ fld
      c.args 0 1 = k.val ∧ targetRefusal c.t k.val u = none ∧ key =
      { cls := usageClass usage, aes256 := decide (16 ≤ usage), expire := fld c.args 6 1 == 1, imported := false, clear := false, level := 2, parent := 48, pgen := u.bri.roots[c.t], life := fld c.args 3 3, uses := 0, src := .recipe ((c.args.drop 8).take ll) ((c.args.drop (9 + ll)).take cl) }
      ∧ fld c.args 1 1 = p.val ∧ parentRefusal c.t p.val isDerive u = none ∧ chargeKey p 1 u = some v) ∧
    (Can 0x4001 fun c u => ∃ (k : Fin 48) (usage : Nat) (value : Bytes) (key : Key), usage = fld c.args 2 1 ∧ c.args.length = 8 + fld c.args 7 1 ∧ fld
      c.args 7 1 = (if 16 ≤ usage then 40 else 24) ∧ usageBad usage = false ∧ fld c.args 6 1 ≤ 1 ∧ fld c.args 0 1 = k.val ∧ targetRefusal c.t k.val u
      = none ∧ key =
      { cls := usageClass usage, aes256 := decide (16 ≤ usage), expire := fld c.args 6 1 == 1, imported := true, clear := true, level := 2, parent := 48, pgen := u.bri.roots[c.t], life := fld c.args 3 3, uses := 0, src := .blob 0 [] }
      ∧ fld c.args 1 1 = 0xFF ∧ rootRefusal c.t u = none ∧ kwUnwrap (List.replicate 16 0) (c.args.drop 8) = some value) ∧
    (Can 0x4001 fun c u => ∃ (k : Fin 48) (usage : Nat) (value : Bytes) (key : Key) (p : Fin 48) (wk : Bytes) (v : State), usage = fld c.args 2 1 ∧
      c.args.length = 8 + fld c.args 7 1 ∧ fld c.args 7 1 = (if 16 ≤ usage then 40 else 24) ∧ usageBad usage = false ∧ fld c.args 6 1 ≤ 1 ∧ fld c.args
      0 1 = k.val ∧ targetRefusal c.t k.val u = none ∧ key =
      { cls := usageClass usage, aes256 := decide (16 ≤ usage), expire := fld c.args 6 1 == 1, imported := true, clear := true, level := 2, parent := 48, pgen := u.bri.roots[c.t], life := fld c.args 3 3, uses := 0, src := .blob 0 [] }
      ∧ fld c.args 1 1 = p.val ∧ parentRefusal c.t p.val isWrap u = none ∧ keyValue u 5 p = some wk ∧ chargeKey p 1 u = some v ∧ kwUnwrap wk
      (c.args.drop 8) = some value) ∧
    (Can 0x4002 fun c u => ∃ (k : Fin 48) (job : Job), c.args.length = 1 ∧ fld c.args 0 1 = k.val ∧ slotOwner k = c.t ∧ u.tens[c.t].exec = some job ∧
      u.bri.slots[k].key = none) ∧
    (Can 0x4002 fun c u => ∃ (k : Fin 48) (job : Job), c.args.length = 1 ∧ fld c.args 0 1 = k.val ∧ slotOwner k = c.t ∧ u.tens[c.t].exec = some job ∧
      u.bri.slots[k].key ≠ none) ∧
    (Can 0x4003 fun c u => ∃ (job : Job), c.args.length = 1 ∧ u.tens[c.t].exec = some job ∧ fld c.args 0 1 = 0xFE ∧ u.bri.roots[c.t] ≠ 0xFFFF) ∧
    (Can 0x4003 fun c u => ∃ (job : Job) (k : Fin 48), c.args.length = 1 ∧ u.tens[c.t].exec = some job ∧ fld c.args 0 1 = k.val ∧ slotOwner k = c.t ∧
      u.bri.slots[k].gen ≠ 0xFFFF) ∧
    (Can 0x4004 fun c _ => ∃ (k : Fin 48), c.args.length = 1 ∧ fld c.args 0 1 = k.val ∧ slotOwner k = c.t) := by
  refine ⟨?_, ?_, ?_, ?_, ?_, ?_, ?_, ?_, ?_⟩
  · exact can (cm 0 [1, 0xFE, 19, 0, 0, 0, 1, 1, 7, 1, 8]) (keyed .derive_ run0)
      (by decide +kernel)
      (⟨1, 19, 1, 1, _, by refine ⟨?_, ?_, ?_, ?_, ?_, ?_, ?_, ?_, ?_, ?_, rfl, ?_, ?_⟩ <;> decide +kernel⟩)
  · exact can (cm 0 [1, 0, 19, 0, 0, 0, 1, 1, 7, 1, 8]) (keyed .derive_ run0)
      (by decide +kernel)
      (⟨1, 19, 1, 1, _, 0, _, by refine ⟨?_, ?_, ?_, ?_, ?_, ?_, ?_, ?_, ?_, ?_, rfl, ?_, (keyed_parent (by decide +kernel) rfl (by decide +kernel)), rfl⟩ <;> decide +kernel⟩)
  · exact can (cm 0 ([1, 0xFF, 0, 0, 0, 0, 1, 24] ++ wrapped0)) (keyed .wrap run0)
      (by decide +kernel)
      (⟨1, 0, (List.replicate 16 0), _, by refine ⟨?_, ?_, ?_, ?_, ?_, ?_, ?_, rfl, ?_, ?_, unwrap0⟩ <;> decide +kernel⟩)
  · exact can (cm 0 ([1, 0, 0, 0, 0, 0, 1, 24] ++ wrapped0)) (keyed .wrap run0)
      (by decide +kernel)
      (⟨1, 0, (List.replicate 16 0), _, 0, (List.replicate 16 0), _, by refine ⟨?_, ?_, ?_, ?_, ?_, ?_, ?_, rfl, ?_, (keyed_parent (by decide +kernel) rfl (by decide +kernel)), keyed_value (c := .wrap) rfl (by decide +kernel) (by decide +kernel), rfl, unwrap0⟩ <;> decide +kernel⟩)
  · exact can (cm 0 [11]) (run0)
      (by decide +kernel)
      (⟨11, _, by (repeat' apply And.intro) <;> first | with_reducible rfl | exact taken_up (by decide +kernel) | decide +kernel | rfl⟩)
  · exact can (cm 0 [0]) (keyed .enc run0)
      (by decide +kernel)
      (⟨0, _, by (repeat' apply And.intro) <;> first | with_reducible rfl | exact taken_up (by decide +kernel) | decide +kernel | rfl⟩)
  · exact can (cm 0 [0xFE]) (run0)
      (by decide +kernel)
      (⟨_, by (repeat' apply And.intro) <;> first | with_reducible rfl | exact taken_up (by decide +kernel) | decide +kernel | rfl⟩)
  · exact can (cm 0 [11]) (run0)
      (by decide +kernel)
      (⟨_, 11, by (repeat' apply And.intro) <;> first | with_reducible rfl | exact taken_up (by decide +kernel) | decide +kernel | rfl⟩)
  · exact can (cm 3 [47]) (run0) (by decide +kernel) (⟨47, by decide +kernel⟩)

/-- The conditions of `Obligations.LanternTagOnAir` are met. -/
theorem witness_LanternTagOnAir :
    (∃ (now : Tick) (lv : BitVec 8) (s : State), let u := advanceTo now s; u.tag.enabled = true ∧ u.tag.field = false ∧ u.rdr.carrier = none ∧ -40 ≤
      lv.toInt ∧ u.power.mode = .run) ∧
    (∃ (now : Tick) (lv : BitVec 8) (s : State), let u := advanceTo now s; u.tag.enabled = true ∧ u.tag.field = false ∧ u.rdr.carrier = none ∧ -40 ≤
      lv.toInt ∧ u.power.mode = .sleep) ∧
    (∃ (now : Tick) (s : State), let u := advanceTo now s; u.tag.field = true ∧ u.rdr.carrier = none ∧ u.tag.session = false ∧ u.tag.owed = false) ∧
    (∃ (s : State), tagHears s = true) ∧
    (∃ (sess : BitVec 2) (dr : Bool) (trcal : Nat) (s : State), tagHears s = true ∧ bit s.tag.inv sess.toNat = false ∧ blfInReach dr trcal = true) ∧
    (∃ (rn : BitVec 16) (s : State), tagHears s = true ∧ s.tag.rn16 = some rn) ∧
    (∃ (h : BitVec 16) (bank : BitVec 2) (ptr : Nat) (count : Nat) (s : State), withHandle h s = true ∧ 0 < count ∧ 2 * (ptr + count) ≤ (tagBank bank
      s).length) ∧
    (∃ (h : BitVec 16) (bank : BitVec 2) (ptr : Nat) (count : Nat) (s : State), withHandle h s = true ∧ 0 < count ∧ (tagBank bank s).length < 2 * (ptr
      + count)) ∧
    (∃ (h : BitVec 16) (msg : Bytes) (fk : Bytes) (tch : Bytes) (now : Tick) (s : State) (v : State) (w : State) (x : State) (c : _),
      let u := advanceTo now s; withHandle h u = true ∧ msg.length = 10 ∧ msg.take 2 = [0x01, 0x01] ∧ backingOff u = false ∧ chargeSession u.tag.key
      (u.tag.keyGone && u.tag.session) u = .ok v ∧ w = setTag (fun g => { g with keyGone := false, ctx := none, fz2Handle := none }) (closeTagSession
      0 v) ∧ keyRefusal w.tag.owner w.tag.key.val isDerive w = none ∧ keyValue w 5 w.tag.key = some fk ∧ drbgTake 8 w = some (tch, x) ∧ c = secKeys
      (tagKey fk (tagTid x)) (msg.drop 2) tch) ∧
    (∃ (h : BitVec 16) (msg : Bytes) (now : Tick) (s : State), let u := advanceTo now s; withHandle h u = true ∧ msg.length ≠ 10) ∧
    (∃ (h : BitVec 16) (msg : Bytes) (now : Tick) (c : SecCtx) (s : State) (v : State), let u := advanceTo now s; withHandle h u = true ∧ msg.length =
      9 ∧ msg.take 1 = [0x03] ∧ u.tag.ctx = some c ∧ u.tag.fz2Handle = some h ∧ msg.drop 1 = rproof c ∧ chargeSession u.tag.key u.tag.keyGone u = .ok
      v) ∧
    (∃ (h : BitVec 16) (msg : Bytes) (now : Tick) (c : SecCtx) (s : State), let u := advanceTo now s; withHandle h u = true ∧ msg.length = 9 ∧
      msg.take 1 = [0x03] ∧ u.tag.ctx = some c ∧ u.tag.fz2Handle = some h ∧ msg.drop 1 ≠ rproof c) ∧
    (∃ (h : BitVec 16) (msg : Bytes) (fk : Bytes) (rnd : Bytes) (s : State) (v : State) (w : State), withHandle h s = true ∧ bit s.tag.flags 1 = true
      ∧ msg.length = 12 ∧ msg.take 2 = [0x00, 0x00] ∧ keyRefusal s.tag.owner s.tag.key.val isDerive s = none ∧ keyValue s 5 s.tag.key = some fk ∧
      drbgTake 4 s = some (rnd, v) ∧ chargeKey v.tag.key 1 v = some w) ∧
    (∃ (now : Tick) (s : State) (e : Tick), (advanceTo now s).tag.backoff = some e ∧ reached (advanceTo now s).reel.cnt e = true) := by
  refine ⟨?_, ?_, ?_, ?_, ?_, ?_, ?_, ?_, ?_, ?_, ?_, ?_, ?_, ?_⟩
  · exact ⟨100, (-40), (setTag (fun g => { g with enabled := true }) (run0)), by dsimp only; decide +kernel⟩
  · exact ⟨100, 127, (setPower (fun p => { p with mode := .sleep }) (setTag (fun g => { g with enabled := true }) (run0))),
      by dsimp only; decide +kernel⟩
  · exact ⟨100, (setTag (fun g => { g with session := false }) (tagged run0)), by dsimp only; decide +kernel⟩
  · exact ⟨(tagged run0), by decide +kernel⟩
  · exact ⟨3, true, 33334, (tagged run0), by decide +kernel⟩
  · exact ⟨7, (setTag (fun g => { g with rn16 := some 7 }) (tagged run0)), by decide +kernel⟩
  · exact ⟨0x1234, 2, 5, 1, (tagged run0), by decide +kernel⟩
  · exact ⟨0x1234, 2, 5, 2, (tagged run0), by decide +kernel⟩
  · exact ⟨0x1234, [0x01, 0x01] ++ List.replicate 8 0, List.replicate 16 0, _, 100, tagged (keyed .derive_ run0), _, _, _, _,
      by decide +kernel, by decide +kernel, by decide +kernel, by decide +kernel, rfl, rfl, keyed_open (c := .derive_) (by decide +kernel) rfl (by decide +kernel), keyed_value (c := .derive_) rfl (by decide +kernel) (by decide +kernel), drbgTake_eq (by decide +kernel), rfl⟩
  · exact ⟨0x1234, (List.replicate 9 0), 100, (tagged run0), by dsimp only; decide +kernel⟩
  · exact ⟨0x1234, (([0x03] ++ rproof sec0)), 100, sec0, (setTag (fun g => { g with fz2Handle := some 0x1234, ctx := some sec0 }) (tagged (keyed .derive_ run0))), _,
      by (try dsimp only); refine ⟨?_, ?_, ?_, ?_, ?_, ?_, rfl⟩ <;> decide +kernel⟩
  · exact ⟨0x1234, (([0x03] ++ List.replicate 8 0)), 100, sec0, (setTag (fun g => { g with fz2Handle := some 0x1234, ctx := some sec0 }) (tagged (keyed .derive_ run0))),
      by dsimp only; decide +kernel⟩
  · exact ⟨0x1234, List.replicate 12 0, List.replicate 16 0, _, tagged (keyed .derive_ run0), _, _,
      by decide +kernel, by decide +kernel, by decide +kernel, by decide +kernel, keyed_open (c := .derive_) (by decide +kernel) rfl (by decide +kernel), keyed_value (c := .derive_) rfl (by decide +kernel) (by decide +kernel), drbgTake_eq (by decide +kernel), rfl⟩
  · exact ⟨100, (setTag (fun g => { g with backoff := some 50 }) (tagged run0)), 50, by decide +kernel⟩

/-- The conditions of `Obligations.LanternSessionCompletes` are met. -/
theorem witness_LanternSessionCompletes :
    (∃ (h : BitVec 16) (msg : Bytes) (c : SecCtx) (s : State), withHandle h s = true ∧ s.tag.session = true ∧ s.tag.ctx = some c ∧ 13 ≤ msg.length ∧
      msg.length ≤ 213 ∧ msg.getD 0 0 = 0x12 ∧ fld msg 1 4 ≤ s.tag.ctrRx) ∧
    (∃ (h : BitVec 16) (msg : Bytes) (plain : Bytes) (c : SecCtx) (s : State) (v : State) (w : _), withHandle h s = true ∧ s.tag.session = true ∧
      s.tag.ctx = some c ∧ 13 ≤ msg.length ∧ msg.length ≤ 213 ∧ msg.getD 0 0 = 0x12 ∧ s.tag.ctrRx < fld msg 1 4 ∧ secOpen c 0x00 msg = some plain ∧
      chargeSession s.tag.key s.tag.keyGone s = .ok v ∧ w = publishNow (setTag (fun g => { g with ctrRx := fld msg 1 4 }) v)) ∧
    (∃ (off : BitVec 16) (len : BitVec 8) (s : State), s.tag.session = true ∧ s.tag.request = [0x01] ++ leBytes 2 off.toNat ++ [len] ∧ off.toNat +
      len.toNat ≤ 2048) ∧
    (∃ (off : BitVec 16) (len : BitVec 8) (s : State), s.tag.session = true ∧ s.tag.request = [0x01] ++ leBytes 2 off.toNat ++ [len] ∧ 2048 <
      off.toNat + len.toNat) ∧
    (∃ (now : Tick) (s : State), let u := advanceTo now s; u.tag.session = true ∧ u.tag.request = [0x02]) ∧
    (∃ (s : State), s.tag.session = true ∧ s.tag.request = [0x03]) ∧
    (∃ (h : BitVec 16) (msg plain : Bytes) (c : SecCtx) (s v w y : State), withHandle h s = true ∧ s.tag.session = true ∧ s.tag.ctx = some c ∧
      13 ≤ msg.length ∧ msg.length ≤ 213 ∧ msg.getD 0 0 = 0x10 ∧ s.tag.ctrRx < fld msg 1 4 ∧ secOpen c 0x00 msg = some plain ∧
      chargeSession s.tag.key s.tag.keyGone s = .ok v ∧ w = publishNow (setTag (fun g => { g with ctrRx := fld msg 1 4 }) v) ∧
      y = tagCounted (setTag (fun g => { g with part := [] }) w) ∧ y.tag.session = true ∧ readoutForm (w.tag.part ++ plain) = .known) := by
  refine ⟨?_, ?_, ?_, ?_, ?_, ?_, ?_⟩
  · exact ⟨0x1234, (([0x12, 1, 0, 0, 0] ++ List.replicate 208 0)), sec0, (setTag (fun g => { g with session := true, ctx := some sec0, ctrRx := 1 }) (tagged (keyed .derive_ run0))),
      by decide +kernel⟩
  · exact ⟨0x1234, ((sealed0 0x12 0x00)), [], sec0, (setTag (fun g => { g with session := true, ctx := some sec0, ctrRx := 0 }) (tagged (keyed .derive_ run0))), _, _,
      by refine ⟨?_, ?_, ?_, ?_, ?_, ?_, ?_, ?_, rfl, rfl⟩ <;> decide +kernel⟩
  · exact ⟨2047, 1, (setTag (fun g => { g with session := true, request := [0x01] ++ leBytes 2 2047 ++ [1] }) (run0)),
      by decide +kernel⟩
  · exact ⟨2048, 1, (setTag (fun g => { g with session := true, request := [0x01] ++ leBytes 2 2048 ++ [1] }) (run0)),
      by decide +kernel⟩
  · exact ⟨100, (setTag (fun g => { g with session := true, request := [0x02] }) (run0)), by dsimp only; decide +kernel⟩
  · exact ⟨(setTag (fun g => { g with session := true, request := [0x03] }) (run0)), by decide +kernel⟩
  · exact ⟨0x1234, sealed0 0x10 0x00, [], sec0, (setTag (fun g => { g with session := true, ctx := some sec0, part := [0x03] }) (tagged (keyed .derive_ run0))), _, _, _,
      by refine ⟨?_, ?_, ?_, ?_, ?_, ?_, ?_, ?_, rfl, rfl, rfl, ?_, ?_⟩ <;> decide +kernel⟩

/-- The conditions of `Obligations.InterrogatorCompletes` are met. -/
theorem witness_InterrogatorCompletes :
    (∃ (x : Tenant) (step : AccStep) (hz : Nat) (a : Acc) (u : State), exchangeAt x step u = some a ∧ requestStale x .reader u = false ∧
      rateIn (accSet x a u) hz = true) ∧
    (∃ (x : Tenant) (msg : Bytes) (hz : Nat) (now : Tick) (a : Acc) (k : Fin 48) (kid : Byte) (held : SecCtx) (s v : State) (p : Bytes),
      exchangeHeard x .exchange hz (advanceTo now s) = (some a, v) ∧ a.kind = .tam1 k kid ∧ v.sess[x].ctx = some held ∧
      p = aesDec held.ktag msg ∧ msg.length = 16 ∧ p.take 2 = [0x96, 0xC5] ∧ p.drop 6 = v.sess[x].challenge) ∧
    (∃ (x : Tenant) (msg : Bytes) (hz : Nat) (now : Tick) (a : Acc) (k : Fin 48) (kid : Byte) (held : SecCtx) (s v : State) (p : Bytes),
      exchangeHeard x .exchange hz (advanceTo now s) = (some a, v) ∧ a.kind = .tam1 k kid ∧ v.sess[x].ctx = some held ∧
      p = aesDec held.ktag msg ∧ p.drop 6 ≠ v.sess[x].challenge) ∧
    (∃ (x : Tenant) (msg : Bytes) (hz : Nat) (now : Tick) (a : Acc) (k : Fin 48) (held : SecCtx) (s v : State) (c : SecCtx),
      exchangeHeard x .exchange hz (advanceTo now s) = (some a, v) ∧ a.kind = .farz k ∧ v.sess[x].ctx = some held ∧
      c = secKeys held.ktag v.sess[x].challenge ((msg.drop 1).take 8) ∧ msg.drop 9 ≠ tproof c) ∧
    (∃ (x : Tenant) (msg : Bytes) (hz : Nat) (now : Tick) (a : Acc) (k : Fin 48) (held : SecCtx) (s v : State) (c : SecCtx) (w y z : State),
      exchangeHeard x .exchange hz (advanceTo now s) = (some a, v) ∧ a.kind = .farz k ∧ v.sess[x].ctx = some held ∧
      c = secKeys held.ktag v.sess[x].challenge ((msg.drop 1).take 8) ∧ msg.length = 17 ∧ msg.take 1 = [0x02] ∧
      msg.drop 9 = tproof c ∧ chargeSession k v.sess[x].keyGone v = .ok w ∧
      accFrameOver x a (modSess x (fun q => { q with ctx := some c }) (setSvy (fun v => { v with tagCap := v.tagCap ||| 0x40 }) w)) = (true, y) ∧
      chargeSession k y.sess[x].keyGone y = .ok z) ∧
    (∃ (x : Tenant) (hz : Nat) (now : Tick) (a : Acc) (k : Fin 48) (s v w : State), exchangeHeard x .fz3 hz (advanceTo now s) = (some a, v) ∧
      a.kind = .farz k ∧ chargeSession k v.sess[x].keyGone v = .ok w) ∧
    (∃ (x : Tenant) (msg plain rest : Bytes) (hz : Nat) (tseq : BitVec 16) (now : Tick) (c : SecCtx) (s v : State), let u := advanceTo now s;
      u.sess[x].opened = true ∧ u.sess[x].ctx = some c ∧ u.sess[x].busy = some (tseq, rest) ∧ reached u.reel.cnt u.sess[x].sentAt = true ∧
      rateIn (sessSet x u) hz = true ∧ secOpen c 0x01 msg = none) ∧
    (∃ (x : Tenant) (msg plain rest : Bytes) (hz : Nat) (tseq : BitVec 16) (now : Tick) (c : SecCtx) (s v w : State), let u := advanceTo now s;
      u.sess[x].opened = true ∧ u.sess[x].ctx = some c ∧ u.sess[x].busy = some (tseq, rest) ∧ reached u.reel.cnt u.sess[x].sentAt = true ∧
      rateIn (sessSet x u) hz = true ∧ secOpen c 0x01 msg = some plain ∧ u.sess[x].ctrRx < fld msg 1 4 ∧ rest = [] ∧ msg.getD 0 0 = 0x11 ∧
      chargeSession u.sess[x].key u.sess[x].keyGone u = .ok v ∧ v.sess[x].msgs + 1 < 1048576 ∧
      w = frameEnd .reader (raise x evSecData (leBytes 2 tseq.toNat ++ [u.sess[x].sid] ++ leBytes 2 plain.length ++ plain)
        (modSess x (fun q => { q with ctrRx := fld msg 1 4, msgs := q.msgs + 1 }) v)) ∧ w.sess[x].opened = true) ∧
    (∃ (x : Tenant) (now : Tick) (s : State), let u := advanceTo now s; u.rdr.acc[x] = none ∧ u.sess[x].opened = true ∧ u.sess[x].busy.isSome = true ∧
      reached u.reel.cnt (u.sess[x].sentAt + 240000) = true) ∧
    (∃ (x : Tenant) (now : Tick) (s : State), let u := advanceTo now s; u.rdr.acc[x] = none ∧ u.sess[x].opened = true ∧ reached u.reel.cnt
      (u.sess[x].idleFrom + 48000000) = true) ∧
    (∃ (x : Tenant) (now : Tick) (a : Acc) (p : Pend) (s : State), let u := advanceTo now s; u.rdr.acc[x] = some a ∧ a.stage = .window ∧
      (a.step = .exchange ∨ a.step = .fz3) ∧ u.ctxs[x].pend = some p ∧ reached u.reel.cnt p.until_ = true) ∧
    (∃ (x : Tenant) (now : Tick) (n : Nat) (s : State) (v : State), let u := advanceTo now s; u.sess[x].opened = true ∧ holds (.session x) .reader u =
      true ∧ dwellFits x u.sess[x].region u.sess[x].visitFrom 1 u = false ∧ v = carrierOff u.reel.cnt (leaveChannel u.reel.cnt u) ∧ nextChannel x
      u.sess[x].region v = .error n) ∧
    (∃ (x : Tenant) (now : Tick) (s : State) (v : State) (f : _) (w : _) (h : _) (y z g : State), let u := advanceTo now s; u.sess[x].opened = true ∧ holds
      (.session x) .reader u = true ∧ dwellFits x u.sess[x].region u.sess[x].visitFrom 1 u = false ∧ v = carrierOff u.reel.cnt (leaveChannel
      u.reel.cnt u) ∧ nextChannel x u.sess[x].region v = .ok (f, w) ∧ holdOf .reader v = some h ∧ passes w.reel.cnt { h.req with freq := f }
      w.radio.lHold w = true ∧ y = grantAir { h.req with freq := f } w.reel.cnt w ∧
      z = compHop (calibrate .reader .ok true (compApply (extPa y.loaded[x]) y)) ∧
      g = carrierOn z.reel.cnt (rampUp z.loaded[x] z.rdr.pset z.reel.cnt z)) := by
  refine ⟨?_, ?_, ?_, ?_, ?_, ?_, ?_, ?_, ?_, ?_, ?_, ?_, ?_⟩
  · exact ⟨0, .exchange, 800000, acc0 (.farz 0) .exchange, (airR (.ctx 0) (setAcc 0 (some (acc0 (.farz 0) .exchange)) (modSess 0 (fun q => { q with challenge := List.replicate 8 0, ctx := some sec0 }) (keyed .derive_ run0)))), by decide +kernel⟩
  · exact ⟨0, tam0, 480000, 100, acc0 (.tam1 0 0) .exchange, 0, 0, sec0, (airR (.ctx 0) (setAcc 0 (some (acc0 (.tam1 0 0) .exchange)) (modSess 0 (fun q => { q with challenge := List.replicate 10 0, ctx := some sec0 }) (keyed .derive_ run0)))), _, _,
      pair_fst (by decide +kernel), rfl, by decide +kernel, rfl, by decide +kernel⟩
  · exact ⟨0, tam0, 480000, 100, acc0 (.tam1 0 0) .exchange, 0, 0, sec0, (airR (.ctx 0) (setAcc 0 (some (acc0 (.tam1 0 0) .exchange)) (modSess 0 (fun q => { q with challenge := List.replicate 9 0, ctx := some sec0 }) (keyed .derive_ run0)))), _, _,
      pair_fst (by decide +kernel), rfl, by decide +kernel, rfl, by decide +kernel⟩
  · exact ⟨0, List.replicate 17 0, 480000, 100, acc0 (.farz 0) .exchange, 0, sec0, (airR (.ctx 0) (setAcc 0 (some (acc0 (.farz 0) .exchange)) (modSess 0 (fun q => { q with challenge := List.replicate 8 0, ctx := some sec0 }) (keyed .derive_ run0)))), _, _,
      pair_fst (by decide +kernel), rfl, by decide +kernel, rfl, by decide +kernel⟩
  · exact ⟨0, farz0, 480000, 100, acc0 (.farz 0) .exchange, 0, sec0, setRadio (fun r => { r with gnt := true }) (airR (.ctx 0) (setAcc 0 (some (acc0 (.farz 0) .exchange)) (modSess 0 (fun q => { q with challenge := List.replicate 8 0, ctx := some sec0 }) (keyed .derive_ run0)))), _, _, _, _, _,
      pair_fst (by decide +kernel), rfl, by decide +kernel, rfl, by decide +kernel, by decide +kernel, by decide +kernel, rfl, pair_fst (by decide +kernel), rfl⟩
  · exact ⟨0, 480000, 100, acc0 (.farz 0) .fz3, 0, (airR (.ctx 0) (setAcc 0 (some (acc0 (.farz 0) .fz3)) (keyed .derive_ run0))), _, _,
      pair_fst (by decide +kernel), rfl, rfl⟩
  · exact ⟨0, [], [], [], 480000, 3, 100, sec0, (modSess 0 (fun q => { q with opened := true, ctx := some sec0, busy := some (3, []) }) (keyed .derive_ run0)), run0, by dsimp only; decide +kernel⟩
  · exact ⟨0, sealed0 0x11 0x01, [], [], 800000, 3, 100, sec0, (modSess 0 (fun q => { q with opened := true, ctx := some sec0, busy := some (3, []) }) (keyed .derive_ run0)), _, _,
      by (try dsimp only); refine ⟨?_, ?_, ?_, ?_, ?_, ?_, ?_, ?_, ?_, rfl, ?_, rfl, ?_⟩ <;> decide +kernel⟩
  · exact ⟨0, 240000, (modSess 0 (fun q => { q with opened := true, ctx := some sec0, busy := some (3, []) }) (keyed .derive_ run0)),
      by dsimp only; decide +kernel⟩
  · exact ⟨0, 48000000, (modSess 0 (fun q => { q with opened := true, ctx := some sec0, busy := some (3, []) }) (keyed .derive_ run0)),
      by dsimp only; decide +kernel⟩
  · exact ⟨0, 50, acc0 (.farz 0) .fz3, pend0 .rxwin, builtin (pend0 .rxwin) (setAcc 0 (some (acc0 (.farz 0) .fz3)) run0), by dsimp only; decide +kernel⟩
  · exact ⟨0, 96000100, _, (airR (.session 0) (modSess 0 (fun q => { q with opened := true, region := 1 }) (setRdr (fun r => { r with carrier := some 0, leftAt := [(1028, 96000000), (1052, 96000000), (1076, 96000000), (1100, 96000000)] }) (run0)))), _,
      by (try dsimp only); refine ⟨?_, ?_, ?_, rfl, rfl⟩ <;> decide +kernel⟩
  · exact ⟨0, 96000100, (airR (.session 0) (modSess 0 (fun q => { q with opened := true, region := 1 }) (setRdr (fun r => { r with carrier := some 0 }) (run0)))), _, _, _, _, _, _, _,
      by (try dsimp only); refine ⟨?_, ?_, ?_, rfl, rfl, rfl, ?_, rfl, rfl, rfl⟩ <;> decide +kernel⟩

/-- The conditions of `Obligations.TamperCompletes` are met. -/
theorem witness_TamperCompletes :
    (Can 0x4010 fun c u => ∃ (v : _), c.t = 0 ∧ c.args = [1] ∧ u.bri.armed = false ∧ v = reply c.t stOk [] (setBri (fun b => { b with armed := true })
      u)) ∧
    (∃ (now : Tick) (s : State) (u : State), u = advanceTo now s ∧ u.bri.armed = true ∧ u.power.vioLost = false ∧ (u.power.mode = .run ∨ u.power.mode
      = .limp)) ∧
    (∃ (now : Tick) (s : State) (u : State), u = advanceTo now s ∧ u.bri.armed = true ∧ u.power.vioLost = false ∧ (u.power.mode = .waking ∨
      u.power.mode = .hold ∨ u.power.mode = .lockout ∨ u.power.mode = .drill ∨ u.power.mode = .start)) ∧
    (∃ (now : Tick) (s : State) (u : State), u = advanceTo now s ∧ u.bri.armed = true ∧ u.power.vioLost = false ∧ u.power.mode = .sleep) := by
  refine ⟨?_, ?_, ?_, ?_⟩
  · exact can (cm 0 [1]) (run0)
      (by decide +kernel)
      (⟨_, by (repeat' apply And.intro) <;> first | with_reducible rfl | exact taken_up (by decide +kernel) | decide +kernel | rfl⟩)
  · exact ⟨100, (setBri (fun b => { b with armed := true }) (setPower (fun p => { p with mode := .limp }) State.reset)), _,
      by refine ⟨rfl, ?_, ?_, ?_⟩ <;> decide +kernel⟩
  · exact ⟨100, (setBri (fun b => { b with armed := true }) (setPower (fun p => { p with mode := .drill }) State.reset)), _,
      by refine ⟨rfl, ?_, ?_, ?_⟩ <;> decide +kernel⟩
  · exact ⟨100, (setBri (fun b => { b with armed := true }) (setPower (fun p => { p with mode := .sleep }) State.reset)), _,
      by refine ⟨rfl, ?_, ?_, ?_⟩ <;> decide +kernel⟩

/-- The conditions of `Obligations.CryptoCommandsComplete` are met. -/
theorem witness_CryptoCommandsComplete :
    (Can 0x4800 fun c u => ∃ (v : State) (out : Bytes), c.args.length = 2 ∧ 1 ≤ fld c.args 0 2 ∧ fld c.args 0 2 ≤ 512 ∧ drbgTake (fld c.args 0 2) (serveRng u) =
      some (out, v)) ∧
    (Can 0x4801 fun c u => ∃ (v : State) (key : Bytes) (mode : Nat) (len : Nat), mode = fld c.args 0 1 ∧ len = fld c.args 18 2 ∧ c.args.length = 20 +
      len ∧ 1 ≤ len ∧ len ≤ 512 ∧ mode % 128 ≤ 2 ∧ (mode % 128 < 2 → len % 16 = 0) ∧ useKey c.t (fld c.args 1 1) (if 128 ≤ mode then isDec else isEnc)
      u = .ok (key, v)) ∧
    (Can 0x4802 fun c u => ∃ (v : State) (key : Bytes) (nl : Nat) (tl : Nat) (al : Nat) (pl : Nat), nl = fld c.args 2 1 ∧ tl = fld c.args (3 + nl) 1 ∧
      al = fld c.args (4 + nl) 2 ∧ pl = fld c.args (6 + nl + al) 2 ∧ c.args.length = 8 + nl + al + pl ∧ fld c.args 0 1 ≤ 1 ∧ 7 ≤ nl ∧ nl ≤ 13 ∧ (tl =
      4 ∨ tl = 8 ∨ tl = 16) ∧ (fld c.args 0 1 = 1 → tl ≤ pl) ∧ useKey c.t (fld c.args 1 1) (if fld c.args 0 1 = 1 then isDec else isEnc) u = .ok (key,
      v) ∧ fld c.args 0 1 = 0) ∧
    (Can 0x4802 fun c u => ∃ (v : State) (key : Bytes) (nl : Nat) (tl : Nat) (al : Nat) (pl : Nat) (p : _), let nonce := (c.args.drop 3).take nl;
      let aad := (c.args.drop (6 + nl)).take al; let data := c.args.drop (8 + nl + al); nl = fld c.args 2 1 ∧ tl = fld c.args (3 + nl) 1 ∧ al = fld
      c.args (4 + nl) 2 ∧ pl = fld c.args (6 + nl + al) 2 ∧ c.args.length = 8 + nl + al + pl ∧ fld c.args 0 1 ≤ 1 ∧ 7 ≤ nl ∧ nl ≤ 13 ∧ (tl = 4 ∨ tl =
      8 ∨ tl = 16) ∧ (fld c.args 0 1 = 1 → tl ≤ pl) ∧ useKey c.t (fld c.args 1 1) (if fld c.args 0 1 = 1 then isDec else isEnc) u = .ok (key, v) ∧ fld
      c.args 0 1 = 1 ∧ ccmDec key nonce aad data tl = some p) ∧
    (Can 0x4802 fun c u => ∃ (v : State) (key : Bytes) (nl : Nat) (tl : Nat) (al : Nat) (pl : Nat), let nonce := (c.args.drop 3).take nl;
      let aad := (c.args.drop (6 + nl)).take al; let data := c.args.drop (8 + nl + al); nl = fld c.args 2 1 ∧ tl = fld c.args (3 + nl) 1 ∧ al = fld
      c.args (4 + nl) 2 ∧ pl = fld c.args (6 + nl + al) 2 ∧ c.args.length = 8 + nl + al + pl ∧ fld c.args 0 1 ≤ 1 ∧ 7 ≤ nl ∧ nl ≤ 13 ∧ (tl = 4 ∨ tl =
      8 ∨ tl = 16) ∧ (fld c.args 0 1 = 1 → tl ≤ pl) ∧ useKey c.t (fld c.args 1 1) (if fld c.args 0 1 = 1 then isDec else isEnc) u = .ok (key, v) ∧ fld
      c.args 0 1 = 1 ∧ ccmDec key nonce aad data tl = none) ∧
    (Can 0x4803 fun c u => ∃ (v : State) (key : Bytes) (tl : Nat) (len : Nat), tl = fld c.args 2 1 ∧ len = fld c.args 3 2 ∧ fld c.args 0 1 ≤ 1 ∧ 4 ≤
      tl ∧ tl ≤ 16 ∧ len ≤ 960 ∧ c.args.length = 5 + len + (if fld c.args 0 1 = 1 then tl else 0) ∧ useKey c.t (fld c.args 1 1) (if fld c.args 0 1 = 1
      then isDec else isEnc) u = .ok (key, v) ∧ fld c.args 0 1 = 0) ∧
    (Can 0x4803 fun c u => ∃ (v : State) (key : Bytes) (tl : Nat) (len : Nat), let tag := (cmac key ((c.args.drop 5).take len)).take tl; tl = fld
      c.args 2 1 ∧ len = fld c.args 3 2 ∧ fld c.args 0 1 ≤ 1 ∧ 4 ≤ tl ∧ tl ≤ 16 ∧ len ≤ 960 ∧ c.args.length = 5 + len + (if fld c.args 0 1 = 1 then tl
      else 0) ∧ useKey c.t (fld c.args 1 1) (if fld c.args 0 1 = 1 then isDec else isEnc) u = .ok (key, v) ∧ fld c.args 0 1 = 1 ∧ tag = c.args.drop (5
      + len)) ∧
    (Can 0x4803 fun c u => ∃ (v : State) (key : Bytes) (tl : Nat) (len : Nat), let tag := (cmac key ((c.args.drop 5).take len)).take tl; tl = fld
      c.args 2 1 ∧ len = fld c.args 3 2 ∧ fld c.args 0 1 ≤ 1 ∧ 4 ≤ tl ∧ tl ≤ 16 ∧ len ≤ 960 ∧ c.args.length = 5 + len + (if fld c.args 0 1 = 1 then tl
      else 0) ∧ useKey c.t (fld c.args 1 1) (if fld c.args 0 1 = 1 then isDec else isEnc) u = .ok (key, v) ∧ fld c.args 0 1 = 1 ∧ tag ≠ c.args.drop (5
      + len)) := by
  refine ⟨?_, ?_, ?_, ?_, ?_, ?_, ?_, ?_⟩
  · exact can (cm 0 [0, 2]) (keyed .enc run0)
      (by decide +kernel)
      ⟨_, _, by decide +kernel, by decide +kernel, by decide +kernel, drbgTake_eq (by decide +kernel)⟩
  · exact can (cm 0 ([1, 0] ++ List.replicate 16 0 ++ [0, 2] ++ List.replicate 512 0)) (keyed .enc run0)
      (by decide +kernel) (⟨_, _, 1, 512, by refine ⟨?_, ?_, ?_, ?_, ?_, ?_, ?_, (keyed_use (by decide +kernel) rfl (by decide +kernel) (by decide +kernel)).choose_spec⟩ <;> decide +kernel⟩)
  · exact can (cm 0 ([0, 0, 7] ++ List.replicate 7 0 ++ [4, 0, 0, 0, 0] ++ List.replicate 0 0)) (keyed .enc run0)
      (by decide +kernel)
      (⟨_, _, 7, 4, 0, 0, by (try dsimp only); refine ⟨?_, ?_, ?_, ?_, ?_, ?_, ?_, ?_, ?_, ?_, (keyed_use (by decide +kernel) rfl (by decide +kernel) (by decide +kernel)).choose_spec, ?_⟩ <;> decide +kernel⟩)
  · exact can (cm 0 ([1, 0, 7] ++ List.replicate 7 0 ++ [4, 0, 0, 4, 0] ++ ccmEnc (List.replicate 16 0) (List.replicate 7 0) [] [] 4)) (keyed .dec run0)
      (by decide +kernel)
      (⟨_, _, 7, 4, 0, 4, _, by (try dsimp only); refine ⟨?_, ?_, ?_, ?_, ?_, ?_, ?_, ?_, ?_, ?_, (keyed_use (by decide +kernel) rfl (by decide +kernel) (by decide +kernel)).choose_spec, ?_, ccm0⟩ <;> decide +kernel⟩)
  · exact can (cm 0 ([1, 0, 7] ++ List.replicate 7 0 ++ [4, 0, 0, 4, 0] ++ List.replicate 4 0)) (keyed .dec run0)
      (by decide +kernel)
      (⟨_, _, 7, 4, 0, 4, by (try dsimp only); refine ⟨?_, ?_, ?_, ?_, ?_, ?_, ?_, ?_, ?_, ?_, (keyed_use (by decide +kernel) rfl (by decide +kernel) (by decide +kernel)).choose_spec, ?_, ?_⟩ <;> decide +kernel⟩)
  · exact can (cm 0 [0, 0, 16, 0, 0]) (keyed .enc run0)
      (by decide +kernel)
      (⟨_, _, 16, 0, by (try dsimp only); refine ⟨?_, ?_, ?_, ?_, ?_, ?_, ?_, (keyed_use (by decide +kernel) rfl (by decide +kernel) (by decide +kernel)).choose_spec, ?_⟩ <;> decide +kernel⟩)
  · exact can (cm 0 ([1, 0, 4, 0, 0] ++ (cmac (List.replicate 16 0) []).take 4)) (keyed .dec run0)
      (by decide +kernel)
      (⟨_, _, 4, 0, by (try dsimp only); refine ⟨?_, ?_, ?_, ?_, ?_, ?_, ?_, (keyed_use (by decide +kernel) rfl (by decide +kernel) (by decide +kernel)).choose_spec, ?_, ?_⟩ <;> decide +kernel⟩)
  · exact can (cm 0 [1, 0, 4, 0, 0, 0, 0, 0, 0]) (keyed .dec run0)
      (by decide +kernel)
      (⟨_, _, 4, 0, by (try dsimp only); refine ⟨?_, ?_, ?_, ?_, ?_, ?_, ?_, (keyed_use (by decide +kernel) rfl (by decide +kernel) (by decide +kernel)).choose_spec, ?_, ?_⟩ <;> decide +kernel⟩)

/-- The conditions of `Obligations.BridleEventsComplete` are met. -/
theorem witness_BridleEventsComplete :
    (∃ (s : State), s.bri.entLost = false ∧ s.bri.drbgOk = false) ∧
    (∃ (s : State), s.bri.entLost = false ∧ s.bri.drbgOk = true) ∧
    (∃ (s : State), s.bri.entLost = true ∧ s.bri.entPass < 2) ∧
    (∃ (s : State), s.bri.entLost = true ∧ 2 ≤ s.bri.entPass) ∧
    (∃ (x : Tenant) (epoch : BitVec 16) (s : State) (e : EngineReq), s.bri.engine = [e] ∧ e.who = x ∧ e.epoch = epoch) := by
  refine ⟨?_, ?_, ?_, ?_, ?_⟩
  · exact ⟨(setBri (fun b => { b with drbgOk := false }) (run0)), by decide +kernel⟩
  · exact ⟨(setBri (fun b => { b with drbgOk := true }) (run0)), by decide +kernel⟩
  · exact ⟨(setBri (fun b => { b with entLost := true, entPass := 1 }) (run0)), by decide +kernel⟩
  · exact ⟨(setBri (fun b => { b with entLost := true, entPass := 2 }) (run0)), by decide +kernel⟩
  · exact ⟨1, 9, (setBri (fun b => { b with engine := [{ who := 1, epoch := 9, stale := false, rng := false, out := none }] }) (run0)), ({ who := 1, epoch := 9, stale := false, rng := false, out := none }),
      by decide +kernel⟩

/-- The conditions of `Obligations.GondolaAndCheckValues` are met. -/
theorem witness_GondolaAndCheckValues :
    (Can 0x5000 fun c u => ∃ (g : Fin 16), c.t = 0 ∧ c.args.length = 3 ∧ fld c.args 0 1 = g.val ∧ fld c.args 1 1 ≤ 5 ∧ fld c.args 1 1 ≠ 4 ∧ fld c.args
      2 1 ≤ 5 ∧ fld c.args 2 1 ≠ 4 ∧ (fld c.args 1 1 = fld c.args 2 1 → 4 ≤ fld c.args 1 1) ∧ u.gdl.locked = false) ∧
    (Can 0x5001 fun c _ => c.t = 0 ∧ c.args = []) ∧
    (Can 0x5002 fun c u => ∃ (g : Fin 16), fld c.args 0 1 = g.val ∧ fld c.args 1 1 ≤ 8 ∧ c.args.length = 2 + 4 * fld c.args 1 1 ∧ senderOf g
      u.gdl.chans[g] = some (.tenant c.t) ∧ u.power.strapV1 = false) ∧
    (Can 0x5003 fun c u => ∃ (g : Fin 16) (m : Msg), fld c.args 0 1 = g.val ∧ c.args.length = 2 ∧ fld c.args 1 1 ≤ 1 ∧ receiverOf g u.gdl.chans[g] =
      some (.tenant c.t) ∧ u.gdl.chans[g].msg = some m) ∧
    (Can 0x5004 fun c u => ∃ (i : Fin 8), c.args.length = 1 ∧ fld c.args 0 1 = i.val ∧ u.gdl.sems[i].holder = none) ∧
    (Can 0x5005 fun c u => ∃ (i : Fin 8), c.args.length = 1 ∧ fld c.args 0 1 = i.val ∧ u.gdl.sems[i].holder = some c.t) ∧
    (Can 0x6000 fun c _ => ∃ (p : CvuPar), c.args.length = 15 ∧ fld c.args 0 1 = 0 ∧ 1 ≤ fld c.args 1 1 ∧ fld c.args 1 1 ≤ 32 ∧ fld c.args 2 4 ≠ 0 ∧
      fld c.args 2 4 < 2 ^ fld c.args 1 1 ∧ fld c.args 6 4 < 2 ^ fld c.args 1 1 ∧ fld c.args 10 4 < 2 ^ fld c.args 1 1 ∧ fld c.args 14 1 ≤ 3 ∧ p =
      { preset := 0, width := fld c.args 1 1, poly := BitVec.ofNat 32 (fld c.args 2 4), init := BitVec.ofNat 32 (fld c.args 6 4), xorout := BitVec.ofNat 32 (fld c.args 10 4), reflIn := fld c.args 14 1 % 2 == 1, reflOut := decide (2 ≤ fld c.args 14 1) }) ∧
    (Can 0x6000 fun c _ => c.args.length = 15 ∧ 1 ≤ fld c.args 0 1 ∧ fld c.args 0 1 ≤ 4 ∧ (∀ i, 1 ≤ i → i < 15 → fld c.args i 1 = 0)) ∧
    (Can 0x6001 fun c _ => c.args.length = 3 + fld c.args 1 2 ∧ fld c.args 1 2 ≤ 1000 ∧ fld c.args 0 1 = 0) ∧
    (Can 0x6001 fun c _ => c.args.length = 3 + fld c.args 1 2 ∧ fld c.args 1 2 ≤ 1000 ∧ fld c.args 0 1 = 1) ∧
    (Can 0x6001 fun c u => let p := u.cvu[c.t]; c.args.length = 3 + fld c.args 1 2 ∧ fld c.args 1 2 ≤ 1000 ∧ fld c.args 0 1 = 2 ∧ cvuBytes p ≤ fld
      c.args 1 2) := by
  refine ⟨?_, ?_, ?_, ?_, ?_, ?_, ?_, ?_, ?_, ?_, ?_⟩
  · exact can (cm 0 [15, 5, 5]) (run0) (by decide +kernel) (⟨15, by decide +kernel⟩)
  · exact can (cm 0 []) (run0) (by decide +kernel) (by decide +kernel)
  · exact can (cm 0 ([15, 8] ++ List.replicate 32 0)) (modChan 15 (fun g => { g with bound := some (0, 1) }) run0)
      (by decide +kernel) (⟨15, by decide +kernel⟩)
  · exact can (cm 0 [15, 1]) (modChan 15 (fun g => { g with bound := some (1, 0), msg := some { snd := 1, mseq := 0, words := [], hand := none } }) run0)
      (by decide +kernel) (⟨15, ({ snd := 1, mseq := 0, words := [], hand := none }), by decide +kernel⟩)
  · exact can (cm 0 [7]) (run0) (by decide +kernel) (⟨7, by decide +kernel⟩)
  · exact can (cm 0 [7]) (modSem 7 (fun q => { q with holder := some 0 }) run0) (by decide +kernel) (⟨7, by decide +kernel⟩)
  · exact can (cm 0 [0, 32, 1, 0, 0, 128, 255, 255, 255, 255, 255, 255, 255, 255, 3]) (run0)
      (by decide +kernel) (⟨_, by refine ⟨?_, ?_, ?_, ?_, ?_, ?_, ?_, ?_, ?_, rfl⟩ <;> decide +kernel⟩)
  · exact can (cm 0 ([4] ++ List.replicate 14 0)) (run0)
      (by decide +kernel)
      (by exact ⟨by decide +kernel, by decide +kernel, by decide +kernel, fun i _ h => (show ∀ i, i < 15 → 1 ≤ i → fld ([4] ++ List.replicate 14 0) i 1 = 0 by decide +kernel) i h ‹_›⟩)
  · exact can (cm 0 ([0, 0xE8, 3] ++ List.replicate 1000 0)) (run0) (by decide +kernel) (by decide +kernel)
  · exact can (cm 0 [1, 0, 0]) (run0) (by decide +kernel) (by decide +kernel)
  · exact can (cm 0 [2, 2, 0, 1, 2]) (run0) (by decide +kernel) (by dsimp only; decide +kernel)

/-- The conditions of `Obligations.StoreCommandsComplete` are met. -/
theorem witness_StoreCommandsComplete :
    (Can 0x7000 fun c u => c.args.length = 4 ∧ 1 ≤ fld c.args 2 2 ∧ fld c.args 2 2 ≤ 1000 ∧ fld c.args 0 2 + fld c.args 2 2 ≤ 16384 ∧ bit u.mend.lost
      10 = false ∧ (∀ e ∈ u.store.badPages, e.1 = c.t → e.2 ∉ pagesOf (fld c.args 0 2) (fld c.args 2 2))) ∧
    (Can 0x7001 fun c u => ∃ (job : Job), 4 ≤ c.args.length ∧ c.args.length = 4 + fld c.args 2 2 ∧ 1 ≤ fld c.args 2 2 ∧ fld c.args 2 2 ≤ 512 ∧ fld
      c.args 0 2 + fld c.args 2 2 ≤ 16384 ∧ bit u.mend.lost 10 = false ∧ (∀ e ∈ u.store.badPages, e.1 ≠ c.t) ∧ u.tens[c.t].exec = some job) ∧
    (Can 0x7002 fun c _ => c.t = 0 ∧ c.args.length = 6 ∧ fld c.args 0 4 ≤ 100000000 ∧ (0 < fld c.args 0 4 → 1000 ≤ fld c.args 4 2 ∧ fld c.args 4 2 ≤
      5500)) ∧
    (Can 0x7003 fun c _ => c.args = []) := by
  refine ⟨?_, ?_, ?_, ?_⟩
  · exact can (cm 1 [0x18, 0x3C, 0xE8, 3]) (setStore (fun w => { w with badPages := [(0, 1)] }) (run0))
      (by decide +kernel) (by decide +kernel)
  · exact can (cm 0 ([0, 0x3E, 0, 2] ++ List.replicate 512 0)) (run0)
      (by decide +kernel)
      (⟨_, by (repeat' apply And.intro) <;> first | with_reducible rfl | exact taken_up (by decide +kernel) | decide +kernel | rfl⟩)
  · exact can (cm 0 [0, 0xE1, 0xF5, 5, 0x7C, 0x15]) (run0) (by decide +kernel) (by decide +kernel)
  · exact can (cm 3 []) (run0) (by decide +kernel) (by decide +kernel)

/-- The conditions of `Obligations.LedgerCommandsComplete` are met. -/
theorem witness_LedgerCommandsComplete :
    (Can 0x7400 fun c u => ∃ (cfg : LedgerCfg), c.args.length = 4 + 8 * fld c.args 3 1 ∧ c.t = u.ldg.owner ∧ 1 ≤ fld c.args 0 1 ∧ fld c.args 0 1 ≤ 60
      ∧ 1 ≤ fld c.args 1 2 ∧ fld c.args 1 2 ≤ 600 ∧ 1 ≤ fld c.args 3 1 ∧ fld c.args 3 1 ≤ 16 ∧ u.bri.rootOk = true ∧ cfg =
      { ivl := fld c.args 0 1, dedupe := fld c.args 1 2, cls := (List.range (fld c.args 3 1)).map fun i => (BitVec.ofNat 32 (fld c.args (4 + 8 * i) 4), BitVec.ofNat 32 (fld c.args (8 + 8 * i) 4)) }) ∧
    (Can 0x7401 fun c _ => ∃ (t : Tenant), c.t = 0 ∧ c.args.length = 1 ∧ fld c.args 0 1 = t.val) ∧
    (Can 0x7402 fun c u => ∃ (rs : _), c.args.length = 5 ∧ u.power.strapV1 = false ∧ c.t = u.ldg.owner ∧ 1 ≤ fld c.args 4 1 ∧ fld c.args 4 1 ≤ 8 ∧
      u.bri.rootOk = true ∧ rs = (u.ldg.held.filter fun r => decide (fld c.args 0 4 ≤ r.seq)).take (fld c.args 4 1)) ∧
    (Can 0x7403 fun c u => c.args.length = 4 ∧ c.t = u.ldg.owner ∧ u.bri.rootOk = true ∧ fld c.args 0 4 ≤ u.ldg.lastSeq) ∧
    (Can 0x7404 fun c _ => c.args = []) ∧
    (Can 0x7410 fun c u => let v := boundaryIfDue u; c.args.length = 8 ∧ c.t = u.ldg.owner ∧ u.bri.rootOk = true ∧ v.ldg.wall = none) ∧
    (Can 0x7410 fun c u => let v := boundaryIfDue u; let now := v.reel.cnt; let new : Int := fld c.args 0 8; c.args.length = 8 ∧ c.t = u.ldg.owner ∧
      u.bri.rootOk = true ∧ v.ldg.wall ≠ none ∧ new - ledgerMs v now ≤ -1000) ∧
    (Can 0x7410 fun c u => let v := boundaryIfDue u; let now := v.reel.cnt; let new : Int := fld c.args 0 8; c.args.length = 8 ∧ c.t = u.ldg.owner ∧
      u.bri.rootOk = true ∧ v.ldg.wall ≠ none ∧ 1000 ≤ new - ledgerMs v now) ∧
    (Can 0x7410 fun c u => let v := boundaryIfDue u; let now := v.reel.cnt; let new : Int := fld c.args 0 8; c.args.length = 8 ∧ c.t = u.ldg.owner ∧
      u.bri.rootOk = true ∧ v.ldg.wall ≠ none ∧ -1000 < new - ledgerMs v now ∧ new - ledgerMs v now < 1000) := by
  refine ⟨?_, ?_, ?_, ?_, ?_, ?_, ?_, ?_, ?_⟩
  · exact can (cm 0 ([60, 0x58, 2, 16] ++ List.replicate 128 0)) (setBri (fun b => { b with rootOk := true }) (run0))
      (by decide +kernel) (⟨_, by refine ⟨?_, ?_, ?_, ?_, ?_, ?_, ?_, ?_, ?_, rfl⟩ <;> decide +kernel⟩)
  · exact can (cm 0 [3]) (run0) (by decide +kernel) (⟨3, by decide +kernel⟩)
  · exact can (cm 0 [0, 0, 0, 0, 8]) (setBri (fun b => { b with rootOk := true }) (run0))
      (by decide +kernel) (⟨_, by refine ⟨?_, ?_, ?_, ?_, ?_, ?_, rfl⟩ <;> decide +kernel⟩)
  · exact can (cm 0 [9, 0, 0, 0]) (setLdg (fun l => { l with lastSeq := 9 }) (setBri (fun b => { b with rootOk := true }) (run0)))
      (by decide +kernel) (by decide +kernel)
  · exact can (cm 2 []) (run0) (by decide +kernel) (by decide +kernel)
  · exact can (cm 0 [0, 0, 0, 0, 0, 0, 0, 0]) (setBri (fun b => { b with rootOk := true }) (run0))
      (by decide +kernel) (by dsimp only; decide +kernel)
  · exact can (cm 0 [0, 0, 0, 0, 0, 0, 0, 0]) (setLdg (fun l => { l with wall := some (0, 1000) }) (setBri (fun b => { b with rootOk := true }) (run0)))
      (by decide +kernel) (by dsimp only; decide +kernel)
  · exact can (cm 0 [0xE8, 3, 0, 0, 0, 0, 0, 0]) (setLdg (fun l => { l with wall := some (0, 0) }) (setBri (fun b => { b with rootOk := true }) (run0)))
      (by decide +kernel) (by dsimp only; decide +kernel)
  · exact can (cm 0 [0xE7, 3, 0, 0, 0, 0, 0, 0]) (setLdg (fun l => { l with wall := some (0, 0) }) (setBri (fun b => { b with rootOk := true }) (run0)))
      (by decide +kernel) (by dsimp only; decide +kernel)

/-- The conditions of `Obligations.SurveyMendCommandsComplete` are met. -/
theorem witness_SurveyMendCommandsComplete :
    (Can 0x8000 fun c _ => c.args = []) ∧
    (Can 0x8001 fun c u => ∃ (n : Fin 6), c.args.length = 2 ∧ fld c.args 0 1 = n.val ∧ fld c.args 1 1 ≤ 1 ∧ inLimp u = false ∧ noSyn u = false ∧
      (n.val < 4 → lostReaderRx u = false) ∧ (n.val < 4 → feedBad u.prof[c.t] = false) ∧ u.svy.sweep = none) ∧
    (Can 0x8002 fun c u => ∃ (subs : _), c.args.length = 2 ∧ (fld c.args 0 2 = 0 ∨ (10 ≤ fld c.args 0 2 ∧ fld c.args 0 2 ≤ 3600)) ∧ subs =
      u.svy.subs.set c.t.val (fld c.args 0 2) c.t.isLt) ∧
    (Can 0x8003 fun c _ => c.args = []) ∧
    (Can 0x8800 fun c _ => c.args = []) ∧
    (Can 0x8801 fun c _ => c.t = 0 ∧ c.args.length = 4 ∧ fld c.args 0 2 ≤ 1439 ∧ 1 ≤ fld c.args 2 2 ∧ fld c.args 2 2 ≤ 720) := by
  refine ⟨?_, ?_, ?_, ?_, ?_, ?_⟩
  · exact can (cm 0 []) (run0) (by decide +kernel) (by decide +kernel)
  · exact can (cm 0 [5, 1]) (run0) (by decide +kernel) (⟨5, by decide +kernel⟩)
  · exact can (cm 0 [0x10, 0x0E]) (run0) (by decide +kernel) (⟨_, by refine ⟨?_, ?_, rfl⟩ <;> decide +kernel⟩)
  · exact can (cm 1 []) (run0) (by decide +kernel) (by decide +kernel)
  · exact can (cm 2 []) (run0) (by decide +kernel) (by decide +kernel)
  · exact can (cm 0 [0x9F, 5, 0xD0, 2]) (run0) (by decide +kernel) (by decide +kernel)

/-- The conditions of `Obligations.ReelEventsComplete` are met. -/
theorem witness_ReelEventsComplete :
    (∃ (k : Fin 12) (now : Tick) (s : State) (v : _), let u := advanceTo now s; let t := cmpOwner k; (s.power.mode = .run ∨ s.power.mode = .limp) ∧
      u.reel.cmps[k].st = .armed ∧ reached u.reel.cnt u.reel.cmps[k].val = true ∧ v = toutAct t (bits u.reel.cmps[k].act 2 0) (u.reel.cnt + 1) (modCmp
      k (fun q => { q with st := .fired, late := u.reel.cnt != q.val }) u)) ∧
    (∃ (n : Tenant) (now : Tick) (s : State), (s.power.mode = .run ∨ s.power.mode = .limp) ∧ (advanceTo now s).reel.dcs[n].due = true) ∧
    (∃ (n : Tenant) (rising : Bool) (now : Tick) (s : State), let u := advanceTo now s; let q := u.reel.caps[n]; (s.power.mode = .run ∨ s.power.mode =
      .limp) ∧ edgeTaken q rising = true ∧ q.arm = false) ∧
    (∃ (n : Tenant) (now : Tick) (e : Tick) (s : State), let u := advanceTo now s; u.reel.touts[n].pulseEnd = some e ∧ reached u.reel.cnt e = true) := by
  refine ⟨?_, ?_, ?_, ?_⟩
  · exact ⟨11, 100, (modCmp 11 (fun q => { q with st := .armed, val := 100 }) run0), _,
      by (try dsimp only); refine ⟨?_, ?_, ?_, rfl⟩ <;> decide +kernel⟩
  · exact ⟨3, 100, (modDc 3 (fun q => { q with st := .running }) run0), by decide +kernel⟩
  · exact ⟨3, true, 100, (modCap 3 (fun q => { q with edge := 2 }) run0), by dsimp only; decide +kernel⟩
  · exact ⟨3, 100, 100, (modTout 3 (fun q => { q with pulseEnd := some 100 }) run0), by dsimp only; decide +kernel⟩

/-- The conditions of `Obligations.StoreAndLedgerEvents` are met. -/
theorem witness_StoreAndLedgerEvents :
    (∃ (vhu : Nat) (s : State) (c : Commit) (rest : List Commit), live s = true ∧ s.store.queue = c :: rest ∧ ballastOk s.store vhu (queuedPages
      s.store) = true) ∧
    (∃ (vhu : Nat) (s : State) (c : Commit) (rest : List Commit), live s = true ∧ s.store.queue = c :: rest ∧ ballastOk s.store vhu (queuedPages
      s.store) = false) ∧
    (∃ (now : Tick) (vhu bad : Nat) (s : State) (c : Commit) (rest : List Commit), let u := advanceTo now s; live u = true ∧
      u.store.deferred = c :: rest ∧ ballastOk u.store vhu (queuedPages u.store) = true) ∧
    (∃ (now : Tick) (vhu bad : Nat) (s : State) (c : Commit) (rest : List Commit), let u := advanceTo now s; live u = true ∧
      u.store.deferred = c :: rest ∧ ballastOk u.store vhu (queuedPages u.store) = false) ∧
    (∃ (s : State) (m : Move), live s = true ∧ s.store.queue.any (fun c => ofCommand c.kind) = false ∧ bit s.mend.lost 10 = false ∧ (s.store.moving.orElse fun _ => wearMove s.store) =
      some m ∧ m.steps < 2) ∧
    (∃ (n : Nat) (s : State), live s = true ∧ s.store.moving = none ∧ 3 ≤ n ∧ n ≤ 127 ∧ bit s.mend.lost 10 = false ∧
      s.store.written.getD (physOf s.store n) 0 + 1461 ≤ s.reel.day ∧ spareSectors s.store ≠ []) ∧
    (∃ (n : Nat) (s : State), live s = true ∧ s.store.moving = none ∧ 3 ≤ n ∧ n ≤ 127 ∧ bit s.mend.lost 10 = false ∧
      s.reel.day < s.store.written.getD (physOf s.store n) 0 + 1461) ∧
    (∃ (now : Tick) (s : State) (iv : Interval), let u := advanceTo now s; (s.power.mode = .run ∨ s.power.mode = .limp) ∧ u.ldg.cur = some iv ∧
      reached u.reel.cnt iv.endsAt = true) ∧
    (∃ (s : State) (e : Nat × BitVec 16) (rest : List (Nat × BitVec 16)), s.ldg.toTell = e :: rest) := by
  refine ⟨?_, ?_, ?_, ?_, ?_, ?_, ?_, ?_, ?_⟩
  · exact ⟨0, (setStore (fun w => { w with queue := [{ kind := .window 0 0, pages := 1 }] }) (run0)), ({ kind := .window 0 0, pages := 1 }), [],
      by decide +kernel⟩
  · exact ⟨2000, (setStore (fun w => { w with queue := [{ kind := .window 0 0, pages := 1 }], balC := 10000000, vmin := 2000 }) (run0)), ({ kind := .window 0 0, pages := 1 }), [],
      by decide +kernel⟩
  · exact ⟨100, 0, 0, (setStore (fun w => { w with deferred := [{ kind := .window 0 0, pages := 1 }] }) run0), { kind := .window 0 0, pages := 1 }, [], by dsimp only; decide +kernel⟩
  · exact ⟨100, 2000, 0, (setStore (fun w => { w with deferred := [{ kind := .window 0 0, pages := 1 }], balC := 10000000, vmin := 2000 }) run0), { kind := .window 0 0, pages := 1 }, [], by dsimp only; decide +kernel⟩
  · exact ⟨(setStore (fun w => { w with queue := [{ kind := .map false, pages := 1 }], moving := some { logical := 3, target := 135, steps := 1 } }) (run0)), ({ logical := 3, target := 135, steps := 1 }),
      by decide +kernel⟩
  · exact ⟨127, { run0 with reel := { run0.reel with day := 1461 } }, by decide +kernel⟩
  · exact ⟨3, { run0 with reel := { run0.reel with day := 1460 } }, by decide +kernel⟩
  · exact ⟨100, (setLdg (fun l => { l with cur := some { opened := 0, startMs := 0, endsAt := 100, flags := 0, counts := [0], dirty := false } }) (run0)), ({ opened := 0, startMs := 0, endsAt := 100, flags := 0, counts := [0], dirty := false }),
      by dsimp only; decide +kernel⟩
  · exact ⟨(setLdg (fun l => { l with toTell := [(1, 0)] }) (run0)), ((1, 0)), [], by decide +kernel⟩

/-- The conditions of `Obligations.CommitsLand` are met. -/
theorem witness_CommitsLand :
    (∃ (s : State) (t : Tenant) (data : Bytes) (i : _), Memory.wf s.store.areas[t] = true ∧ i < data.length) ∧
    (∃ (s : State) (t : Tenant) (off : Nat) (data : Bytes) (a : Nat), Memory.wf s.store.areas[t] = true ∧ (a < off ∨ off + data.length ≤ a)) := by
  refine ⟨?_, ?_⟩
  · exact ⟨run0, 3, ([1, 2]), 1, by decide +kernel⟩
  · exact ⟨run0, 3, 16382, ([1, 2]), 16381, by decide +kernel⟩

/-- The conditions of `Obligations.SurveyEventsComplete` are met. -/
theorem witness_SurveyEventsComplete :
    (∃ (s : State), s.power.mode = .run) ∧
    (∃ (now : Tick) (smp : Sample) (s : State) (v : _), let u := advanceTo now s; (s.power.mode = .run ∨ s.power.mode = .limp) ∧ u.reel.cnt.toNat %
      (u.svy.period * 24000000) = 0 ∧ v = takeSample smp u) ∧
    (∃ (now : Tick) (s : State) (t : Fin 6) (r : List (Fin 6)), let u := advanceTo now s; u.power.mode = .run ∧
      u.reel.cnt.toNat % 21600000000 = 0 ∧ u.svy.sweep = none ∧ noSyn u = false ∧
      (([0, 1, 2, 3] : List (Fin 6)).filter fun i => bit u.svy.used i.val) ++ [4] ++
        (if bit u.mend.lost 4 = false ∧ bit u.prof[linkHost u].phycfg 1 = true then [5] else []) = t :: r) ∧
    (∃ (now : Tick) (g : Option Gamma) (s : State) (w : Sweep), let u := advanceTo now s; u.svy.sweep = some w ∧
      sweepHolds (sweepCore w) u = true ∧ (calResult (sweepCore w) u).1 = false ∧ ∃ p, g = some p) ∧
    (∃ (now : Tick) (g : Option Gamma) (s : State) (w : Sweep), let u := advanceTo now s; u.svy.sweep = some w ∧
      sweepHolds (sweepCore w) u = true ∧ (calResult (sweepCore w) u).1 = false ∧ g = none) ∧
    (∃ (now : Tick) (f : Tick) (s : State) (w : Sweep), let u := advanceTo now s; u.svy.sweep = some w ∧ w.from_ = some f ∧ w.next < 49 ∧ reached
      u.reel.cnt (f + 48000000) = true) ∧
    (∃ (now : Tick) (s : State) (w : Sweep), let u := advanceTo now s; u.svy.sweep = some w ∧ 49 ≤ w.next ∧ sweepSilent w = true) ∧
    (∃ (now : Tick) (s : State) (w : Sweep) (rl len cls : Nat) (v : State), let u := advanceTo now s; u.svy.sweep = some w ∧ 49 ≤ w.next ∧ sweepSilent w = false ∧
      lowestLoss (w.points.filter fun p => inBand w p.1 u) u = (rl, v) ∧
      len = (if w.length = true ∧ w.target.val < 4 then feederLength w.prof w.points else 0xFFFF) ∧ cls = classify w rl len v) := by
  refine ⟨?_, ?_, ?_, ?_, ?_, ?_, ?_, ?_⟩
  · exact ⟨run0, by decide +kernel⟩
  · exact ⟨0, sample0, run0, _, by dsimp only; refine ⟨?_, ?_, rfl⟩ <;> decide +kernel⟩
  · exact ⟨21600000000, setSvy (fun v => { v with used := 9 }) run0, _, _, by dsimp only; refine ⟨?_, ?_, ?_, ?_, rfl⟩ <;> decide +kernel⟩
  · exact ⟨100, some { re := 0, im := 0 }, (airL (.sweep (some 0)) (setSvy (fun v => { v with sweep := some { owner := some 0, tseq := 5, target := 4, length := false, next := 0, points := [], from_ := some 0, rest := [], prof := .reset } }) run0)), { owner := some 0, tseq := 5, target := 4, length := false, next := 0, points := [], from_ := some 0, rest := [], prof := .reset }, by (try dsimp only); refine ⟨?_, ?_, ?_, { re := 0, im := 0 }, rfl⟩ <;> decide +kernel⟩
  · exact ⟨100, none, (airL (.sweep (some 0)) (setSvy (fun v => { v with sweep := some { owner := some 0, tseq := 5, target := 4, length := false, next := 0, points := [], from_ := some 0, rest := [], prof := .reset } }) run0)), { owner := some 0, tseq := 5, target := 4, length := false, next := 0, points := [], from_ := some 0, rest := [], prof := .reset }, by dsimp only; decide +kernel⟩
  · exact ⟨48000000, 0, (setSvy (fun v => { v with sweep := some { owner := some 0, tseq := 5, target := 4, length := false, next := 48, points := [], from_ := some 0, rest := [], prof := .reset } }) run0), { owner := some 0, tseq := 5, target := 4, length := false, next := 48, points := [], from_ := some 0, rest := [], prof := .reset }, by dsimp only; decide +kernel⟩
  · exact ⟨100, (setSvy (fun v => { v with sweep := some { owner := some 0, tseq := 5, target := 3, length := false, next := 49, points := [], from_ := some 0, rest := [], prof := { Profile.reset with pa := 0xD400 } } }) run0), { owner := some 0, tseq := 5, target := 3, length := false, next := 49, points := [], from_ := some 0, rest := [], prof := { Profile.reset with pa := 0xD400 } }, by dsimp only; decide +kernel⟩
  · exact ⟨100, (setSvy (fun v => { v with sweep := some { owner := some 0, tseq := 5, target := 4, length := false, next := 49, points := (List.range 49).map fun i => (i, { re := 0, im := 0 }), from_ := some 0, rest := [], prof := .reset } }) run0), { owner := some 0, tseq := 5, target := 4, length := false, next := 49, points := (List.range 49).map fun i => (i, { re := 0, im := 0 }), from_ := some 0, rest := [], prof := .reset }, _, _, _, _, by (try dsimp only); refine ⟨?_, ?_, ?_, Prod.mk.eta.symm, rfl, rfl⟩ <;> decide +kernel⟩

/-- A part some days old with one row corrected at its start. -/
def scrubbed0 : State :=
  setMend (fun m => { m with scrub := [(15, 255, 0)] }) { run0 with reel := { run0.reel with cnt := 3000000000000 } }

/-- The conditions of `Obligations.MendEventsComplete` are met. -/
theorem witness_MendEventsComplete :
    (∃ (now : Tick) (s : State), let u := advanceTo now s; u.power.mode = .sleep) ∧
    (∃ (now : Tick) (s : State), let u := advanceTo now s; u.power.mode = .run ∧ inWindow u = true ∧ u.mend.winOpen = false ∧
      (∀ t, u.mend.openedAt = some t → u.mend.winLen * minTicks ≤ ticksBetween t u.reel.cnt)) ∧
    (∃ (now : Tick) (found : Option MendRes) (s : State), let u := advanceTo now s; u.power.mode = .run ∧ u.mend.winOpen = true ∧ stepIdle u.mend.step u = true) ∧
    (∃ (bank : Fin 16) (row : BitVec 8) (now : Tick) (s : State), let u := advanceTo now s; live u = true ∧
      (∃ at_ : Tick, (bank.val, row.toNat, at_) ∈ u.mend.scrub ∧ ticksBetween at_ u.reel.cnt ≤ 1440 * minTicks)) ∧
    (∃ (bank : Fin 16) (row : BitVec 8) (now : Tick) (s : State), let u := advanceTo now s; live u = true ∧
      (∀ at_ : Tick, (bank.val, row.toNat, at_) ∈ u.mend.scrub → 1440 * minTicks < ticksBetween at_ u.reel.cnt) ∧ u.mend.scrub ≠ []) ∧
    (∃ (core : CoreId) (s v : State), s.power.mode = .run ∧ (match core with | .reader => s.mend.checkR | .link => s.mend.checkL) = true ∧
      coreIdle core s = true ∧ s.radio.waiters.any (fun r => r.core == core) = false ∧
      v = setMend (fun m => match core with
        | .reader => { m with checkR := false }
        | .link => { m with checkL := false }) s ∧ resIdle (.syn core) v = true) ∧
    (∃ (core : CoreId) (s v : State), s.power.mode = .run ∧ (match core with | .reader => s.mend.checkR | .link => s.mend.checkL) = true ∧
      coreIdle core s = true ∧ s.radio.waiters.any (fun r => r.core == core) = false ∧
      v = setMend (fun m => match core with
        | .reader => { m with checkR := false }
        | .link => { m with checkL := false }) s ∧ resIdle (.syn core) v = false) ∧
    (∃ (r : MendRes) (s : State), s.power.mode = .run ∧ switchDue r s = true ∧ resIdle r s = true) := by
  refine ⟨?_, ?_, ?_, ?_, ?_, ?_, ?_, ?_⟩
  · exact ⟨0, setPower (fun p => { p with mode := .sleep }) State.reset, by dsimp only; decide +kernel⟩
  · exact ⟨100, setMend (fun m => { m with winStart := 0 }) run0, by dsimp only; refine ⟨?_, ?_, ?_, ?_⟩ <;> first | exact fun t h => nomatch (show (none : Option Tick) = some t from h) | decide +kernel⟩
  · exact ⟨100, none, (setMend (fun m => { m with winOpen := true, step := 450 }) run0), by dsimp only; decide +kernel⟩
  · exact ⟨15, 255, 100, (setMend (fun m => { m with scrub := [(15, 255, 0)] }) run0), by dsimp only; refine ⟨?_, 0, ?_, ?_⟩ <;> decide +kernel⟩
  · have sc : (advanceTo 3000000000000 scrubbed0).mend.scrub = [(15, 255, 0)] := by decide +kernel
    have ct : (advanceTo 3000000000000 scrubbed0).reel.cnt = 3000000000000 := by decide +kernel
    refine ⟨15, 255, 3000000000000, scrubbed0, by decide +kernel, fun a h => ?_, by rw [sc]; decide⟩
    rw [sc, List.mem_singleton] at h
    obtain rfl : a = 0 := congrArg (fun e => e.2.2) h
    rw [ct]
    decide +kernel
  · exact ⟨.reader, (setMend (fun m => { m with checkR := true }) run0), _, by refine ⟨?_, ?_, ?_, ?_, rfl, ?_⟩ <;> decide +kernel⟩
  · exact ⟨.link, (airR (.ctx 0) (setMend (fun m => { m with checkL := true }) run0)), _, by refine ⟨?_, ?_, ?_, ?_, rfl, ?_⟩ <;> decide +kernel⟩
  · exact ⟨(.lane 0), run0, by decide +kernel⟩

/-- The conditions of `Obligations.ArbitrationEventsComplete` are met. -/
theorem witness_ArbitrationEventsComplete :
    (∃ (now : Tick) (s : State) (r : AirReq), let u := advanceTo now s; firstGrantable u.reel.cnt u [] (orderedWaiters u) = some r) ∧
    (∃ (core : CoreId) (now : Tick) (s : State), let u := advanceTo now s; u.power.mode = .run ∧ deepDue core u = true ∧ coreState core u = .standby ∧
      holdOf core u = none ∧ u.radio.waiters.any (fun r => r.core == core) = false) ∧
    (∃ (now : Tick) (ns : Nat) (level : Bool) (s : State), let u := advanceTo now s; (ns < 500 ∨ level = u.radio.gnt) ∧ ns < 500 ∧ level ≠ u.radio.gnt) ∧
    (∃ (now : Tick) (ns : Nat) (level : Bool) (s : State), let u := advanceTo now s; (ns < 500 ∨ level = u.radio.gnt) ∧ 500 ≤ ns) ∧
    (∃ (now : Tick) (ns : Nat) (level : Bool) (s : State), let u := advanceTo now s; 500 ≤ ns ∧ level = true ∧ u.radio.gnt = false) ∧
    (∃ (now : Tick) (ns : Nat) (level : Bool) (s : State), let u := advanceTo now s; 500 ≤ ns ∧ level = false ∧ u.radio.gnt = true) ∧
    (∃ (now : Tick) (rose : Tick) (s : State), let u := advanceTo now s; u.radio.reqRose = some rose ∧ u.radio.gnt = true ∧ reached u.reel.cnt (rose +
      1200) = true) ∧
    (∃ (now : Tick) (s : State) (r : AirReq), let u := advanceTo now s; u.radio.gnt = false ∧ u.radio.waiters.find? (fun r => r.gnt && reached
      u.reel.cnt (coexDeadline r u)) = some r) ∧
    (∃ (now : Tick) (s : State), let u := advanceTo now s; u.radio.gnt = false ∧
      u.radio.waiters.find? (fun r => r.gnt && reached u.reel.cnt (coexDeadline r u)) = none ∧ ackDenied u = true) ∧
    (∃ (x : Tenant) (now : Tick) (s : State) (p : Pend), let u := advanceTo now s; u.ctxs[x].run = .waiting ∧ u.ctxs[x].pend = some p ∧ p.noAir = true
      ∧ bit p.fn 13 = true ∧ reached u.reel.cnt p.until_ = true) := by
  refine ⟨?_, ?_, ?_, ?_, ?_, ?_, ?_, ?_, ?_, ?_⟩
  · exact ⟨100, (setRadio (fun r => { r with waiters := [{ core := .link, who := .ctx 1, cls := 3, freq := 1000, since := 0, gnt := false, wait := 0, noWait := false }] }) (run0)), ({ core := .link, who := .ctx 1, cls := 3, freq := 1000, since := 0, gnt := false, wait := 0, noWait := false }),
      by dsimp only; decide +kernel⟩
  · exact ⟨.link, 1440000000, run0, by dsimp only; decide +kernel⟩
  · exact ⟨100, 499, true, run0, by dsimp only; decide +kernel⟩
  · exact ⟨100, 500, false, run0, by dsimp only; decide +kernel⟩
  · exact ⟨100, 500, true, run0, by dsimp only; decide +kernel⟩
  · exact ⟨100, 500, false, setRadio (fun r => { r with gnt := true }) run0, by dsimp only; decide +kernel⟩
  · exact ⟨1200, 0, (setRadio (fun r => { r with gnt := true, reqRose := some 0 }) (run0)), by dsimp only; decide +kernel⟩
  · exact ⟨1200, (setRadio (fun r => { r with reqRose := some 0, waiters := [{ core := .link, who := .ctx 1, cls := 3, freq := 1000, since := 0, gnt := true, wait := 0, noWait := false }] }) (run0)), ({ core := .link, who := .ctx 1, cls := 3, freq := 1000, since := 0, gnt := true, wait := 0, noWait := false }),
      by dsimp only; decide +kernel⟩
  · exact ⟨2000, setRadio (fun r => { r with reqRose := some 0 }) (setLink (fun l => { l with ackDue := some (0, ack0, 0, false) }) (airL .ack run0)), by dsimp only; decide +kernel⟩
  · exact ⟨0, 50, (wait .rxwin 0 0x2000 true (run0)), ({ op := .rxwin, d := 1, a := 0, b := 0, fn := 0x2000, issued := 0, until_ := 50, noAir := true, epoch := 0 }),
      by dsimp only; decide +kernel⟩

/-- The conditions of `Obligations.ReaderRadioEvents` are met. -/
theorem witness_ReaderRadioEvents :
    (∃ (x : Tenant) (now : Tick) (s : State) (i : Inv), let u := advanceTo now s; u.rdr.inv[x] = some i ∧ i.stage = .over ∧ i.withdrawn = false) ∧
    (∃ (x : Tenant) (now : Tick) (s : State) (i : Inv), let u := advanceTo now s; u.rdr.inv[x] = some i ∧ i.stage = .over ∧ i.withdrawn = true) ∧
    (∃ (x : Tenant) (now : Tick) (s : State) (i : Inv), let u := advanceTo now s;
      let past := pastCommit .reader u = true ∧ holds (.ctx x) .reader u = true; u.rdr.inv[x] = some i ∧ durOver i u = true ∧ i.stage ≠ .over ∧ ¬past) ∧
    (∃ (x : Tenant) (now : Tick) (s : State) (i : Inv), let u := advanceTo now s;
      let past := pastCommit .reader u = true ∧ holds (.ctx x) .reader u = true; u.rdr.inv[x] = some i ∧ durOver i u = true ∧ (i.stage = .over ∨ past) ∧ i.stage = .over) ∧
    (∃ (x : Tenant) (now : Tick) (s : State) (i : Inv), let u := advanceTo now s;
      let past := pastCommit .reader u = true ∧ holds (.ctx x) .reader u = true; u.rdr.inv[x] = some i ∧ durOver i u = true ∧ (i.stage = .over ∨ past) ∧ past) ∧
    (∃ (x : Tenant) (now : Tick) (till : Tick) (s : State) (i : Inv), let u := advanceTo now s; u.rdr.inv[x] = some i ∧ i.stage = .regionWait till ∧
      reached u.reel.cnt till = true ∧ i.args.region = 0) ∧
    (∃ (x : Tenant) (now : Tick) (till : Tick) (s : State) (i : Inv), let u := advanceTo now s; u.rdr.inv[x] = some i ∧ i.stage = .regionWait till ∧
      reached u.reel.cnt till = true ∧ i.args.region = 1) ∧
    (∃ (x : Tenant) (now : Tick) (till : Tick) (s : State) (a : Acc), let u := advanceTo now s; reached u.reel.cnt till = true ∧ u.rdr.inv[x] = none ∧
      u.rdr.acc[x] = some a ∧ a.stage = .regionWait till ∧ a.args.region = 0) ∧
    (∃ (x : Tenant) (now : Tick) (till : Tick) (s : State) (a : Acc), let u := advanceTo now s; reached u.reel.cnt till = true ∧ u.rdr.inv[x] = none ∧
      u.rdr.acc[x] = some a ∧ a.stage = .regionWait till ∧ a.args.region = 1) ∧
    (∃ (now : Tick) (s : State) (n : Sniff), let u := advanceTo now s; let v := dropWaiters (.sniff n.owner) u;
      let auto := match u.rdr.inv[n.owner] with
        | some i => i.tseq == n.tseq && holds (.ctx n.owner) .reader u
        | none => false
      u.power.mode = .run ∧ u.rdr.sniff = some n ∧ reached u.reel.cnt n.due = true ∧ (auto = true ∨ (sniffDown v).isSome = true ∨ holds (.sniff n.owner) .reader v = true) ∧ auto = true) ∧
    (∃ (now : Tick) (s : State) (n : Sniff), let u := advanceTo now s; let v := dropWaiters (.sniff n.owner) u;
      let auto := match u.rdr.inv[n.owner] with
        | some i => i.tseq == n.tseq && holds (.ctx n.owner) .reader u
        | none => false
      u.power.mode = .run ∧ u.rdr.sniff = some n ∧ reached u.reel.cnt n.due = true ∧ (auto = true ∨ (sniffDown v).isSome = true ∨ holds (.sniff n.owner) .reader v = true) ∧ (sniffDown v).isSome = true) ∧
    (∃ (now : Tick) (s : State) (n : Sniff), let u := advanceTo now s; let v := dropWaiters (.sniff n.owner) u;
      let auto := match u.rdr.inv[n.owner] with
        | some i => i.tseq == n.tseq && holds (.ctx n.owner) .reader u
        | none => false
      u.power.mode = .run ∧ u.rdr.sniff = some n ∧ reached u.reel.cnt n.due = true ∧ (auto = true ∨ (sniffDown v).isSome = true ∨ holds (.sniff n.owner) .reader v = true) ∧ holds (.sniff n.owner) .reader v = true) ∧
    (∃ (now : Tick) (s : State) (n : Sniff), let u := advanceTo now s; let v := dropWaiters (.sniff n.owner) u;
      let auto := match u.rdr.inv[n.owner] with
        | some i => i.tseq == n.tseq && holds (.ctx n.owner) .reader u
        | none => false
      u.power.mode = .run ∧ u.rdr.sniff = some n ∧ reached u.reel.cnt n.due = true ∧ auto = false ∧ sniffDown v = none ∧ holds (.sniff n.owner) .reader v = false) ∧
    (∃ (now : Tick) (s : State), let u := advanceTo now s; paenHigh u = true) ∧
    (∃ (s : State), s.rdr.carrier.isSome = true) ∧
    (∃ (s : State), s.power.mode = .run) ∧
    (∃ (s : State), s.rdr.carrier.isSome = true ∧ coreState .link s = .rx) ∧
    (∃ (s : State), s.rdr.carrier.isSome = true ∧
      (∀ h x, s.radio.rHold = some h → h.req.who = .ctx x → (∀ i, s.rdr.inv[x] = some i → i.stage ≠ .settle) ∧
        (∀ a, s.rdr.acc[x] = some a → a.stage ≠ .settle)) ∧ s.radio.rHold.isSome = true) ∧
    (∃ (s : State) (h : Hold) (x : Tenant) (i : Inv), s.rdr.carrier.isSome = true ∧ s.radio.rHold = some h ∧ h.req.who = .ctx x ∧ s.rdr.inv[x] = some i ∧ i.stage = .settle) ∧
    (∃ (s : State) (h : Hold) (x : Tenant) (a : Acc), s.rdr.carrier.isSome = true ∧ s.radio.rHold = some h ∧ h.req.who = .ctx x ∧ s.rdr.inv[x] = none ∧ s.rdr.acc[x] = some a ∧ a.stage = .settle) ∧
    (∃ (now : Tick) (dbm : Int) (s : State), let u := advanceTo now s; 96000 ≤ ticksBetween u.rdr.gainAt u.reel.cnt ∧ -40 + 6 * (u.rdr.gain : Int) < dbm ∧ u.rdr.gain < 7) ∧
    (∃ (now : Tick) (dbm : Int) (s : State), let u := advanceTo now s; 96000 ≤ ticksBetween u.rdr.gainAt u.reel.cnt ∧ dbm < -49 + 6 * (u.rdr.gain : Int) ∧ 0 < u.rdr.gain) := by
  refine ⟨?_, ?_, ?_, ?_, ?_, ?_, ?_, ?_, ?_, ?_, ?_, ?_, ?_, ?_, ?_, ?_, ?_, ?_, ?_, ?_, ?_, ?_⟩
  · exact ⟨0, 100, (setRdr (fun r => { r with inv := r.inv.set 0 (some { inv0 with stage := .over }) }) (run0)), ({ inv0 with stage := .over }),
      by dsimp only; decide +kernel⟩
  · exact ⟨0, 100, (setRdr (fun r => { r with inv := r.inv.set 0 (some { inv0 with stage := .over, withdrawn := true }) }) (run0)), { inv0 with stage := .over, withdrawn := true }, by dsimp only; decide +kernel⟩
  · exact ⟨0, 24000, (setRdr (fun r => { r with inv := r.inv.set 0 (some { inv0 with args := { invArgs0 with dur := 1 }, from_ := some 0 }) }) (run0)), { inv0 with args := { invArgs0 with dur := 1 }, from_ := some 0 }, by dsimp only; decide +kernel⟩
  · exact ⟨0, 24000, (setRdr (fun r => { r with inv := r.inv.set 0 (some { inv0 with args := { invArgs0 with dur := 1 }, from_ := some 0, stage := .over }) }) (run0)), { inv0 with args := { invArgs0 with dur := 1 }, from_ := some 0, stage := .over }, by dsimp only; decide +kernel⟩
  · exact ⟨0, 24000, (setRdr (fun r => { r with inv := r.inv.set 0 (some { inv0 with args := { invArgs0 with dur := 1 }, from_ := some 0 }) }) (setRadio (fun r => { r with rHold := some { hold .reader (.ctx 0) with commit := some 0 } }) run0)), { inv0 with args := { invArgs0 with dur := 1 }, from_ := some 0 }, by dsimp only; decide +kernel⟩
  · exact ⟨0, 100, 50, (setRdr (fun r => { r with inv := r.inv.set 0 (some { inv0 with stage := .regionWait 50, args := { invArgs0 with region := 0 } }) }) (run0)), ({ inv0 with stage := .regionWait 50, args := { invArgs0 with region := 0 } }),
      by dsimp only; decide +kernel⟩
  · exact ⟨0, 100, 50, (setRdr (fun r => { r with inv := r.inv.set 0 (some { inv0 with stage := .regionWait 50, args := { invArgs0 with region := 1 } }) }) (run0)), ({ inv0 with stage := .regionWait 50, args := { invArgs0 with region := 1 } }),
      by dsimp only; decide +kernel⟩
  · exact ⟨0, 50, 50, setAcc 0 (some { acc0 (.farz 0) .select with stage := .regionWait 50, args := { invArgs0 with region := 0 } }) run0, { acc0 (.farz 0) .select with stage := .regionWait 50, args := { invArgs0 with region := 0 } }, by dsimp only; decide +kernel⟩
  · exact ⟨0, 50, 50, setAcc 0 (some { acc0 (.farz 0) .select with stage := .regionWait 50, args := { invArgs0 with region := 1 } }) run0, { acc0 (.farz 0) .select with stage := .regionWait 50, args := { invArgs0 with region := 1 } }, by dsimp only; decide +kernel⟩
  · exact ⟨100, (setRdr (fun r => { r with inv := r.inv.set 0 (some inv0) }) (setRdr (fun r => { r with sniff := some sniff0 }) (airR (.ctx 0) run0))), sniff0, by dsimp only; decide +kernel⟩
  · exact ⟨100, (setRdr (fun r => { r with sniff := some sniff0 }) (setPower (fun p => { p with vpaLow := true }) run0)), sniff0, by dsimp only; decide +kernel⟩
  · exact ⟨100, (setRdr (fun r => { r with sniff := some sniff0 }) (airR (.sniff 0) run0)), sniff0, by dsimp only; decide +kernel⟩
  · exact ⟨100, (setRdr (fun r => { r with sniff := some sniff0 }) (run0)), sniff0, by dsimp only; decide +kernel⟩
  · exact ⟨100, (setRdr (fun r => { r with paen := some (0, none) }) (run0)), by dsimp only; decide +kernel⟩
  · exact ⟨(setRdr (fun r => { r with carrier := some 0 }) (run0)), by decide +kernel⟩
  · exact ⟨run0, by decide +kernel⟩
  · exact ⟨setRadio (fun r => { r with lState := .rx }) (setRdr (fun r => { r with carrier := some 0 }) run0), by decide +kernel⟩
  · exact ⟨airR .beacon (setRdr (fun r => { r with carrier := some 0 }) run0), by decide +kernel,
      (fun h x e w => by cases e; cases w), by decide +kernel⟩
  · exact ⟨setInv 0 (some { inv0 with stage := .settle }) (airR (.ctx 0) (setRdr (fun r => { r with carrier := some 0 }) run0)), hold .reader (.ctx 0), 0, { inv0 with stage := .settle }, by decide +kernel⟩
  · exact ⟨setAcc 0 (some { acc0 (.farz 0) .select with stage := .settle }) (airR (.ctx 0) (setRdr (fun r => { r with carrier := some 0 }) run0)), hold .reader (.ctx 0), 0, { acc0 (.farz 0) .select with stage := .settle }, by decide +kernel⟩
  · exact ⟨96000, 3, (setRdr (fun r => { r with gain := 6 }) (run0)), by dsimp only; decide +kernel⟩
  · exact ⟨96000, (-44), (setRdr (fun r => { r with gain := 1 }) (run0)), by dsimp only; decide +kernel⟩

/-- The conditions of `Obligations.LinkReceptionComplete` are met. -/
theorem witness_LinkReceptionComplete :
    (∃ (found : List (Fin 6 × Nat)) (now : Tick) (s : State) (d : Fin 6 × Nat), let u := advanceTo now s; let c := calResult .link u;
      coreState .link u = .rx ∧ u.link.demod = false ∧ d ∈ found ∧ bit (searchLanes u) d.1.val = true ∧ c.1 = (drawBool u).1) ∧
    (∃ (found : List (Fin 6 × Nat)) (now : Tick) (s : State) (d : Fin 6 × Nat), let u := advanceTo now s; let c := calResult .link u;
      coreState .link u = .rx ∧ u.link.demod = false ∧ d ∈ found ∧ bit (searchLanes u) d.1.val = true ∧ c.1 = false) ∧
    (∃ (a b : Nat) (s : State), s.link.demod = true ∧ s.link.measuring = true ∧ b ≤ a ∧ a ≠ b) ∧
    (∃ (a b : Nat) (s : State), s.link.demod = true ∧ s.link.measuring = true ∧ a < b) ∧
    (∃ (a b : Nat) (s : State), s.link.demod = true ∧ s.link.measuring = true ∧ a = b) ∧
    (∃ (now : Tick) (s : State), let u := advanceTo now s; u.link.demod = true ∧ u.link.afterSfd = false ∧ u.link.lane = 5 ∧
      reached u.reel.cnt (u.link.detAt + BitVec.ofNat 48 (if u.link.lane = 5 then 3840
        else 48 * sfChips u.link.lane.val * chipTicks (rxSlow u))) = true) ∧
    (∃ (now : Tick) (s : State), let u := advanceTo now s; u.link.demod = true ∧ u.link.afterSfd = false ∧ u.link.lane = 0 ∧
      reached u.reel.cnt (u.link.detAt + BitVec.ofNat 48 (if u.link.lane = 5 then 3840
        else 48 * sfChips u.link.lane.val * chipTicks (rxSlow u))) = true) ∧
    (∃ (len hcs : Byte) (asksAck : Bool) (s : State), s.link.demod = true ∧ s.link.afterSfd = false ∧
      let good := if s.link.lane = 5 then len.toNat % 128 ≠ 0 else len ≠ 0 ∧ hcs.toNat = hcsOf len.toNat
      s.link.lane = 5 ∧ good) ∧
    (∃ (len hcs : Byte) (asksAck : Bool) (s : State), s.link.demod = true ∧ s.link.afterSfd = false ∧
      let good := if s.link.lane = 5 then len.toNat % 128 ≠ 0 else len ≠ 0 ∧ hcs.toNat = hcsOf len.toNat
      s.link.lane = 4 ∧ good) ∧
    (∃ (len hcs : Byte) (asksAck : Bool) (s : State), s.link.demod = true ∧ s.link.afterSfd = false ∧
      let good := if s.link.lane = 5 then len.toNat % 128 ≠ 0 else len ≠ 0 ∧ hcs.toNat = hcsOf len.toNat
      s.link.lane = 5 ∧ ¬ good) ∧
    (∃ (len hcs : Byte) (asksAck : Bool) (s : State), s.link.demod = true ∧ s.link.afterSfd = false ∧
      let good := if s.link.lane = 5 then len.toNat % 128 ≠ 0 else len ≠ 0 ∧ hcs.toNat = hcsOf len.toNat
      s.link.lane = 4 ∧ ¬ good) ∧
    (∃ (len hcs : Byte) (asksAck : Bool) (s : State), s.link.demod = true ∧ s.link.afterSfd = false ∧
      let good := if s.link.lane = 5 then len.toNat % 128 ≠ 0 else len ≠ 0 ∧ hcs.toNat = hcsOf len.toNat
      s.link.lane = 4 ∧ ¬ good) ∧
    (∃ (f g : RxFrame) (now : Tick) (s : State), let u := advanceTo now s; coreState .link u = .rx ∧ bit (searchLanes u) f.lane.val = true ∧
      (holds .listen .link u = true ∨ u.link.step = .ackWait) ∧ 1 ≤ f.psdu.length ∧ f.psdu.length ≤ (if f.lane = 5 then 127 else 255) ∧
      g = rssiReported f) ∧
    (∃ (f g : RxFrame) (now : Tick) (s : State), let u := advanceTo now s; coreState .link u = .rx ∧ bit (searchLanes u) f.lane.val = true ∧
      (holds .listen .link u = true ∨ u.link.step = .ackWait) ∧ 1 ≤ f.psdu.length ∧ f.psdu.length ≤ (if f.lane = 5 then 127 else 255) ∧
      g = rssiReported f) ∧
    (∃ (f g : RxFrame) (now : Tick) (s : State), let u := advanceTo now s; coreState .link u = .rx ∧ bit (searchLanes u) f.lane.val = true ∧
      (holds .listen .link u = true ∨ u.link.step = .ackWait) ∧ 1 ≤ f.psdu.length ∧ f.psdu.length ≤ (if f.lane = 5 then 127 else 255) ∧
      g = rssiReported f ∧ fcsGood g = true ∧ holds .listen .link u = true) ∧
    (∃ (f g : RxFrame) (now : Tick) (s : State), let u := advanceTo now s; coreState .link u = .rx ∧ bit (searchLanes u) f.lane.val = true ∧
      (holds .listen .link u = true ∨ u.link.step = .ackWait) ∧ 1 ≤ f.psdu.length ∧ f.psdu.length ≤ (if f.lane = 5 then 127 else 255) ∧
      g = rssiReported f ∧ u.link.step = .ackWait) ∧
    (∃ (f : RxFrame) (u : State), (rawAck f).1 = true ∧ (rawAck f).2.1 = u.link.addr ∧ f.lane = 0) ∧
    (∃ (f : RxFrame) (u : State), (rawAck f).1 = true ∧ (rawAck f).2.1 = u.link.addr ∧ f.lane = 5) ∧
    (∃ (f : RxFrame) (u : State), parseMac u.link.pan f.lane f.psdu = none ∧ f.lane = 0) ∧
    (∃ (f : RxFrame) (u : State), parseMac u.link.pan f.lane f.psdu = none ∧ f.lane = 5) ∧
    (∃ (f : RxFrame) (u : State) (m : MacFrame), parseMac u.link.pan f.lane f.psdu = some m ∧ (m.ftype = 1 ∨ (m.dst ≠ u.link.addr ∧ m.dst ≠ 0xFFFF)) ∧ m.ftype = 1) ∧
    (∃ (f : RxFrame) (u : State) (m : MacFrame), parseMac u.link.pan f.lane f.psdu = some m ∧ (m.ftype = 1 ∨ (m.dst ≠ u.link.addr ∧ m.dst ≠ 0xFFFF)) ∧ m.dst ≠ u.link.addr ∧ m.dst ≠ 0xFFFF) ∧
    (∃ (f : RxFrame) (u : State) (m : MacFrame) (d : Drop), parseMac u.link.pan f.lane f.psdu = some m ∧ m.ftype ≠ 1 ∧ (m.dst = u.link.addr ∨ m.dst = 0xFFFF) ∧ secCheck m (beaconLike m) u = .error d) ∧
    (∃ (f : RxFrame) (u : State) (m : MacFrame) (p : Bytes), parseMac u.link.pan f.lane f.psdu = some m ∧ m.ftype ≠ 1 ∧ (m.dst = u.link.addr ∨ m.dst = 0xFFFF) ∧ m.smode = false ∧ m.ftype = 0 ∧ secCheck m false u = .ok p ∧ m.dst = u.link.addr) ∧
    (∃ (f : RxFrame) (u : State) (m : MacFrame) (p : Bytes), parseMac u.link.pan f.lane f.psdu = some m ∧ m.ftype ≠ 1 ∧ (m.dst = u.link.addr ∨ m.dst = 0xFFFF) ∧ m.smode = false ∧ m.ftype = 0 ∧ secCheck m false u = .ok p ∧ m.dst = 0xFFFF) ∧
    (∃ (f : RxFrame) (m : MacFrame) (p : Bytes) (t : Tenant) (u : State), m.smode = false ∧ t.val = m.dten ∧ isDup m u = false ∧
      findBuf 4 u ≠ none ∧ (u.tens[t].outQ.filter Out.isOrdinary).length < 63) ∧
    (∃ (x : Tenant) (now : Tick) (s : State) (l : Listen), let u := advanceTo now s; u.link.listens[x] = some l ∧ listenOver l u = true ∧ listenBusy u = false) ∧
    (∃ (now : Tick) (s : State), let u := advanceTo now s; u.power.mode = .run ∧ u.link.nbrs.any (fun n => decide (4 ≤ nbrMissed n u)) = true) := by
  refine ⟨?_, ?_, ?_, ?_, ?_, ?_, ?_, ?_, ?_, ?_, ?_, ?_, ?_, ?_, ?_, ?_, ?_, ?_, ?_, ?_, ?_, ?_, ?_, ?_, ?_, ?_, ?_, ?_⟩
  · exact ⟨[(0, 1), (5, 1)], 100, setRadio (fun r => { r with lState := .rx, calL := true }) (airL .listen run0), (5, 1), by dsimp only; refine ⟨by decide +kernel, by decide +kernel, by decide +kernel, by decide +kernel, rfl⟩⟩
  · exact ⟨[(0, 1), (5, 1)], 100, setRadio (fun r => { r with lState := .rx }) (airL .listen run0), (5, 1), by dsimp only; decide +kernel⟩
  · exact ⟨1, 0, setLink (fun l => { l with demod := true, measuring := true }) run0, by decide +kernel⟩
  · exact ⟨0, 1, setLink (fun l => { l with demod := true, measuring := true }) run0, by decide +kernel⟩
  · exact ⟨1, 1, setLink (fun l => { l with demod := true, measuring := true }) run0, by decide +kernel⟩
  · exact ⟨3840, setLink (fun l => { l with demod := true, lane := 5, detAt := 0 }) run0, by dsimp only; decide +kernel⟩
  · exact ⟨9216, setLink (fun l => { l with demod := true, lane := 0, detAt := 0 }) run0, by dsimp only; decide +kernel⟩
  · exact ⟨0x7F, 0, true, setLink (fun l => { l with demod := true, lane := 5 }) run0, by decide +kernel⟩
  · exact ⟨0xFF, BitVec.ofNat 8 (hcsOf 255), true, setLink (fun l => { l with demod := true, lane := 4 }) run0, by decide +kernel⟩
  · exact ⟨0x80, 0, true, setLink (fun l => { l with demod := true, lane := 5 }) run0, by decide +kernel⟩
  · exact ⟨0xFF, BitVec.ofNat 8 (hcsOf 254), true, setLink (fun l => { l with demod := true, lane := 4 }) run0, by decide +kernel⟩
  · exact ⟨0, BitVec.ofNat 8 (hcsOf 0), true, setLink (fun l => { l with demod := true, lane := 4 }) run0, by decide +kernel⟩
  · exact ⟨{ lane := 5, sfd := 0, psdu := List.replicate 127 0, rssi := 0, evm := 0, lkb := false }, rssiReported { lane := 5, sfd := 0, psdu := List.replicate 127 0, rssi := 0, evm := 0, lkb := false }, 100, setRadio (fun r => { r with lState := .rx }) (airL .listen run0), by dsimp only; decide +kernel⟩
  · exact ⟨{ lane := 4, sfd := 0, psdu := List.replicate 255 0, rssi := 0, evm := 0, lkb := false }, rssiReported { lane := 4, sfd := 0, psdu := List.replicate 255 0, rssi := 0, evm := 0, lkb := false }, 100, setRadio (fun r => { r with lState := .rx }) (airL .listen run0), by dsimp only; decide +kernel⟩
  · exact ⟨{ lane := 0, sfd := 0, psdu := (withFcs [8, 0, 0, 0, 1, 0]), rssi := 0, evm := 0, lkb := false }, rssiReported { lane := 0, sfd := 0, psdu := (withFcs [8, 0, 0, 0, 1, 0]), rssi := 0, evm := 0, lkb := false }, 100, setRadio (fun r => { r with lState := .rx }) (airL .listen run0), by dsimp only; decide +kernel⟩
  · exact ⟨{ lane := 5, sfd := 0, psdu := [0], rssi := 0, evm := 0, lkb := false }, rssiReported { lane := 5, sfd := 0, psdu := [0], rssi := 0, evm := 0, lkb := false }, 100, setLink (fun l => { l with step := .ackWait, sends := [{ send0 with lane := 5 }] }) (setRadio (fun r => { r with lState := .rx }) (airL (.send 0 0) run0)), by dsimp only; decide +kernel⟩
  · exact ⟨{ lane := 0, sfd := 0, psdu := (withFcs [8, 0, 0, 0, 1, 0]), rssi := 0, evm := 0, lkb := false }, setLink (fun l => { l with addr := 0 }) run0, by decide +kernel⟩
  · exact ⟨{ lane := 5, sfd := 0, psdu := (withFcs [0x61, 0x88, 0, 0, 0, 0, 0, 1, 0]), rssi := 0, evm := 0, lkb := false }, setLink (fun l => { l with addr := 0 }) run0, by decide +kernel⟩
  · exact ⟨{ lane := 0, sfd := 0, psdu := [0], rssi := 0, evm := 0, lkb := false }, run0, by decide +kernel⟩
  · exact ⟨{ lane := 5, sfd := 0, psdu := [0], rssi := 0, evm := 0, lkb := false }, run0, by decide +kernel⟩
  · exact ⟨{ lane := 0, sfd := 0, psdu := (withFcs [1, 0, 0, 0, 1, 0]), rssi := 0, evm := 0, lkb := false }, run0, { smode := false, ftype := 1, dten := 0, ar := false, sec := false, mseq := 0, dst := 0, src := 1, fcnt := 0, ksel := 0, hdr := [1, 0, 0, 0, 1, 0], body := [] }, by decide +kernel⟩
  · exact ⟨{ lane := 0, sfd := 0, psdu := (withFcs [0, 0, 2, 0, 1, 0]), rssi := 0, evm := 0, lkb := false }, run0, { smode := false, ftype := 0, dten := 0, ar := false, sec := false, mseq := 0, dst := 2, src := 1, fcnt := 0, ksel := 0, hdr := [0, 0, 2, 0, 1, 0], body := [] }, by decide +kernel⟩
  · exact ⟨{ lane := 0, sfd := 0, psdu := ([4, 0, 0, 0, 1, 0, 0, 0, 0, 0, 0] ++ List.replicate 10 0), rssi := 0, evm := 0, lkb := false }, setLink (fun l => { l with addr := 0 }) run0, { smode := false, ftype := 0, dten := 0, ar := false, sec := true, mseq := 0, dst := 0, src := 1, fcnt := 0, ksel := 0, hdr := [4, 0, 0, 0, 1, 0, 0, 0, 0, 0, 0], body := List.replicate 8 0 }, .nokey, by decide +kernel⟩
  · exact ⟨{ lane := 0, sfd := 0, psdu := withFcs ([0, 0, 0, 0, 1, 0] ++ [7]), rssi := 0, evm := 0, lkb := false }, setLink (fun l => { l with addr := 0 }) run0, { smode := false, ftype := 0, dten := 0, ar := false, sec := false, mseq := 0, dst := 0, src := 1, fcnt := 0, ksel := 0, hdr := [0, 0, 0, 0, 1, 0], body := [7] }, [7], by decide +kernel⟩
  · exact ⟨{ lane := 0, sfd := 0, psdu := withFcs ([0, 0, 255, 255, 1, 0] ++ [7]), rssi := 0, evm := 0, lkb := false }, setLink (fun l => { l with addr := 0 }) run0, { smode := false, ftype := 0, dten := 0, ar := false, sec := false, mseq := 0, dst := 0xFFFF, src := 1, fcnt := 0, ksel := 0, hdr := [0, 0, 255, 255, 1, 0], body := [7] }, [7], by decide +kernel⟩
  · exact ⟨{ lane := 0, sfd := 0, psdu := (withFcs [8, 0, 0, 0, 1, 0]), rssi := 0, evm := 0, lkb := false }, { smode := false, ftype := 0, dten := 3, ar := false, sec := false, mseq := 0, dst := 0, src := 1, fcnt := 0, ksel := 0, hdr := [], body := [] }, [], 3, run0, by decide +kernel⟩
  · exact ⟨3, 24000, (setLink (fun l => { l with listens := l.listens.set 3 (some { listen0 with dur := 1, from_ := some 0 }) }) (run0)), ({ listen0 with dur := 1, from_ := some 0 }), by dsimp only; decide +kernel⟩
  · exact ⟨96000000, setLink (fun l => { l with nbrs := [{ nbr0 with bivl := 1 }] }) run0, by dsimp only; decide +kernel⟩

/-- The conditions of `Obligations.LinkTransmitEvents` are met. -/
theorem witness_LinkTransmitEvents :
    (∃ (now : Tick) (s : State) (e : Send) (r : List Send) (k : Nat), let u := advanceTo now s;
      let v := match drbgTake 1 u with | some (_, w) => w | none => u
      let c := calResult .link v
      u.link.sends = e :: r ∧ u.link.step = .backoff ∧ k < 2 ^ e.be ∧ ticksBetween u.link.timer u.reel.cnt = k * backoffUnit u ∧
      holds (sendWho e) .link u = true ∧ c.1 = (drawBool v).1) ∧
    (∃ (now : Tick) (s : State) (e : Send) (r : List Send) (k : Nat), let u := advanceTo now s;
      let v := match drbgTake 1 u with | some (_, w) => w | none => u
      let c := calResult .link v
      u.link.sends = e :: r ∧ u.link.step = .backoff ∧ k < 2 ^ e.be ∧ ticksBetween u.link.timer u.reel.cnt = k * backoffUnit u ∧
      holds (sendWho e) .link u = true ∧ c.1 = false ∧ dutyShort (frameTicks e.lane e.psdu.length c.2) c.2 = true) ∧
    (∃ (now : Tick) (s : State) (e : Send) (r : List Send) (k : Nat), let u := advanceTo now s;
      let v := match drbgTake 1 u with | some (_, w) => w | none => u
      let c := calResult .link v
      u.link.sends = e :: r ∧ u.link.step = .backoff ∧ k < 2 ^ e.be ∧ ticksBetween u.link.timer u.reel.cnt = k * backoffUnit u ∧
      holds (sendWho e) .link u = true ∧ c.1 = false ∧ dutyShort (frameTicks e.lane e.psdu.length c.2) c.2 = false) ∧
    (∃ (now : Tick) (dbm : Int) (s : State) (e : Send) (r : List Send), let u := advanceTo now s; u.link.sends = e :: r ∧ u.link.step = .cca ∧ reached
      u.reel.cnt (u.link.timer + 3072) = true ∧ dbm < ccaThr u.prof[linkHost u]) ∧
    (∃ (now : Tick) (dbm : Int) (s : State) (e : Send) (r : List Send), let u := advanceTo now s; u.link.sends = e :: r ∧ u.link.step = .cca ∧ reached
      u.reel.cnt (u.link.timer + 3072) = true ∧ ccaThr u.prof[linkHost u] ≤ dbm ∧ 4 ≤ e.nb) ∧
    (∃ (now : Tick) (dbm : Int) (s : State) (e : Send) (r : List Send), let u := advanceTo now s; u.link.sends = e :: r ∧ u.link.step = .cca ∧ reached
      u.reel.cnt (u.link.timer + 3072) = true ∧ ccaThr u.prof[linkHost u] ≤ dbm ∧ e.nb < 4) ∧
    (∃ (now : Tick) (s : State) (till : Tick), let u := advanceTo now s; u.link.ackEnd = some till ∧ reached u.reel.cnt till = true) ∧
    (∃ (now : Tick) (s : State) (e g : Send) (r : List Send) (n : Nat) (v : State), let u := advanceTo now s;
      u.link.ackEnd = none ∧ u.link.sends = e :: r ∧ u.link.step = .tx ∧ reached u.reel.cnt u.link.timer = true ∧
      n = frameTicks e.lane e.psdu.length u ∧
      g = { e with tries := e.tries + 1, tstart := u.link.timer - BitVec.ofNat 48 n, time := none } ∧
      v = dutyAdd g.tstart n (setCore .link .synth (setLink (fun l => { l with sends := g :: r }) u)) ∧ e.ar = true ∧ e.dst ≠ 0xFFFF ∧ e.ending ≠ some stAbortedReset) ∧
    (∃ (now : Tick) (s : State) (e g : Send) (r : List Send) (n : Nat) (v : State), let u := advanceTo now s;
      u.link.ackEnd = none ∧ u.link.sends = e :: r ∧ u.link.step = .tx ∧ reached u.reel.cnt u.link.timer = true ∧
      n = frameTicks e.lane e.psdu.length u ∧
      g = { e with tries := e.tries + 1, tstart := u.link.timer - BitVec.ofNat 48 n, time := none } ∧
      v = dutyAdd g.tstart n (setCore .link .synth (setLink (fun l => { l with sends := g :: r }) u)) ∧ ¬ (e.ar = true ∧ e.dst ≠ 0xFFFF ∧ e.ending ≠ some stAbortedReset) ∧ e.ar = false) ∧
    (∃ (now : Tick) (s : State) (e g : Send) (r : List Send) (n : Nat) (v : State), let u := advanceTo now s;
      u.link.ackEnd = none ∧ u.link.sends = e :: r ∧ u.link.step = .tx ∧ reached u.reel.cnt u.link.timer = true ∧
      n = frameTicks e.lane e.psdu.length u ∧
      g = { e with tries := e.tries + 1, tstart := u.link.timer - BitVec.ofNat 48 n, time := none } ∧
      v = dutyAdd g.tstart n (setCore .link .synth (setLink (fun l => { l with sends := g :: r }) u)) ∧ ¬ (e.ar = true ∧ e.dst ≠ 0xFFFF ∧ e.ending ≠ some stAbortedReset) ∧ e.dst = 0xFFFF) ∧
    (∃ (now : Tick) (s : State) (e g : Send) (r : List Send) (n : Nat) (v : State), let u := advanceTo now s;
      u.link.ackEnd = none ∧ u.link.sends = e :: r ∧ u.link.step = .tx ∧ reached u.reel.cnt u.link.timer = true ∧
      n = frameTicks e.lane e.psdu.length u ∧
      g = { e with tries := e.tries + 1, tstart := u.link.timer - BitVec.ofNat 48 n, time := none } ∧
      v = dutyAdd g.tstart n (setCore .link .synth (setLink (fun l => { l with sends := g :: r }) u)) ∧ ¬ (e.ar = true ∧ e.dst ≠ 0xFFFF ∧ e.ending ≠ some stAbortedReset) ∧ e.ending = some stAbortedReset) ∧
    (∃ (now : Tick) (f : RxFrame) (m : MacFrame) (s : State) (e : Send) (r : List Send), let u := advanceTo now s;
      u.link.sends = e :: r ∧ u.link.step = .ackWait ∧ f.lane = e.lane ∧ fcsGood f = true ∧
      parseMac u.link.pan f.lane f.psdu = some m ∧ m.ftype = 1 ∧ m.mseq = e.mseq ∧ (m.smode = true ∨ m.dst = u.link.addr) ∧
      reached u.link.timer (u.reel.cnt - BitVec.ofNat 48 (frameTicks f.lane f.psdu.length u) +
        BitVec.ofNat 48 (if f.lane = 5 then 1536 else 4 * sfChips f.lane.val * chipTicks (linkSlow u))) = true ∧ m.smode = false ∧ m.dst = u.link.addr) ∧
    (∃ (now : Tick) (f : RxFrame) (m : MacFrame) (s : State) (e : Send) (r : List Send), let u := advanceTo now s;
      u.link.sends = e :: r ∧ u.link.step = .ackWait ∧ f.lane = e.lane ∧ fcsGood f = true ∧
      parseMac u.link.pan f.lane f.psdu = some m ∧ m.ftype = 1 ∧ m.mseq = e.mseq ∧ (m.smode = true ∨ m.dst = u.link.addr) ∧
      reached u.link.timer (u.reel.cnt - BitVec.ofNat 48 (frameTicks f.lane f.psdu.length u) +
        BitVec.ofNat 48 (if f.lane = 5 then 1536 else 4 * sfChips f.lane.val * chipTicks (linkSlow u))) = true ∧ m.smode = true) ∧
    (∃ (now : Tick) (s : State) (e : Send) (r : List Send) (st : Byte), let u := advanceTo now s; u.link.sends = e :: r ∧ u.link.step = .ackWait ∧ reached
      u.reel.cnt u.link.timer = true ∧ u.link.demod = false ∧ u.link.ackEnd = none ∧ e.ending = some st) ∧
    (∃ (now : Tick) (s : State) (e : Send) (r : List Send), let u := advanceTo now s; u.link.sends = e :: r ∧ u.link.step = .ackWait ∧ reached
      u.reel.cnt u.link.timer = true ∧ u.link.demod = false ∧ u.link.ackEnd = none ∧ e.ending = none ∧ 4 ≤ e.tries) ∧
    (∃ (now : Tick) (s : State) (e : Send) (r : List Send), let u := advanceTo now s; u.link.sends = e :: r ∧ u.link.step = .ackWait ∧ reached
      u.reel.cnt u.link.timer = true ∧ u.link.demod = false ∧ u.link.ackEnd = none ∧ e.ending = none ∧ e.tries < 4) ∧
    (∃ (now at_ : Tick) (psdu : Bytes) (lane : Fin 6) (lkb : Bool) (s : State), let u := advanceTo now s;
      u.link.ackDue = some (at_, psdu, lane, lkb) ∧ u.link.ackEnd = none ∧ u.radio.lHold.isSome = true ∧
      reached u.reel.cnt at_ = true ∧ u.radio.gnt = true ∧ leadTick u u.reel.cnt = u.reel.cnt ∧ psdu.length ≤ 255 ∧ u.link.region ≠ 1) ∧
    (∃ (now at_ : Tick) (psdu : Bytes) (lane : Fin 6) (lkb : Bool) (s : State), let u := advanceTo now s;
      u.link.ackDue = some (at_, psdu, lane, lkb) ∧ u.link.ackEnd = none ∧ u.radio.lHold.isSome = true ∧
      reached u.reel.cnt at_ = true ∧ u.radio.gnt = true ∧ leadTick u u.reel.cnt = u.reel.cnt ∧ psdu.length ≤ 255 ∧ u.link.region = 1 ∧ dutyUsed u < dutyBudget u) ∧
    (∃ (now at_ : Tick) (psdu : Bytes) (lane : Fin 6) (lkb : Bool) (s : State), let u := advanceTo now s;
      u.link.ackDue = some (at_, psdu, lane, lkb) ∧ u.link.ackEnd = none ∧ u.radio.lHold.isSome = true ∧
      reached u.reel.cnt at_ = true ∧ u.radio.gnt = true ∧ leadTick u u.reel.cnt = u.reel.cnt ∧ psdu.length ≤ 255 ∧ u.link.region = 1 ∧ dutyBudget u ≤ dutyUsed u) ∧
    (∃ (now : Tick) (s : State) (e : Send), let u := advanceTo now s; u.link.sends.find?
      (fun e => match e.time with | some t => reached u.reel.cnt t && !sendActive e u | none => false) = some e ∧ holds (sendWho e) .link u = true) ∧
    (∃ (now : Tick) (s : State) (e : Send), let u := advanceTo now s; u.link.sends.find?
      (fun e => match e.time with | some t => reached u.reel.cnt t && !sendActive e u | none => false) = some e ∧ holds (sendWho e) .link u = false) ∧
    (∃ (e : Send) (u : State), let c := calResult .link u;
      let may := holds (sendWho e) .link u = true ∧ u.radio.gnt = true ∧ leadTick u u.reel.cnt = u.reel.cnt ∧
        dutyShort (frameTicks e.lane e.psdu.length u) u = false
      may ∧ c.1 = false) ∧
    (∃ (e : Send) (u : State), let c := calResult .link u;
      let may := holds (sendWho e) .link u = true ∧ u.radio.gnt = true ∧ leadTick u u.reel.cnt = u.reel.cnt ∧
        dutyShort (frameTicks e.lane e.psdu.length u) u = false
      may ∧ c.1 = (drawBool u).1) ∧
    (∃ (e : Send) (u : State), let c := calResult .link u;
      let may := holds (sendWho e) .link u = true ∧ u.radio.gnt = true ∧ leadTick u u.reel.cnt = u.reel.cnt ∧
        dutyShort (frameTicks e.lane e.psdu.length u) u = false
      ¬ may ∧ u.radio.gnt = false) ∧
    (∃ (e : Send) (u : State), let c := calResult .link u;
      let may := holds (sendWho e) .link u = true ∧ u.radio.gnt = true ∧ leadTick u u.reel.cnt = u.reel.cnt ∧
        dutyShort (frameTicks e.lane e.psdu.length u) u = false
      ¬ may ∧ holds (sendWho e) .link u = false) ∧
    (∃ (now start at_ : Tick) (s : State) (v : State), let u := advanceTo now s; u.link.beaconAt = some (start, at_) ∧ u.power.mode = .run ∧
      u.link.beacon ≠ 0 ∧ reached u.reel.cnt at_ = true ∧ v = beaconPlan (start + BitVec.ofNat 48 (beaconIvl u * 24000000)) u ∧
      (noSyn v = true ∨ ∃ e ∈ v.link.sends, e.owner = none) ∧ noSyn v = true) ∧
    (∃ (now start at_ : Tick) (s : State) (v : State), let u := advanceTo now s; u.link.beaconAt = some (start, at_) ∧ u.power.mode = .run ∧
      u.link.beacon ≠ 0 ∧ reached u.reel.cnt at_ = true ∧ v = beaconPlan (start + BitVec.ofNat 48 (beaconIvl u * 24000000)) u ∧
      (noSyn v = true ∨ ∃ e ∈ v.link.sends, e.owner = none) ∧ ∃ e ∈ v.link.sends, e.owner = none) ∧
    (∃ (now start at_ : Tick) (s : State) (v : State), let u := advanceTo now s; u.link.beaconAt = some (start, at_) ∧ u.power.mode = .run ∧
      u.link.beacon ≠ 0 ∧ reached u.reel.cnt at_ = true ∧ v = beaconPlan (start + BitVec.ofNat 48 (beaconIvl u * 24000000)) u ∧
      noSyn v = false ∧ (∀ e ∈ v.link.sends, e.owner ≠ none) ∧ slotNo (bits v.link.maccfg 13 8) = none ∧ v.link.rate ≠ 2) ∧
    (∃ (now start at_ : Tick) (s : State) (v : State), let u := advanceTo now s; u.link.beaconAt = some (start, at_) ∧ u.power.mode = .run ∧
      u.link.beacon ≠ 0 ∧ reached u.reel.cnt at_ = true ∧ v = beaconPlan (start + BitVec.ofNat 48 (beaconIvl u * 24000000)) u ∧
      noSyn v = false ∧ (∀ e ∈ v.link.sends, e.owner ≠ none) ∧ slotNo (bits v.link.maccfg 13 8) = none ∧ v.link.rate = 2) ∧
    (∃ (now start at_ : Tick) (s : State) (v : State) (k : Fin 48) (key : Bytes) (f : Nat) (w : State), let u := advanceTo now s; u.link.beaconAt = some (start, at_) ∧ u.power.mode = .run ∧
      u.link.beacon ≠ 0 ∧ reached u.reel.cnt at_ = true ∧ v = beaconPlan (start + BitVec.ofNat 48 (beaconIvl u * 24000000)) u ∧
      noSyn v = false ∧ (∀ e ∈ v.link.sends, e.owner ≠ none) ∧ slotNo (bits v.link.maccfg 13 8) = some k ∧ beaconKey k v = some (key, f, w)) ∧
    (∃ (now start at_ : Tick) (s : State) (v : State) (k : Fin 48), let u := advanceTo now s; u.link.beaconAt = some (start, at_) ∧ u.power.mode = .run ∧
      u.link.beacon ≠ 0 ∧ reached u.reel.cnt at_ = true ∧ v = beaconPlan (start + BitVec.ofNat 48 (beaconIvl u * 24000000)) u ∧
      noSyn v = false ∧ (∀ e ∈ v.link.sends, e.owner ≠ none) ∧ slotNo (bits v.link.maccfg 13 8) = some k ∧ beaconKey k v = none) := by
  refine ⟨?_, ?_, ?_, ?_, ?_, ?_, ?_, ?_, ?_, ?_, ?_, ?_, ?_, ?_, ?_, ?_, ?_, ?_, ?_, ?_, ?_, ?_, ?_, ?_, ?_, ?_, ?_, ?_, ?_, ?_, ?_⟩
  · exact ⟨53760, setRadio (fun r => { r with calL := true }) (airL (.send 0 5) (setLink (fun l => { l with sends := [{ send0 with be := 3 }], step := .backoff, timer := 0 }) (run0))), { send0 with be := 3 }, [], 7, by dsimp only; refine ⟨?_, ?_, ?_, ?_, ?_, rfl⟩ <;> decide +kernel⟩
  · exact ⟨53760, setRadio (fun r => { r with calL := false }) (airL (.send 0 5) (setLink (fun l => { l with sends := [{ send0 with be := 3 }], step := .backoff, timer := 0, region := 1, freq := 1200, duty := [(0, 10000000000)] }) (run0))), { send0 with be := 3 }, [], 7, by dsimp only; refine ⟨?_, ?_, ?_, ?_, ?_, ?_, ?_⟩ <;> decide +kernel⟩
  · exact ⟨100, setRadio (fun r => { r with calL := false }) (airL (.send 0 5) (setLink (fun l => { l with sends := [send0], step := .backoff, timer := 100 }) (run0))), send0, [], 0, by dsimp only; refine ⟨?_, ?_, ?_, ?_, ?_, ?_, ?_⟩ <;> decide +kernel⟩
  · exact ⟨3072, (-86), setLink (fun l => { l with sends := [{ send0 with nb := 0 }], step := .cca }) (run0), { send0 with nb := 0 }, [], by dsimp only; decide +kernel⟩
  · exact ⟨3072, (-85), setLink (fun l => { l with sends := [{ send0 with nb := 4 }], step := .cca }) (run0), { send0 with nb := 4 }, [], by dsimp only; decide +kernel⟩
  · exact ⟨3072, (-85), setLink (fun l => { l with sends := [{ send0 with nb := 3 }], step := .cca }) (run0), { send0 with nb := 3 }, [], by dsimp only; decide +kernel⟩
  · exact ⟨100, setLink (fun l => { l with ackEnd := some 100 }) (run0), 100, by dsimp only; decide +kernel⟩
  · exact ⟨100, setLink (fun l => { l with sends := [send0], step := .tx, timer := 100 }) (run0), send0, _, [], _, _, by dsimp only; refine ⟨?_, ?_, ?_, ?_, rfl, rfl, rfl, ?_⟩ <;> decide +kernel⟩
  · exact ⟨100, setLink (fun l => { l with sends := [{ send0 with ar := false }], step := .tx, timer := 100 }) (run0), { send0 with ar := false }, _, [], _, _, by dsimp only; refine ⟨?_, ?_, ?_, ?_, rfl, rfl, rfl, ?_⟩ <;> decide +kernel⟩
  · exact ⟨100, setLink (fun l => { l with sends := [{ send0 with dst := 0xFFFF }], step := .tx, timer := 100 }) (run0), { send0 with dst := 0xFFFF }, _, [], _, _, by dsimp only; refine ⟨?_, ?_, ?_, ?_, rfl, rfl, rfl, ?_⟩ <;> decide +kernel⟩
  · exact ⟨100, setLink (fun l => { l with sends := [{ send0 with ending := some stAbortedReset }], step := .tx, timer := 100 }) (run0), { send0 with ending := some stAbortedReset }, _, [], _, _, by dsimp only; refine ⟨?_, ?_, ?_, ?_, rfl, rfl, rfl, ?_⟩ <;> decide +kernel⟩
  · exact ⟨100000, { lane := 0, sfd := 0, psdu := withFcs [1, 0, 0, 0, 1, 0], rssi := 0, evm := 0, lkb := false }, { smode := false, ftype := 1, dten := 0, ar := false, sec := false, mseq := 0, dst := 0, src := 1, fcnt := 0, ksel := 0, hdr := [1, 0, 0, 0, 1, 0], body := [] }, setLink (fun l => { l with sends := [{ send0 with lane := 0 }], step := .ackWait, timer := 76192, addr := 0 }) (run0), { send0 with lane := 0 }, [], by dsimp only; refine ⟨?_, ?_, ?_, ?_, ?_, ?_, ?_, ?_, ?_, ?_⟩ <;> decide +kernel⟩
  · exact ⟨100000, { lane := 5, sfd := 0, psdu := withFcs [2, 0, 0], rssi := 0, evm := 0, lkb := false }, { smode := true, ftype := 1, dten := 0, ar := false, sec := false, mseq := 0, dst := 0, src := 0, fcnt := 0, ksel := 0, hdr := [2, 0, 0], body := [] }, setLink (fun l => { l with sends := [{ send0 with lane := 5 }], step := .ackWait, timer := 93088, addr := 0 }) (run0), { send0 with lane := 5 }, [], by dsimp only; refine ⟨?_, ?_, ?_, ?_, ?_, ?_, ?_, ?_, ?_, ?_⟩ <;> decide +kernel⟩
  · exact ⟨100, setLink (fun l => { l with sends := [{ send0 with ending := some stOk }], step := .ackWait, timer := 100 }) (run0), { send0 with ending := some stOk }, [], stOk, by dsimp only; decide +kernel⟩
  · exact ⟨100, setLink (fun l => { l with sends := [{ send0 with tries := 4 }], step := .ackWait, timer := 100 }) (run0), { send0 with tries := 4 }, [], by dsimp only; decide +kernel⟩
  · exact ⟨100, setLink (fun l => { l with sends := [{ send0 with tries := 3 }], step := .ackWait, timer := 100 }) (run0), { send0 with tries := 3 }, [], by dsimp only; decide +kernel⟩
  · exact ⟨100, 100, [0], 0, false, setRadio (fun r => { r with gnt := true }) (airL .ack (setLink (fun l => { l with ackDue := some (100, [0], 0, false) }) (run0))), by dsimp only; decide +kernel⟩
  · exact ⟨100, 100, [0], 0, false, setRadio (fun r => { r with gnt := true }) (airL .ack (setLink (fun l => { l with ackDue := some (100, [0], 0, false), region := 1, freq := 1200, duty := [(0, 863999999)] }) (run0))), by dsimp only; decide +kernel⟩
  · exact ⟨100, 100, [0], 0, false, setRadio (fun r => { r with gnt := true }) (airL .ack (setLink (fun l => { l with ackDue := some (100, [0], 0, false), region := 1, freq := 1200, duty := [(0, 864000000)] }) (run0))), by dsimp only; decide +kernel⟩
  · exact ⟨101, airL (.send 0 5) (setLink (fun l => { l with sends := [{ send0 with time := some 100 }] }) (run0)), { send0 with time := some 100 }, by dsimp only; decide +kernel⟩
  · exact ⟨101, setLink (fun l => { l with sends := [{ send0 with time := some 100 }] }) (run0), { send0 with time := some 100 }, by dsimp only; decide +kernel⟩
  · exact ⟨send0, setRadio (fun r => { r with gnt := true, calL := false }) (airL (.send 0 5) run0), by dsimp only; decide +kernel⟩
  · exact ⟨send0, setRadio (fun r => { r with gnt := true, calL := true }) (airL (.send 0 5) run0), by dsimp only; exact ⟨by decide +kernel, rfl⟩⟩
  · exact ⟨send0, airL (.send 0 5) run0, by dsimp only; decide +kernel⟩
  · exact ⟨send0, run0, by dsimp only; decide +kernel⟩
  · exact ⟨100, 0, 100, setMend (fun m => { m with lost := m.lost ||| 0x80 }) (setLink (fun l => { l with beaconAt := some (0, 100) }) (run0)), _, by dsimp only; refine ⟨?_, ?_, ?_, ?_, rfl, ?_, ?_⟩ <;> decide +kernel⟩
  · exact ⟨100, 0, 100, setLink (fun l => { l with beaconAt := some (0, 100), sends := [{ send0 with owner := none }] }) (run0), _, by dsimp only; refine ⟨?_, ?_, ?_, ?_, rfl, ?_, ?_⟩ <;> decide +kernel⟩
  · exact ⟨100, 0, 100, setLink (fun l => { l with beaconAt := some (0, 100) }) (run0), _, by dsimp only; refine ⟨?_, ?_, ?_, ?_, rfl, ?_, ?_, ?_, ?_⟩ <;> decide +kernel⟩
  · exact ⟨100, 0, 100, setLink (fun l => { l with beaconAt := some (0, 100), rate := 2 }) (run0), _, by dsimp only; refine ⟨?_, ?_, ?_, ?_, rfl, ?_, ?_, ?_, ?_⟩ <;> decide +kernel⟩
  · exact ⟨100, 0, 100, modSlot 0 (fun q => { q with frame := { q.frame with now := 0, limit := 9 } }) (keyed .enc (setLink (fun l => { l with beaconAt := some (0, 100), maccfg := 0 }) (run0))), _, 0, _, _, _, by dsimp only; refine ⟨?_, ?_, ?_, ?_, rfl, ?_, ?_, ?_, (beacon_key (by decide +kernel) rfl (by decide +kernel) (by decide +kernel)).choose_spec⟩ <;> decide +kernel⟩
  · exact ⟨100, 0, 100, setLink (fun l => { l with beaconAt := some (0, 100), maccfg := 0x2F00 }) (run0), _, 47, by dsimp only; refine ⟨?_, ?_, ?_, ?_, rfl, ?_, ?_, ?_, ?_⟩ <;> decide +kernel⟩

/-- The conditions of `Obligations.V1ModeComplete` are met. -/
theorem witness_V1ModeComplete :
    (∃ (s : State), v1On s = true) ∧
    (∃ (s : State) (b : Byte) (e : Bytes) (r : List Bytes), v1On s = true ∧ s.v1.fifo = (b :: e) :: r) ∧
    (∃ (s : State), v1On s = true) ∧
    (∃ (s : State) (w : Byte), v1On s = true ∧ bits w 4 2 < 6 ∧ bits w 6 5 < 3) ∧
    (∃ (s : State) (w : Byte), v1On s = true ∧ (6 ≤ bits w 4 2 ∨ 3 ≤ bits w 6 5)) ∧
    (∃ (now : Tick) (s : State) (i : Inv), let u := advanceTo now s; v1Inv u = some i ∧ i.single = false ∧ u.v1.dwell ≠ 0 ∧ reached u.reel.cnt
      (u.v1.dwellFrom + BitVec.ofNat 48 (u.v1.dwell.toNat * 240000)) = true) := by
  refine ⟨?_, ?_, ?_, ?_, ?_, ?_⟩
  · exact ⟨(setPower (fun p => { p with strapV1 := true }) (run0)), by decide +kernel⟩
  · exact ⟨(setV1 (fun v => { v with fifo := [[1]] }) (setPower (fun p => { p with strapV1 := true }) (run0))), 1, [], [],
      by decide +kernel⟩
  · exact ⟨(setPower (fun p => { p with strapV1 := true }) (run0)), by decide +kernel⟩
  · exact ⟨(setPower (fun p => { p with strapV1 := true }) (run0)), 0x54, by decide +kernel⟩
  · exact ⟨(setPower (fun p => { p with strapV1 := true }) (run0)), 0x18, by decide +kernel⟩
  · exact ⟨2400000, (setPower (fun p => { p with strapV1 := true }) (setRdr (fun r => { r with inv := r.inv.set 0 (some { inv0 with v1 := true }) }) (run0))), ({ inv0 with v1 := true }),
      by dsimp only; decide +kernel⟩

/-- The conditions of `Obligations.PortEventsComplete` are met. -/
theorem witness_PortEventsComplete :
    (∃ (p : Port) (bus : Bus) (s : State) (data : List Bool) (lag : Nat) (old b : Bytes), busTaken p bus s = true ∧ old = s.ports[p].ring ∧
      b = old ++ lineBytes p data ∧ p = 0 ∧ old = []) ∧
    (∃ (p : Port) (bus : Bus) (s : State) (data : List Bool) (lag : Nat) (old b : Bytes), busTaken p bus s = true ∧ old = s.ports[p].ring ∧
      b = old ++ lineBytes p data ∧ p = 2 ∧ old = [0x5A]) ∧
    (∃ (p : Port) (bus : Bus) (s : State) (data : List Bool) (lag : Nat) (old b : Bytes), busTaken p bus s = true ∧ old = s.ports[p].ring ∧
      b = old ++ lineBytes p data ∧ p = 3 ∧ old = []) ∧
    (∃ (p : Port) (bus : Bus) (s : State), busTaken p bus s = false ∧ p = 2 ∧ portHears p s = true) ∧
    (∃ (p : Port) (bus : Bus) (s : State), busTaken p bus s = false ∧ p = 3 ∧ uartSending s = true) ∧
    (∃ (p : Port) (bus : Bus) (s : State), busTaken p bus s = false ∧ portHears p s = false) ∧
    (∃ (p : Port) (s : State) (b : Byte), portHears p s = true ∧ p.val < 2 ∧ b ≠ 0x5A ∧ b ≠ 0x00) ∧
    (∃ (p : Port) (s : State), portHears p s = true ∧ p.val < 3) ∧
    (∃ (p : Port) (bus : Bus) (s : State), portHears p s = true ∧ addressed p bus s = true ∧ (p = 3 → halfDuplex s = false) ∧ p = 3) ∧
    (∃ (p : Port) (bus : Bus) (s : State), portHears p s = true ∧ addressed p bus s = true ∧ (p = 3 → halfDuplex s = false) ∧ p = 2) ∧
    (∃ (p : Port) (bus : Bus) (s : State) (n : Nat) (o : Out), portHears p s = true ∧ addressed p bus s = true ∧ nextOut p s = some o ∧
      n < (nextFrame p o s).length) ∧
    (∃ (p : Port) (bus : Bus) (s : State) (n : Nat), portHears p s = true ∧ addressed p bus s = true ∧ nextOut p s = none ∧ p ≠ 3) ∧
    (∃ (p : Port) (o : Out) (s : State), nextOut p s = some o) ∧
    (∃ (s : State), portHears 3 s = true) ∧
    (∃ (s : State), portHears 3 s = true ∧ halfDuplex s = true ∧ s.ports[(3 : Fin 4)].polled = true) ∧
    (∃ (s : State), portHears 2 s = true) ∧
    (∃ (p : Port) (s : State), live s = true ∧ s.power.vioLost = false ∧ p.val < 2) ∧
    (∃ (s : State), s.power.mode ≠ .reset) ∧
    (∃ (s : State), s.power.vioLost = true) ∧
    (∃ (p : Port) (s : State) (now : Tick), let u := advanceTo now s; u.power.mode = .run ∧ bits u.ports[p].cfg 15 8 ≠ 0 ∧
      (u.ports[p].attached = true ∨ u.ports[p].moved = true) ∧
      reached u.reel.cnt (u.ports[p].presFrom + BitVec.ofNat 48 (bits u.ports[p].cfg 15 8 * 24000000)) = true ∧ u.ports[p].attached = true) ∧
    (∃ (p : Port) (s : State) (now : Tick), let u := advanceTo now s; u.power.mode = .run ∧ bits u.ports[p].cfg 15 8 ≠ 0 ∧
      (u.ports[p].attached = true ∨ u.ports[p].moved = true) ∧
      reached u.reel.cnt (u.ports[p].presFrom + BitVec.ofNat 48 (bits u.ports[p].cfg 15 8 * 24000000)) = true ∧ u.ports[p].attached = false) := by
  refine ⟨?_, ?_, ?_, ?_, ?_, ?_, ?_, ?_, ?_, ?_, ?_, ?_, ?_, ?_, ?_, ?_, ?_, ?_, ?_, ?_, ?_⟩
  · exact ⟨0, { sckHigh := true, addr := 92, first := true }, modPort 0 (fun q => { q with ring := [] }) run0, lineBits 0 [0x5A, 0], 0, _, _, by refine ⟨?_, rfl, rfl, ?_, ?_⟩ <;> decide +kernel⟩
  · exact ⟨2, { sckHigh := true, addr := 92, first := true }, modPort 2 (fun q => { q with ring := [0x5A] }) run0, lineBits 2 [0x5A, 0], 0, _, _, by refine ⟨?_, rfl, rfl, ?_, ?_⟩ <;> decide +kernel⟩
  · exact ⟨3, { sckHigh := true, addr := 92, first := true }, modPort 3 (fun q => { q with ring := [] }) run0, lineBits 3 [0x5A, 0], 0, _, _, by refine ⟨?_, rfl, rfl, ?_, ?_⟩ <;> decide +kernel⟩
  · exact ⟨2, { sckHigh := true, addr := 93, first := true }, run0, by decide +kernel⟩
  · exact ⟨3, { sckHigh := true, addr := 92, first := true }, modPort 3 (fun q => { q with burst := some 1 }) run0, by decide +kernel⟩
  · exact ⟨0, { sckHigh := true, addr := 92, first := true }, State.reset, by decide +kernel⟩
  · exact ⟨1, run0, 0xFF, by decide +kernel⟩
  · exact ⟨2, run0, by decide +kernel⟩
  · exact ⟨3, { sckHigh := true, addr := 92, first := true }, run0, by decide +kernel⟩
  · exact ⟨2, { sckHigh := true, addr := 92, first := true }, run0, by decide +kernel⟩
  · exact ⟨2, { sckHigh := true, addr := 92, first := true }, (modTen 2 (fun q => { q with outQ := [.resp 7 0x0100 0 [] false] }) run0), 8, (.resp 7 0x0100 0 [] false),
      by decide +kernel⟩
  · exact ⟨2, { sckHigh := true, addr := 92, first := true }, run0, 3, by decide +kernel⟩
  · exact ⟨2, (.resp 7 0x0100 0 [] false), (modTen 2 (fun q => { q with outQ := [.resp 7 0x0100 0 [] false] }) run0), by decide +kernel⟩
  · exact ⟨run0, by decide +kernel⟩
  · exact ⟨(modPort 3 (fun q => { q with polled := true, cfg := 1 }) run0), by decide +kernel⟩
  · exact ⟨run0, by decide +kernel⟩
  · exact ⟨1, run0, by decide +kernel⟩
  · exact ⟨run0, by decide +kernel⟩
  · exact ⟨(setPower (fun p => { p with vioLost := true }) run0), by decide +kernel⟩
  · exact ⟨0, (modPort 0 (fun q => { q with attached := true, cfg := 0x0100 }) run0), 24000000, by dsimp only; decide +kernel⟩
  · exact ⟨3, (modPort 3 (fun q => { q with attached := false, moved := true, cfg := 0xFF00 }) run0), 6120000000, by dsimp only; decide +kernel⟩

/-- The conditions of `Obligations.HostFrameQueued` are met. -/
theorem witness_HostFrameQueued :
    (∃ (p : Port) (bus : Bus) (op seq : BitVec 16) (args frame : Bytes) (s : State), busTaken p bus s = true ∧
      s.ports[p].ring = [] ∧ args.length ≤ 1022 ∧ frame = hostFrame 0 seq (leBytes 2 op.toNat ++ args) ∧
      s.ports[p].untaken.sum + args.length + 10 ≤ 2080 ∧ outstanding s.tens[s.binding[p]] < 8) ∧
    (∃ (p : Port) (bus : Bus) (op seq : BitVec 16) (args frame : Bytes) (s : State), busTaken p bus s = true ∧
      s.ports[p].ring = [] ∧ args.length ≤ 1022 ∧ frame = hostFrame 0 seq (leBytes 2 op.toNat ++ args) ∧
      s.ports[p].untaken.sum + args.length + 10 ≤ 2080 ∧ 8 ≤ outstanding s.tens[s.binding[p]] ∧ s.tens[s.binding[p]].refusal = none) ∧
    (∃ (p : Port) (bus : Bus) (op seq : BitVec 16) (args frame : Bytes) (s : State), busTaken p bus s = true ∧
      s.ports[p].ring = [] ∧ args.length ≤ 1022 ∧ frame = hostFrame 0 seq (leBytes 2 op.toNat ++ args) ∧
      2080 < s.ports[p].untaken.sum + args.length + 10 ∧ 0x5A ∉ frame.drop 6) := by
  refine ⟨?_, ?_, ?_⟩
  · exact ⟨3, { sckHigh := true, addr := 92, first := true }, 0x0100, 7, List.replicate 1022 0, _, modPort 3 (fun q => { q with untaken := [1048] }) run0, by refine ⟨?_, ?_, ?_, rfl, ?_, ?_⟩ <;> decide +kernel⟩
  · exact ⟨3, { sckHigh := true, addr := 92, first := true }, 0x0100, 7, [], _, modTen 3 (fun q => { q with cmdQ := List.replicate 8 { op := 0x0100, seq := 0, args := [], orphan := false, port := 3 } }) run0, by refine ⟨?_, ?_, ?_, rfl, ?_, ?_, ?_⟩ <;> decide +kernel⟩
  · exact ⟨3, { sckHigh := true, addr := 92, first := true }, 0x0100, 7, [], _, modPort 3 (fun q => { q with untaken := [2071] }) run0, by refine ⟨?_, ?_, ?_, rfl, ?_, ?_⟩ <;> decide +kernel⟩

/-- The conditions of `Obligations.ResetEventsComplete` are met. -/
theorem witness_ResetEventsComplete :
    (∃ (ns : Nat) (s : State), s.power.vioLost = false ∧ 1000 ≤ ns) ∧
    (∃ (ns : Nat) (s : State), s.power.vioLost = false ∧ ns < 200) ∧
    (∃ (ns : Nat) (s : State), s.power.vioLost = false ∧ 200 ≤ ns ∧ ns < 1000 ∧ ns = 200) ∧
    (∃ (ns : Nat) (s : State), s.power.vioLost = false ∧ 200 ≤ ns ∧ ns < 1000 ∧ ns = 999) ∧
    (∃ (ns : Nat) (s : State), s.power.vioLost = true) ∧
    (∃ (s : State), s.power.mode = .reset) ∧
    (∃ (s : State), s.power.mode = .start) ∧
    (∃ (s : State), keelRuns s = true) ∧
    (∃ (s : State), live s = true) ∧
    (∃ (s : State), s.power.mode ≠ .reset ∧ s.power.xo32Ok = false ∧ s.power.xo32Gone = false) ∧
    (∃ (s : State), s.power.xo32Ok = true) := by
  refine ⟨?_, ?_, ?_, ?_, ?_, ?_, ?_, ?_, ?_, ?_, ?_⟩
  · exact ⟨1000, run0, by decide +kernel⟩
  · exact ⟨199, run0, by decide +kernel⟩
  · exact ⟨200, run0, by decide +kernel⟩
  · exact ⟨999, run0, by decide +kernel⟩
  · exact ⟨1000, setPower (fun p => { p with vioLost := true }) run0, by decide +kernel⟩
  · exact ⟨State.reset, by decide +kernel⟩
  · exact ⟨(setPower (fun p => { p with mode := .start }) State.reset), by decide +kernel⟩
  · exact ⟨(setPower (fun p => { p with mode := .drill }) State.reset), by decide +kernel⟩
  · exact ⟨limp0, by decide +kernel⟩
  · exact ⟨(setPower (fun p => { p with mode := .start }) State.reset), by decide +kernel⟩
  · exact ⟨(setPower (fun p => { p with xo32Ok := true }) run0), by decide +kernel⟩

/-- The conditions of `Obligations.SleepWakeEventsComplete` are met. -/
theorem witness_SleepWakeEventsComplete :
    (∃ (now : Tick) (vhu : Nat) (s : State), let u := advanceTo now s; maySleep u = true ∧ (sleepCommits vhu u).store.queue = [] ∧ (sleepCommits vhu
      u).store.deferred = []) ∧
    (∃ (now : Tick) (vhu : Nat) (s : State), let u := advanceTo now s; let v := sleepCommits vhu u; maySleep u = true ∧
      (v.store.queue ≠ [] ∨ v.store.deferred ≠ [])) ∧
    (∃ (s : State), s.power.vioLost = false) ∧
    (∃ (s : State) (e : Edge) (a : BitVec 7), s.power.vioLost = false ∧ (e = .i2cStart → a = 0x5C + s.power.strapAddr.setWidth 7) ∧ e = .i2cStart) ∧
    (∃ (s : State) (e : Edge) (a : BitVec 7), s.power.vioLost = false ∧ (e = .i2cStart → a = 0x5C + s.power.strapAddr.setWidth 7) ∧ e = .uaRxd) ∧
    (∃ (s : State) (e : Edge) (a : BitVec 7), s.power.vioLost = false ∧ e = .i2cStart ∧ a ≠ 0x5C + s.power.strapAddr.setWidth 7) ∧
    (∃ (n : Nat) (s : State), ∃ v ∈ wakeCompares s, reached (keeperAt n s) (v - 76800) = true) ∧
    (∃ (n : Nat) (s : State), (∀ v ∈ wakeCompares s, reached (keeperAt n s) (v - 76800) = false) ∧
      ∃ v ∈ keelCompares s, reached (keeperAt n s) (v - 76800) = true) ∧
    (∃ (s : State), s.power.mode = .waking) ∧
    (∃ (s : State), (s.power.mode = .waking ∨ s.power.mode = .start) ∧ s.power.boosts < 2 ∧ s.power.mode = .waking) ∧
    (∃ (s : State), (s.power.mode = .waking ∨ s.power.mode = .start) ∧ s.power.boosts < 2 ∧ s.power.mode = .start) ∧
    (∃ (s : State), s.power.mode = .start ∧ 2 ≤ s.power.boosts) ∧
    (∃ (s : State), s.power.mode = .waking ∧ 2 ≤ s.power.boosts) ∧
    (∃ (s v : State), ((s.power.mode = .waking ∧ v = s) ∨
      (s.power.mode = .start ∧ v = { s with reel := { s.reel with keeper := s.reel.cnt } })) ∧ s.power.mode = .waking) ∧
    (∃ (s v : State), ((s.power.mode = .waking ∧ v = s) ∨
      (s.power.mode = .start ∧ v = { s with reel := { s.reel with keeper := s.reel.cnt } })) ∧ s.power.mode = .start) := by
  refine ⟨?_, ?_, ?_, ?_, ?_, ?_, ?_, ?_, ?_, ?_, ?_, ?_, ?_, ?_, ?_⟩
  · exact ⟨100, 0, run0, by dsimp only; decide +kernel⟩
  · exact ⟨100, 0, setStore (fun w => { w with balC := 100 }) (logEntry 0xF003 [0, 0] run0), by dsimp only; decide +kernel⟩
  · exact ⟨(setPower (fun p => { p with mode := .sleep }) State.reset), by decide +kernel⟩
  · exact ⟨setPower (fun p => { p with mode := .sleep, strapAddr := 3 }) State.reset, .i2cStart, 0x5F, by decide +kernel⟩
  · exact ⟨setPower (fun p => { p with mode := .sleep, strapAddr := 3 }) State.reset, .uaRxd, 0, by decide +kernel⟩
  · exact ⟨setPower (fun p => { p with mode := .sleep, strapAddr := 3 }) State.reset, .i2cStart, 0x5E, by decide +kernel⟩
  · exact ⟨1639, (modCmp 0 (fun q => { q with st := .armed, val := 1277200, act := 0x30 }) (setPower (fun p => { p with mode := .sleep }) State.reset)),
      by exact ⟨1277200, by decide +kernel, by decide +kernel⟩⟩
  · exact ⟨1639, modCmp 0 (fun q => { q with st := .armed, val := 1277928, act := 0x30 }) (setRdr (fun r => { r with sniff := some { sniff0 with due := 1277200 } })
      (setPower (fun p => { p with mode := .sleep }) State.reset)), none_of (by decide +kernel), 1277200, by decide +kernel, by decide +kernel⟩
  · exact ⟨(setPower (fun p => { p with mode := .waking }) State.reset), by decide +kernel⟩
  · exact ⟨(setPower (fun p => { p with mode := .waking, boosts := 1 }) State.reset), by decide +kernel⟩
  · exact ⟨(setPower (fun p => { p with mode := .start, boosts := 1 }) State.reset), by decide +kernel⟩
  · exact ⟨(setPower (fun p => { p with mode := .start, boosts := 2 }) State.reset), by decide +kernel⟩
  · exact ⟨(setPower (fun p => { p with mode := .waking, boosts := 2 }) State.reset), by decide +kernel⟩
  · exact ⟨setPower (fun p => { p with mode := .waking, wakeRun := 7 }) State.reset, _, by refine ⟨.inl ⟨?_, rfl⟩, ?_⟩ <;> decide +kernel⟩
  · exact ⟨setPower (fun p => { p with mode := .start }) State.reset, _, by refine ⟨.inr ⟨?_, rfl⟩, ?_⟩ <;> decide +kernel⟩

/-- The conditions of `Obligations.PowerFailEventsComplete` are met. -/
theorem witness_PowerFailEventsComplete :
    (∃ (ns : Nat) (s : State), s.power.vioLost = false ∧ 1000 ≤ ns ∧ (s.power.mode = .run ∨ s.power.mode = .limp) ∧ s.power.mode = .run) ∧
    (∃ (ns : Nat) (s : State), s.power.vioLost = false ∧ 1000 ≤ ns ∧ (s.power.mode = .run ∨ s.power.mode = .limp) ∧ s.power.mode = .limp) ∧
    (∃ (ns : Nat) (s : State), s.power.vioLost = false ∧ 1000 ≤ ns ∧ (s.power.mode = .sleep ∨ s.power.mode = .waking) ∧ s.power.mode = .sleep) ∧
    (∃ (ns : Nat) (s : State), s.power.vioLost = false ∧ 1000 ≤ ns ∧ (s.power.mode = .sleep ∨ s.power.mode = .waking) ∧ s.power.mode = .waking) ∧
    (∃ (ns : Nat) (s : State), ns < 1000 ∧ s.power.mode = .run) ∧
    (∃ (s : State), s.power.mode = .drill) ∧
    (∃ (s : State), s.power.vioLost = false ∧ s.power.mode = .hold) := by
  refine ⟨?_, ?_, ?_, ?_, ?_, ?_, ?_⟩
  · exact ⟨1000, setPower (fun p => { p with mode := .run }) State.reset, by decide +kernel⟩
  · exact ⟨1000, setPower (fun p => { p with mode := .limp }) State.reset, by decide +kernel⟩
  · exact ⟨1000, setPower (fun p => { p with mode := .sleep }) State.reset, by decide +kernel⟩
  · exact ⟨1000, setPower (fun p => { p with mode := .waking }) State.reset, by decide +kernel⟩
  · exact ⟨999, run0, by decide +kernel⟩
  · exact ⟨(setPower (fun p => { p with mode := .drill }) State.reset), by decide +kernel⟩
  · exact ⟨(setPower (fun p => { p with mode := .hold }) State.reset), by decide +kernel⟩

/-- The conditions of `Obligations.StepRunsFront` are met. -/
theorem witness_StepRunsFront :
    (∃ (c : Instr) (rest : List Instr) (s : State), s.pending = c :: rest) ∧
    (∃ (s : State), s.pending = []) := by
  refine ⟨?_, ?_⟩
  · exact ⟨(.spiPortResetSequence 0), [], ({ run0 with pending := [.spiPortResetSequence 0] }), by decide +kernel⟩
  · exact ⟨run0, by decide +kernel⟩

/-- The conditions of `Obligations.BindingStaysOneToOne` are met. -/
theorem witness_BindingStaysOneToOne :
    (∃ (s : State) (t : State), OneToOne s ∧ step s = .next t) := by
  exact ⟨({ run0 with pending := [.tenBind (cm 0 [0xE1])] }), _, by refine ⟨by unfold OneToOne; decide +kernel, rfl⟩⟩

/-- The conditions of `Obligations.QueueConsumedFromFront` are met. -/
theorem witness_QueueConsumedFromFront :
    (∃ (s : State) (t : State), step s = .next t) := by
  exact ⟨({ run0 with pending := [.tenBind (cm 0 [0xE1])] }), _, by rfl⟩

/-- The conditions of `Obligations.MemoriesStayCanonical` are met. -/
theorem witness_MemoriesStayCanonical :
    (∃ (s : State) (t : State), MemoriesCanonical s ∧ step s = .next t) := by
  exact ⟨({ run0 with pending := [.tenBind (cm 0 [0xE1])] }), _, by refine ⟨by unfold MemoriesCanonical; decide +kernel, rfl⟩⟩

/-- The conditions of `Obligations.ResetClasses` are met. -/
theorem witness_ResetClasses :
    (∃ (warm : Bool), warm = true) ∧
    (∃ (warm : Bool), warm = true) ∧
    (∃ (warm : Bool), warm = true) ∧
    (∃ (warm : Bool), warm = false) ∧
    (∃ (warm : Bool), warm = false) ∧
    (∃ (warm : Bool), warm = false) := by
  refine ⟨?_, ?_, ?_, ?_, ?_, ?_⟩
  · exact ⟨true, by decide +kernel⟩
  · exact ⟨true, by decide +kernel⟩
  · exact ⟨true, by decide +kernel⟩
  · exact ⟨false, by decide +kernel⟩
  · exact ⟨false, by decide +kernel⟩
  · exact ⟨false, by decide +kernel⟩

/-- The conditions of `Obligations.UnassignedOpcodeRefused` are met. -/
theorem witness_UnassignedOpcodeRefused :
    (∃ (c : Cmd) (op : BitVec 16) (s : State) (u : State), Taken op c s u ∧ op.toNat ∉ assignedOpcodes) := by
  exact ⟨(cm 0 []), 0x0104, run0, _, by exact ⟨taken_up (by decide +kernel), by decide +kernel⟩⟩

/-- The conditions of `Obligations.WrongLengthRefused` are met. -/
theorem witness_WrongLengthRefused :
    (∃ (i : Instr) (op : BitVec 16) (c : Cmd) (s : State) (u : State), cmdOf i = some (op, c) ∧ Taken op c s u ∧ c.args.length ≠ argLen op c.args) := by
  exact ⟨(.tenBind (cm 1 [])), 0x0300, (cm 1 []), run0, _, by exact ⟨rfl, taken_up (by decide +kernel), by decide +kernel⟩⟩

/-- The conditions of `Obligations.ProvisioningDenied` are met. -/
theorem witness_ProvisioningDenied :
    (∃ (i : Instr) (op : BitVec 16) (c : Cmd) (s : State) (u : State), cmdOf i = some (op, c) ∧ Taken op c s u ∧ op ∈ ([0x0102, 0x0300, 0x0301,
      0x0302, 0x4010, 0x5001, 0x7002, 0x7401, 0x8801] : List (BitVec 16)) ∧ c.t ≠ 0 ∧ c.args.length = argLen op c.args) := by
  exact ⟨(.tenBind (cm 1 [0xE1])), 0x0300, (cm 1 [0xE1]), run0, _, by exact ⟨rfl, taken_up (by decide +kernel), by decide +kernel, by decide +kernel, by decide +kernel⟩⟩

/-- The conditions of `Obligations.RadioCommandsInLimp` are met. -/
theorem witness_RadioCommandsInLimp :
    (Can 0x1000 fun c u => ∃ (a : _) (p : _), inLimp u = true ∧ invArgsOf c.args = some (a, p)) ∧
    (Can 0x1003 fun c u => inLimp u = true ∧ c.args.length = 6 ∧ (fld c.args 0 2 = 0 ∨ (50 ≤ fld c.args 0 2 ∧ fld c.args 0 2 ≤ 2000)) ∧ fld c.args 2 1
      ≤ 3 ∧ fld c.args 5 1 ≤ 1) ∧
    (Can 0x1004 fun c u => inLimp u = true ∧ c.args.length = 1 ∧ fld c.args 0 1 ≤ 3) ∧
    (Can 0x1010 fun c u => inLimp u = true ∧ c.args.length = 17 ∧ fld c.args 0 1 ≤ 7) ∧
    (Can 0x1100 fun c u => inLimp u = true ∧ c.args.length = 3 + 2 * fld c.args 2 1 ∧ 2 ≤ fld c.args 2 1 ∧ fld c.args 2 1 ≤ 8 ∧ fld c.args 1 1 ≤ 7) ∧
    (Can 0x1200 fun c u => inLimp u = true ∧ c.args.length = 4 + 2 * fld c.args 3 1 ∧ fld c.args 2 1 ≤ 3 ∧ 1 ≤ fld c.args 3 1 ∧ fld c.args 3 1 ≤ 31 ∧
      u.rdr.lastInv[c.t].isSome = true) ∧
    (Can 0x1201 fun c u => inLimp u = true ∧ c.args.length = 3 + 2 * fld c.args 2 1 ∧ fld c.args 1 1 ≤ 3 ∧ 1 ≤ fld c.args 2 1 ∧ fld c.args 2 1 ≤ 31 ∧
      u.rdr.lastInv[c.t].isSome = true) ∧
    (Can 0x2002 fun c u => inLimp u = true ∧ c.args.length = 2) ∧
    (Can 0x2010 fun c u => inLimp u = true ∧ c.args.length = 17 ∧ fld c.args 0 1 ≤ 7) ∧
    (Can 0x8001 fun c u => inLimp u = true ∧ c.args.length = 2 ∧ fld c.args 0 1 ≤ 5 ∧ fld c.args 1 1 ≤ 1) ∧
    (Can 0x1202 fun c u => inLimp u = true ∧ c.args.length = 3 + fld c.args 1 2 ∧ 1 ≤ fld c.args 1 2 ∧ fld c.args 1 2 ≤ 256) ∧
    (Can 0x1002 fun c u => inLimp u = true ∧ 1 ≤ fld c.args 10 1 ∧ fld c.args 10 1 ≤ 31 ∧ fld c.args 1 1 ≤ 3 ∧ fld c.args 6 1 ≤ 3 ∧
      ((fld c.args 0 1 = 0 ∧ 1 ≤ fld c.args 9 1 ∧ fld c.args 9 1 ≤ 32 ∧ c.args.length = 11 + 2 * fld c.args 10 1) ∨
       (fld c.args 0 1 = 1 ∧ 1 ≤ fld c.args 9 1 ∧ fld c.args 9 1 ≤ 32 ∧
         c.args.length = 11 + 2 * fld c.args 10 1 + 2 * fld c.args 9 1) ∨
       (fld c.args 0 1 = 2 ∧ fld c.args 9 1 ≤ 15 ∧ c.args.length = 11 + 2 * fld c.args 10 1)) ∧ fld c.args 0 1 = 0) ∧
    (Can 0x1002 fun c u => inLimp u = true ∧ 1 ≤ fld c.args 10 1 ∧ fld c.args 10 1 ≤ 31 ∧ fld c.args 1 1 ≤ 3 ∧ fld c.args 6 1 ≤ 3 ∧
      ((fld c.args 0 1 = 0 ∧ 1 ≤ fld c.args 9 1 ∧ fld c.args 9 1 ≤ 32 ∧ c.args.length = 11 + 2 * fld c.args 10 1) ∨
       (fld c.args 0 1 = 1 ∧ 1 ≤ fld c.args 9 1 ∧ fld c.args 9 1 ≤ 32 ∧
         c.args.length = 11 + 2 * fld c.args 10 1 + 2 * fld c.args 9 1) ∨
       (fld c.args 0 1 = 2 ∧ fld c.args 9 1 ≤ 15 ∧ c.args.length = 11 + 2 * fld c.args 10 1)) ∧ fld c.args 0 1 = 1) ∧
    (Can 0x1002 fun c u => inLimp u = true ∧ 1 ≤ fld c.args 10 1 ∧ fld c.args 10 1 ≤ 31 ∧ fld c.args 1 1 ≤ 3 ∧ fld c.args 6 1 ≤ 3 ∧
      ((fld c.args 0 1 = 0 ∧ 1 ≤ fld c.args 9 1 ∧ fld c.args 9 1 ≤ 32 ∧ c.args.length = 11 + 2 * fld c.args 10 1) ∨
       (fld c.args 0 1 = 1 ∧ 1 ≤ fld c.args 9 1 ∧ fld c.args 9 1 ≤ 32 ∧
         c.args.length = 11 + 2 * fld c.args 10 1 + 2 * fld c.args 9 1) ∨
       (fld c.args 0 1 = 2 ∧ fld c.args 9 1 ≤ 15 ∧ c.args.length = 11 + 2 * fld c.args 10 1)) ∧ fld c.args 0 1 = 2) ∧
    (Can 0x2001 fun c u => inLimp u = true ∧ c.args.length = 15 + fld c.args 13 2 ∧ fld c.args 0 2 ≠ 0xFFFE ∧ fld c.args 2 1 ≤ 3 ∧
      (fld c.args 3 1 ≤ 4 ∨ (fld c.args 3 1 = 128 ∧ fld c.args 2 1 = 0)) ∧ (fld c.args 4 1 ≤ 47 ∨ fld c.args 4 1 = 0xFF) ∧
      -40 ≤ sByte (fld c.args 5 1) ∧ sByte (fld c.args 5 1) ≤ 28 ∧ fld c.args 6 1 ≤ 1 ∧
      fld c.args 13 2 ≤ payloadMax (fld c.args 3 1 == 128) (fld c.args 4 1 != 0xFF) ∧ fld c.args 3 1 = 4) ∧
    (Can 0x2001 fun c u => inLimp u = true ∧ c.args.length = 15 + fld c.args 13 2 ∧ fld c.args 0 2 ≠ 0xFFFE ∧ fld c.args 2 1 ≤ 3 ∧
      (fld c.args 3 1 ≤ 4 ∨ (fld c.args 3 1 = 128 ∧ fld c.args 2 1 = 0)) ∧ (fld c.args 4 1 ≤ 47 ∨ fld c.args 4 1 = 0xFF) ∧
      -40 ≤ sByte (fld c.args 5 1) ∧ sByte (fld c.args 5 1) ≤ 28 ∧ fld c.args 6 1 ≤ 1 ∧
      fld c.args 13 2 ≤ payloadMax (fld c.args 3 1 == 128) (fld c.args 4 1 != 0xFF) ∧ fld c.args 3 1 = 128) := by
  refine ⟨?_, ?_, ?_, ?_, ?_, ?_, ?_, ?_, ?_, ?_, ?_, ?_, ?_, ?_, ?_, ?_⟩
  · exact can (cm 0 [0, 0x88, 0xFF, 0, 0, 1, 0, 0, 0, 0, 0]) (limp0)
      (by decide +kernel) (⟨invArgs0, (-120), by decide +kernel⟩)
  · exact can (cm 0 [0xD0, 0x07, 3, 0, 0, 1]) (limp0) (by decide +kernel) (by decide +kernel)
  · exact can (cm 0 [3]) (limp0) (by decide +kernel) (by decide +kernel)
  · exact can (cm 0 ([7] ++ List.replicate 16 0)) (limp0) (by decide +kernel) (by decide +kernel)
  · exact can (cm 0 ([0, 7, 8] ++ List.replicate 16 0)) (limp0) (by decide +kernel) (by decide +kernel)
  · exact can (cm 0 ([0, 9, 3, 31] ++ List.replicate 62 0)) (setRdr (fun r => { r with lastInv := r.lastInv.set 0 (some invArgs0) }) (limp0))
      (by decide +kernel) (by decide +kernel)
  · exact can (cm 0 ([0, 3, 1] ++ List.replicate 2 0)) (setRdr (fun r => { r with lastInv := r.lastInv.set 0 (some invArgs0) }) (limp0))
      (by decide +kernel) (by decide +kernel)
  · exact can (cm 0 [0, 0]) (limp0) (by decide +kernel) (by decide +kernel)
  · exact can (cm 0 ([7] ++ List.replicate 16 0)) (limp0) (by decide +kernel) (by decide +kernel)
  · exact can (cm 0 [5, 1]) (limp0) (by decide +kernel) (by decide +kernel)
  · exact can (cm 0 ([0, 0, 1] ++ List.replicate 256 0)) (limp0) (by decide +kernel) (by decide +kernel)
  · exact can (cm 0 ([0, 3, 0, 0, 0, 0, 3, 0, 0, 32, 31] ++ List.replicate 62 0)) (limp0) (by decide +kernel) (by decide +kernel)
  · exact can (cm 0 ([1, 3, 0, 0, 0, 0, 3, 0, 0, 32, 1] ++ List.replicate 66 0)) (limp0) (by decide +kernel) (by decide +kernel)
  · exact can (cm 0 ([2, 3, 0, 0, 0, 0, 3, 0, 0, 15, 31] ++ List.replicate 62 0)) (limp0) (by decide +kernel) (by decide +kernel)
  · exact can (cm 0 ([0, 0, 3, 4, 47, 28, 1, 0, 0, 0, 0, 0, 0, 234, 0] ++ List.replicate 234 0)) (limp0) (by decide +kernel) (by decide +kernel)
  · exact can (cm 0 ([0, 0, 0, 128, 255, 216, 1, 0, 0, 0, 0, 0, 0, 116, 0] ++ List.replicate 116 0)) (limp0) (by decide +kernel) (by decide +kernel)

/-- The conditions of `Obligations.EventQueueRules` are met. -/
theorem witness_EventQueueRules :
    (∃ (q : TenantSt), (q.outQ.filter Out.isOrdinary).length < 63) ∧
    (∃ (q : TenantSt), 63 ≤ (q.outQ.filter Out.isOrdinary).length ∧ q.outQ.any Out.isLost = true) ∧
    (∃ (q : TenantSt), 63 ≤ (q.outQ.filter Out.isOrdinary).length ∧ q.outQ.any Out.isLost = false) ∧
    (∃ (q : TenantSt), (q.outQ.filter Out.isEvent).length ≤ 64 ∧ (q.outQ.filter Out.isOrdinary).length ≤ 63 ∧ (q.outQ.filter Out.isLost).length ≤ 1) := by
  refine ⟨?_, ?_, ?_, ?_⟩
  · exact ⟨({ TenantSt.reset with outQ := List.replicate 62 (.evt 0 0 0 []) ++ [] }), by decide +kernel⟩
  · exact ⟨({ TenantSt.reset with outQ := List.replicate 63 (.evt 0 0 0 []) ++ [.lost 0 0] }), by decide +kernel⟩
  · exact ⟨({ TenantSt.reset with outQ := List.replicate 63 (.evt 0 0 0 []) ++ [] }), by decide +kernel⟩
  · exact ⟨({ TenantSt.reset with outQ := List.replicate 63 (.evt 0 0 0 []) ++ [.lost 0 0] }), by decide +kernel⟩

/-- The conditions of `Obligations.SpoolWordsRoundTrip` are met. -/
theorem witness_SpoolWordsRoundTrip :
    (∃ (i : Instr) (x : Tenant) (w : BitVec 32), spoolWord i = some (x, w) ∧ spoolFormOk i = true) := by
  exact ⟨(.spWaitd 3 15 (-1)), 3, _, by refine ⟨rfl, ?_⟩; decide +kernel⟩

/-- The conditions of `Obligations.SpoolDecodeTotal` are met. -/
theorem witness_SpoolDecodeTotal :
    (∃ (x : Tenant) (w : BitVec 32) (s : State), spoolLegal w = false ∧ AtWord x w s) ∧
    (∃ (i : Instr) (x : Tenant) (w : BitVec 32) (v : BitVec 32) (s : State), AtWord x w s ∧ spoolWord i = some (x, v) ∧ v ≠ w) := by
  refine ⟨?_, ?_⟩
  · exact ⟨0, -1, (own 0 (-1) run0), by exact ⟨by decide +kernel, own_word 0 (-1)⟩⟩
  · exact ⟨(.spWaitd 0 1 0), 0, -1, _, (own 0 (-1) run0), by exact ⟨own_word 0 (-1), rfl, by decide +kernel⟩⟩

end Sys2Proof.Tests
end

section
/-!
SUPPORT. What ends a program, an access or a session leaves alone of Bridle: the operations that TAMPER runs after it has
changed the tenant roots (R484) touch neither the roots nor the status.
-/
namespace Sys2Proof.Machine

@[simp] theorem dropWaiters_bri (w : Who) (s : State) : (dropWaiters w s).bri = s.bri := by
  have h := dropWaiters_still w s
  simp only [stillPart, Prod.mk.injEq] at h
  simp only [h]

@[simp] theorem releaseAir_bri (c : CoreId) (s : State) : (releaseAir c s).bri = s.bri := by
  have h := releaseAir_still c s
  simp only [stillPart, Prod.mk.injEq] at h
  simp only [h]

@[simp] theorem dropAir_bri (x : Tenant) (s : State) : (dropAir x s).bri = s.bri := by
  simp only [dropAir]
  split <;> split <;> simp

@[simp] theorem freeBuf_bri (h : Fin 32) (s : State) : (freeBuf h s).bri = s.bri := rfl

theorem foldl_freeBuf_bri (l : List (Fin 32)) (s : State) : (l.foldl (fun s h => freeBuf h s) s).bri = s.bri := by
  induction l generalizing s with
  | nil => rfl
  | cons h l ih => simp [ih]

@[simp] theorem dropBufs_bri (x : Tenant) (s : State) : (dropBufs x s).bri = s.bri := by
  simp [dropBufs, foldl_freeBuf_bri]

@[simp] theorem sessionGone_bri (t : Tenant) (reason : Nat) (s : State) : (sessionGone t reason s).bri = s.bri := by
  simp only [sessionGone]
  split
  · simp [evSessionClosed]
  · rfl

@[simp] theorem closeSession_bri (t : Tenant) (reason : Nat) (s : State) : (closeSession t reason s).bri = s.bri := by
  simp only [closeSession]
  split <;> simp

@[simp] theorem closeTagSession_bri (reason : Nat) (s : State) : (closeTagSession reason s).bri = s.bri := by
  simp only [closeTagSession]
  split
  · simp
  · rfl

@[simp] theorem failEngineWait_bri (t : Tenant) (st : Byte) (s : State) : (failEngineWait t st s).bri = s.bri := by
  simp only [failEngineWait]
  split
  · split <;> simp
  · rfl

@[simp] theorem queueFirst_bri (k : CommitKind) (pages : Nat) (s : State) : (queueFirst k pages s).bri = s.bri := rfl

@[simp] theorem raiseAll_bri (code : BitVec 16) (data : Bytes) (s : State) : (raiseAll code data s).bri = s.bri := rfl

@[simp] theorem logEntry_bri (code : BitVec 16) (data : Bytes) (s : State) : (logEntry code data s).bri = s.bri := by
  simp only [logEntry]
  split <;> rfl

/-- What an assertion of TAMPER changes of the tenant roots and shows in the status (R484): each root's GEN, whether it is lost, and
whether TAMPER was seen. -/
def rootMarks (s : State) : Vector (BitVec 16) 4 × Vector Bool 4 × Bool := (s.bri.roots, s.bri.dead, s.bri.seen)

theorem rootMarks_of_bri {s u : State} (h : u.bri = s.bri) : rootMarks u = rootMarks s := by
  simp only [rootMarks, h]

theorem forTenants_rootMarks (f : Tenant → State → State) (s : State) (h : ∀ t s, rootMarks (f t s) = rootMarks s) :
    rootMarks (forTenants f s) = rootMarks s := by
  simp only [forTenants, h]

/-- The end of a run marks its engine requests stale and leaves the roots as they are (R220). -/
theorem endProgram_rootMarks (x : Tenant) (st : Byte) (s : State) : rootMarks (endProgram x st s) = rootMarks s := by
  simp only [endProgram]
  split <;> simp [rootMarks, runOver]

theorem endAcc_rootMarks (t : Tenant) (st tagErr : Byte) (reason : Nat) (s : State) :
    rootMarks (endAcc t st tagErr reason s) = rootMarks s := by
  have told : ∀ u : State, u.bri = (endProgram t st (setAcc t none s)).bri → rootMarks u = rootMarks s := fun u hu =>
    (rootMarks_of_bri hu).trans ((endProgram_rootMarks ..).trans (rootMarks_of_bri (setAcc_bri ..)))
  simp only [endAcc]
  split
  · rfl
  · split <;> exact told _ (by simp [evSessionClosed])

/-- Applying TAMPER (R484): a root goes one generation further, and one that has no further generation is lost. -/
theorem tamperApply_rootMarks (s : State) :
    rootMarks (tamperApply s) = (s.bri.roots.map fun g => if g = 0xFFFF then g else g + 1,
      Vector.ofFn fun t => s.bri.dead[t] || s.bri.roots[t] == 0xFFFF, true) := by
  have waits := fun s => forTenants_rootMarks (fun t s => failEngineWait t stKeyOrphan s) s fun t s =>
    rootMarks_of_bri (failEngineWait_bri t stKeyOrphan s)
  have closes := fun s => forTenants_rootMarks (fun t s => closeSession t 0 s) s fun t s =>
    rootMarks_of_bri (closeSession_bri t 0 s)
  simp only [tamperApply]
  rw [rootMarks_of_bri (logEntry_bri ..), rootMarks_of_bri (raiseAll_bri ..), rootMarks_of_bri (setTag_bri ..),
    rootMarks_of_bri (closeTagSession_bri ..), closes, forTenants_rootMarks, waits]
  · rfl
  · intro t s
    split
    · split
      · rfl
      · exact endAcc_rootMarks ..
    · rfl

end Sys2Proof.Machine
end

section
/-!
PROOFS. KEY.TAMPER and TAMPER (R194, R483 to R485).
-/
namespace Sys2Proof.Machine

section Assertion
variable (now : Tick) (s : State) (ha : s.bri.armed = true) (hv : s.power.vioLost = false)
include ha hv

/-- R484, R485: in STANDBY, ACTIVE and LIMP. -/
theorem execTamperAssertion_applied (hm : s.power.mode = .run ∨ s.power.mode = .limp) :
    execTamperAssertion now s = .next (tamperApply (advanceTo now s)) := by
  rcases hm with hm | hm <;> simp [execTamperAssertion, ha, hv, hm]

/-- R485, R89: while the part is on its way up or down, the assertion waits in the latch. -/
theorem execTamperAssertion_latched (hm : s.power.mode = .waking ∨ s.power.mode = .hold ∨ s.power.mode = .lockout ∨
      s.power.mode = .drill ∨ s.power.mode = .start) :
    execTamperAssertion now s = .next (setBri (fun b => { b with latched := true }) (advanceTo now s)) := by
  rcases hm with hm | hm | hm | hm | hm <;> simp [execTamperAssertion, ha, hv, hm]

/-- R485: in SLEEP the assertion wakes the part and waits in the latch. -/
theorem execTamperAssertion_wakes (hm : s.power.mode = .sleep) :
    execTamperAssertion now s = .next (startWake .tamper (setBri (fun b => { b with latched := true }) (advanceTo now s))) := by
  simp [execTamperAssertion, ha, hv, hm]

end Assertion

/-- KEY.TAMPER of T0 arms an unarmed TAMPER and answers; a pin that is high then, with VIO there, is one assertion (R194). -/
theorem execKeyTamper_arms (c : Cmd) (pin : Bool) (s u : State) (h : Taken 0x4010 c s u) (ht : c.t = 0) (hargs : c.args = [1])
    (ha : u.bri.armed = false) :
    let v := reply c.t stOk [] (setBri (fun b => { b with armed := true }) u)
    execKeyTamper c pin s = .next (if pin = true ∧ v.power.vioLost = false then tamperApply v else v) := by
  have hform : fld [1] 0 1 = 1 := by decide
  simp only [execKeyTamper, keelRun_some _ _ _ _ _ h, isT0, ht, hargs, hform, ha]
  simp

/-- Settles O26: arming and the assertion by their branches, the roots by the frame of what `tamperApply` runs after it has
moved them. -/
theorem tamperCompletes : Obligations.TamperCompletes := by
  unfold Obligations.TamperCompletes
  refine ⟨?command, ?pin, ?roots⟩
  case command =>
    rintro c pin s u h ht hargs ha v rfl
    exact execKeyTamper_arms c pin s u h ht hargs ha
  case pin =>
    rintro now s u rfl ha hv
    rw [advanceTo_bri] at ha
    rw [advanceTo_power] at hv ⊢
    exact ⟨execTamperAssertion_applied now s ha hv, execTamperAssertion_latched now s ha hv,
      execTamperAssertion_wakes now s ha hv⟩
  case roots =>
    intro s t
    have marks := tamperApply_rootMarks s
    simp only [rootMarks, Prod.mk.injEq] at marks
    obtain ⟨hroots, hdead, hseen⟩ := marks
    refine ⟨?_, ?_, hseen⟩
    · rw [hroots]
      simp only [Fin.getElem_fin, Vector.getElem_map]
      split <;> simp_all
    · rw [hdead]
      simp

end Sys2Proof.Machine
end

section
/-!
PROOFS. The KEY commands (6.10, 16.3 to 16.6). A command that is taken up runs its body (`keelRun_some`); a statement's premises
then decide each check of the body, down to the branch that the statement names.
-/
namespace Sys2Proof.Machine

@[simp] theorem slotNo_val (k : Fin 48) : slotNo k.val = some k := by
  simp [slotNo]

-- ------------------------------------------------------------------ KEY.ERASE, KEY.INVALIDATE, KEY.INFO

section OwnSlot
variable {c : Cmd} {s u : State} {k : Fin 48}
  (hlen : c.args.length = 1) (hk : fld c.args 0 1 = k.val) (howner : slotOwner k = c.t)
include hlen hk howner

/-- R475: a free slot needs no erasing. -/
theorem execKeyErase_free (h : Taken 0x4002 c s u) (hkey : u.bri.slots[k].key = none) :
    execKeyErase c s = .next (reply c.t stOk [] u) := by
  rw [execKeyErase, keelRun_some _ _ _ _ _ h]
  simp only [hlen, hk, slotNo_val, howner, hkey, ne_eq, not_true_eq_false, if_false, Option.isNone_none, if_true]

/-- R477: the command stays in execution until its commit lands. -/
theorem execKeyErase_held (h : Taken 0x4002 c s u) (job : Job) (hjob : u.tens[c.t].exec = some job)
    (hkey : u.bri.slots[k].key ≠ none) :
    execKeyErase c s = .next (queueCommit (.keyErase c.t job k) 1 u) := by
  have occupied : u.bri.slots[k].key.isNone = false := Option.isNone_eq_false_iff.mpr (Option.isSome_iff_ne_none.mpr hkey)
  rw [execKeyErase, keelRun_some _ _ _ _ _ h]
  simp only [hlen, hk, slotNo_val, howner, occupied, hjob, ne_eq, not_true_eq_false, if_false,
    Bool.false_eq_true]

/-- R478: a slot that is not retired (R480). -/
theorem execKeyInvalidate_slot (h : Taken 0x4003 c s u) (job : Job) (hjob : u.tens[c.t].exec = some job)
    (hgen : u.bri.slots[k].gen ≠ 0xFFFF) :
    execKeyInvalidate c s = .next (queueCommit (.keyInval c.t job k) 1 u) := by
  have notRoot : k.val ≠ 0xFE := by omega
  rw [execKeyInvalidate, keelRun_some _ _ _ _ _ h]
  simp only [hlen, hjob, hk, notRoot, slotNo_val, howner, hgen, ne_eq, not_true_eq_false, if_false]

theorem execKeyInfo_slot (h : Taken 0x4004 c s u) :
    execKeyInfo c s = .next (reply c.t stOk (leBytes 2 (attrWord u k) ++ [BitVec.ofNat 8 (parentByte u.bri.slots[k])] ++
      leBytes 2 (slotPgen u.bri.slots[k]) ++ leBytes 2 u.bri.slots[k].gen.toNat ++ leBytes 3 (slotUses u.bri.slots[k])) u) := by
  have notRoot : k.val ≠ 0xFE := by omega
  rw [execKeyInfo, keelRun_some _ _ _ _ _ h]
  simp only [hlen, hk, notRoot, slotNo_val, howner, ne_eq, not_true_eq_false, if_false]

end OwnSlot

/-- R478: the tenant root, while it has a further generation (R480). -/
theorem execKeyInvalidate_root (c : Cmd) (s u : State) (job : Job) (h : Taken 0x4003 c s u) (hlen : c.args.length = 1)
    (hjob : u.tens[c.t].exec = some job) (hroot : fld c.args 0 1 = 0xFE) (hgen : u.bri.roots[c.t] ≠ 0xFFFF) :
    execKeyInvalidate c s = .next (queueCommit (.rootInval c.t job) 1 u) := by
  rw [execKeyInvalidate, keelRun_some _ _ _ _ _ h]
  simp only [hlen, hjob, hroot, hgen, ne_eq, not_true_eq_false, if_false, if_true]

-- ------------------------------------------------------------------ KEY.DERIVE, KEY.UNWRAP

/-- The form of KEY.DERIVE that its first check lets pass (6.10). -/
theorem keyDerive_form {a : Bytes} (hlabel : fld a 7 1 ≤ 16) (hctx : fld a (8 + fld a 7 1) 1 ≤ 32)
    (hlen : a.length = 9 + fld a 7 1 + fld a (8 + fld a 7 1) 1) (husage : usageBad (fld a 2 1) = false) (hexp : fld a 6 1 ≤ 1) :
    ¬ (a.length < 9 ∨ 16 < fld a 7 1 ∨ 32 < fld a (8 + fld a 7 1) 1 ∨
      a.length ≠ 9 + fld a 7 1 + fld a (8 + fld a 7 1) 1 ∨ usageBad (fld a 2 1) = true ∨ 1 < fld a 6 1) := by
  simp only [husage, Bool.false_eq_true, false_or]
  omega

/-- The form of KEY.UNWRAP that its first check lets pass (6.10). -/
theorem keyUnwrap_form {a : Bytes} (hlen : a.length = 8 + fld a 7 1) (hblob : fld a 7 1 = if 16 ≤ fld a 2 1 then 40 else 24)
    (husage : usageBad (fld a 2 1) = false) (hexp : fld a 6 1 ≤ 1) :
    ¬ (a.length < 8 ∨ a.length ≠ 8 + fld a 7 1 ∨ usageBad (fld a 2 1) = true ∨ 1 < fld a 6 1 ∨
      fld a 7 1 ≠ if 16 ≤ fld a 2 1 then 40 else 24) := by
  simp only [husage, ← hblob, Bool.false_eq_true, false_or]
  omega

/-- Settles O25, one command after the other: the premises decide the checks of its body. -/
theorem keyCommandsComplete : Obligations.KeyCommandsComplete := by
  unfold Obligations.KeyCommandsComplete
  refine ⟨?derive, ?unwrap, ?erase, ?invalidate, ?info⟩
  case derive =>
    rintro c s u k _ _ _ h rfl rfl rfl hlabel hctx hlen husage hexp hk htarget key rfl
    have hform := keyDerive_form hlabel hctx hlen husage hexp
    refine ⟨fun hp hroot => ?fromRoot, fun p v hp hparent hcharge => ?fromSlot⟩ <;> show execKeyDerive c s = _ <;>
      rw [execKeyDerive, keelRun_some _ _ _ _ _ h]
    case fromRoot =>
      simp only [if_neg hform, hk, slotNo_val, htarget, hp, hroot, if_true]
      rfl
    case fromSlot =>
      have notRoot : p.val ≠ 0xFE := by omega
      -- The new key's level is written with a match, which a separate module compiles to a matcher of its own.
      simp only [if_neg hform, hk, slotNo_val, htarget, hp, hparent, hcharge, if_neg notRoot] <;> rfl
  case unwrap =>
    rintro c s u k _ value h rfl hlen hblob husage hexp hk htarget key rfl held
    have hform := keyUnwrap_form hlen hblob husage hexp
    refine ⟨fun hp hroot hv => ?clear, fun p wk v hp hparent hwk hcharge hv => ?underKey⟩ <;> show execKeyUnwrap c s = _ <;>
      rw [execKeyUnwrap, keelRun_some _ _ _ _ _ h]
    case clear =>
      simp only [if_neg hform, hk, slotNo_val, htarget, hp, hroot, hv, if_true]
      rfl
    case underKey =>
      have inKey : p.val ≠ 0xFF := by omega
      simp only [if_neg hform, hk, slotNo_val, htarget, hp, hparent, hwk, hcharge, hv, if_neg inKey]
      rfl
  case erase =>
    exact fun c s u k job h hlen hk howner hjob =>
      ⟨execKeyErase_free hlen hk howner h, execKeyErase_held hlen hk howner h job hjob⟩
  case invalidate =>
    exact fun c s u job h hlen hjob =>
      ⟨execKeyInvalidate_root c s u job h hlen hjob,
       fun k hk howner hgen => execKeyInvalidate_slot hlen hk howner h job hjob hgen⟩
  case info =>
    exact fun c s u k h hlen hk howner => execKeyInfo_slot hlen hk howner h

end Sys2Proof.Machine
end

section
/-!
PROOFS. The state at reset (Table 3-10, Table 7-4).
-/
namespace Sys2Proof.Machine

theorem reset_binding (p : Fin 4) : State.reset.binding[p] = p := by
  simp [State.reset]

theorem reset_oneToOne : OneToOne State.reset := by
  intro p q h
  rwa [reset_binding, reset_binding] at h

theorem reset_memoriesCanonical : MemoriesCanonical State.reset := by
  obtain ⟨hctxs, hbufs, htag, hstore⟩ := reset_memories
  exact ⟨fun x => (hctxs x).symm, hbufs, htag, hstore⟩

theorem reset_tens (t : Tenant) : State.reset.tens[t] = .reset := by
  simp [State.reset]

theorem reset_ctxs (x : Tenant) : State.reset.ctxs[x] = .reset := by
  simp [State.reset]

theorem reset_prof (t : Tenant) : State.reset.prof[t] = .reset := by
  simp [State.reset]

theorem reset_votes (t : Tenant) : State.reset.power.votes[t] = false := by
  simp [State.reset, PowerSt.reset]

theorem reset_slots (k : Fin 48) : State.reset.bri.slots[k] = .reset := by
  simp [State.reset, BridleSt.reset]

theorem reset_chans (g : Fin 16) : State.reset.gdl.chans[g] = .reset := by
  simp [State.reset, GondolaSt.reset]

/-- Settles O52: each table of the part holds its reset entry everywhere, and the entry holds the value of the Reset column. -/
theorem resetState : Obligations.ResetState := by
  unfold Obligations.ResetState
  refine ⟨rfl, rfl, reset_oneToOne, reset_binding, rfl, rfl, rfl, ?tenants, reset_memoriesCanonical, ?slots, ?channels,
    rfl, rfl, rfl, rfl⟩
  case tenants =>
    intro t
    rw [reset_tens, reset_ctxs, reset_prof]
    exact ⟨rfl, rfl, rfl, rfl, rfl, reset_votes t, rfl, rfl, rfl⟩
  case slots =>
    intro k
    rw [reset_slots]
    exact ⟨rfl, rfl⟩
  case channels =>
    intro g
    rw [reset_chans]
    exact ⟨rfl, rfl⟩

end Sys2Proof.Machine
end

section
/-!
PROOFS. The resets, the start and XO32 (3.1, 3.2, 3.5).
-/
namespace Sys2Proof.Machine

-- ------------------------------------------------------------------ NRESET

/-- R48. -/
theorem execNreset_short (ns : Nat) (s : State) (h : ns < 200) : execNreset ns s = .next s := by
  simp [execNreset, h]

section Pulse
variable {ns : Nat} {s : State} (hvio : s.power.vioLost = false)
include hvio

theorem execNreset_long (h : 1000 ≤ ns) : execNreset ns s = .next (clearFor 2 false s) := by
  have notShort : ¬ ns < 200 := by omega
  simp [execNreset, hvio, notShort, h]

/-- Log entry 47: a pulse from 200 ns to 1 µs resets where the free choice says so. -/
theorem execNreset_between (hlow : 200 ≤ ns) (hhigh : ns < 1000) :
    execNreset ns s = .next (if (drawBool s).1 then clearFor 2 false (drawBool s).2 else (drawBool s).2) := by
  have notShort : ¬ ns < 200 := by omega
  have notLong : ¬ 1000 ≤ ns := by omega
  simp [execNreset, hvio, notShort, notLong]

end Pulse

/-- R37: without VIO the pin is not heard. -/
theorem execNreset_noVio (ns : Nat) (s : State) (hvio : s.power.vioLost = true) : execNreset ns s = .next s := by
  simp [execNreset, hvio]

-- ------------------------------------------------------------------ the start

/-- The straps as the release of a reset latches them (R46). -/
def strapped (sdo a1 a0 : Bool) : State → State :=
  setPower fun p => { p with
    strapV1 := !sdo, strapAddr := BitVec.ofNat 2 ((if a1 then 2 else 0) + (if a0 then 1 else 0)) }

theorem execResetRelease_start (sdo a1 a0 : Bool) (f : StartFinds) (s : State) (h : s.power.mode = .reset) :
    execResetRelease sdo a1 a0 false f s = .next (startWork f (strapped sdo a1 a0 s)) := by
  simp [execResetRelease, h, strapped, bitAt]

theorem execResetRelease_factory (sdo a1 a0 : Bool) (f : StartFinds) (s : State) (h : s.power.mode = .reset) :
    execResetRelease sdo a1 a0 true f s = .next (setPower (fun p => { p with mode := .factory }) (strapped sdo a1 a0 s)) := by
  simp [execResetRelease, h, strapped, bitAt]

/-- R62: Reel has counted for 32 ms, 768,000 ticks, at most. -/
theorem execStartComplete_start (s : State) (h : s.power.mode = .start) :
    execStartComplete s = .next (tamperIfLatched (startLive (setPower (fun p => { p with mode := .run, xo24Ok := true })
      (advanceTo (s.reel.cnt + BitVec.ofNat 48 ((drawNat s).1 % 768001)) (drawNat s).2)))) := by
  rw [execStartComplete, h]
  rfl

-- ------------------------------------------------------------------ Keel's own resets

theorem execKeelWatchdogExpiry_runs (f : StartFinds) (s : State) (h : keelRuns s = true) :
    execKeelWatchdogExpiry f s = .next (startWork f (clearFor 3 true s)) := by
  rw [execKeelWatchdogExpiry, if_pos h, warmStart]

theorem execUncorrectableSramError_live (bank : Fin 16) (row : BitVec 8) (vhu : Nat) (f : StartFinds) (s : State)
    (h : live s = true) :
    execUncorrectableSramError bank row vhu f s = .next (startWork f (clearFor 3 true
      (logCommitNow vhu (logEntry 0xF003 [BitVec.ofNat 8 bank.val, BitVec.ofNat 8 row.toNat] s)))) := by
  rw [execUncorrectableSramError, if_pos h, warmStart]

-- ------------------------------------------------------------------ XO32

theorem execXo32Timeout_silent (s : State) (hm : s.power.mode ≠ .reset) (hx : s.power.xo32Ok = false) :
    execXo32Timeout s = .next (setPower (fun p => { p with aonRc := true, xo32Gone := true }) s) := by
  simp [execXo32Timeout, hm, hx]

theorem execXo32Ready_awaited (s : State) (hm : s.power.mode ≠ .reset) (hx : s.power.xo32Ok = false)
    (hgone : s.power.xo32Gone = false) :
    execXo32Ready s = .next (setPower (fun p => { p with xo32Ok := true, aonRc := false }) s) := by
  simp [execXo32Ready, hm, hx, hgone]

theorem execXo32Stop_running (s : State) (hx : s.power.xo32Ok = true) :
    execXo32Stop s = .next (setPower (fun p => { p with xo32Ok := false, aonRc := true, xo32Gone := true }) s) := by
  rw [execXo32Stop, if_pos hx]

/-- Settles O45, one event after the other. -/
theorem resetEventsComplete : Obligations.ResetEventsComplete := by
  unfold Obligations.ResetEventsComplete
  refine ⟨fun s => rfl, ?nreset, execNreset_noVio, ?release, ?complete, execKeelWatchdogExpiry_runs,
    execUncorrectableSramError_live, ?absent, execXo32Stop_running⟩
  case nreset =>
    refine fun ns s hvio => ⟨execNreset_long hvio, execNreset_short ns s, fun hlow hhigh => ?_⟩
    refine ⟨_, execNreset_between hvio hlow hhigh, ?_⟩
    cases (drawBool s).1
    · exact .inr rfl
    · exact .inl rfl
  case release =>
    exact fun sdo a1 a0 f s hm =>
      ⟨execResetRelease_start sdo a1 a0 f s hm, execResetRelease_factory sdo a1 a0 f s hm⟩
  case complete =>
    exact fun s hm => ⟨_, Nat.lt_succ_iff.mp (Nat.mod_lt _ (by decide)), execStartComplete_start s hm⟩
  case absent =>
    exact fun s hm hx => ⟨execXo32Timeout_silent s hm hx, execXo32Ready_awaited s hm hx⟩

end Sys2Proof.Machine
end

section
/-!
PROOFS. The host ports' events (4.2 to 4.7), each on a port that hears.
-/
namespace Sys2Proof.Machine

-- ------------------------------------------------------------------ receiving (4.5)

section Line
variable {p : Port} {bus : Bus} {s : State}

theorem execHostFrame_taken (data : List Bool) (lag : Nat) (h : busTaken p bus s = true) :
    execHostFrame p bus data lag s =
      .next (takeFrames p lag ((s.ports[p].ring ++ lineBytes p data).length + 1) (decide (6 ≤ s.ports[p].ring.length))
        (s.ports[p].ring ++ lineBytes p data)
        (modPort p (fun q => { busEcho p bus (lineBytes p data).length q with ring := [] }) s)) := by
  rw [execHostFrame, if_pos h]

theorem execHostFrame_untaken (data : List Bool) (lag : Nat) (h : busTaken p bus s = false) :
    execHostFrame p bus data lag s = .next (busNack p s) := by
  simp [execHostFrame, h]

section Hears
variable (hears : portHears p s = true)
include hears

/-- R99. -/
theorem execSpiInvalidTransaction_counted (hp : p.val < 2) (b : Byte) (hframe : b ≠ 0x5A) (hread : b ≠ 0x00) :
    execSpiInvalidTransaction p b s = .next (countBad p s) := by
  have bad : (portHears p s && decide (p.val < 2) && b != 0x5A && b != 0x00) = true := by
    rw [hears, decide_eq_true hp, bne_iff_ne.mpr hframe, bne_iff_ne.mpr hread]; rfl
  exact if_pos bad

/-- R100, R102. -/
theorem execFrameAbort_cut (hp : p.val < 3) : execFrameAbort p s = .next (cutFrame p s) := by
  have notUart : p ≠ 3 := by rintro rfl; exact absurd hp (by decide)
  simp [execFrameAbort, hears, notUart]

-- ------------------------------------------------------------------ delivering (4.6)

variable (haddr : addressed p bus s = true)
include haddr

/-- R109: a half-duplex UART sends nothing by itself. -/
theorem execOutgoingFrameDelivered_whole (hduplex : p = 3 → halfDuplex s = false) :
    execOutgoingFrameDelivered p bus s = .next (deliverToHost p bus s) := by
  have unasked : (p == 3 && halfDuplex s) = false := by
    rw [Bool.and_eq_false_imp, beq_iff_eq]
    exact hduplex
  simp [execOutgoingFrameDelivered, hears, haddr, unasked]

/-- R120: a frame cut short stays at the head of its queue. -/
theorem execPartialDelivery_cut (n : Nat) (o : Out) (ho : nextOut p s = some o) (hn : n < (nextFrame p o s).length) :
    execPartialDelivery p bus n s = .next (modPort p (fun q => { q with
      txPart := n, line := lineBits p (readLead p bus ++ (nextFrame p o s).take n) }) s) := by
  simp [execPartialDelivery, hears, haddr, ho, hn]

/-- R101. -/
theorem execPartialDelivery_idle (n : Nat) (ho : nextOut p s = none) (hp : p ≠ 3) :
    execPartialDelivery p bus n s = .next (modPort p (fun q => { q with
      line := lineBits p (readLead p bus ++ List.replicate n 0xFF) }) s) := by
  simp [execPartialDelivery, hears, haddr, ho, hp]

end Hears

@[simp] theorem divSwitch_ports (o : Out) (s : State) : (divSwitch o s).ports = s.ports := by
  simp only [divSwitch]
  split
  · split <;> rfl
  · rfl

@[simp] theorem divSwitch_tens (o : Out) (s : State) : (divSwitch o s).tens = s.tens := by
  simp only [divSwitch]
  split
  · split <;> rfl
  · rfl

theorem deliverToHost_some (o : Out) (ho : nextOut p s = some o) :
    deliverToHost p bus s = divSwitch o (modPort p (fun q => { q with
      sent := nextFrame p o s, txPart := 0, line := lineBits p (readLead p bus ++ nextFrame p o s)
      mode3 := if p.val < 2 then bus.sckHigh else q.mode3 }) (dequeueOut p s)) := by
  simp only [deliverToHost, ho]

/-- R101, R120: what a whole delivery leaves at the port, and that the frame is off its queue. -/
theorem deliverToHost_whole (o : Out) (ho : nextOut p s = some o) :
    (deliverToHost p bus s).ports[p].sent = nextFrame p o s ∧ (deliverToHost p bus s).ports[p].txPart = 0 ∧
    (deliverToHost p bus s).ports[p].line = lineBits p (readLead p bus ++ nextFrame p o s) ∧
    (deliverToHost p bus s).tens = (dequeueOut p s).tens := by
  rw [deliverToHost_some o ho]
  simp

end Line

-- ------------------------------------------------------------------ the UART and the port resets (4.4, 4.7)

section Uart
variable {s : State} (hears : portHears 3 s = true)
include hears

theorem execUartGapTimeout_cut : execUartGapTimeout s = .next (cutFrame 3 s) := by
  rw [execUartGapTimeout, if_pos hears]

theorem execUartFramingError_cut : execUartFramingError s = .next (cutFrame 3 s) := by
  rw [execUartFramingError, if_pos hears]

theorem execUartBreak_reset : execUartBreak s = .next (portReset 3 s) := by
  rw [execUartBreak, if_pos hears]

/-- R107, R109: UA_DE is high for a bit before the reply's bytes and for the 10 bits of each. -/
theorem execUartHdxReply_sends (n : Nat) (hduplex : halfDuplex s = true) (hpolled : s.ports[(3 : Fin 4)].polled = true) :
    execUartHdxReply n s = .next (modPort 3 (fun q => { q with
      polled := false
      burst := if (deliverMany (min n 4) s).1 = 0 then none
        else some (s.reel.cnt + BitVec.ofNat 48 (((1 + 10 * (deliverMany (min n 4) s).1) * s.div.toNat + 1) / 2)) })
      (deliverMany (min n 4) s).2) := by
  have answers : (portHears 3 s && halfDuplex s && s.ports[(3 : Fin 4)].polled) = true := by
    rw [hears, hduplex, hpolled]; rfl
  exact if_pos answers

end Uart

theorem execI2cStuckBus_reset (s : State) (hears : portHears 2 s = true) : execI2cStuckBus s = .next (portReset 2 s) := by
  rw [execI2cStuckBus, if_pos hears]

/-- Table 4-9: in V1 mode too, so that the port need not hear. -/
theorem execSpiPortResetSequence_reset (p : Port) (s : State) (hlive : live s = true) (hvio : s.power.vioLost = false)
    (hp : p.val < 2) : execSpiPortResetSequence p s = .next (portReset p s) := by
  simp [execSpiPortResetSequence, hlive, hvio, hp]

theorem execVioLoss_lost (s : State) (h : s.power.mode ≠ .reset) :
    execVioLoss s = .next (setPower (fun p => { p with vioLost := true }) s) := by
  simp [execVioLoss, h]

theorem execVioReturn_resets (s : State) (h : s.power.vioLost = true) :
    execVioReturn s = .next (portReset 3 (portReset 2 (portReset 1 (portReset 0
      (setPower (fun p => { p with vioLost := false }) s))))) := by
  rw [execVioReturn, if_pos h]

/-- R125. -/
theorem execPresenceTimeout_detaches (p : Port) (now : Tick) (s u : State) (hu : advanceTo now s = u)
    (hm : u.power.mode = .run) (hn : bits u.ports[p].cfg 15 8 ≠ 0)
    (hthere : u.ports[p].attached = true ∨ u.ports[p].moved = true)
    (hdue : reached u.reel.cnt (u.ports[p].presFrom + BitVec.ofNat 48 (bits u.ports[p].cfg 15 8 * 24000000)) = true) :
    execPresenceTimeout p now s = .next (detach p 1 u) := by
  simp only [execPresenceTimeout, hu, hm, hdue, beq_self_eq_true, bne_iff_ne.mpr hn, Bool.or_eq_true_iff.mpr hthere,
    Bool.and_self, if_true]

/-- Settles O43: the events of one port and its bus, then those that belong to a port of one kind or to all. -/
theorem portEventsComplete : Obligations.PortEventsComplete := by
  unfold Obligations.PortEventsComplete
  refine ⟨fun p bus s => ⟨?received, ?heard, deliverToHost_whole⟩, fun p s =>
    ⟨?uart, execI2cStuckBus_reset s, execSpiPortResetSequence_reset p s, execVioLoss_lost s, execVioReturn_resets s, ?presence⟩⟩
  case received =>
    refine fun data lag => ⟨?_, execHostFrame_untaken data lag⟩
    rintro h old b rfl rfl
    exact execHostFrame_taken data lag h
  case heard =>
    exact fun hears => ⟨execSpiInvalidTransaction_counted hears, execFrameAbort_cut hears, fun haddr =>
      ⟨execOutgoingFrameDelivered_whole hears haddr, execPartialDelivery_cut hears haddr,
        execPartialDelivery_idle hears haddr⟩⟩
  case uart =>
    exact fun hears => ⟨execUartGapTimeout_cut hears, execUartFramingError_cut hears, execUartBreak_reset hears,
      execUartHdxReply_sends hears⟩
  case presence =>
    exact fun now => execPresenceTimeout_detaches p now s _ rfl

end Sys2Proof.Machine
end

section
/-!
SUPPORT. What the end of a run, an access or a session, the loss of the air and a claim of the lantern tag leave alone of power,
Reel, the lantern tag's enable and the presence sniff.
-/
namespace Sys2Proof.Machine

/-- Power, Reel, whether the lantern tag is enabled, and the presence sniff. -/
def steadyPart (s : State) : PowerSt × ReelSt × Bool × Option Sniff := (s.power, s.reel, s.tag.enabled, s.rdr.sniff)

-- ------------------------------------------------------------------ the updates of the state

@[simp] theorem modTen_steady (t : Tenant) (f : TenantSt → TenantSt) (s : State) : steadyPart (modTen t f s) = steadyPart s := rfl
@[simp] theorem modCtx_steady (x : Tenant) (f : Ctx → Ctx) (s : State) : steadyPart (modCtx x f s) = steadyPart s := rfl
@[simp] theorem modSess_steady (t : Tenant) (f : SecSess → SecSess) (s : State) : steadyPart (modSess t f s) = steadyPart s := rfl
@[simp] theorem setRadio_steady (f : RadioSt → RadioSt) (s : State) : steadyPart (setRadio f s) = steadyPart s := rfl
@[simp] theorem setLink_steady (f : LinkSt → LinkSt) (s : State) : steadyPart (setLink f s) = steadyPart s := rfl
@[simp] theorem setStore_steady (f : StoreSt → StoreSt) (s : State) : steadyPart (setStore f s) = steadyPart s := rfl
@[simp] theorem setSvy_steady (f : SurveySt → SurveySt) (s : State) : steadyPart (setSvy f s) = steadyPart s := rfl
@[simp] theorem setInv_steady (x : Tenant) (i : Option Inv) (s : State) : steadyPart (setInv x i s) = steadyPart s := rfl
@[simp] theorem setAcc_steady (x : Tenant) (a : Option Acc) (s : State) : steadyPart (setAcc x a s) = steadyPart s := rfl

@[simp] theorem setRdr_steady (f : ReaderSt → ReaderSt) (s : State) (h : ∀ r, (f r).sniff = r.sniff) :
    steadyPart (setRdr f s) = steadyPart s := by
  simp only [steadyPart, setRdr, h]

@[simp] theorem setTag_steady (f : LanternSt → LanternSt) (s : State) (h : ∀ g, (f g).enabled = g.enabled) :
    steadyPart (setTag f s) = steadyPart s := by
  simp only [steadyPart, setTag, h]

theorem ite_steady {c : Prop} [Decidable c] {a b s : State} (ha : steadyPart a = steadyPart s) (hb : steadyPart b = steadyPart s) :
    steadyPart (if c then a else b) = steadyPart s := by
  split <;> assumption

theorem forTenants_steady (f : Tenant → State → State) (s : State) (h : ∀ t s, steadyPart (f t s) = steadyPart s) :
    steadyPart (forTenants f s) = steadyPart s := by
  simp only [forTenants, h]

theorem foldl_steady {α : Type} (f : State → α → State) (l : List α) (s : State)
    (h : ∀ s a, steadyPart (f s a) = steadyPart s) : steadyPart (l.foldl f s) = steadyPart s := by
  induction l generalizing s with
  | nil => rfl
  | cons a l ih => rw [List.foldl_cons, ih, h]

-- ------------------------------------------------------------------ responses, events and the log

@[simp] theorem raise_steady (t : Tenant) (code : BitVec 16) (data : Bytes) (s : State) :
    steadyPart (raise t code data s) = steadyPart s := rfl

@[simp] theorem raiseAll_steady (code : BitVec 16) (data : Bytes) (s : State) : steadyPart (raiseAll code data s) = steadyPart s := rfl

@[simp] theorem evSessionClosed_steady (t : Tenant) (tseq : BitVec 16) (sid : Byte) (reason : Nat) (s : State) :
    steadyPart (evSessionClosed t tseq sid reason s) = steadyPart s := rfl

@[simp] theorem reply_steady (t : Tenant) (st : Byte) (res : Bytes) (s : State) : steadyPart (reply t st res s) = steadyPart s := by
  simp [steadyPart]

@[simp] theorem logEntry_steady (code : BitVec 16) (data : Bytes) (s : State) : steadyPart (logEntry code data s) = steadyPart s := by
  simp only [logEntry]
  split <;> simp

-- ------------------------------------------------------------------ the air

@[simp] theorem setHold_steady (c : CoreId) (h : Option Hold) (s : State) : steadyPart (setHold c h s) = steadyPart s := by
  cases c <;> rfl

@[simp] theorem searchAgain_steady (s : State) : steadyPart (searchAgain s) = steadyPart s := rfl

@[simp] theorem setCore_steady (c : CoreId) (x : CoreSt) (s : State) : steadyPart (setCore c x s) = steadyPart s := by
  cases c with
  | reader => rfl
  | link =>
    simp only [setCore]
    split
    · split <;> simp
    · simp

@[simp] theorem coexTrack_steady (s : State) : steadyPart (coexTrack s) = steadyPart s := by
  simp only [coexTrack]
  split
  · split <;> simp
  · simp

@[simp] theorem chargeTenant_steady (t : Tenant) (since : Tick) (s : State) :
    steadyPart (chargeTenant t since s) = steadyPart s := rfl

@[simp] theorem chargeListen_steady (h : Hold) (t : Tenant) (s : State) : steadyPart (chargeListen h t s) = steadyPart s := by
  simp only [chargeListen]
  split
  · split <;> simp
  · rfl

@[simp] theorem charge_steady (h : Hold) (s : State) : steadyPart (charge h s) = steadyPart s := by
  simp only [charge]
  split
  · exact forTenants_steady _ _ (chargeListen_steady h)
  · simp
  · rfl

@[simp] theorem ownRoundEnd_steady (s : State) : steadyPart (ownRoundEnd s) = steadyPart s := by
  simp only [ownRoundEnd]
  split <;> simp

@[simp] theorem carrierOff_steady (now : Tick) (s : State) : steadyPart (carrierOff now s) = steadyPart s := by
  simp only [carrierOff]
  split <;> split <;> simp

@[simp] theorem leaveChannel_steady (now : Tick) (s : State) : steadyPart (leaveChannel now s) = steadyPart s := rfl

@[simp] theorem aerialRestore_steady (s : State) : steadyPart (aerialRestore s) = steadyPart s := rfl

@[simp] theorem linkRampDown_steady (s : State) : steadyPart (linkRampDown s).2 = steadyPart s := rfl

@[simp] theorem trswEnd_steady (s : State) : steadyPart (trswEnd s) = steadyPart s := by
  simp only [trswEnd]
  split
  · rfl
  · split
    · simp
    · split <;> simp

@[simp] theorem coreDown_steady (c : CoreId) (s : State) : steadyPart (coreDown c s) = steadyPart s := by
  cases c <;> simp only [coreDown]
  case reader => split <;> simp
  case link => simp

@[simp] theorem releaseAir_steady (c : CoreId) (s : State) : steadyPart (releaseAir c s) = steadyPart s := by
  simp only [releaseAir]
  split
  · rfl
  · split <;> simp

@[simp] theorem dropWaiters_steady (w : Who) (s : State) : steadyPart (dropWaiters w s) = steadyPart s := by
  simp [dropWaiters]

@[simp] theorem sessionGone_steady (t : Tenant) (reason : Nat) (s : State) : steadyPart (sessionGone t reason s) = steadyPart s := by
  simp only [sessionGone]
  split <;> simp

@[simp] theorem builtinWaits_steady (t : Tenant) (s : State) : steadyPart (builtinWaits t s) = steadyPart s := by
  simp only [builtinWaits]
  split <;> simp

@[simp] theorem ctxLost_steady (t : Tenant) (c : CoreId) (s : State) : steadyPart (ctxLost t c s) = steadyPart s := by
  simp [ctxLost]

@[simp] theorem afterLoss_steady (h : Hold) (s : State) : steadyPart (afterLoss h s) = steadyPart s := by
  simp only [afterLoss]
  split
  case h_1 => split <;> simp
  all_goals simp

@[simp] theorem loseAir_steady (c : CoreId) (s : State) : steadyPart (loseAir c s) = steadyPart s := by
  simp only [loseAir]
  split <;> simp

@[simp] theorem preemptFor_steady (r : AirReq) (c : CoreId) (s : State) : steadyPart (preemptFor r c s) = steadyPart s := by
  simp only [preemptFor]
  split
  · rfl
  · split <;> simp

@[simp] theorem sweepSkip_steady (s : State) : steadyPart (sweepSkip s) = steadyPart s := by
  simp only [sweepSkip]
  split
  · rfl
  · split
    · split <;> simp
    · rfl

/-- The lantern tag takes the reader core as it is: nothing is tuned, loaded or begun for it (R271). -/
theorem grantAir_lantern_steady (r : AirReq) (now : Tick) (s : State) (h : r.who = .lantern) :
    steadyPart (grantAir r now s) = steadyPart s := by
  have begins : ∀ u : State, onGrant r now u = u := fun u => by simp only [onGrant, h]
  have freq : ∀ u : State, coreFreq r u = u := fun u => by simp only [coreFreq, h, id]
  have tunes : ∀ u : State, coreTune r now u = u := fun u => by simp [coreTune, keelTunes, h]
  have aerial : ∀ u : State, aerialFor r u = u := fun u => by
    simp only [aerialFor, h]
    cases r.core <;> rfl
  simp [grantAir, begins, freq, tunes, aerial]

/-- R271, R376. -/
@[simp] theorem lanternHold_steady (s : State) : steadyPart (lanternHold s) = steadyPart s := by
  simp only [lanternHold, requestAir]
  split
  · rfl
  · split
    · exact grantAir_lantern_steady _ _ _ rfl
    · simp

-- ------------------------------------------------------------------ runs, accesses, sessions and TAMPER

@[simp] theorem dropAir_steady (x : Tenant) (s : State) : steadyPart (dropAir x s) = steadyPart s := by
  simp only [dropAir]
  split <;> split <;> simp

@[simp] theorem dropBufs_steady (x : Tenant) (s : State) : steadyPart (dropBufs x s) = steadyPart s := by
  simp only [dropBufs, modCtx_steady]
  exact foldl_steady _ _ _ fun _ _ => rfl

@[simp] theorem runOver_steady (x : Tenant) (s : State) : steadyPart (runOver x s) = steadyPart s := rfl

@[simp] theorem finishStart_steady (x : Tenant) (st : Byte) (s : State) : steadyPart (finishStart x st s) = steadyPart s := by
  simp only [finishStart]
  split <;> simp

@[simp] theorem endProgram_steady (x : Tenant) (st : Byte) (s : State) : steadyPart (endProgram x st s) = steadyPart s := by
  simp only [endProgram]
  split <;> simp

@[simp] theorem endAcc_steady (t : Tenant) (st tagErr : Byte) (reason : Nat) (s : State) :
    steadyPart (endAcc t st tagErr reason s) = steadyPart s := by
  simp only [endAcc]
  split
  · rfl
  · split <;> simp

@[simp] theorem failEngineWait_steady (t : Tenant) (st : Byte) (s : State) : steadyPart (failEngineWait t st s) = steadyPart s := by
  simp only [failEngineWait, endWait]
  split
  · split <;> simp
  · rfl

@[simp] theorem closeSession_steady (t : Tenant) (reason : Nat) (s : State) :
    steadyPart (closeSession t reason s) = steadyPart s := by
  simp only [closeSession]
  split <;> simp

@[simp] theorem closeTagSession_steady (reason : Nat) (s : State) : steadyPart (closeTagSession reason s) = steadyPart s := by
  simp only [closeTagSession]
  split <;> simp

@[simp] theorem tamperApply_steady (s : State) : steadyPart (tamperApply s) = steadyPart s := by
  have waits := fun s => forTenants_steady (fun t s => failEngineWait t stKeyOrphan s) s fun t s =>
    failEngineWait_steady t stKeyOrphan s
  have closes := fun s => forTenants_steady (fun t s => closeSession t 0 s) s fun t s => closeSession_steady t 0 s
  simp only [tamperApply, logEntry_steady, raiseAll_steady]
  rw [setTag_steady, closeTagSession_steady, closes, forTenants_steady, waits]
  · rfl
  · intro t s
    split
    · split <;> simp
    · rfl
  · exact fun _ => rfl

@[simp] theorem tamperIfLatched_steady (s : State) : steadyPart (tamperIfLatched s) = steadyPart s := by
  simp only [tamperIfLatched]
  split <;> simp

end Sys2Proof.Machine
end

section
/-!
PROOFS. Sleep, wake and their failures (3.3, 3.4, 3.7).
-/
namespace Sys2Proof.Machine

-- ------------------------------------------------------------------ the parts of sleep and wake

/-- R76: losing trust in Reel marks the open interval and REEL_UNTRUSTED only. -/
theorem untrust_only (rc : Bool) (s : State) :
    untrust rc s = { s with ldg := (untrust rc s).ldg, power := { s.power with untrusted := (untrust rc s).power.untrusted } } := by
  simp only [untrust]
  split <;> rfl

@[simp] theorem untrust_mode (rc : Bool) (s : State) : (untrust rc s).power.mode = s.power.mode := by rw [untrust_only]
@[simp] theorem untrust_reel (rc : Bool) (s : State) : (untrust rc s).reel = s.reel := by rw [untrust_only]
@[simp] theorem untrust_radio (rc : Bool) (s : State) : (untrust rc s).radio = s.radio := by rw [untrust_only]
@[simp] theorem untrust_rdr (rc : Bool) (s : State) : (untrust rc s).rdr = s.rdr := by rw [untrust_only]
@[simp] theorem untrust_link (rc : Bool) (s : State) : (untrust rc s).link = s.link := by rw [untrust_only]

@[simp] theorem untrust_untrusted (s : State) : (untrust true s).power.untrusted = true := by
  simp only [untrust]
  split <;> simp_all

@[simp] theorem coresTo_steady (x : CoreSt) (s : State) : steadyPart (coresTo x s) = steadyPart s := by
  simp [coresTo]

@[simp] theorem coresTo_power (x : CoreSt) (s : State) : (coresTo x s).power = s.power :=
  congrArg Prod.fst (coresTo_steady x s)

@[simp] theorem coresTo_reel (x : CoreSt) (s : State) : (coresTo x s).reel = s.reel :=
  congrArg (fun q => q.2.1) (coresTo_steady x s)

@[simp] theorem reelResume_cnt (now : Tick) (s : State) : (reelResume now s).reel.cnt = now := by
  simp only [reelResume]
  split <;> rfl

@[simp] theorem mendEvent_steady (code : Nat) (degraded : Bool) (s : State) : steadyPart (mendEvent code degraded s) = steadyPart s := rfl

@[simp] theorem queueMap_steady (wear : Bool) (s : State) : steadyPart (queueMap wear s) = steadyPart s := rfl

theorem startLive_steady (s : State) : steadyPart (startLive s) = steadyPart (setPower (fun p => { p with started := true }) s) := by
  have mends := fun (l : List Nat) (c d : Nat → Bool) (u : State) =>
    foldl_steady (fun s i => if c i = true then mendEvent i (d i) s else s) l u fun _ _ => ite_steady (mendEvent_steady ..) rfl
  have resets := fun (u : State) (f : Tenant → TenantSt → TenantSt) =>
    forTenants_steady (fun t => modTen t (f t)) u fun t s => modTen_steady t (f t) s
  simp only [startLive]
  refine (ite_steady (queueMap_steady ..) rfl).trans ?_
  rw [mends, logEntry_steady, resets]

/-- The ports are live after a wake or in LIMP, whether the start that was cut short had made them live or not. -/
theorem portsLive_steady (s : State) :
    steadyPart (if s.power.started = true then s else startLive s) =
      steadyPart (setPower (fun p => { p with started := true }) s) := by
  split
  · next h =>
    have same : { s.power with started := true } = s.power := by rw [← h]
    simp only [steadyPart, setPower, same]
  · exact startLive_steady s

-- ------------------------------------------------------------------ SLEEP

/-- R38, R438: what falling asleep leaves of the cores, the RF wires and Reel. -/
theorem enterSleep_asleep (s : State) :
    (enterSleep s).power.mode = .sleep ∧ (enterSleep s).reel.keeper = s.reel.cnt ∧ (enterSleep s).radio.rState = .sleep ∧
    (enterSleep s).radio.lState = .sleep ∧ (enterSleep s).rdr.paen = none ∧ (enterSleep s).link.trsw = none := by
  simp only [enterSleep, untrust_mode, untrust_reel, untrust_radio, untrust_rdr, untrust_link]
  exact ⟨rfl, rfl, rfl, rfl, rfl, rfl⟩

section Entry
variable {now : Tick} {vhu : Nat} {s : State} (hmay : maySleep (advanceTo now s) = true)
include hmay

theorem execSleepEntry_sleeps (hq : (sleepCommits vhu (advanceTo now s)).store.queue = [])
    (hd : (sleepCommits vhu (advanceTo now s)).store.deferred = []) :
    execSleepEntry now vhu s = .next (enterSleep (sleepCommits vhu (advanceTo now s))) := by
  simp only [execSleepEntry, hmay, hq, hd, List.isEmpty_nil, Bool.and_self, if_true]

/-- R67: a commit that Ballast defers keeps the part awake. -/
theorem execSleepEntry_stays (h : (sleepCommits vhu (advanceTo now s)).store.queue ≠ [] ∨
      (sleepCommits vhu (advanceTo now s)).store.deferred ≠ []) :
    execSleepEntry now vhu s = .next (sleepCommits vhu (advanceTo now s)) := by
  have waits : ((sleepCommits vhu (advanceTo now s)).store.queue.isEmpty &&
      (sleepCommits vhu (advanceTo now s)).store.deferred.isEmpty) = false := by
    rcases h with h | h <;> simp [List.isEmpty_eq_false_iff.mpr h]
  simp only [execSleepEntry, hmay, waits, if_true, Bool.false_eq_true, if_false]

end Entry

-- ------------------------------------------------------------------ what wakes the part

section Pins
variable {s : State} (hvio : s.power.vioLost = false)
include hvio

theorem execWakePin_wakes : execWakePin s = .next (startWake .wakePin s) := by
  simp [execWakePin, hvio]

/-- R46, R71: an I2C START wakes the part with its own address. -/
theorem execPortWakeEdge_wakes (e : Edge) (a : BitVec 7) (haddr : e = .i2cStart → a = i2cAddr s) :
    execPortWakeEdge e a s = .next (startWake (.port s.binding[edgePort e]) s) := by
  have mine : (e == .i2cStart && a != i2cAddr s) = false := by
    rw [Bool.and_eq_false_imp, beq_iff_eq, bne_eq_false_iff_eq]
    exact haddr
  simp only [execPortWakeEdge, hvio, mine, Bool.or_self, Bool.false_eq_true, if_false]

end Pins

/-- R46: a START with another address leaves the part asleep. -/
theorem execPortWakeEdge_other (a : BitVec 7) (s : State) (haddr : a ≠ i2cAddr s) :
    execPortWakeEdge .i2cStart a s = .next s := by
  simp [execPortWakeEdge, haddr]

/-- Some compare of a list has come within the wake lead, by the keeper's count (R68). -/
def leadDue (n : Nat) (s : State) (l : List Tick) : Bool := l.any fun v => reached (keeperAt n s) (v - 76800)

theorem leadDue_iff (n : Nat) (s : State) (l : List Tick) :
    leadDue n s l = true ↔ ∃ v ∈ l, reached (keeperAt n s) (v - 76800) = true := by
  rw [leadDue, List.any_eq_true]

theorem leadDue_false_iff (n : Nat) (s : State) (l : List Tick) :
    leadDue n s l = false ↔ ∀ v ∈ l, reached (keeperAt n s) (v - 76800) = false := by
  simp [leadDue, List.any_eq_false]

theorem execCompareWakeLead_tenant (n : Nat) (s : State) (h : leadDue n s (wakeCompares s) = true) :
    execCompareWakeLead n s = .next (startWake .reelCmp s) :=
  if_pos h

theorem execCompareWakeLead_keel (n : Nat) (s : State) (htenant : leadDue n s (wakeCompares s) = false)
    (hkeel : leadDue n s (keelCompares s) = true) : execCompareWakeLead n s = .next (startWake .keel s) :=
  (if_neg (Bool.eq_false_iff.mp htenant)).trans (if_pos hkeel)

-- ------------------------------------------------------------------ STANDBY after a wake

/-- Power as a wake leaves it once STANDBY is reached (R88). -/
def standbyPower (p : PowerSt) : PowerSt :=
  { p with mode := .run, wake := none, wakeRun := 0, xo24Ok := true, coreRc := false, started := true }

@[simp] theorem evFieldTo_steady (on level : Byte) (s : State) : steadyPart (evFieldTo on level s) = steadyPart s := by
  simp only [evFieldTo]
  split <;> simp

@[simp] theorem tellWake_steady (c : Option WakeCause) (s : State) : steadyPart (tellWake c s) = steadyPart s := by
  simp only [tellWake]
  split <;> simp

/-- R372, R376: the lantern tag's part in a wake, a crew reader's field that is there being told and the core claimed. -/
theorem fieldAtWake_steady (s : State) : ∃ t,
    (if (s.tag.enabled && s.tag.field) = true then
      .next (lanternHold (setTag (fun g => { g with owed := false }) (if s.tag.owed = true then evFieldTo 1 s.tag.level s else s)))
    else .next s : Host.Outcome State Fault Refusal) = .next t ∧ steadyPart t = steadyPart s := by
  split
  · exact ⟨_, rfl, (lanternHold_steady _).trans
      ((setTag_steady _ _ fun _ => rfl).trans (ite_steady (evFieldTo_steady ..) rfl))⟩
  · exact ⟨s, rfl, rfl⟩

/-- R71, R372, R376, R485: what follows in STANDBY - the events, TAMPER, the lantern tag's claim - leaves power and Reel as the
wake made them. -/
theorem execWakeComplete_standby (n : Nat) (s : State) (h : s.power.mode = .waking) :
    ∃ t, execWakeComplete n s = .next t ∧ steadyPart t =
      steadyPart (setPower standbyPower (untrust s.power.aonRc (coresTo .standby (reelResume (keeperAt n s) s)))) := by
  simp only [execWakeComplete, h, beq_self_eq_true, if_true]
  refine Exists.imp (fun t ht => ⟨ht.1, ht.2.trans ?_⟩) (fieldAtWake_steady _)
  rw [tamperIfLatched_steady, tellWake_steady, portsLive_steady]
  rfl

theorem execWakeComplete_resumes (n : Nat) (s : State) (h : s.power.mode = .waking) :
    ∃ t, execWakeComplete n s = .next t ∧ t.power.mode = .run ∧ t.power.wake = none ∧ t.power.wakeRun = 0 ∧
      t.reel.cnt = keeperAt n s := by
  obtain ⟨t, ht, steady⟩ := execWakeComplete_standby n s h
  simp only [steadyPart, Prod.mk.injEq] at steady
  obtain ⟨hpower, hreel, -, -⟩ := steady
  refine ⟨t, ht, ?_, ?_, ?_, ?_⟩
  · rw [hpower]; rfl
  · rw [hpower]; rfl
  · rw [hpower]; rfl
  · rw [hreel]; simp

-- ------------------------------------------------------------------ LIMP

theorem lanternRelease_still (s : State) : stillPart (lanternRelease s) = stillPart s := by
  simp only [lanternRelease]
  split <;> simp

@[simp] theorem lanternRelease_power (s : State) : (lanternRelease s).power = s.power :=
  congrArg (fun q => q.2.1) (lanternRelease_still s)

@[simp] theorem lanternRelease_tag (s : State) : (lanternRelease s).tag = s.tag := by
  have h := lanternRelease_still s
  simp only [stillPart, Prod.mk.injEq] at h
  simp only [h]

@[simp] theorem closeTagSession_power (reason : Nat) (s : State) : (closeTagSession reason s).power = s.power :=
  congrArg Prod.fst (closeTagSession_steady reason s)

@[simp] theorem tagOff_power (s : State) : (tagOff s).power = s.power := by
  simp only [tagOff]
  split <;> simp

/-- R369. -/
@[simp] theorem tagOff_enabled (s : State) : (tagOff s).tag.enabled = false := by
  simp only [tagOff]
  split
  · simp
  · next h => exact Bool.eq_false_iff.mpr h

/-- R343. -/
@[simp] theorem sniffStop_sniff (s : State) : (sniffStop s).rdr.sniff = none := by
  simp only [sniffStop]
  split
  · assumption
  · rfl

theorem sniffStop_still (s : State) : stillPart (sniffStop s) = stillPart s := by
  simp only [sniffStop]
  split
  · rfl
  · split <;> simp

@[simp] theorem sniffStop_power (s : State) : (sniffStop s).power = s.power :=
  congrArg (fun q => q.2.1) (sniffStop_still s)

@[simp] theorem sniffStop_tag (s : State) : (sniffStop s).tag = s.tag := by
  have h := sniffStop_still s
  simp only [stillPart, Prod.mk.injEq] at h
  simp only [h]

/-- R84, R343, R369: LIMP, with Reel not trusted, the lantern tag off and the sniff stopped. -/
theorem limpEntry_off (s : State) :
    (limpEntry s).power.mode = .limp ∧ (limpEntry s).power.untrusted = true ∧ (limpEntry s).tag.enabled = false ∧
    (limpEntry s).rdr.sniff = none := by
  generalize hu : coresTo .standby (untrust true
    (setPower (fun p => { p with mode := .limp, coreRc := true, xo24Ok := false, wake := none }) s)) = u
  have hmode : u.power.mode = .limp := by simp [← hu]
  have huntrusted : u.power.untrusted = true := by simp [← hu]
  generalize hv : (if u.power.started = true then u else startLive u) = v
  have hpower : v.power = { u.power with started := true } := by
    rw [← hv]
    exact congrArg Prod.fst (portsLive_steady u)
  have told : steadyPart (limpEntry s) = steadyPart (sniffStop (tagOff v)) := by
    simp only [limpEntry, hu, hv, tamperIfLatched_steady, logEntry_steady, raiseAll_steady]
  simp only [steadyPart, Prod.mk.injEq, sniffStop_power, tagOff_power, sniffStop_tag, tagOff_enabled, sniffStop_sniff] at told
  obtain ⟨hpower', -, htag, hsniff⟩ := told
  rw [hpower', hpower]
  exact ⟨hmode, huntrusted, htag, hsniff⟩

-- ------------------------------------------------------------------ the crystal and the regulator

/-- R83: two boosted attempts, at a start and on a wake alike. -/
theorem execXo24Timeout_boosts (s : State) (hm : s.power.mode = .waking ∨ s.power.mode = .start) (hb : s.power.boosts < 2) :
    execXo24Timeout s = .next (setPower (fun p => { p with boosts := p.boosts + 1 }) s) := by
  rcases hm with hm | hm <;> simp only [execXo24Timeout, hm, if_pos hb]

/-- R435: Reel has counted nothing at a start that ends so. -/
theorem execXo24Timeout_start (s : State) (hm : s.power.mode = .start) (hb : 2 ≤ s.power.boosts) :
    execXo24Timeout s = .next (limpEntry { s with reel := { s.reel with cnt := s.power.startedAt } }) := by
  simp only [execXo24Timeout, hm, if_neg (Nat.not_lt.mpr hb)]

theorem execXo24Timeout_waking (s : State) (hm : s.power.mode = .waking) (hb : 2 ≤ s.power.boosts) :
    execXo24Timeout s = .next (limpEntry (reelResume (keeperAt (drawNat s).1 (drawNat s).2) (drawNat s).2)) := by
  simp only [execXo24Timeout, hm, if_neg (Nat.not_lt.mpr hb)]

/-- The part as a regulator that does not come up leaves it (R76, R88, R89). -/
def regulatorFailed (s : State) : State :=
  untrust s.power.aonRc (setPower (fun p => { p with
    mode := if 8 ≤ p.wakeRun + 1 then .lockout else .sleep, wake := none, wakeFails := satInc 255 p.wakeFails,
    wakeRun := p.wakeRun + 1 }) s)

theorem execRegulatorTimeout_waking (s : State) (hm : s.power.mode = .waking) :
    execRegulatorTimeout s = .next (regulatorFailed s) := by
  simp only [execRegulatorTimeout, hm]
  rfl

/-- Log entry 48: a start that fails so falls asleep with Reel in the keeper. -/
theorem execRegulatorTimeout_start (s : State) (hm : s.power.mode = .start) :
    execRegulatorTimeout s = .next (regulatorFailed { s with reel := { s.reel with keeper := s.reel.cnt } }) := by
  simp only [execRegulatorTimeout, hm]
  rfl

/-- Settles O46, one event after the other. -/
theorem sleepWakeEventsComplete : Obligations.SleepWakeEventsComplete := by
  unfold Obligations.SleepWakeEventsComplete
  refine ⟨?sleep, ?pins, ?compares, execWakeComplete_resumes, ?crystal, ?regulator⟩
  case sleep =>
    exact fun now vhu s hmay => ⟨fun hq hd => ⟨_, execSleepEntry_sleeps hmay hq hd, rfl, enterSleep_asleep _⟩,
      execSleepEntry_stays hmay⟩
  case pins =>
    refine fun s hvio => ⟨execWakePin_wakes hvio, fun e a => ⟨execPortWakeEdge_wakes hvio e a, ?_⟩⟩
    rintro rfl haddr
    exact execPortWakeEdge_other a s haddr
  case compares =>
    exact fun n s => ⟨fun htenant => execCompareWakeLead_tenant n s ((leadDue_iff ..).mpr htenant), fun htenant hkeel =>
      execCompareWakeLead_keel n s ((leadDue_false_iff ..).mpr htenant) ((leadDue_iff ..).mpr hkeel)⟩
  case crystal =>
    exact fun s => ⟨execXo24Timeout_boosts s, execXo24Timeout_start s, fun hm hb =>
      ⟨_, execXo24Timeout_waking s hm hb, limpEntry_off _⟩⟩
  case regulator =>
    rintro s v (⟨hm, rfl⟩ | ⟨hm, rfl⟩)
    · exact execRegulatorTimeout_waking _ hm
    · exact execRegulatorTimeout_start s hm

end Sys2Proof.Machine
end

section
/-!
SUPPORT. The work that stands in the part - each tenant's commands, each context's run, the link sends - and who holds the air: what
the arbiter's operations and the ends of runs, accesses, sessions, sends and listens do to it.
-/
namespace Sys2Proof.Machine

/-- Power, each tenant's command in execution and its queue, each context's run state, and the link sends. -/
structure Work where
  power : PowerSt
  commands : Tenant → Option Job × List Job
  runs : Tenant → CtxRun
  sends : List Send

def workPart (s : State) : Work :=
  { power := s.power, commands := fun t => (s.tens[t].exec, s.tens[t].cmdQ), runs := fun x => s.ctxs[x].run,
    sends := s.link.sends }

theorem workPart_power (s : State) : (workPart s).power = s.power := rfl

/-- The same with the holds of the two cores. -/
def airPart (s : State) : Work × Option Hold × Option Hold := (workPart s, s.radio.rHold, s.radio.lHold)

/-- Answering takes the tenant's command out of execution. -/
theorem reply_exec (t : Tenant) (st : Byte) (res : Bytes) (s : State) : (reply t st res s).tens[t].exec = none := by
  cases hj : s.tens[t].exec with
  | none => rw [reply_none _ _ _ _ hj]; exact hj
  | some job => exact congrArg TenantSt.exec (reply_last _ _ _ _ job hj)

-- ------------------------------------------------------------------ letting a core down

@[simp] theorem setRdr_air (f : ReaderSt → ReaderSt) (s : State) : airPart (setRdr f s) = airPart s := rfl
@[simp] theorem drawNat_air (s : State) : airPart (drawNat s).2 = airPart s := rfl
@[simp] theorem linkRampDown_air (s : State) : airPart (linkRampDown s).2 = airPart s := rfl
@[simp] theorem searchAgain_air (s : State) : airPart (searchAgain s) = airPart s := rfl
@[simp] theorem chargeTenant_air (t : Tenant) (since : Tick) (s : State) : airPart (chargeTenant t since s) = airPart s := rfl
@[simp] theorem leaveChannel_air (now : Tick) (s : State) : airPart (leaveChannel now s) = airPart s := rfl
@[simp] theorem aerialRestore_air (s : State) : airPart (aerialRestore s) = airPart s := rfl

@[simp] theorem setRadio_air (f : RadioSt → RadioSt) (s : State) (hr : ∀ r, (f r).rHold = r.rHold) (hl : ∀ r, (f r).lHold = r.lHold) :
    airPart (setRadio f s) = airPart s := by
  simp only [airPart, workPart, setRadio, hr, hl]

@[simp] theorem setLink_air (f : LinkSt → LinkSt) (s : State) (h : ∀ l, (f l).sends = l.sends) :
    airPart (setLink f s) = airPart s := by
  simp only [airPart, workPart, setLink, h]

@[simp] theorem setCore_air (c : CoreId) (x : CoreSt) (s : State) : airPart (setCore c x s) = airPart s := by
  cases c with
  | reader => rfl
  | link =>
    simp only [setCore]
    split
    · split <;> rfl
    · rfl

@[simp] theorem coexTrack_air (s : State) : airPart (coexTrack s) = airPart s := by
  simp only [coexTrack]
  split
  · split <;> rfl
  · rfl

@[simp] theorem chargeListen_air (h : Hold) (t : Tenant) (s : State) : airPart (chargeListen h t s) = airPart s := by
  simp only [chargeListen]
  split
  · split <;> simp
  · rfl

@[simp] theorem charge_air (h : Hold) (s : State) : airPart (charge h s) = airPart s := by
  simp only [charge]
  split
  · simp [forTenants]
  · simp
  · rfl

@[simp] theorem ownRoundEnd_air (s : State) : airPart (ownRoundEnd s) = airPart s := by
  simp only [ownRoundEnd]
  split <;> simp

@[simp] theorem carrierOff_air (now : Tick) (s : State) : airPart (carrierOff now s) = airPart s := by
  simp only [carrierOff]
  split <;> split <;> simp

@[simp] theorem trswEnd_air (s : State) : airPart (trswEnd s) = airPart s := by
  simp only [trswEnd]
  split
  · rfl
  · split
    · simp
    · split <;> simp

@[simp] theorem coreDown_air (c : CoreId) (s : State) : airPart (coreDown c s) = airPart s := by
  cases c <;> simp only [coreDown]
  case reader => split <;> simp
  case link => simp

/-- Letting a core go frees it and touches nothing else of the work or the air; the lantern tag's hold does not end so (R264, R271). -/
theorem releaseAir_air (c : CoreId) (s : State) :
    airPart (releaseAir c s) = airPart s ∧ (∀ h, holdOf c s = some h → h.req.who = .lantern) ∨
    airPart (releaseAir c s) = airPart (setHold c none s) := by
  simp only [releaseAir]
  split
  case h_1 hnone => exact .inl ⟨rfl, by simp [hnone]⟩
  case h_2 h hsome =>
    split
    · next hw => exact .inl ⟨rfl, by simp [hsome, hw]⟩
    · refine .inr ?_
      have charged := charge_air h s
      rw [coexTrack_air, coreDown_air]
      simp only [airPart, Prod.mk.injEq] at charged ⊢
      obtain ⟨hwork, hr, hl⟩ := charged
      cases c
      · exact ⟨hwork, rfl, hl⟩
      · exact ⟨hwork, hr, rfl⟩

theorem airPart_holdOf {s u : State} (h : airPart s = airPart u) (c : CoreId) : holdOf c s = holdOf c u := by
  simp only [airPart, Prod.mk.injEq] at h
  obtain ⟨-, hr, hl⟩ := h
  cases c
  · exact hr
  · exact hl

@[simp] theorem holdOf_setHold_same (c : CoreId) (h : Option Hold) (s : State) : holdOf c (setHold c h s) = h := by
  cases c <;> rfl

@[simp] theorem holdOf_setHold_other (c : CoreId) (h : Option Hold) (s : State) :
    holdOf (otherCore c) (setHold c h s) = holdOf (otherCore c) s := by
  cases c <;> rfl

theorem releaseAir_own (c : CoreId) (s : State) (h : Hold) (hh : holdOf c (releaseAir c s) = some h) :
    h.req.who = .lantern ∧ holdOf c s = some h := by
  rcases releaseAir_air c s with ⟨kept, lantern⟩ | freed
  · rw [airPart_holdOf kept] at hh
    exact ⟨lantern h hh, hh⟩
  · rw [airPart_holdOf freed, holdOf_setHold_same] at hh
    exact nomatch hh

theorem releaseAir_other (c : CoreId) (s : State) : holdOf (otherCore c) (releaseAir c s) = holdOf (otherCore c) s := by
  rcases releaseAir_air c s with ⟨kept, -⟩ | freed
  · exact airPart_holdOf kept _
  · rw [airPart_holdOf freed, holdOf_setHold_other]

-- ------------------------------------------------------------------ work: the updates of the state

@[simp] theorem modSess_work (t : Tenant) (f : SecSess → SecSess) (s : State) : workPart (modSess t f s) = workPart s := rfl
@[simp] theorem setRadio_work (f : RadioSt → RadioSt) (s : State) : workPart (setRadio f s) = workPart s := rfl
@[simp] theorem setRdr_work (f : ReaderSt → ReaderSt) (s : State) : workPart (setRdr f s) = workPart s := rfl
@[simp] theorem setTag_work (f : LanternSt → LanternSt) (s : State) : workPart (setTag f s) = workPart s := rfl
@[simp] theorem setSvy_work (f : SurveySt → SurveySt) (s : State) : workPart (setSvy f s) = workPart s := rfl
@[simp] theorem setStore_work (f : StoreSt → StoreSt) (s : State) : workPart (setStore f s) = workPart s := rfl
@[simp] theorem setV1_work (f : V1St → V1St) (s : State) : workPart (setV1 f s) = workPart s := rfl
@[simp] theorem setBri_work (f : BridleSt → BridleSt) (s : State) : workPart (setBri f s) = workPart s := rfl
@[simp] theorem setInv_work (x : Tenant) (i : Option Inv) (s : State) : workPart (setInv x i s) = workPart s := rfl
@[simp] theorem setAcc_work (x : Tenant) (a : Option Acc) (s : State) : workPart (setAcc x a s) = workPart s := rfl
@[simp] theorem freeBuf_work (h : Fin 32) (s : State) : workPart (freeBuf h s) = workPart s := rfl

@[simp] theorem setLink_work (f : LinkSt → LinkSt) (s : State) (h : ∀ l, (f l).sends = l.sends) :
    workPart (setLink f s) = workPart s :=
  congrArg Prod.fst (setLink_air f s h)

@[simp] theorem setHold_work (c : CoreId) (h : Option Hold) (s : State) : workPart (setHold c h s) = workPart s := by
  cases c <;> rfl

theorem modTen_work (t : Tenant) (f : TenantSt → TenantSt) (s : State) (he : ∀ q, (f q).exec = q.exec)
    (hq : ∀ q, (f q).cmdQ = q.cmdQ) : workPart (modTen t f s) = workPart s := by
  have entry : ∀ x : Tenant, (vmod s.tens t f)[x].exec = s.tens[x].exec ∧ (vmod s.tens t f)[x].cmdQ = s.tens[x].cmdQ := by
    intro x
    simp only [Fin.getElem_fin, vmod_get]
    split
    · next h => subst h; exact ⟨he _, hq _⟩
    · exact ⟨rfl, rfl⟩
  simp only [workPart, modTen_power, modTen_tens, modTen_ctxs, modTen_link, (entry _).1, (entry _).2]

@[simp] theorem modCtx_work (x : Tenant) (f : Ctx → Ctx) (s : State) (h : ∀ k, (f k).run = k.run) :
    workPart (modCtx x f s) = workPart s := by
  have entry : ∀ y : Tenant, (vmod s.ctxs x f)[y].run = s.ctxs[y].run := by
    intro y
    simp only [Fin.getElem_fin, vmod_get]
    split
    · next hy => subst hy; exact h _
    · rfl
  simp only [workPart, modCtx_power, modCtx_tens, modCtx_ctxs, modCtx_link, entry]

/-- A context's run state is set. -/
theorem modCtx_run_work (x : Tenant) (f : Ctx → Ctx) (r : CtxRun) (s : State) (h : ∀ k, (f k).run = r) :
    workPart (modCtx x f s) = { workPart s with runs := Function.update (workPart s).runs x r } := by
  have entry : (fun y : Tenant => (vmod s.ctxs x f)[y].run) = Function.update (fun y : Tenant => s.ctxs[y].run) x r := by
    funext y
    by_cases hy : y = x
    · subst hy; simp [h]
    · simp [vmod_ne _ _ _ _ hy, Function.update_of_ne hy]
  simp only [workPart, modCtx_power, modCtx_tens, modCtx_ctxs, modCtx_link, entry]

-- ------------------------------------------------------------------ work: events and the log

@[simp] theorem pushEvent_cmdQ (now : Tick) (code : BitVec 16) (data : Bytes) (q : TenantSt) :
    (pushEvent now code data q).cmdQ = q.cmdQ := by
  simp only [pushEvent]
  split
  · rfl
  · split <;> rfl

@[simp] theorem raise_work (t : Tenant) (code : BitVec 16) (data : Bytes) (s : State) :
    workPart (raise t code data s) = workPart s :=
  modTen_work _ _ _ (pushEvent_exec _ _ _) (pushEvent_cmdQ _ _ _)

@[simp] theorem raiseAll_work (code : BitVec 16) (data : Bytes) (s : State) : workPart (raiseAll code data s) = workPart s := by
  simp [raiseAll, forTenants]

@[simp] theorem logEntry_work (code : BitVec 16) (data : Bytes) (s : State) : workPart (logEntry code data s) = workPart s := by
  simp only [logEntry]
  split <;> rfl

theorem pushAll_queue (l : List (Tick × BitVec 16 × Bytes)) (q : TenantSt) :
    (pushAll l q).exec = q.exec ∧ (pushAll l q).cmdQ = q.cmdQ := by
  induction l generalizing q with
  | nil => exact ⟨rfl, rfl⟩
  | cons e l ih =>
    obtain ⟨he, hq⟩ := ih (pushEvent e.1 e.2.1 e.2.2 q)
    exact ⟨he.trans (pushEvent_exec ..), hq.trans (pushEvent_cmdQ ..)⟩

-- ------------------------------------------------------------------ work: the air

@[simp] theorem coexTrack_work (s : State) : workPart (coexTrack s) = workPart s := congrArg Prod.fst (coexTrack_air s)

@[simp] theorem chargeListen_work (h : Hold) (t : Tenant) (s : State) : workPart (chargeListen h t s) = workPart s :=
  congrArg Prod.fst (chargeListen_air h t s)

@[simp] theorem releaseAir_work (c : CoreId) (s : State) : workPart (releaseAir c s) = workPart s := by
  rcases releaseAir_air c s with ⟨kept, -⟩ | freed
  · exact congrArg Prod.fst kept
  · exact (congrArg Prod.fst freed).trans (setHold_work ..)

@[simp] theorem dropWaiters_work (w : Who) (s : State) : workPart (dropWaiters w s) = workPart s := by
  simp [dropWaiters]

@[simp] theorem dropAir_work (x : Tenant) (s : State) : workPart (dropAir x s) = workPart s := by
  simp only [dropAir]
  split <;> split <;> simp

@[simp] theorem dropBufs_work (x : Tenant) (s : State) : workPart (dropBufs x s) = workPart s := by
  have freed : ∀ (l : List (Fin 32)) (s : State), workPart (l.foldl (fun s h => freeBuf h s) s) = workPart s := by
    intro l
    induction l with
    | nil => exact fun _ => rfl
    | cons h l ih => exact fun s => (ih _).trans (freeBuf_work h s)
  simp [dropBufs, freed]

-- ------------------------------------------------------------------ work: sessions, sweeps, the lantern tag

@[simp] theorem sessionGone_work (t : Tenant) (reason : Nat) (s : State) : workPart (sessionGone t reason s) = workPart s := by
  simp only [sessionGone]
  split
  · simp [evSessionClosed]
  · rfl

@[simp] theorem closeSession_work (t : Tenant) (reason : Nat) (s : State) : workPart (closeSession t reason s) = workPart s := by
  simp only [closeSession]
  split <;> simp

@[simp] theorem closeTagSession_work (reason : Nat) (s : State) : workPart (closeTagSession reason s) = workPart s := by
  simp only [closeTagSession]
  split <;> simp

@[simp] theorem lanternRelease_work (s : State) : workPart (lanternRelease s) = workPart s := by
  simp only [lanternRelease]
  split <;> simp

@[simp] theorem sweepTold_work (w : Sweep) (st : Byte) (rl len : Nat) (s : State) :
    workPart (sweepTold w st rl len s) = workPart s := by
  simp only [sweepTold]
  split <;> simp

@[simp] theorem sweepRelease_work (s : State) : workPart (sweepRelease s) = workPart s := by
  simp only [sweepRelease]
  split <;> split <;> simp

@[simp] theorem listenEnd_work (x : Tenant) (st : Byte) (s : State) : workPart (listenEnd x st s) = workPart s := by
  simp only [listenEnd]
  split
  · rfl
  · cases s.radio.lHold <;> dsimp only <;> split_ifs <;> simp

@[simp] theorem roundTold_work (x : Tenant) (i : Inv) (s : State) : workPart (roundTold x i s) = workPart s := by
  simp only [roundTold]
  split <;> simp [v1Flag]

-- ------------------------------------------------------------------ the end of a program

/-- No tenant executes a command or has one queued. -/
def NoCommands (s : State) : Prop := ∀ t : Tenant, (workPart s).commands t = (none, [])

/-- From s to t at most programs have ended. -/
structure Quieter (s t : State) : Prop where
  power : (workPart t).power = (workPart s).power
  commands : (workPart t).commands = (workPart s).commands
  runs : ∀ x, (workPart t).runs x = (workPart s).runs x ∨ (workPart t).runs x = .idle
  sends : (workPart t).sends = (workPart s).sends

theorem Quieter.of_work {s t : State} (h : workPart t = workPart s) : Quieter s t := by
  constructor <;> simp [h]

theorem Quieter.trans {s t u : State} (h : Quieter s t) (g : Quieter t u) : Quieter s u where
  power := g.power.trans h.power
  commands := g.commands.trans h.commands
  runs x := (g.runs x).elim (fun e => e ▸ h.runs x) .inr
  sends := g.sends.trans h.sends

theorem Quieter.noCommands {s t : State} (h : Quieter s t) (hs : NoCommands s) : NoCommands t := by
  intro x
  rw [h.commands]
  exact hs x

/-- With no command in execution the end of a start answers nothing. -/
theorem finishStart_work (x : Tenant) (st : Byte) (s : State) (h : NoCommands s) : workPart (finishStart x st s) = workPart s := by
  simp only [finishStart]
  split
  · rfl
  · have begun : workPart (modCtx x (fun k => { k with start := none, early := [] }) s) = workPart s :=
      modCtx_work _ _ _ fun _ => rfl
    have idle : (modCtx x (fun k => { k with start := none, early := [] }) s).tens[x].exec = none :=
      congrArg Prod.fst (h x)
    rw [modTen_work _ _ _ (fun q => (pushAll_queue _ q).1) (fun q => (pushAll_queue _ q).2), reply_none _ _ _ _ idle, begun]

@[simp] theorem runOver_work (x : Tenant) (s : State) : workPart (runOver x s) = workPart s := by
  simp [runOver]

/-- The end of a run leaves its context idle (7.6). -/
theorem endProgram_work (x : Tenant) (st : Byte) (s : State) (h : NoCommands s) :
    workPart (endProgram x st s) = { workPart s with runs := Function.update (workPart s).runs x .idle } := by
  generalize hv : modCtx x (fun k => { k with run := .idle, ksel := none }) (runOver x (dropBufs x (dropAir x s))) = v
  have idle : workPart v = { workPart s with runs := Function.update (workPart s).runs x .idle } := by
    rw [← hv, modCtx_run_work _ _ .idle _ fun _ => rfl]
    simp
  have none : NoCommands v := fun t => (congrFun (congrArg Work.commands idle) t).trans (h t)
  simp only [endProgram, hv]
  split <;> simp [finishStart_work _ _ _ none, idle]

theorem endProgram_quieter (x : Tenant) (st : Byte) (s : State) (h : NoCommands s) : Quieter s (endProgram x st s) := by
  have work := endProgram_work x st s h
  refine ⟨by rw [work], by rw [work], fun y => ?_, by rw [work]⟩
  rw [work]
  by_cases hy : y = x
  · exact .inr (by simp [hy])
  · exact .inl (by simp [Function.update_of_ne hy])

theorem invDone_quieter (x : Tenant) (st : Byte) (s : State) (h : NoCommands s) : Quieter s (invDone x st s) := by
  simp only [invDone]
  split
  · exact .of_work rfl
  · next i _ =>
    generalize hp : (if i.running = true then (roundClosed i, roundTold x i s) else (i, s)) = p
    have told : workPart (setInv x none p.2) = workPart s := by
      rw [← hp]
      split <;> simp
    have ended := (Quieter.of_work told).trans (endProgram_quieter x st _ ((Quieter.of_work told).noCommands h))
    refine ended.trans (.of_work ?_)
    split
    · split <;> simp [v1Error]
    · simp

theorem endAcc_quieter (t : Tenant) (st tagErr : Byte) (reason : Nat) (s : State) (h : NoCommands s) :
    Quieter s (endAcc t st tagErr reason s) := by
  simp only [endAcc]
  split
  · exact .of_work rfl
  · have ended := (Quieter.of_work (setAcc_work t none s)).trans (endProgram_quieter t st _ h)
    refine ended.trans (.of_work ?_)
    split <;> simp [evSessionClosed]

-- ------------------------------------------------------------------ the end of a send

@[simp] theorem sendTold_work (e : Send) (st : Byte) (s : State) : workPart (sendTold e st s) = workPart s := by
  simp only [sendTold]
  cases e.buf <;> cases e.owner <;> simp

theorem sendDrop_work (e : Send) (st : Byte) (s : State) :
    workPart (sendDrop e st s) = { workPart s with sends := s.link.sends.erase e } := by
  have kept := dropWaiters_work (sendWho e) s
  have sends : (dropWaiters (sendWho e) s).link.sends = s.link.sends := congrArg Work.sends kept
  rw [sendDrop, sendTold_work, ← kept, ← sends]
  rfl

theorem sendEnd_work (e : Send) (r : List Send) (st : Byte) (s : State) (h : s.link.sends = e :: r) :
    workPart (sendEnd st s) = { workPart s with sends := r } := by
  simp only [sendEnd, h, sendTold_work, releaseAir_work]
  rfl

end Sys2Proof.Machine
end

section
/-!
PROOFS. PWRFAIL: the drill, HOLD and the wake from it (3.8, 19.4).
-/
namespace Sys2Proof.Machine

-- ------------------------------------------------------------------ commands and sends

theorem foldl_pushResponse_queue (l : List Job) (q : TenantSt) :
    (l.foldl (fun q j => pushResponse j stAbortedReset [] q) q).exec = q.exec := by
  induction l generalizing q with
  | nil => rfl
  | cons j l ih => exact ih _

/-- R93: the tenant's commands are answered; the other tenants' stay. -/
theorem abortCommands_queues (t x : Tenant) (s : State) :
    (workPart (abortCommands t s)).commands x = if x = t then (none, []) else (workPart s).commands x := by
  have idle : (refuse t stAbortedReset s).tens[(t : Nat)].exec = none := reply_exec ..
  simp only [workPart, abortCommands, modTen_tens, Fin.getElem_fin, vmod_get]
  split
  · next hx => subst hx; rw [foldl_pushResponse_queue, idle]
  · next hx => rw [refuse, reply_other _ _ _ _ _ hx]

theorem abortCommands_noCommands (s : State) : NoCommands (forTenants abortCommands s) := by
  intro x
  simp only [forTenants, abortCommands_queues]
  match x with
  | 0 | 1 | 2 | 3 => rfl

@[simp] theorem abortCommands_power (t : Tenant) (s : State) : (abortCommands t s).power = s.power := by
  simp [abortCommands]

/-- R90: a send ends wherever it is, and no other does. -/
theorem abortSend_work (s : State) (e : Send) :
    workPart (abortSend s e) = { workPart s with sends := s.link.sends.erase e } := by
  simp only [abortSend]
  split
  · next hactive =>
    simp only [sendActive, Bool.and_eq_true, beq_iff_eq, List.head?_eq_some_iff] at hactive
    obtain ⟨-, r, hr⟩ := hactive
    rw [sendEnd_work e r _ _ hr, hr, List.erase_cons_head]
  · exact sendDrop_work ..

/-- Ending each send in turn leaves none. -/
theorem abortSends_work (l : List Send) (s : State) (h : s.link.sends = l) :
    workPart (l.foldl abortSend s) = { workPart s with sends := [] } := by
  induction l generalizing s with
  | nil => simp only [List.foldl_nil, workPart, h]
  | cons e l ih =>
    have step := abortSend_work s e
    rw [h, List.erase_cons_head] at step
    rw [List.foldl_cons, ih _ (congrArg Work.sends step), step]

-- ------------------------------------------------------------------ the tenants' activities

/-- R90, R221: what a tenant runs ends. -/
theorem abortTenant_quieter (t : Tenant) (s : State) (h : NoCommands s) :
    Quieter s (abortTenant t s) ∧ (workPart (abortTenant t s)).runs t ≠ .running ∧ (workPart (abortTenant t s)).runs t ≠ .waiting := by
  have listened : Quieter s (listenEnd t stAbortedReset s) := .of_work (listenEnd_work ..)
  have inventoried := listened.trans (invDone_quieter t stAbortedReset _ (listened.noCommands h))
  have accessed := inventoried.trans (endAcc_quieter t stAbortedReset 0 0 _ (inventoried.noCommands h))
  have closed := accessed.trans (.of_work (closeSession_work t 1 _))
  simp only [abortTenant]
  split
  · refine ⟨closed.trans (endProgram_quieter t _ _ (closed.noCommands h)), ?_⟩
    rw [endProgram_work t _ _ (closed.noCommands h)]
    simp
  · next hrun =>
    refine ⟨closed, ?_⟩
    simp only [Bool.or_eq_true, beq_iff_eq, not_or] at hrun
    exact hrun

/-- A context at rest stays so while programs end. -/
theorem Quieter.resting {s t : State} (h : Quieter s t) (x : Tenant)
    (hx : (workPart s).runs x ≠ .running ∧ (workPart s).runs x ≠ .waiting) :
    (workPart t).runs x ≠ .running ∧ (workPart t).runs x ≠ .waiting := by
  rcases h.runs x with hr | hr
  · rw [hr]; exact hx
  · simp [hr]

theorem abortTenants_quieter (s : State) (h : NoCommands s) :
    Quieter s (forTenants abortTenant s) ∧
      ∀ x, (workPart (forTenants abortTenant s)).runs x ≠ .running ∧ (workPart (forTenants abortTenant s)).runs x ≠ .waiting := by
  obtain ⟨q0, r0⟩ := abortTenant_quieter 0 s h
  obtain ⟨q1, r1⟩ := abortTenant_quieter 1 _ (q0.noCommands h)
  obtain ⟨q2, r2⟩ := abortTenant_quieter 2 _ ((q0.trans q1).noCommands h)
  obtain ⟨q3, r3⟩ := abortTenant_quieter 3 _ (((q0.trans q1).trans q2).noCommands h)
  refine ⟨((q0.trans q1).trans q2).trans q3, fun x => ?_⟩
  match x with
  | 0 => exact ((q1.trans q2).trans q3).resting 0 r0
  | 1 => exact (q2.trans q3).resting 1 r1
  | 2 => exact q3.resting 2 r2
  | 3 => exact r3

-- ------------------------------------------------------------------ the quiet of the drill

/-- Neither the radios nor the programs have anything to do, and no command is outstanding (R90, R93, R221); a claim of the lantern tag
on the link core aside, which no run makes. -/
structure Silent (s : State) : Prop where
  rHold : s.radio.rHold = none
  lHold : ∀ h, s.radio.lHold = some h → h.req.who = .lantern
  waiters : s.radio.waiters = []
  sends : (workPart s).sends = []
  commands : NoCommands s
  rests : ∀ x, (workPart s).runs x ≠ .running ∧ (workPart s).runs x ≠ .waiting

theorem Silent.of_same {s t : State} (h : Silent s) (hw : workPart t = workPart s) (hr : t.radio = s.radio) : Silent t := by
  obtain ⟨hrHold, hlHold, hwaiters, hsends, hcommands, hrests⟩ := h
  constructor <;> simp only [NoCommands, hw, hr] <;> assumption

-- ------------------------------------------------------------------ RF off

@[simp] theorem rfWiresLow_air (s : State) : airPart (rfWiresLow s) = airPart s := rfl

/-- The lantern tag's claim on the reader core ends (R271). -/
theorem lanternRelease_rHold (s : State) (h : Hold) (hh : (lanternRelease s).radio.rHold = some h) : h.req.who ≠ .lantern := by
  simp only [lanternRelease] at hh
  split at hh
  · rw [show (coexTrack (setHold .reader none (dropWaiters .lantern s))).radio.rHold = none from
      airPart_holdOf (coexTrack_air _) .reader] at hh
    exact nomatch hh
  · next hnot =>
    intro hw
    refine hnot ?_
    have held : holdOf .reader (dropWaiters .lantern s) = some h := hh
    simp only [holds, held, hw, beq_self_eq_true]

@[simp] theorem closeTagSession_radio (reason : Nat) (s : State) : (closeTagSession reason s).radio = s.radio := by
  simp only [closeTagSession]
  split <;> simp

@[simp] theorem coexTrack_waiters (s : State) : (coexTrack s).radio.waiters = s.radio.waiters := by
  simp only [coexTrack]
  split
  · split <;> rfl
  · rfl

/-- The end of `rfOff`: both cores let go, the lantern tag's claim on the reader before (R90). -/
theorem coresReleased (s : State) (hlantern : ∀ h, s.radio.rHold = some h → h.req.who ≠ .lantern) :
    let v := coexTrack (rfWiresLow (setRadio (fun r => { r with waiters := [], pri := false })
      (releaseAir .link (releaseAir .reader s))))
    v.radio.rHold = none ∧ (∀ h, v.radio.lHold = some h → h.req.who = .lantern) ∧ v.radio.waiters = [] ∧ workPart v = workPart s := by
  intro v
  have held : airPart v = airPart (releaseAir .link (releaseAir .reader s)) := by
    rw [coexTrack_air, rfWiresLow_air]
    exact setRadio_air _ _ (fun _ => rfl) fun _ => rfl
  refine ⟨?_, fun h hh => ?_, coexTrack_waiters _, ?_⟩
  · show holdOf .reader v = none
    rw [airPart_holdOf held, show holdOf .reader (releaseAir .link (releaseAir .reader s)) = holdOf .reader (releaseAir .reader s)
      from releaseAir_other .link _]
    cases hr : holdOf .reader (releaseAir .reader s) with
    | none => rfl
    | some h =>
      obtain ⟨hwho, hold⟩ := releaseAir_own .reader s h hr
      exact absurd hwho (hlantern h hold)
  · have hl : holdOf .link v = some h := hh
    rw [airPart_holdOf held] at hl
    exact (releaseAir_own .link _ h hl).1
  · have work : workPart v = workPart (releaseAir .link (releaseAir .reader s)) := congrArg Prod.fst held
    rw [work, releaseAir_work, releaseAir_work]

/-- The state that the cores are let go in: what the sends, the tenants and a sweep had on the air has ended. -/
theorem rfOff_ended (s : State) (h : NoCommands s) : ∃ u, rfOff s = coexTrack (rfWiresLow (setRadio (fun r => { r with
      waiters := [], pri := false }) (releaseAir .link (releaseAir .reader (closeTagSession 1 (lanternRelease u)))))) ∧
    (workPart u).power = s.power ∧ NoCommands u ∧ (workPart u).sends = [] ∧
    ∀ x, (workPart u).runs x ≠ .running ∧ (workPart u).runs x ≠ .waiting := by
  refine ⟨_, by unfold rfOff; rfl, ?_⟩
  have sent := abortSends_work s.link.sends s rfl
  generalize s.link.sends.foldl abortSend s = v at sent ⊢
  have idle := (setLink_work (fun l => { l with step := .idle, ackDue := none, ackEnd := none }) v fun _ => rfl).trans sent
  generalize setLink (fun l => { l with step := .idle, ackDue := none, ackEnd := none }) v = v at idle ⊢
  have none : NoCommands v := fun t => (congrFun (congrArg Work.commands idle) t).trans (h t)
  obtain ⟨ended, rests⟩ := abortTenants_quieter v none
  have nobody := ended.noCommands none
  have unsent := ended.sends.trans (congrArg Work.sends idle)
  have power := ended.power.trans (congrArg Work.power idle)
  generalize forTenants abortTenant v = v at nobody unsent power rests ⊢
  split
  · simpa [NoCommands] using ⟨power, nobody, unsent, rests⟩
  · exact ⟨power, nobody, unsent, rests⟩

/-- R90, R221: all RF and every program ends. -/
theorem rfOff_silent (s : State) (h : NoCommands s) : Silent (rfOff s) ∧ (rfOff s).power = s.power := by
  obtain ⟨u, hu, power, nobody, unsent, rests⟩ := rfOff_ended s h
  obtain ⟨hr, hl, hw, work⟩ := coresReleased (closeTagSession 1 (lanternRelease u)) (by
    rw [closeTagSession_radio]
    exact lanternRelease_rHold u)
  simp only [closeTagSession_work, lanternRelease_work] at work
  rw [hu]
  refine ⟨⟨hr, hl, hw, ?_, fun x => ?_, fun x => ?_⟩, (congrArg Work.power work).trans power⟩ <;> rw [work]
  · exact unsent
  · exact nobody x
  · exact rests x

-- ------------------------------------------------------------------ the emergency set

/-- A commit that the emergency set can take: a counter record or the ledger's checkpoint (R526, Table 19-3). -/
def emergencyKind : CommitKind → Bool
  | .checkpoint _ => true
  | k => isCounter k

/-- What the store does by itself leaves alone: power, the tenants' queues, the contexts, the radio and the link. -/
def hostPart (s : State) : PowerSt × Vector TenantSt 4 × Vector Ctx 4 × RadioSt × LinkSt := (s.power, s.tens, s.ctxs, s.radio, s.link)

@[simp] theorem countWrites_host (p n : Nat) (s : State) : hostPart (countWrites p n s) = hostPart s := rfl

@[simp] theorem writePages_host (ls : List Nat) (s : State) : hostPart (writePages ls s) = hostPart s := by
  have counted : ∀ (l : List Nat) (s : State), hostPart (l.foldl (fun s l => countWrites (physOf s.store l) 1 s) s) = hostPart s := by
    intro l
    induction l with
    | nil => exact fun _ => rfl
    | cons p l ih => exact fun s => ih _
  simp only [writePages]
  split
  · split <;> exact counted ls s
  · exact counted ls s

@[simp] theorem commitSectors_host (c : Commit) (s : State) : hostPart (commitSectors c s).2 = hostPart s := by
  simp only [commitSectors]
  split <;> rfl

/-- A commit of the emergency set answers no command and ends nothing, whether it lands or not. -/
theorem landNow_host (c : Commit) (s : State) (h : emergencyKind c.kind = true) : hostPart (landNow s c) = hostPart s := by
  have written := (writePages_host (commitSectors c s).1 _).trans (commitSectors_host c s)
  obtain ⟨kind, pages⟩ := c
  cases kind <;> simp only [emergencyKind, isCounter, Bool.false_eq_true] at h <;>
    simp only [landNow, runCommit] <;> split <;>
    first
    | rfl
    | exact written

theorem takePages_counters (n : Nat) (l : List Commit) : ∀ c ∈ (takePages n l).1, isCounter c.kind = true := by
  induction l generalizing n with
  | nil => simp [takePages]
  | cons c l ih =>
    simp only [takePages]
    split
    · next h => exact List.forall_mem_cons.mpr ⟨h.1, ih _⟩
    · exact ih n

theorem landAll_host (l : List Commit) (s : State) (h : ∀ c ∈ l, isCounter c.kind = true) :
    hostPart (l.foldl landNow s) = hostPart s := by
  induction l generalizing s with
  | nil => rfl
  | cons c l ih =>
    obtain ⟨hc, hl⟩ := List.forall_mem_cons.mp h
    refine (ih _ hl).trans (landNow_host c s ?_)
    revert hc
    cases c.kind <;> simp [emergencyKind, isCounter]

theorem emergencySet_host (vhu : Nat) (s : State) : hostPart (emergencySet vhu s).2 = hostPart s := by
  simp only [emergencySet]
  split
  · rfl
  · refine (landAll_host _ _ (takePages_counters _ _)).trans ?_
    show hostPart _ = hostPart s
    split
    · exact landNow_host _ _ rfl
    · rfl

theorem hostPart_work {s t : State} (h : hostPart t = hostPart s) : workPart t = workPart s ∧ t.radio = s.radio := by
  simp only [hostPart, Prod.mk.injEq] at h
  obtain ⟨hpower, htens, hctxs, hradio, hlink⟩ := h
  exact ⟨by simp only [workPart, hpower, htens, hctxs, hlink], hradio⟩

-- ------------------------------------------------------------------ PWRFAIL

@[simp] theorem cutWrites_host (landed : Bool) (s : State) : hostPart (cutWrites landed s) = hostPart s := rfl

/-- The drill, with whether its emergency set was written (R90 to R93, R526). -/
def drilled (vhu : Nat) (landed : Bool) (s : State) : Bool × State :=
  emergencySet vhu (cutWrites landed (rfOff (forTenants abortCommands (setPower (fun p => { p with mode := .drill }) s))))

theorem drilled_silent (vhu : Nat) (landed : Bool) (s : State) :
    Silent (drilled vhu landed s).2 ∧ (drilled vhu landed s).2.power = { s.power with mode := .drill } := by
  generalize hv : forTenants abortCommands (setPower (fun p => { p with mode := .drill }) s) = v
  have idle : NoCommands v := hv ▸ abortCommands_noCommands _
  have mode : v.power = { s.power with mode := .drill } := by
    rw [← hv]
    simp [forTenants]
  obtain ⟨silent, power⟩ := rfOff_silent v idle
  have host : hostPart (drilled vhu landed s).2 = hostPart (rfOff v) := by
    rw [drilled, hv, emergencySet_host, cutWrites_host]
  obtain ⟨work, radio⟩ := hostPart_work host
  refine ⟨silent.of_same work radio, ?_⟩
  rw [← workPart_power, work, workPart_power, power, mode]

/-- EV_PWRFAIL, told and logged (R91, R566). -/
def pwrfailTold (done : Bool) (s : State) : State :=
  logEntry evPwrfail [if done then 1 else 0] (raiseAll evPwrfail [if done then 1 else 0] s)

theorem pwrfailTold_work (done : Bool) (s : State) : workPart (pwrfailTold done s) = workPart s := by
  simp [pwrfailTold]

theorem pwrfailTold_radio (done : Bool) (s : State) : (pwrfailTold done s).radio = s.radio := by
  simp only [pwrfailTold, logEntry]
  generalize [if done = true then (1 : Byte) else 0] = d
  split <;> rfl

section Pulse
variable {now : Tick} {ns vhu : Nat} {landed : Bool} {s : State} (hvio : s.power.vioLost = false) (hns : 1000 ≤ ns)
include hvio hns

theorem execPwrfail_drills (hm : s.power.mode = .run ∨ s.power.mode = .limp) :
    let v := drilled vhu landed (setPower (fun p => { p with pwrfail := true }) (advanceTo now s))
    execPwrfail now ns vhu landed s = .next (pwrfailTold v.1 v.2) := by
  have heard : (s.power.vioLost || decide (ns < 1000)) = false := by simp [hvio, hns]
  have mode : (setPower (fun p => { p with pwrfail := true }) (advanceTo now s)).power.mode = s.power.mode := by simp
  simp only [execPwrfail, heard, Bool.false_eq_true, if_false]
  generalize setPower (fun p => { p with pwrfail := true }) (advanceTo now s) = u at mode ⊢
  rcases hm with hm | hm <;> simp only [mode, hm] <;> rfl

/-- R92. -/
theorem execPwrfail_holds (hm : s.power.mode = .sleep ∨ s.power.mode = .waking) :
    execPwrfail now ns vhu landed s =
      .next (holdFromSleep (setPower (fun p => { p with pwrfail := true }) (advanceTo now s))) := by
  have heard : (s.power.vioLost || decide (ns < 1000)) = false := by simp [hvio, hns]
  have mode : (setPower (fun p => { p with pwrfail := true }) (advanceTo now s)).power.mode = s.power.mode := by simp
  simp only [execPwrfail, heard, Bool.false_eq_true, if_false]
  generalize setPower (fun p => { p with pwrfail := true }) (advanceTo now s) = u at mode ⊢
  rcases hm with hm | hm <;> simp only [mode, hm]

end Pulse

/-- R87. -/
theorem execPwrfail_short (now : Tick) (ns vhu : Nat) (landed : Bool) (s : State) (h : ns < 1000) :
    execPwrfail now ns vhu landed s = .next s := by
  simp [execPwrfail, h]

/-- R91, R438. -/
theorem execHoldEntry_held (s : State) (hm : s.power.mode = .drill) :
    ∃ t, execHoldEntry s = .next t ∧ t.power.mode = .hold ∧ t.reel.keeper = s.reel.cnt ∧ t.radio.rState = .sleep ∧
      t.radio.lState = .sleep := by
  refine ⟨_, by rw [execHoldEntry, hm]; rfl, ?_⟩
  simp only [untrust_mode, untrust_reel, untrust_radio, coresTo_power, coresTo_reel]
  exact ⟨rfl, rfl, rfl, rfl⟩

@[simp] theorem journalReplay_power (s : State) : (journalReplay s).power = s.power := by
  simp only [journalReplay]
  split
  · split
    · rfl
    · exact congrArg Prod.fst (writePages_host _ s)
  · rfl

/-- R87, R94. -/
theorem execPwrfailClear_wakes (s : State) (hvio : s.power.vioLost = false) (hm : s.power.mode = .hold) :
    execPwrfailClear s = .next (setPower (fun p => { p with mode := .waking, wake := some .pwrfailClear, boosts := 0 })
      (journalReplay (setPower (fun p => { p with pwrfail := false }) s))) := by
  simp [execPwrfailClear, hvio, hm]

/-- Settles O47: the drill by what the end of everything on the air leaves of commands, runs, sends and holds, then HOLD. -/
theorem powerFailEventsComplete : Obligations.PowerFailEventsComplete := by
  unfold Obligations.PowerFailEventsComplete
  refine ⟨?drill, execPwrfail_short, ?asleep, execHoldEntry_held, ?clear⟩
  case drill =>
    intro now ns vhu landed s hvio hns hm
    obtain ⟨quiet, power⟩ := drilled_silent vhu landed (setPower (fun p => { p with pwrfail := true }) (advanceTo now s))
    have told := execPwrfail_drills (now := now) (vhu := vhu) (landed := landed) hvio hns hm
    generalize drilled vhu landed (setPower (fun p => { p with pwrfail := true }) (advanceTo now s)) = v at quiet power told
    have work := pwrfailTold_work v.1 v.2
    obtain ⟨rHold, lHold, waiters, sends, commands, rests⟩ := quiet.of_same work (pwrfailTold_radio v.1 v.2)
    rw [← workPart_power, ← work, workPart_power] at power
    refine ⟨_, told, by simp [power], by rw [power], rHold, lHold, waiters, sends, fun x => ?_⟩
    obtain ⟨hexec, hqueue⟩ := Prod.mk.inj (commands x)
    exact ⟨hexec, hqueue, rests x⟩
  case asleep =>
    exact fun now ns vhu landed s hvio hns hm => execPwrfail_holds (now := now) (vhu := vhu) (landed := landed) hvio hns hm
  case clear =>
    exact fun s hvio hm => ⟨_, execPwrfailClear_wakes s hvio hm, rfl, rfl, by simp, rfl⟩

end Sys2Proof.Machine
end

section
/-!
PROOFS. LIMP: the commands that need a radio are answered ST_LIMP (3.4, 6.1, R85, R178).
-/
namespace Sys2Proof.Machine

theorem leNat_lt (b : Bytes) : leNat b < 256 ^ b.length := by
  induction b with
  | nil => decide
  | cons a b ih =>
    rw [leNat, List.length_cons, Nat.pow_succ]
    have := a.isLt
    omega

theorem fld_lt (a : Bytes) (off n : Nat) : fld a off n < 256 ^ n :=
  (leNat_lt _).trans_le (Nat.pow_le_pow_right (by decide) (List.length_take_le ..))

theorem w16_fld_eq (a : Bytes) (off n : Nat) (hn : n < 65536) : w16 (fld a off 2) = BitVec.ofNat 16 n ↔ fld a off 2 = n := by
  have := fld_lt a off 2
  rw [w16, ← BitVec.toNat_inj, BitVec.toNat_ofNat, BitVec.toNat_ofNat]
  omega

theorem startProgram_down (how : Starter) (c : Cmd) (down : State → Option Byte) (prof : Profile → Profile → Profile)
    (u : State) (st : Byte) (hlen : c.args.length = 17) (hentry : fld c.args 0 1 ≤ 7) (hdown : down u = some st) :
    startProgram how c down prof u = refuse c.t st u := by
  simp only [startProgram]
  rw [if_neg (by omega), hdown]

section Limp
variable {u : State} (hl : inLimp u = true)
include hl

-- ------------------------------------------------------------------ what refuses

theorem readerDown_limp : readerDown u = some stLimp := by rw [readerDown, if_pos hl]

theorem sniffDown_limp : sniffDown u = some stLimp := by rw [sniffDown, if_pos hl]

theorem rdrRefusal_limp (t : Tenant) (own : Bool) : rdrRefusal t own u = some stLimp := by
  simp only [rdrRefusal, readerDown_limp hl]

theorem linkRefusal_limp (t : Tenant) (needsRx : Bool) : linkRefusal t needsRx u = some stLimp := by rw [linkRefusal, if_pos hl]

theorem exchangeBegin_limp (t : Tenant) (seq : BitVec 16) (key asel : Nat) (epc : Bytes) (kind : Fin 48 → AccKind) (busy : Bool)
    (results : Bytes) (note : Fin 48 → SecSess → SecSess) :
    exchangeBegin t seq key asel epc kind busy results note u = refuse t stLimp u := by
  rw [exchangeBegin, if_pos hl]

-- ------------------------------------------------------------------ the commands

variable {c : Cmd} {s : State}

theorem execRdrInventory_limp (h : Taken 0x1000 c s u) (a : InvArgs) (p : Int) (hargs : invArgsOf c.args = some (a, p)) :
    execRdrInventory c s = .next (refuse c.t stLimp u) := by
  rw [execRdrInventory, keelRun_some _ _ _ _ _ h]
  simp only [hargs, rdrRefusal_limp hl]

theorem execRdrSniff_limp (h : Taken 0x1003 c s u) (hlen : c.args.length = 6)
    (hivl : fld c.args 0 2 = 0 ∨ (50 ≤ fld c.args 0 2 ∧ fld c.args 0 2 ≤ 2000)) (hasel : fld c.args 2 1 ≤ 3)
    (hauto : fld c.args 5 1 ≤ 1) : execRdrSniff c s = .next (refuse c.t stLimp u) := by
  rw [execRdrSniff, keelRun_some _ _ _ _ _ h]
  dsimp only
  rw [if_neg (by omega), sniffDown_limp hl]

theorem execRdrBaseline_limp (b : List Gamma) (h : Taken 0x1004 c s u) (hlen : c.args.length = 1) (hasel : fld c.args 0 1 ≤ 3) :
    execRdrBaseline c b s = .next (refuse c.t stLimp u) := by
  rw [execRdrBaseline, keelRun_some _ _ _ _ _ h]
  dsimp only
  rw [if_neg (by omega), sniffDown_limp hl]

theorem execRdrRunSpool_limp (h : Taken 0x1010 c s u) (hlen : c.args.length = 17) (hentry : fld c.args 0 1 ≤ 7) :
    execRdrRunSpool c s = .next (refuse c.t stLimp u) := by
  rw [execRdrRunSpool, keelRun_some _ _ _ _ _ h, startProgram_down _ _ _ _ _ stLimp hlen hentry]
  simp only [readerDown_limp hl]

theorem execLnkRunSpool_limp (h : Taken 0x2010 c s u) (hlen : c.args.length = 17) (hentry : fld c.args 0 1 ≤ 7) :
    execLnkRunSpool c s = .next (refuse c.t stLimp u) := by
  rw [execLnkRunSpool, keelRun_some _ _ _ _ _ h, startProgram_down _ _ _ _ _ stLimp hlen hentry (if_pos hl)]

theorem execTagEnable_limp (h : Taken 0x1100 c s u) (hlen : c.args.length = 3 + 2 * fld c.args 2 1) (hlow : 2 ≤ fld c.args 2 1)
    (hhigh : fld c.args 2 1 ≤ 8) (hflags : fld c.args 1 1 ≤ 7) : execTagEnable c s = .next (refuse c.t stLimp u) := by
  rw [execTagEnable, keelRun_some _ _ _ _ _ h]
  dsimp only
  rw [if_neg (by omega), if_pos hl]

theorem execSecTam1_limp (h : Taken 0x1200 c s u) (hlen : c.args.length = 4 + 2 * fld c.args 3 1) (hasel : fld c.args 2 1 ≤ 3)
    (hlow : 1 ≤ fld c.args 3 1) (hhigh : fld c.args 3 1 ≤ 31) : execSecTam1 c s = .next (refuse c.t stLimp u) := by
  rw [execSecTam1, keelRun_some _ _ _ _ _ h]
  dsimp only
  rw [if_neg (by omega), exchangeBegin_limp hl]

theorem execSecFarzOpen_limp (h : Taken 0x1201 c s u) (hlen : c.args.length = 3 + 2 * fld c.args 2 1) (hasel : fld c.args 1 1 ≤ 3)
    (hlow : 1 ≤ fld c.args 2 1) (hhigh : fld c.args 2 1 ≤ 31) : execSecFarzOpen c s = .next (refuse c.t stLimp u) := by
  rw [execSecFarzOpen, keelRun_some _ _ _ _ _ h]
  dsimp only
  rw [if_neg (by omega), exchangeBegin_limp hl]

theorem execSecFarzSend_limp (h : Taken 0x1202 c s u) (hlen : c.args.length = 3 + fld c.args 1 2) (hlow : 1 ≤ fld c.args 1 2)
    (hhigh : fld c.args 1 2 ≤ 256) : execSecFarzSend c s = .next (refuse c.t stLimp u) := by
  rw [execSecFarzSend, keelRun_some _ _ _ _ _ h]
  dsimp only
  rw [if_neg (by omega), if_pos hl]

/-- RDR.ACCESS: OP 0 reads and OP 1 writes 1 to 32 words, OP 2 locks (6.4). -/
theorem execRdrAccess_limp (h : Taken 0x1002 c s u) (hepcLow : 1 ≤ fld c.args 10 1) (hepcHigh : fld c.args 10 1 ≤ 31)
    (hasel : fld c.args 1 1 ≤ 3) (hbank : fld c.args 6 1 ≤ 3)
    (hop : (fld c.args 0 1 = 0 ∧ 1 ≤ fld c.args 9 1 ∧ fld c.args 9 1 ≤ 32 ∧ c.args.length = 11 + 2 * fld c.args 10 1) ∨
      (fld c.args 0 1 = 1 ∧ 1 ≤ fld c.args 9 1 ∧ fld c.args 9 1 ≤ 32 ∧
        c.args.length = 11 + 2 * fld c.args 10 1 + 2 * fld c.args 9 1) ∨
      (fld c.args 0 1 = 2 ∧ fld c.args 9 1 ≤ 15 ∧ c.args.length = 11 + 2 * fld c.args 10 1)) :
    execRdrAccess c s = .next (refuse c.t stLimp u) := by
  rw [execRdrAccess, keelRun_some _ _ _ _ _ h]
  dsimp only
  rw [if_neg, if_pos hl]
  rcases hop with ⟨hop, hop'⟩ | ⟨hop, hop'⟩ | ⟨hop, hop'⟩ <;> simp only [hop] <;> simp <;> omega

theorem execLnkSend_limp (h : Taken 0x2001 c s u) (hlen : c.args.length = 15 + fld c.args 13 2) (hdst : fld c.args 0 2 ≠ 0xFFFE)
    (hdten : fld c.args 2 1 ≤ 3) (hmode : fld c.args 3 1 ≤ 4 ∨ (fld c.args 3 1 = 128 ∧ fld c.args 2 1 = 0))
    (hkey : fld c.args 4 1 ≤ 47 ∨ fld c.args 4 1 = 0xFF) (hlow : -40 ≤ sByte (fld c.args 5 1)) (hhigh : sByte (fld c.args 5 1) ≤ 28)
    (hack : fld c.args 6 1 ≤ 1)
    (hload : fld c.args 13 2 ≤ payloadMax (fld c.args 3 1 == 128) (fld c.args 4 1 != 0xFF)) :
    execLnkSend c s = .next (refuse c.t stLimp u) := by
  have dst : w16 (fld c.args 0 2) ≠ 0xFFFE := mt (w16_fld_eq c.args 0 0xFFFE (by decide)).mp hdst
  rw [execLnkSend, keelRun_some _ _ _ _ _ h]
  dsimp only
  rw [if_neg, linkRefusal_limp hl]
  simp only [dst, beq_iff_eq, Bool.not_eq_true', beq_eq_false_iff_ne, false_or]
  omega

theorem execLnkListen_limp (h : Taken 0x2002 c s u) (hlen : c.args.length = 2) :
    execLnkListen c s = .next (refuse c.t stLimp u) := by
  rw [execLnkListen, keelRun_some _ _ _ _ _ h]
  dsimp only
  rw [if_neg (by omega), linkRefusal_limp hl]

theorem execMeasSweep_limp (h : Taken 0x8001 c s u) (hlen : c.args.length = 2) (htarget : fld c.args 0 1 ≤ 5)
    (hrl : fld c.args 1 1 ≤ 1) : execMeasSweep c s = .next (refuse c.t stLimp u) := by
  have target : targetNo (fld c.args 0 1) = some ⟨fld c.args 0 1, by omega⟩ := dif_pos (by omega)
  rw [execMeasSweep, keelRun_some _ _ _ _ _ h]
  simp only [target]
  rw [if_neg (by omega), if_pos hl]

end Limp

/-- Settles O57, one command after the other. -/
theorem radioCommandsInLimp : Obligations.RadioCommandsInLimp := by
  unfold Obligations.RadioCommandsInLimp
  intro c s u hl limp
  exact ⟨fun a p h => execRdrInventory_limp hl h a p, execRdrSniff_limp hl, execRdrBaseline_limp hl, execRdrRunSpool_limp hl,
    execTagEnable_limp hl, execSecTam1_limp hl, execSecFarzOpen_limp hl, execSecFarzSend_limp hl, execRdrAccess_limp hl,
    execLnkSend_limp hl, execLnkListen_limp hl, execLnkRunSpool_limp hl, execMeasSweep_limp hl⟩

end Sys2Proof.Machine
end

section
/-!
PROOFS. SYS.INFO, SYS.SLEEP, SYS.RESET and SYS.PATCH (6.2, 3.5, 5.6).
-/
namespace Sys2Proof.Machine

section Command
variable {c : Cmd} {s u : State}

theorem execSysInfo_answers (h : Taken 0x0100 c s u) (hargs : c.args = []) :
    execSysInfo c s = .next (reply c.t stOk ([0x40, 0x4C, 0xB1] ++ keelRelease ++ leBytes 2 u.store.level ++
      leBytes 2 (rstCause u) ++ leBytes 2 (clkStat u) ++ leBytes 2 (mendLevel u)) u) := by
  rw [execSysInfo, keelRun_some _ _ _ _ _ h, hargs, List.length_nil, if_neg (not_not_intro rfl)]

theorem execSysSleep_answers (h : Taken 0x0101 c s u) (hargs : c.args = []) :
    execSysSleep c s = .next (reply c.t stOk [] (setPower (fun p => { p with votes := vmod p.votes c.t (fun _ => false) }) u)) := by
  rw [execSysSleep, keelRun_some _ _ _ _ _ h, hargs, List.length_nil, if_neg (not_not_intro rfl)]

/-- R81, R182. -/
theorem execSysReset_resets (vhu : Nat) (f : StartFinds) (h : Taken 0x0102 c s u) (hargs : c.args = []) (ht : c.t = 0) :
    execSysReset c vhu f s = .next (setPower (fun p => { p with commitSkipped := !(emergencySet vhu u).1 })
      (warmStart 4 f (emergencySet vhu u).2)) := by
  have provisions : (!isT0 c) = false := by simp [isT0, ht]
  rw [execSysReset, keelRun_some _ _ _ _ _ h, hargs, List.length_nil, if_neg (not_not_intro rfl), provisions]
  rfl

/-- R171, R172: an image above the LEVEL of its slot whose signature checks is queued; the command goes on until the commit. -/
theorem execSysPatch_judged (slot level : Nat) (job : Job) (h : Taken 0x0103 c s u) (hform : patchForm c.args = some (slot, level))
    (hjob : u.tens[c.t].exec = some job) (hlevel : slotLevel u slot < level) :
    execSysPatch c s = .next (if patchSigOk c.args = true then
      queueCommit (.patch c.t job slot { level := level, image := c.args }) ((c.args.length + 63) / 64) u
      else refuse c.t stAuthFail u) := by
  rw [execSysPatch, keelRun_some _ _ _ _ _ h]
  simp only [hform, hjob]
  rw [if_neg (Nat.not_le.mpr hlevel)]
  cases patchSigOk c.args <;> rfl

end Command

/-- Settles O1, one command after the other. -/
theorem systemCommandsComplete : Obligations.SystemCommandsComplete := by
  unfold Obligations.SystemCommandsComplete
  refine ⟨fun c s u => execSysInfo_answers, ?sleep, fun c vhu f s u => execSysReset_resets vhu f,
    fun c s u slot level job => execSysPatch_judged slot level job⟩
  case sleep =>
    intro c s u h hargs
    refine ⟨_, execSysSleep_answers h hargs, ?_, fun w hw => ?_, ?_⟩ <;> rw [reply_power]
    · exact vmod_self ..
    · exact vmod_ne _ _ _ _ hw
    · rfl

end Sys2Proof.Machine
end

section
/-!
PROOFS. Reel's events: compares, down counters, captures and timer outputs (chapter 15).
-/
namespace Sys2Proof.Machine

theorem timersJudged_of (now : Tick) (s : State) (hm : s.power.mode = .run ∨ s.power.mode = .limp) :
    timersJudged (advanceTo now s) = true := by
  rcases hm with hm | hm <;> simp [timersJudged, hm]

/-- R441, R443. -/
theorem execCompareFire_fires (k : Fin 12) (now : Tick) (s : State) (hm : s.power.mode = .run ∨ s.power.mode = .limp)
    (harmed : (advanceTo now s).reel.cmps[k].st = .armed)
    (hdue : reached (advanceTo now s).reel.cnt (advanceTo now s).reel.cmps[k].val = true) :
    let u := advanceTo now s
    let v := toutAct (cmpOwner k) (bits u.reel.cmps[k].act 2 0) (u.reel.cnt + 1)
      (modCmp k (fun q => { q with st := .fired, late := u.reel.cnt != q.val }) u)
    execCompareFire k now s = .next (masterEvent (cmpOwner k) (k.val % 3) (modCtx (cmpOwner k) (fun x => { x with
      latch := x.latch ||| 1 }) (if bit u.reel.cmps[k].act 3 then raise (cmpOwner k) evTmr [0, BitVec.ofNat 8 k.val] v else v))) := by
  simp only [execCompareFire, timersJudged_of now s hm, harmed, hdue, beq_self_eq_true, Bool.and_self, if_true]
  rfl

/-- R448, R450. -/
theorem execDcFire_fires (n : Tenant) (now : Tick) (s : State) (hm : s.power.mode = .run ∨ s.power.mode = .limp)
    (hdue : (advanceTo now s).reel.dcs[n].due = true) : execDcFire n now s = .next (dcFired n (advanceTo now s)) := by
  simp only [execDcFire, timersJudged_of now s hm, hdue, Bool.and_self, if_true]

/-- Reel 2 or 3 ticks after an edge, which of them is free (R77, log entry 66). -/
def latched (s : State) : Tick := s.reel.cnt + (if (drawBool s).1 then 3 else 2)

theorem latched_eq (s : State) : latched s = s.reel.cnt + 2 ∨ latched s = s.reel.cnt + 3 := by
  rw [latched]
  split
  · exact .inr rfl
  · exact .inl rfl

theorem modCap_congr (n : Tenant) (f g : Capture → Capture) (s : State) (h : f s.reel.caps[n] = g s.reel.caps[n]) :
    modCap n f s = modCap n g s := by
  simp only [modCap, vmod, h]

/-- R455 to R457. -/
theorem execCaptureEdge_latches (n : Tenant) (rising : Bool) (now : Tick) (s : State)
    (hm : s.power.mode = .run ∨ s.power.mode = .limp) (htaken : edgeTaken (advanceTo now s).reel.caps[n] rising = true) :
    let u := advanceTo now s
    let q := u.reel.caps[n]
    let w := modCap n (fun c => { c with val := latched u, full := !q.arm, ovr := q.ovr || q.full })
      (drawBool (modCap n (fun c => { c with level := rising }) u)).2
    execCaptureEdge n rising now s = .next (masterEvent n 3 (modCtx n (fun x => { x with latch := x.latch ||| 2 })
      (if q.arm then raise n evCap ([BitVec.ofNat 8 n.val] ++ tickBytes (latched u) ++ [if q.ovr || q.full then 1 else 0]) w
       else w))) := by
  intro u q w
  have judged : timersJudged (modCap n (fun c => { c with level := rising }) u) = true := timersJudged_of now s hm
  have armed : w = modCap n (fun c => { c with val := latched u, full := !c.arm, ovr := q.ovr || q.full })
      (drawBool (modCap n (fun c => { c with level := rising }) u)).2 := modCap_congr _ _ _ _ (by simp [drawBool, q])
  rw [armed]
  simp only [execCaptureEdge, u, q, judged, htaken, Bool.and_self, if_true]
  rfl

/-- A pulse that Reel has come to the end of leaves the output low (R458). -/
theorem toutPulseOver_ended (t e : Tick) (o : TimerOut) (he : o.pulseEnd = some e) (hr : reached t e = true) :
    toutPulseOver t o = { o with level := false, pulseEnd := none } := by
  simp only [toutPulseOver, he, hr, if_true]

/-- Settles O33, one event after the other. -/
theorem reelEventsComplete : Obligations.ReelEventsComplete := by
  unfold Obligations.ReelEventsComplete
  refine ⟨?compare, execDcFire_fires, ?capture, ?pulse⟩
  case compare =>
    rintro k now s hm u t harmed hdue v rfl
    exact execCompareFire_fires k now s hm harmed hdue
  case capture =>
    intro n rising now s hm u q htaken
    exact ⟨latched u, _, latched_eq u, rfl, execCaptureEdge_latches n rising now s hm htaken⟩
  case pulse =>
    refine fun n now s => ⟨_, rfl, ?_⟩
    intro u o
    have ended : (modTout n (fun o => toutPulseOver u.reel.cnt (toutAt u.reel.cnt o)) u).reel.touts[n] = toutPulseOver u.reel.cnt o := by
      simp [o]
    exact ⟨ended, fun e he hr => ended.trans (toutPulseOver_ended _ e o he hr)⟩

end Sys2Proof.Machine
end

section
/-!
PROOFS. The block resets (23.3, R82, R186) where nothing runs on the block, and the SPOOL commands (6.18, 7.1 to 7.7).
-/
namespace Sys2Proof.Machine

-- ------------------------------------------------------------------ what finds nothing to end

theorem coexTrack_only (s : State) : coexTrack s = { s with radio := (coexTrack s).radio } := by
  simp only [coexTrack]
  split
  · split <;> rfl
  · rfl

theorem dropWaiters_only (w : Who) (s : State) : dropWaiters w s = { s with radio := (dropWaiters w s).radio } :=
  coexTrack_only _

theorem holds_none (w : Who) (c : CoreId) (s : State) (h : holdOf c s = none) : holds w c s = false := by
  simp only [holds, h]

theorem dropWaiters_holdOf (w : Who) (c : CoreId) (s : State) : holdOf c (dropWaiters w s) = holdOf c s :=
  (airPart_holdOf (coexTrack_air _) c).trans (by cases c <;> rfl)

/-- Without a session only its waiting requests, if any, are withdrawn. -/
theorem closeSession_closed (t : Tenant) (reason : Nat) (s : State) (hclosed : s.sess[t].opened = false) (hfree : s.radio.rHold = none) :
    closeSession t reason s = dropWaiters (.session t) s := by
  have free : holds (.session t) .reader (dropWaiters (.session t) s) = false :=
    holds_none _ _ _ ((dropWaiters_holdOf ..).trans hfree)
  have closed : (dropWaiters (.session t) s).sess[t].opened = false := by
    rw [dropWaiters_only]
    exact hclosed
  simp only [closeSession, free, Bool.false_eq_true, if_false, sessionGone, closed]

theorem ctxAirGone_idle (t : Tenant) (c : CoreId) (s : State) (hfree : holdOf c s = none) (hwait : s.radio.waiters = []) :
    ctxAirGone t c s = s := by
  simp [ctxAirGone, holds_none _ _ _ hfree, hwait]

theorem failEngineWait_idle (t : Tenant) (st : Byte) (s : State) (h : s.ctxs[t].run ≠ .waiting) : failEngineWait t st s = s := by
  simp only [failEngineWait]
  split
  · next hrun _ => exact absurd hrun h
  · rfl

theorem listenEnd_none (x : Tenant) (st : Byte) (s : State) (h : s.link.listens[x] = none) : listenEnd x st s = s := by
  simp only [listenEnd, h]

/-- No other tenant is active on a block on which none is. -/
theorem noOther (active : Tenant → State → Bool) (t : Tenant) (s : State) (h : ∀ x : Tenant, active x s = false) :
    (tenants.any fun x => x != t && active x s) = false := by
  simp [h]

-- ------------------------------------------------------------------ RDR.RESET

/-- What an RDR.RESET leaves that finds nothing to end (R82, R326, R333). -/
theorem execRdrReset_idle (c : Cmd) (s u : State) (h : Taken 0x10F0 c s u) (hargs : c.args = [])
    (hidle : ∀ t : Tenant, rdrActive t u = false) (hfree : u.radio.rHold = none) (hwait : u.radio.waiters = [])
    (hinv : u.rdr.inv[c.t] = none) (hacc : u.rdr.acc[c.t] = none) (hclosed : u.sess[c.t].opened = false)
    (hsniff : u.rdr.sniff = none) (hsweep : u.svy.sweep = none) :
    execRdrReset c s = .next (dropWaiters (.session c.t)
      (setEpoch (fun e => { e with rdr := e.rdr + 1 }) (rdrClear (reply c.t stOk [] u)))) := by
  rw [execRdrReset, keelRun_some _ _ _ _ _ h]
  dsimp only
  rw [if_neg (by simp [hargs]), noOther rdrActive c.t u hidle, if_neg Bool.false_ne_true]
  generalize hv : setEpoch (fun e => { e with rdr := e.rdr + 1 }) (rdrClear (reply c.t stOk [] u)) = v
  have inv : v.rdr.inv[c.t] = none := by rw [← hv]; simpa [rdrClear] using hinv
  have acc : v.rdr.acc[c.t] = none := by rw [← hv]; simpa [rdrClear] using hacc
  have free : v.radio.rHold = none := by rw [← hv]; simpa [rdrClear] using hfree
  have wait : v.radio.waiters = [] := by rw [← hv]; simpa [rdrClear] using hwait
  have closed : v.sess[c.t].opened = false := by rw [← hv]; simpa [rdrClear] using hclosed
  have sniff : (dropWaiters (.session c.t) v).rdr.sniff = none := by
    rw [dropWaiters_only, ← hv]
    simpa [rdrClear] using hsniff
  have sweep : (dropWaiters (.session c.t) v).svy.sweep = none := by
    rw [dropWaiters_only, ← hv]
    simpa [rdrClear] using hsweep
  simp only [inv, acc, Option.isSome_none, Bool.or_self, Bool.false_eq_true, if_false, ctxAirGone_idle _ .reader v free wait,
    closeSession_closed _ _ v closed free, sniff, sweep]

-- ------------------------------------------------------------------ LNK.RESET

/-- What LNK.RESET reads and tells besides the link's own registers. -/
def linkRest (s : State) : Vector TenantSt 4 × EpochSt × SurveySt × Vector (Option Listen) 4 × Option Hold × List AirReq :=
  (s.tens, s.epoch, s.svy, s.link.listens, s.radio.lHold, s.radio.waiters)

@[simp] theorem searchAgain_linkRest (s : State) : linkRest (searchAgain s) = linkRest s := rfl

@[simp] theorem coexTrack_linkRest (s : State) : linkRest (coexTrack s) = linkRest s := by
  simp only [coexTrack]
  split
  · split <;> rfl
  · rfl

theorem trswEnd_only (s : State) :
    trswEnd s = { s with link := { s.link with trsw := (trswEnd s).link.trsw }, free := (trswEnd s).free } := by
  simp only [trswEnd]
  split
  · rfl
  · split
    · rfl
    · split <;> rfl

@[simp] theorem trswEnd_linkRest (s : State) : linkRest (trswEnd s) = linkRest s := by
  rw [trswEnd_only]
  rfl

/-- With the link core free, what was owed of an ACK is forgotten and nothing goes on (R433). -/
theorem ackOver_free (s : State) (hfree : s.radio.lHold = none) :
    linkRest (ackOver s) = linkRest s ∧ (ackOver s).link.ackEnd = none := by
  generalize hv : trswEnd (setRadio (fun r => { r with pri := false }) (setLink (fun l => { l with ackDue := none, ackEnd := none }) s)) = v
  have rest : linkRest v = linkRest s := by
    rw [← hv, trswEnd_linkRest]
    rfl
  have unowed : v.link.ackEnd = none := by
    rw [← hv, trswEnd_only]
    rfl
  have free : v.radio.lHold = none := by
    simp only [linkRest, Prod.mk.injEq] at rest
    obtain ⟨-, -, -, -, hold, -⟩ := rest
    rw [hold, hfree]
  have free' : (coexTrack v).radio.lHold = none := (airPart_holdOf (coexTrack_air v) .link).trans free
  have forgot : ackOver s = coexTrack v := by
    simp only [ackOver, hv, free, Option.isSome_none, Bool.false_eq_true, if_false, free']
  rw [forgot, coexTrack_linkRest, rest, coexTrack_only]
  exact ⟨rfl, unowed⟩

/-- What an LNK.RESET leaves that finds nothing to end (R82, 14.10). -/
theorem execLnkReset_idle (c : Cmd) (s u : State) (h : Taken 0x20F0 c s u) (hargs : c.args = [])
    (hidle : ∀ t : Tenant, linkActive t u = false) (hfree : u.radio.lHold = none) (hwait : u.radio.waiters = [])
    (hsends : u.link.sends = []) (hlisten : u.link.listens = Vector.replicate 4 none) (hend : u.link.ackEnd = none) (hsweep : u.svy.sweep = none) :
    ∃ v, execLnkReset c s = .next (setLink (fun l => { l with noackRun := 0, isolated := false, dup := [] }) v) ∧
      linkRest v = linkRest (setEpoch (fun e => { e with lnk := e.lnk + 1 }) (reply c.t stOk [] u)) := by
  rw [execLnkReset, keelRun_some _ _ _ _ _ h]
  dsimp only
  rw [if_neg (by simp [hargs]), noOther linkActive c.t u hidle, if_neg Bool.false_ne_true]
  generalize hv : setEpoch (fun e => { e with lnk := e.lnk + 1 }) (reply c.t stOk [] u) = v
  have sends : v.link.sends = [] := by rw [← hv]; simpa using hsends
  have ackEnd : v.link.ackEnd = none := by rw [← hv]; simpa using hend
  have restV : linkRest v = (v.tens, v.epoch, u.svy, Vector.replicate 4 none, none, []) := by
    rw [← hv]
    simp [linkRest, hlisten, hfree, hwait]
  rw [sends, List.foldl_nil]
  generalize hw : (if listenBusy v = true ∧ v.link.ackDue.isNone = true ∧ v.link.ackEnd.isNone = true then searchAgain v else v) = w
  have restW : linkRest w = linkRest v := by
    rw [← hw]
    split <;> rfl
  have unowed : w.link.ackEnd = none := by
    rw [← hw]
    split <;> exact ackEnd
  rw [unowed, Option.isNone_none, if_pos rfl]
  have free : w.radio.lHold = none := by
    have parts := restW.trans restV
    simp only [linkRest, Prod.mk.injEq] at parts
    obtain ⟨-, -, -, -, hold, -⟩ := parts
    exact hold
  obtain ⟨restX, noAck⟩ := ackOver_free w free
  generalize ackOver w = x at restX noAck
  rw [restW] at restX
  have parts := restX.trans restV
  simp only [linkRest, Prod.mk.injEq] at parts
  obtain ⟨-, -, survey, listens, hold, waiters⟩ := parts
  have listen : x.link.listens[c.t] = none := by simp [listens]
  have sweep : (setLink (fun l => { l with noackRun := 0, isolated := false, dup := [] }) x).svy.sweep = none :=
    (congrArg SurveySt.sweep survey).trans hsweep
  simp only [noAck, Option.isSome_none, Bool.false_eq_true, if_false, listenEnd_none _ _ _ listen,
    ctxAirGone_idle _ .link x hold waiters, sweep]
  exact ⟨x, rfl, restX⟩

-- ------------------------------------------------------------------ CRYPTO.RESET and SPOOL.RESET

/-- What CRYPTO.RESET does to the engine and the DRBG (R486, R487). -/
def cryptoRestart (t : Tenant) (s : State) : State :=
  setEpoch (fun e => { e with cry := e.cry + 1 }) (setBri (fun b => { b with
    drbgOk := false
    engine := b.engine.map fun e => if e.who = t then { e with stale := true } else e }) s)

/-- What a CRYPTO.RESET leaves that finds no wait on the engine and no session (R486, R487). -/
theorem execCryptoReset_idle (c : Cmd) (s u : State) (h : Taken 0x48F0 c s u) (hargs : c.args = [])
    (hfree : cryptoBusy c.t u = false) (hrun : u.ctxs[c.t].run ≠ .waiting) (hclosed : u.sess[c.t].opened = false)
    (hhold : u.radio.rHold = none) :
    execCryptoReset c s = .next (dropWaiters (.session c.t) (reply c.t stOk [] (cryptoRestart c.t u))) := by
  rw [execCryptoReset, keelRun_some _ _ _ _ _ h]
  dsimp only
  rw [if_neg (by simp [hargs]), hfree, if_neg Bool.false_ne_true, failEngineWait_idle c.t stAbortedReset (setBri _ u) hrun]
  split
  · next hwait _ => exact absurd hwait hrun
  · exact congrArg _ (closeSession_closed _ _ _ (by simpa using hclosed) (by simpa using hhold))

/-- What a SPOOL.RESET does to a context in which nothing runs (R220). -/
def ctxReset (k : Ctx) : Ctx :=
  { k with load := none, data := [], wipe := false, epoch := k.epoch + 1, fault := 0, run := .idle }

/-- An update of a context matters by what it does to that context. -/
theorem modCtx_congr (t : Tenant) (f g : Ctx → Ctx) (s : State) (h : f s.ctxs[t] = g s.ctxs[t]) : modCtx t f s = modCtx t g s := by
  simp only [modCtx, vmod, h]

theorem execSpoolReset_idle (c : Cmd) (s u : State) (h : Taken 0x90F0 c s u) (hargs : c.args = [])
    (hrun : u.ctxs[c.t].run = .idle ∨ u.ctxs[c.t].run = .faulted) :
    execSpoolReset c s = .next (modCtx c.t ctxReset (reply c.t stOk [] u)) := by
  have still : inRun u.ctxs[c.t] = false := by
    rcases hrun with e | e <;> rw [inRun, e] <;> rfl
  have ended : (if u.ctxs[c.t].run == .faulted then .idle else u.ctxs[c.t].run) = CtxRun.idle := by
    rcases hrun with e | e <;> rw [e] <;> rfl
  rw [execSpoolReset, keelRun_some _ _ _ _ _ h]
  dsimp only
  rw [if_neg (by simp [hargs]), modCtx_congr c.t _ ctxReset _ (by simp only [reply_ctxs, still, ended, Bool.false_eq_true, if_false, ctxReset])]
  have quiet : inRun (modCtx c.t ctxReset (reply c.t stOk [] u)).ctxs[c.t] = false := by
    simp [inRun, ctxReset]
  simp only [ownRuns, quiet, Bool.false_and, Bool.false_eq_true, if_false]

-- ------------------------------------------------------------------ SPOOL.LOAD

section Load
variable {c : Cmd} {s u : State} (h : Taken 0x9000 c s u) (hlen : c.args.length = 5 + fld c.args 3 2) (hlow : 1 ≤ fld c.args 3 2)
  (hhigh : fld c.args 3 2 ≤ 1000) (hrun : u.ctxs[c.t].run = .idle ∨ u.ctxs[c.t].run = .faulted)
  (hoff : fld c.args 0 2 = (u.ctxs[c.t].load.getD []).length)
  (hmax : (u.ctxs[c.t].load.getD []).length + fld c.args 3 2 ≤ maxImage)
include h hlen hlow hhigh hrun hoff hmax

/-- A piece that continues the load is taken: FLAGS decides what becomes of it (R206, R223). -/
theorem execSpoolLoad_taken (b : Bytes) (hflags : fld c.args 2 1 ≤ 1) (hb : b = u.ctxs[c.t].load.getD [] ++ c.args.drop 5) :
    execSpoolLoad c s = .next (
      if fld c.args 2 1 = 0 then reply c.t stOk [] (modCtx c.t (fun k =>
        { (if fld c.args 0 2 = 0 then emptySlot k else k) with load := some b }) u)
      else if imageOk b then reply c.t stOk [BitVec.ofNat 8 (fld b 12 1)] (modCtx c.t (placeImage b) u)
      else refuse c.t stBadArg (modCtx c.t emptySlot u)) := by
  subst hb
  have still : ¬(u.ctxs[c.t].run == .running || u.ctxs[c.t].run == .waiting) = true := by
    rcases hrun with e | e <;> rw [e] <;> decide
  rw [execSpoolLoad, keelRun_some _ _ _ _ _ h]
  dsimp only
  rw [if_neg (by omega), if_neg still, if_neg (by omega)]

end Load

-- ------------------------------------------------------------------ the starts

theorem startProgram_begins (how : Starter) (c : Cmd) (down : State → Option Byte) (prof : Profile → Profile → Profile)
    (u : State) (pc : Nat) (hlen : c.args.length = 17) (hentry : fld c.args 0 1 ≤ 7) (hready : down u = none)
    (hbusy : ctxBusy u.ctxs[c.t] = false) (hpc : u.ctxs[c.t].entries[fld c.args 0 1]? = some pc) :
    startProgram how c down prof u =
      modCtx c.t (startCtx how c.seq pc fun i => BitVec.ofNat 32 (fld c.args (1 + 4 * i) 4))
        { u with loaded := vmod u.loaded c.t (prof u.prof[c.t]) } := by
  simp only [startProgram]
  rw [if_neg (by omega), hready]
  simp only [hbusy, Bool.false_eq_true, if_false, hpc]

-- ------------------------------------------------------------------ SPOOL.STOP and SPOOL.STATUS

theorem execSpoolStop_uncommitted (c : Cmd) (s u : State) (h : Taken 0x9002 c s u) (hargs : c.args = [])
    (hown : ownRuns u.ctxs[c.t] = true) (hcommit : progCommitted c.t u = false) :
    execSpoolStop c s = .next (stopProgram c.t stCancelled (refuse c.t stCancelled u)) := by
  rw [execSpoolStop, keelRun_some _ _ _ _ _ h]
  dsimp only
  rw [hown, if_neg (by simp [hargs]), hcommit, if_neg Bool.false_ne_true]

theorem execSpoolStatus_reads (c : Cmd) (s u : State) (h : Taken 0x9003 c s u) (hargs : c.args = []) :
    execSpoolStatus c s = .next (reply c.t stOk ([BitVec.ofNat 8 (ctxCode u.ctxs[c.t] u)] ++ leBytes 2 (pcNow u.ctxs[c.t] u) ++
      [BitVec.ofNat 8 u.ctxs[c.t].fault] ++ leBytes 4 (cycNow u.ctxs[c.t] u)) u) := by
  rw [execSpoolStatus, keelRun_some _ _ _ _ _ h]
  dsimp only
  rw [if_neg (by simp [hargs])]

-- ------------------------------------------------------------------ the obligation

/-- Settles O18, from what each command leaves. -/
theorem blockResetsAndSpoolCommands : Obligations.BlockResetsAndSpoolCommands := by
  unfold Obligations.BlockResetsAndSpoolCommands
  refine ⟨⟨?rdrReset, ?lnkReset, ?cryptoReset, ?spoolReset⟩, ?load, ?starts, execSpoolStop_uncommitted, execSpoolStatus_reads⟩
  case rdrReset =>
    intro c s u h hargs hidle hfree hwait hinv hacc hclosed hsniff hsweep
    refine ⟨_, execRdrReset_idle c s u h hargs hidle hfree hwait hinv hacc hclosed hsniff hsweep, ?_⟩
    rw [dropWaiters_only]
    exact ⟨by simp [setEpoch, rdrClear], rfl, rfl, reply_exec ..⟩
  case lnkReset =>
    intro c s u h hargs hidle hfree hwait hsends hlisten _ hend hsweep
    obtain ⟨v, next, rest⟩ := execLnkReset_idle c s u h hargs hidle hfree hwait hsends hlisten hend hsweep
    simp only [linkRest, Prod.mk.injEq] at rest
    obtain ⟨tens, epoch, -⟩ := rest
    refine ⟨_, next, ?_, rfl, rfl, rfl, ?_⟩
    · simp [epoch, setEpoch]
    · simpa [tens] using reply_exec c.t stOk [] u
  case cryptoReset =>
    intro c s u h hargs hfree hrun _ hclosed hhold
    refine ⟨_, execCryptoReset_idle c s u h hargs hfree hrun hclosed hhold, ?_⟩
    rw [dropWaiters_only]
    exact ⟨by simp [cryptoRestart], by simp [cryptoRestart], reply_exec ..⟩
  case spoolReset =>
    intro c s u h hargs hrun
    refine ⟨_, execSpoolReset_idle c s u h hargs hrun, ?_⟩
    have reset : (modCtx c.t ctxReset (reply c.t stOk [] u)).ctxs[c.t] = ctxReset u.ctxs[c.t] := by simp
    rw [reset]
    exact ⟨rfl, rfl, rfl, rfl, rfl, reply_exec ..⟩
  case load =>
    rintro c s u _ _ h - hlen hlow hhigh hrun rfl hoff hmax rfl
    have taken := execSpoolLoad_taken h hlen hlow hhigh hrun hoff hmax
    refine ⟨fun more => ?_, fun last good => ?_, fun last bad => ?_⟩
    · exact (taken _ (by omega) rfl).trans (by rw [if_pos more])
    · exact (taken _ (by omega) rfl).trans (by rw [if_neg (by omega), if_pos good])
    · exact (taken _ (by omega) rfl).trans (by rw [if_neg (by omega), if_neg (ne_true_of_eq_false bad)]; rfl)
  case starts =>
    intro c s u how pc hlen hentry hbusy hpc
    have begins := fun down prof => startProgram_begins how c down prof u pc hlen hentry
    refine ⟨?_, ?_, ?_⟩
    · rintro rfl h
      exact congrArg Host.Outcome.next ((keelRun_some _ _ _ _ _ h).trans (begins _ _ rfl hbusy hpc))
    · rintro rfl h ready sniff feed prof
      refine congrArg Host.Outcome.next ((keelRun_some _ _ _ _ _ h).trans (begins _ loadReader ?_ hbusy hpc))
      simp only [ready, sniff, feed, prof, Bool.or_self, Bool.false_eq_true, if_false]
    · rintro rfl h limp syn prof
      refine congrArg Host.Outcome.next ((keelRun_some _ _ _ _ _ h).trans (begins _ loadLink ?_ hbusy hpc))
      simp only [limp, syn, prof, Bool.false_eq_true, if_false]

end Sys2Proof.Machine
end

section
/-!
SUPPORT. Host Link Frames as bytes and as bits on a line: the fields of a frame (Table 4-5), its CRC (R112), and that a port takes
the bytes which its line carries (4.2 to 4.4).
-/
namespace Sys2Proof.Machine

-- ------------------------------------------------------------------ fields

/-- A number written least significant first reads back as the field at its place (R11). -/
theorem fld_leBytes (pre suf : Bytes) (n v : Nat) (h : v < 256 ^ n) : fld (pre ++ leBytes n v ++ suf) pre.length n = v := by
  rw [fld, List.append_assoc, List.drop_left, List.take_left' (leBytes_length n v), leNat_leBytes n v h]

-- ------------------------------------------------------------------ the CRC

/-- One bit of a CRC keeps the register within its width (18.2). -/
theorem cvuBit_lt {width poly : Nat} (hpoly : poly < 2 ^ width) (reg : Nat) (b : Bool) : cvuBit width poly reg b < 2 ^ width := by
  have shifted : reg * 2 % 2 ^ width < 2 ^ width := Nat.mod_lt _ (Nat.two_pow_pos width)
  simp only [cvuBit]
  split
  · exact Nat.xor_lt_two_pow shifted hpoly
  · exact shifted

theorem cvuByte_lt {width poly : Nat} (hpoly : poly < 2 ^ width) (reg b : Nat) : cvuByte width poly reg b < 2 ^ width :=
  cvuBit_lt hpoly _ _

theorem hlfCrc_lt (d : Bytes) : hlfCrc d < 256 ^ 2 := by
  have register : d.foldl (fun r b => cvuByte 16 0x1021 r b.toNat) 0xFFFF < 2 ^ 16 :=
    List.foldlRecOn (motive := (· < 2 ^ 16)) d _ (by decide) fun r _ b _ =>
      cvuByte_lt (width := 16) (poly := 0x1021) (by decide) r b.toNat
  simpa [hlfCrc, checkValue] using register

-- ------------------------------------------------------------------ the fields of a frame

/-- What the CRC of a frame covers (R112): FLAGS, SEQ, LEN and the payload. -/
def frameBody (flags : Nat) (seq : BitVec 16) (payload : Bytes) : Bytes :=
  BitVec.ofNat 8 flags :: (leBytes 2 seq.toNat ++ leBytes 2 payload.length ++ payload)

theorem hostFrame_eq (flags : Nat) (seq : BitVec 16) (payload : Bytes) :
    hostFrame flags seq payload = 0x5A :: (frameBody flags seq payload ++ leBytes 2 (hlfCrc (frameBody flags seq payload))) := rfl

@[simp] theorem frameBody_length (flags : Nat) (seq : BitVec 16) (payload : Bytes) :
    (frameBody flags seq payload).length = 5 + payload.length := by
  simp only [frameBody, List.length_cons, List.length_append, leBytes_length]
  omega

@[simp] theorem hostFrame_length (flags : Nat) (seq : BitVec 16) (payload : Bytes) :
    (hostFrame flags seq payload).length = payload.length + 8 := by
  simp only [hostFrame_eq, List.length_cons, List.length_append, frameBody_length, leBytes_length]
  omega

/-- A frame begins with SYNC, so that the hunt for SYNC skips nothing of it (R113). -/
@[simp] theorem hostFrame_hunt (flags : Nat) (seq : BitVec 16) (payload : Bytes) :
    (hostFrame flags seq payload).dropWhile (· != 0x5A) = hostFrame flags seq payload := by
  simp [hostFrame_eq]

section Fields
variable (flags : Nat) (seq : BitVec 16) (payload : Bytes)

theorem hostFrame_flags : fld (hostFrame flags seq payload) 1 1 = flags % 256 := by
  simp [fld, hostFrame_eq, frameBody, leNat]

theorem hostFrame_seq : fld (hostFrame flags seq payload) 2 2 = seq.toNat := by
  have field := fld_leBytes [0x5A, BitVec.ofNat 8 flags]
    (leBytes 2 payload.length ++ payload ++ leBytes 2 (hlfCrc (frameBody flags seq payload))) 2 seq.toNat seq.isLt
  simpa [hostFrame_eq, frameBody] using field

theorem hostFrame_len (h : payload.length < 256 ^ 2) : fld (hostFrame flags seq payload) 4 2 = payload.length := by
  have field := fld_leBytes ([0x5A, BitVec.ofNat 8 flags] ++ leBytes 2 seq.toNat)
    (payload ++ leBytes 2 (hlfCrc (frameBody flags seq payload))) 2 payload.length h
  simpa [hostFrame_eq, frameBody, leBytes_length] using field

theorem hostFrame_crc : fld (hostFrame flags seq payload) (6 + payload.length) 2 = hlfCrc (frameBody flags seq payload) := by
  have field := fld_leBytes (0x5A :: frameBody flags seq payload) [] 2 (hlfCrc (frameBody flags seq payload)) (hlfCrc_lt _)
  rw [List.length_cons, frameBody_length, show 5 + payload.length + 1 = 6 + payload.length by omega, List.append_nil] at field
  exact field

theorem hostFrame_body : ((hostFrame flags seq payload).drop 1).take (5 + payload.length) = frameBody flags seq payload :=
  List.take_left' (frameBody_length flags seq payload)

/-- The payload follows the six bytes of the head. -/
theorem hostFrame_payload : (hostFrame flags seq payload).drop 6 =
    payload ++ leBytes 2 (hlfCrc (frameBody flags seq payload)) := by
  simp [hostFrame_eq, frameBody, leBytes]

end Fields

/-- The frame of a command as a host sends it: FLAGS 0, and a payload of OPCODE and arguments (Tables 4-5 to 4-7). -/
def commandFrame (seq op : BitVec 16) (args : Bytes) : Bytes := hostFrame 0 seq (leBytes 2 op.toNat ++ args)

section Command
variable (seq op : BitVec 16) (args : Bytes)

theorem commandPayload_length : (leBytes 2 op.toNat ++ args).length = args.length + 2 := by
  rw [List.length_append, leBytes_length]
  omega

@[simp] theorem commandFrame_length : (commandFrame seq op args).length = args.length + 2 + 8 := by
  rw [commandFrame, hostFrame_length, commandPayload_length]

@[simp] theorem commandFrame_hunt : (commandFrame seq op args).dropWhile (· != 0x5A) = commandFrame seq op args :=
  hostFrame_hunt ..

@[simp] theorem commandFrame_flags : fld (commandFrame seq op args) 1 1 = 0 := hostFrame_flags ..

@[simp] theorem commandFrame_seq : fld (commandFrame seq op args) 2 2 = seq.toNat := hostFrame_seq ..

theorem commandFrame_len (h : args.length ≤ 1022) : fld (commandFrame seq op args) 4 2 = args.length + 2 := by
  have payload := commandPayload_length op args
  rw [commandFrame, hostFrame_len _ _ _ (by omega), payload]

@[simp] theorem commandFrame_opcode : fld (commandFrame seq op args) 6 2 = op.toNat := by
  have opcode := leNat_leBytes 2 op.toNat op.isLt
  rw [fld, commandFrame, hostFrame_payload, List.append_assoc, List.take_left' (leBytes_length _ _), opcode]

@[simp] theorem commandFrame_args : ((commandFrame seq op args).drop 8).take args.length = args := by
  rw [show 8 = 6 + 2 from rfl, ← List.drop_drop, commandFrame, hostFrame_payload, List.append_assoc,
    List.drop_left' (leBytes_length _ _), List.take_left]

/-- R112. -/
theorem commandFrame_crc : hlfCrc (((commandFrame seq op args).drop 1).take (5 + (args.length + 2))) =
    fld (commandFrame seq op args) (6 + (args.length + 2)) 2 := by
  rw [← commandPayload_length op args, commandFrame, hostFrame_body, hostFrame_crc]

@[simp] theorem commandFrame_end : (commandFrame seq op args).drop (args.length + 2 + 8) = [] :=
  List.drop_of_length_le (commandFrame_length seq op args).le

end Command

-- ------------------------------------------------------------------ bytes on a line

/-- A number is made of its k lowest bits and of what stands above them. -/
theorem foldr_testBit (x k : Nat) :
    ((List.range k).map fun i => x.testBit i).foldr (fun b n => 2 * n + b.toNat) (x / 2 ^ k) = x := by
  induction k with
  | zero => simp
  | succ k ih =>
    have lowest : 2 * (x / 2 ^ (k + 1)) + (x.testBit k).toNat = x / 2 ^ k := by
      rw [Nat.toNat_testBit, Nat.pow_succ, ← Nat.div_div_eq_div_mul, Nat.div_add_mod]
    rw [List.range_succ, List.map_append, List.foldr_append]
    simp only [List.map_cons, List.map_nil, List.foldr_cons, List.foldr_nil, lowest, ih]

theorem lineBytes_append (p : Port) (l r : List Bool) (h : l.length = 8) :
    lineBytes p (l ++ r) = bitsByte p l :: lineBytes p r :=
  match l, h with
  | [_, _, _, _, _, _, _, _], _ => rfl

theorem lineByte_length (p : Port) (b : Byte) : (lineByte p b).length = 8 := by
  simp only [lineByte]
  split <;> simp

/-- A port shifts a byte in as it shifts one out (R98, 4.4). -/
theorem bitsByte_lineByte (p : Port) (b : Byte) : bitsByte p (lineByte p b) = b := by
  have order : (if p = 3 then lineByte p b else (lineByte p b).reverse) = (List.range 8).map fun i => b.toNat.testBit i := by
    simp only [lineByte]
    split
    · rfl
    · exact List.reverse_reverse _
  have value := foldr_testBit b.toNat 8
  rw [Nat.div_eq_of_lt b.isLt] at value
  rw [bitsByte, order, value, BitVec.ofNat_toNat, BitVec.setWidth_eq]

@[simp] theorem lineBytes_lineBits (p : Port) (b : Bytes) : lineBytes p (lineBits p b) = b := by
  induction b with
  | nil => rfl
  | cons x r ih =>
    have first : lineBits p (x :: r) = lineByte p x ++ lineBits p r := rfl
    rw [first, lineBytes_append p _ _ (lineByte_length p x), bitsByte_lineByte, ih]

end Sys2Proof.Machine
end

section
/-!
PROOFS. A host frame is taken (4.5, 5.4): accepted and its command queued or refused, or dropped where the ring is full.
-/
namespace Sys2Proof.Machine

-- ------------------------------------------------------------------ what accepting changes

@[simp] theorem pushEvent_refusal (now : Tick) (code : BitVec 16) (data : Bytes) (q : TenantSt) :
    (pushEvent now code data q).refusal = q.refusal := by
  simp only [pushEvent]
  split
  · rfl
  · split <;> rfl

/-- An event is no response, so that it leaves the commands outstanding (R154). -/
@[simp] theorem pushEvent_outstanding (now : Tick) (code : BitVec 16) (data : Bytes) (q : TenantSt) :
    outstanding (pushEvent now code data q) = outstanding q := by
  simp only [pushEvent]
  split
  · simp [outstanding, Out.isEvent]
  · split
    · rfl
    · simp [outstanding, Out.isEvent]

/-- Accepting a frame raises one event at most: what events leave alone of a tenant, it leaves alone (R126). -/
theorem acceptFrame_tenant {α : Type} (g : TenantSt → α) (hg : ∀ now code data q, g (pushEvent now code data q) = g q)
    (p : Port) (t : Tenant) (s : State) : g (acceptFrame p s).tens[t] = g s.tens[t] := by
  simp only [acceptFrame]
  split
  · rfl
  · simp only [raise_tens, modPort_tens, setPower_tens, Fin.getElem_fin, vmod_get]
    split
    · next ht => subst ht; exact hg ..
    · rfl

@[simp] theorem acceptFrame_ports (p : Port) (s : State) : (acceptFrame p s).ports =
    vmod s.ports p (fun q => { q with attached := true, moved := false, presFrom := s.reel.cnt, polled := true }) := by
  simp only [acceptFrame]
  split <;> rfl

@[simp] theorem acceptFrame_power (p : Port) (s : State) : (acceptFrame p s).power =
    { s.power with votes := vmod s.power.votes s.binding[p] (fun _ => true) } := by
  simp only [acceptFrame]
  split <;> rfl

@[simp] theorem acceptFrame_binding (p : Port) (s : State) : (acceptFrame p s).binding = s.binding := by
  simp only [acceptFrame]
  split <;> rfl

theorem queueJob_room (j : Job) (q : TenantSt) (h : outstanding q < 8) : queueJob j q = { q with cmdQ := q.cmdQ ++ [j] } := by
  rw [queueJob, if_pos h]

theorem queueJob_full (j : Job) (q : TenantSt) (h : 8 ≤ outstanding q) : queueJob j q = { q with
    refused := satInc 0xFFFF q.refused
    refusal := if q.refusal.isNone then some (j.seq, j.op, false) else q.refusal } := by
  rw [queueJob, if_neg (by omega)]

/-- The state after a command frame is accepted, its command queued or refused, and the hunt has come to its end. -/
def commandAccepted (p : Port) (lag : Nat) (seq op : BitVec 16) (args : Bytes) (s : State) : State :=
  modPort p (fun q => { q with ring := [] }) (acceptCommand p op seq args s.binding[p]
    (modPort p (fun q => keelTakes lag { q with untaken := q.untaken ++ [args.length + 2 + 8] }) (acceptFrame p s)))

section Accepted
variable (p : Port) (lag : Nat) (seq op : BitVec 16) (args : Bytes) (s : State)

theorem commandAccepted_tenant : (commandAccepted p lag seq op args s).tens[s.binding[p]] =
    queueJob { op := op, seq := seq, args := args, orphan := false, port := p } (acceptFrame p s).tens[s.binding[p]] := by
  simp [commandAccepted, acceptCommand]

/-- R154, R155: what its command finds of the tenant is what stood before the frame. -/
theorem commandAccepted_room (h : outstanding s.tens[s.binding[p]] < 8) :
    (commandAccepted p lag seq op args s).tens[s.binding[p]].cmdQ = s.tens[s.binding[p]].cmdQ ++
      [{ op := op, seq := seq, args := args, orphan := false, port := p }] := by
  rw [commandAccepted_tenant, queueJob_room _ _ (by rwa [acceptFrame_tenant outstanding pushEvent_outstanding]),
    acceptFrame_tenant TenantSt.cmdQ pushEvent_cmdQ]

theorem commandAccepted_full (h : 8 ≤ outstanding s.tens[s.binding[p]]) :
    (commandAccepted p lag seq op args s).tens[s.binding[p]].cmdQ = s.tens[s.binding[p]].cmdQ ∧
    (s.tens[s.binding[p]].refusal = none →
      (commandAccepted p lag seq op args s).tens[s.binding[p]].refusal = some (seq, op, false)) := by
  rw [commandAccepted_tenant, queueJob_full _ _ (by rwa [acceptFrame_tenant outstanding pushEvent_outstanding])]
  refine ⟨acceptFrame_tenant TenantSt.cmdQ pushEvent_cmdQ .., fun empty => ?_⟩
  rw [← acceptFrame_tenant TenantSt.refusal pushEvent_refusal p] at empty
  simp only [empty, Option.isNone_none, if_true]

theorem commandAccepted_votes : (commandAccepted p lag seq op args s).power.votes[s.binding[p]] = true := by
  simp [commandAccepted, acceptCommand]

theorem commandAccepted_attached : (commandAccepted p lag seq op args s).ports[p].attached = true := by
  simp [commandAccepted, acceptCommand, keelTakes]

theorem commandAccepted_acks : (commandAccepted p lag seq op args s).ports[p].acks = s.ports[p].acks := by
  simp [commandAccepted, acceptCommand, keelTakes]

end Accepted

-- ------------------------------------------------------------------ frames in a run of bytes

section Run
variable (p : Port) (lag fuel : Nat)

/-- Bytes without SYNC are skipped (R117). -/
theorem takeFrames_noSync (judged : Bool) (b : Bytes) (s : State) (h : 0x5A ∉ b) :
    takeFrames p lag (fuel + 1) judged b s = modPort p (fun q => { q with ring := [] }) s := by
  have skipped : b.dropWhile (· != 0x5A) = [] := by
    rw [List.dropWhile_eq_nil_iff]
    intro x hx
    exact bne_iff_ne.mpr fun hsync => h (hsync ▸ hx)
  rw [takeFrames]
  simp only [skipped]
  rw [if_pos (by decide)]

variable (seq op : BitVec 16) (args : Bytes) (s : State) (hargs : args.length ≤ 1022)
include hargs

/-- R113, R154, R155: the frame of a command for which the ring has the space. -/
theorem takeFrames_accepts (hspace : s.ports[p].untaken.sum + args.length + 10 ≤ 2080) :
    takeFrames p lag (fuel + 2) false (commandFrame seq op args) s = commandAccepted p lag seq op args s := by
  have fits : ¬ ringFree s.ports[p] < args.length + 2 + 8 := by
    simp only [ringFree, ringSize]
    omega
  have good : hlfCrc (((commandFrame seq op args).drop 1).take (5 + (args.length + 2))) =
        fld (commandFrame seq op args) (6 + (args.length + 2)) 2 ∧ fld (commandFrame seq op args) 1 1 = 0 ∧
      args.length + 2 ≠ 1 :=
    ⟨commandFrame_crc .., commandFrame_flags .., by omega⟩
  rw [takeFrames]
  simp only [commandFrame_hunt, commandFrame_len seq op args hargs, if_pos good, fits, decide_false, Bool.and_false]
  simp only [commandFrame_length, commandFrame_end, commandFrame_seq, commandFrame_opcode, Nat.add_sub_cancel,
    commandFrame_args, BitVec.ofNat_toNat, BitVec.setWidth_eq]
  rw [if_neg (by omega), if_neg (by omega), if_neg Bool.false_ne_true, if_neg (by omega), if_neg (by omega),
    takeFrames_noSync p lag fuel false [] _ List.not_mem_nil]
  simp [commandAccepted]

/-- R119: one that the ring has no space for, with no further SYNC in it. -/
theorem takeFrames_drops (hspace : 2080 < s.ports[p].untaken.sum + args.length + 10)
    (hsync : 0x5A ∉ (commandFrame seq op args).drop 6) :
    takeFrames p lag (fuel + 2) false (commandFrame seq op args) s =
      modPort p (fun q => { q with ring := [] }) (countPortDrop p s) := by
  have full : ringFree s.ports[p] < args.length + 2 + 8 := by
    simp only [ringFree, ringSize]
    omega
  rw [takeFrames]
  simp only [commandFrame_hunt, commandFrame_len seq op args hargs, commandFrame_length, full, decide_true,
    Bool.not_false, Bool.and_true]
  rw [if_neg (by omega), if_neg (by omega), if_pos trivial, takeFrames_noSync p lag fuel false _ _ hsync]

end Run

-- ------------------------------------------------------------------ a frame that arrives whole

/-- The state in which a port that held nothing in its ring hunts through n bytes just taken. -/
def lineTaken (p : Port) (bus : Bus) (n : Nat) (s : State) : State :=
  modPort p (fun q => { busEcho p bus n q with ring := [] }) s

section Arrival
variable {p : Port} {bus : Bus} {s : State}

theorem lineTaken_port (n : Nat) : (lineTaken p bus n s).ports[p] = { busEcho p bus n s.ports[p] with ring := [] } := by
  simp [lineTaken]

/-- Bytes that arrive do not change what the judging of a frame looks at and counts (R119). -/
theorem lineTaken_judged (n : Nat) : (lineTaken p bus n s).ports[p].untaken = s.ports[p].untaken ∧
    (lineTaken p bus n s).ports[p].rxdrop = s.ports[p].rxdrop ∧
    (lineTaken p bus n s).ports[p].attached = s.ports[p].attached := by
  rw [lineTaken_port]
  simp only [busEcho]
  split
  · exact ⟨rfl, rfl, rfl⟩
  · split <;> exact ⟨rfl, rfl, rfl⟩

/-- R104. -/
theorem lineTaken_acks (n : Nat) (hp : p = 2) : (lineTaken p bus n s).ports[p].acks = List.replicate (n + 1) true := by
  rw [lineTaken_port]
  subst hp
  rfl

theorem execHostFrame_whole (lag : Nat) (frame : Bytes) (taken : busTaken p bus s = true) (hring : s.ports[p].ring = []) :
    execHostFrame p bus (lineBits p frame) lag s =
      .next (takeFrames p lag (frame.length + 1) false frame (lineTaken p bus frame.length s)) := by
  rw [execHostFrame_taken _ _ taken, hring, lineBytes_lineBits]
  rfl

/-- R112, R113: a whole command frame for which the ring has the space. -/
theorem execHostFrame_accepts (lag : Nat) (seq op : BitVec 16) (args : Bytes) (taken : busTaken p bus s = true)
    (hring : s.ports[p].ring = []) (hargs : args.length ≤ 1022) (hspace : s.ports[p].untaken.sum + args.length + 10 ≤ 2080) :
    execHostFrame p bus (lineBits p (commandFrame seq op args)) lag s =
      .next (commandAccepted p lag seq op args (lineTaken p bus (commandFrame seq op args).length s)) := by
  obtain ⟨untaken, -, -⟩ := lineTaken_judged (p := p) (bus := bus) (s := s) (commandFrame seq op args).length
  rw [← untaken] at hspace
  rw [execHostFrame_whole lag _ taken hring, ← takeFrames_accepts p lag (args.length + 9) seq op args _ hargs hspace,
    commandFrame_length]

/-- R119. -/
theorem execHostFrame_drops (lag : Nat) (seq op : BitVec 16) (args : Bytes) (taken : busTaken p bus s = true)
    (hring : s.ports[p].ring = []) (hargs : args.length ≤ 1022) (hspace : 2080 < s.ports[p].untaken.sum + args.length + 10)
    (hsync : 0x5A ∉ (commandFrame seq op args).drop 6) :
    execHostFrame p bus (lineBits p (commandFrame seq op args)) lag s = .next (modPort p (fun q => { q with ring := [] })
      (countPortDrop p (lineTaken p bus (commandFrame seq op args).length s))) := by
  obtain ⟨untaken, -, -⟩ := lineTaken_judged (p := p) (bus := bus) (s := s) (commandFrame seq op args).length
  rw [← untaken] at hspace
  rw [execHostFrame_whole lag _ taken hring, ← takeFrames_drops p lag (args.length + 9) seq op args _ hargs hspace hsync,
    commandFrame_length]

end Arrival

/-- Settles O44: a whole frame in an empty ring is the one frame of its run; taking its bytes left the tenant and the binding
alone, so that what `commandAccepted` finds there is what stood before. -/
theorem hostFrameQueued : Obligations.HostFrameQueued := by
  unfold Obligations.HostFrameQueued
  rintro p bus lag op seq args _ s taken hring hargs rfl
  refine ⟨fun hspace => ?accepted, fun hspace hsync => ?dropped⟩
  case accepted =>
    let v := lineTaken p bus (commandFrame seq op args).length s
    exact ⟨_, execHostFrame_accepts lag seq op args taken hring hargs hspace, commandAccepted_room p lag seq op args v,
      commandAccepted_full p lag seq op args v, commandAccepted_votes p lag seq op args v,
      commandAccepted_attached p lag seq op args v,
      fun hp => (commandAccepted_acks p lag seq op args v).trans (lineTaken_acks _ hp)⟩
  case dropped =>
    obtain ⟨-, rxdrop, attached⟩ := lineTaken_judged (p := p) (bus := bus) (s := s) (commandFrame seq op args).length
    refine ⟨_, execHostFrame_drops lag seq op args taken hring hargs hspace hsync, rfl, ?_, ?_⟩
    · rw [← rxdrop]
      simp [countPortDrop]
    · rw [← attached]
      simp [countPortDrop]

end Sys2Proof.Machine
end

section
/-!
PROOFS. V1 register mode (4.8).
-/
namespace Sys2Proof.Machine

section Strapped
variable {s : State} (hon : v1On s = true)
include hon

/-- R127: control byte 0x02 writes. -/
theorem execV1Transaction_writes (a : Byte) (data : Bytes) :
    execV1Transaction (0x02 :: a :: data) s = .next (v1Writes a.toNat data s) := by
  simp [execV1Transaction, hon]

/-- R127: control byte 0x03 reads. -/
theorem execV1Transaction_reads (a : Byte) (data : Bytes) : execV1Transaction (0x03 :: a :: data) s =
    .next (setV1 (fun v => { v with out := (v1Reads data.length a.toNat s).1 }) (v1Reads data.length a.toNat s).2) := by
  simp [execV1Transaction, hon]

theorem execV1Start_begins : execV1Start s = .next (v1Begin false s) := by
  rw [execV1Start, if_pos hon]

theorem execV1Single_begins : execV1Single s = .next (v1Begin true s) := by
  rw [execV1Single, if_pos hon]

theorem execV1Stop_ends : execV1Stop s = .next (v1End s) := by
  rw [execV1Stop, if_pos hon]

/-- R132: the next byte of the first entry, which goes with its last byte. -/
theorem execV1FifoRead_pops (b : Byte) (e : Bytes) (r : List Bytes) (hfifo : s.v1.fifo = (b :: e) :: r) :
    execV1FifoRead s = .next (setV1 (fun v => { v with fifo := if e = [] then r else e :: r, out := [b] }) s) := by
  rw [execV1FifoRead, if_pos hon, v1Pop, hfifo]
  cases e <;> rfl

/-- R131. -/
theorem execV1IrqflgClear_clears (m : Byte) :
    execV1IrqflgClear m s = .next (setV1 (fun v => { v with irqflg := v.irqflg &&& ~~~m }) s) := by
  rw [execV1IrqflgClear, if_pos hon, v1Clear]

theorem execV1RegionWrite_judges (w : Byte) : execV1RegionWrite w s =
    .next (if w.toNat < 2 then setV1 (fun v => { v with region := w }) s else v1Error stBadArg s) := by
  rw [execV1RegionWrite, if_pos hon, v1Region]

/-- R133. -/
theorem execV1LinkWrite_taken (w : Byte) (hlow : bits w 4 2 < 6) (hhigh : bits w 6 5 < 3) :
    execV1LinkWrite w s = .next (setV1 (fun v => { v with link := w &&& 0x7F }) s) := by
  rw [execV1LinkWrite, if_pos hon, v1Link, if_pos ⟨hlow, hhigh⟩]

/-- R133. -/
theorem execV1LinkWrite_reserved (w : Byte) (h : 6 ≤ bits w 4 2 ∨ 3 ≤ bits w 6 5) :
    execV1LinkWrite w s = .next (v1Error stBadArg s) := by
  rw [execV1LinkWrite, if_pos hon, v1Link, if_neg (by omega)]

theorem execV1PowerWrite_stops (w : Byte) :
    execV1PowerWrite w s = .next (setV1 (fun v => { v with power := if 0x50 < w.toNat then 0x50 else w }) s) := by
  rw [execV1PowerWrite, if_pos hon, v1Power]

end Strapped

/-- Continuous rounds whose dwell has run out end. -/
theorem execV1DwellExpiry_ends (now : Tick) (s u : State) (i : Inv) (hu : advanceTo now s = u) (hi : v1Inv u = some i)
    (hsingle : i.single = false) (hdwell : u.v1.dwell ≠ 0)
    (hdue : reached u.reel.cnt (u.v1.dwellFrom + BitVec.ofNat 48 (u.v1.dwell.toNat * 240000)) = true) :
    execV1DwellExpiry now s = .next (v1End u) := by
  have counts : u.v1.dwell.toNat ≠ 0 := fun h => hdwell (BitVec.toNat_inj.mp h)
  simp only [execV1DwellExpiry, hu, hi, hsingle, hdue, bne_iff_ne.mpr counts, Bool.not_false, Bool.and_self, if_true]

/-- Settles O42, one event after the other. -/
theorem v1ModeComplete : Obligations.V1ModeComplete := by
  unfold Obligations.V1ModeComplete
  refine ⟨fun s hon => ⟨execV1Transaction_writes hon, execV1Transaction_reads hon, execV1Start_begins hon,
    execV1Single_begins hon, execV1Stop_ends hon, execV1FifoRead_pops hon, execV1IrqflgClear_clears hon,
    execV1RegionWrite_judges hon, fun w => ⟨execV1LinkWrite_taken hon w, execV1LinkWrite_reserved hon w⟩,
    execV1PowerWrite_stops hon⟩, fun now s i => execV1DwellExpiry_ends now s _ i rfl⟩

end Sys2Proof.Machine
end

section
/-!
PROOFS. What a step does to the queue of commands, the serial number and the binding of ports to tenants (5.1, R136): the binding
changes only where TEN.BIND sets a map that it has found one-to-one, and where a power-on reset or NRESET puts the default back. The
form of the queue is log entry 62.
-/
namespace Sys2Proof.Machine

/-- The queue and the serial number of s stand in t, and so does its binding, unless t has one that is one-to-one. -/
def KeepsFixed (s t : State) : Prop :=
  t.pending = s.pending ∧ t.serial = s.serial ∧ (t.binding = s.binding ∨ OneToOne t)

theorem oneToOne_of_binding {s t : State} (h : t.binding = s.binding) (hs : OneToOne s) : OneToOne t := by
  rwa [OneToOne, h]

theorem keepsFixed_of_fixedPart {s t : State} (h : fixedPart t = fixedPart s) : KeepsFixed s t := by
  simp only [fixedPart, Prod.mk.injEq] at h
  obtain ⟨hpending, hserial, hbinding⟩ := h
  exact ⟨hpending, hserial, .inl hbinding⟩

theorem keepsFixed_of_frame {o : Host.Outcome State Fault Refusal} {s : State}
    (h : ∀ t, o = .next t → fixedPart t = fixedPart s) : ∀ t, o = .next t → KeepsFixed s t :=
  fun t ho => keepsFixed_of_fixedPart (h t ho)

theorem keepsFixed_congr {s s' t t' : State} (hs : fixedPart s' = fixedPart s) (ht : fixedPart t' = fixedPart t)
    (h : KeepsFixed s t) : KeepsFixed s' t' := by
  simp only [fixedPart, Prod.mk.injEq] at hs ht
  obtain ⟨spending, sserial, sbinding⟩ := hs
  obtain ⟨tpending, tserial, tbinding⟩ := ht
  obtain ⟨hpending, hserial, hbinding⟩ := h
  refine ⟨by rw [tpending, hpending, spending], by rw [tserial, hserial, sserial], ?_⟩
  rw [tbinding, sbinding]
  exact hbinding.imp id (oneToOne_of_binding tbinding)

theorem keelRun_keepsFixed (op : BitVec 16) (c : Cmd) (body : State → State) (s : State)
    (hbody : ∀ r, KeepsFixed r (body r)) : KeepsFixed s (keelRun op c body s) := by
  rw [keelRun]
  split
  · exact keepsFixed_of_fixedPart (notTaken_fixed ..)
  · next r hr => exact keepsFixed_congr (takeUp_fixed op c s r hr).symm rfl (hbody r)

-- ------------------------------------------------------------------ TEN.BIND

/-- A map that names every tenant names no tenant twice (R136). -/
theorem mapPort_injective (m : Nat) (h : mapOneToOne m = true) : Function.Injective (mapPort m) := by
  refine Finite.injective_iff_surjective.mpr fun t => ?_
  have every : t ∈ tenants := by revert t; decide
  obtain ⟨p, -, hp⟩ := List.any_eq_true.mp (List.all_eq_true.mp h t every)
  exact ⟨p, eq_of_beq hp⟩

theorem rebind_binding (m : Nat) (s : State) (p : Fin 4) : (rebind m s).binding[p] = mapPort m p := by
  simp [rebind]

theorem rebind_keepsFixed (m : Nat) (s : State) (h : mapOneToOne m = true) : KeepsFixed s (rebind m s) := by
  refine ⟨rfl, rfl, .inr fun p q hpq => mapPort_injective m h ?_⟩
  rwa [rebind_binding, rebind_binding] at hpq

theorem execTenBind_keepsFixed (c : Cmd) (s : State) : ∀ t, execTenBind c s = .next t → KeepsFixed s t := by
  rintro t ⟨⟩
  refine keelRun_keepsFixed _ _ _ _ fun r => ?_
  have refused : ∀ st, KeepsFixed r (refuse c.t st r) := fun st => keepsFixed_of_fixedPart (refuse_fixed ..)
  dsimp only
  split_ifs with hlen ht hmap hlock hbusy hmove
  · exact refused _
  · exact refused _
  · exact refused _
  · exact refused _
  · exact refused _
  · exact keepsFixed_congr rfl (replyAhead_fixed ..) (rebind_keepsFixed _ r (by simpa using hmap))
  · exact keepsFixed_congr rfl (reply_fixed ..) (rebind_keepsFixed _ r (by simpa using hmap))

-- ------------------------------------------------------------------ the resets that clear the binding

theorem clearFor_keepsFixed (cause : BitVec 3) (s : State) : KeepsFixed s (clearFor cause false s) :=
  ⟨rfl, rfl, .inr (oneToOne_of_binding rfl reset_oneToOne)⟩

theorem execPowerOnReset_keepsFixed (s : State) : ∀ t, execPowerOnReset s = .next t → KeepsFixed s t := by
  rintro t ⟨⟩
  exact clearFor_keepsFixed 1 s

theorem execNreset_keepsFixed (ns : Nat) (s : State) : ∀ t, execNreset ns s = .next t → KeepsFixed s t := by
  intro t h
  have drawn : fixedPart (drawBool s).2 = fixedPart s := drawBool_fixed s
  rw [execNreset] at h
  split_ifs at h with hunheard hlong
  · cases h
    exact keepsFixed_of_fixedPart rfl
  · cases h
    exact clearFor_keepsFixed 2 s
  · cases h
    split
    · exact keepsFixed_congr drawn.symm rfl (clearFor_keepsFixed 2 _)
    · exact keepsFixed_of_fixedPart drawn

-- ------------------------------------------------------------------ every instruction, every step

/-- One line per row of the dispatch: its frame lemma, but for TEN.BIND and the two resets. -/
theorem exec_keepsFixed (i : Instr) (s : State) : ∀ t, exec i s = .next t → KeepsFixed s t :=
  match i with
  | .sysInfo c => keepsFixed_of_frame (execSysInfo_fixed c s)
  | .sysSleep c => keepsFixed_of_frame (execSysSleep_fixed c s)
  | .sysReset c vhu f => keepsFixed_of_frame (execSysReset_fixed c vhu f s)
  | .sysPatch c => keepsFixed_of_frame (execSysPatch_fixed c s)
  | .regRead c => keepsFixed_of_frame (execRegRead_fixed c s)
  | .regWrite c => keepsFixed_of_frame (execRegWrite_fixed c s)
  | .tenBind c => execTenBind_keepsFixed c s
  | .tenLock c => keepsFixed_of_frame (execTenLock_fixed c s)
  | .tenShare c => keepsFixed_of_frame (execTenShare_fixed c s)
  | .rdrInventory c => keepsFixed_of_frame (execRdrInventory_fixed c s)
  | .rdrStop c => keepsFixed_of_frame (execRdrStop_fixed c s)
  | .rdrAccess c => keepsFixed_of_frame (execRdrAccess_fixed c s)
  | .rdrSniff c => keepsFixed_of_frame (execRdrSniff_fixed c s)
  | .rdrBaseline c bursts => keepsFixed_of_frame (execRdrBaseline_fixed c bursts s)
  | .rdrRunSpool c => keepsFixed_of_frame (execRdrRunSpool_fixed c s)
  | .rdrReset c => keepsFixed_of_frame (execRdrReset_fixed c s)
  | .tagEnable c => keepsFixed_of_frame (execTagEnable_fixed c s)
  | .tagDisable c => keepsFixed_of_frame (execTagDisable_fixed c s)
  | .tagPublish c => keepsFixed_of_frame (execTagPublish_fixed c s)
  | .secTam1 c => keepsFixed_of_frame (execSecTam1_fixed c s)
  | .secFarzOpen c => keepsFixed_of_frame (execSecFarzOpen_fixed c s)
  | .secFarzSend c => keepsFixed_of_frame (execSecFarzSend_fixed c s)
  | .secClose c => keepsFixed_of_frame (execSecClose_fixed c s)
  | .lnkNode c => keepsFixed_of_frame (execLnkNode_fixed c s)
  | .lnkSend c => keepsFixed_of_frame (execLnkSend_fixed c s)
  | .lnkListen c => keepsFixed_of_frame (execLnkListen_fixed c s)
  | .lnkCancel c => keepsFixed_of_frame (execLnkCancel_fixed c s)
  | .lnkRunSpool c => keepsFixed_of_frame (execLnkRunSpool_fixed c s)
  | .lnkReset c => keepsFixed_of_frame (execLnkReset_fixed c s)
  | .nbrList c => keepsFixed_of_frame (execNbrList_fixed c s)
  | .nbrForget c => keepsFixed_of_frame (execNbrForget_fixed c s)
  | .radioStatus c => keepsFixed_of_frame (execRadioStatus_fixed c s)
  | .coexConfig c => keepsFixed_of_frame (execCoexConfig_fixed c s)
  | .radioHoptable c => keepsFixed_of_frame (execRadioHoptable_fixed c s)
  | .tmrRead c => keepsFixed_of_frame (execTmrRead_fixed c s)
  | .tmrCmp c => keepsFixed_of_frame (execTmrCmp_fixed c s)
  | .tmrDc c => keepsFixed_of_frame (execTmrDc_fixed c s)
  | .tmrGo c => keepsFixed_of_frame (execTmrGo_fixed c s)
  | .tmrCap c => keepsFixed_of_frame (execTmrCap_fixed c s)
  | .tmrOut c => keepsFixed_of_frame (execTmrOut_fixed c s)
  | .keyDerive c => keepsFixed_of_frame (execKeyDerive_fixed c s)
  | .keyUnwrap c => keepsFixed_of_frame (execKeyUnwrap_fixed c s)
  | .keyErase c => keepsFixed_of_frame (execKeyErase_fixed c s)
  | .keyInvalidate c => keepsFixed_of_frame (execKeyInvalidate_fixed c s)
  | .keyInfo c => keepsFixed_of_frame (execKeyInfo_fixed c s)
  | .keyTamper c pinHigh => keepsFixed_of_frame (execKeyTamper_fixed c pinHigh s)
  | .rngGet c => keepsFixed_of_frame (execRngGet_fixed c s)
  | .cryptoAes c => keepsFixed_of_frame (execCryptoAes_fixed c s)
  | .cryptoCcm c => keepsFixed_of_frame (execCryptoCcm_fixed c s)
  | .cryptoCmac c => keepsFixed_of_frame (execCryptoCmac_fixed c s)
  | .cryptoReset c => keepsFixed_of_frame (execCryptoReset_fixed c s)
  | .mbxBind c => keepsFixed_of_frame (execMbxBind_fixed c s)
  | .mbxLock c => keepsFixed_of_frame (execMbxLock_fixed c s)
  | .mbxWrite c => keepsFixed_of_frame (execMbxWrite_fixed c s)
  | .mbxRead c => keepsFixed_of_frame (execMbxRead_fixed c s)
  | .semTake c => keepsFixed_of_frame (execSemTake_fixed c s)
  | .semGive c => keepsFixed_of_frame (execSemGive_fixed c s)
  | .cvuSet c => keepsFixed_of_frame (execCvuSet_fixed c s)
  | .cvuRun c => keepsFixed_of_frame (execCvuRun_fixed c s)
  | .nvmRead c => keepsFixed_of_frame (execNvmRead_fixed c s)
  | .nvmWrite c => keepsFixed_of_frame (execNvmWrite_fixed c s)
  | .nvmBallast c => keepsFixed_of_frame (execNvmBallast_fixed c s)
  | .nvmStatus c => keepsFixed_of_frame (execNvmStatus_fixed c s)
  | .ledgerConfig c => keepsFixed_of_frame (execLedgerConfig_fixed c s)
  | .ledgerOwner c => keepsFixed_of_frame (execLedgerOwner_fixed c s)
  | .ledgerRead c => keepsFixed_of_frame (execLedgerRead_fixed c s)
  | .ledgerAck c => keepsFixed_of_frame (execLedgerAck_fixed c s)
  | .ledgerStatus c => keepsFixed_of_frame (execLedgerStatus_fixed c s)
  | .clockSet c => keepsFixed_of_frame (execClockSet_fixed c s)
  | .measSnapshot c smp => keepsFixed_of_frame (execMeasSnapshot_fixed c smp s)
  | .measSweep c => keepsFixed_of_frame (execMeasSweep_fixed c s)
  | .measSubscribe c => keepsFixed_of_frame (execMeasSubscribe_fixed c s)
  | .measPartners c => keepsFixed_of_frame (execMeasPartners_fixed c s)
  | .mendStatus c => keepsFixed_of_frame (execMendStatus_fixed c s)
  | .mendWindow c => keepsFixed_of_frame (execMendWindow_fixed c s)
  | .spoolLoad c => keepsFixed_of_frame (execSpoolLoad_fixed c s)
  | .spoolStart c => keepsFixed_of_frame (execSpoolStart_fixed c s)
  | .spoolStop c => keepsFixed_of_frame (execSpoolStop_fixed c s)
  | .spoolStatus c => keepsFixed_of_frame (execSpoolStatus_fixed c s)
  | .spoolReset c => keepsFixed_of_frame (execSpoolReset_fixed c s)
  | .cmpRegisterWrite c => keepsFixed_of_frame (execCmpRegisterWrite_fixed c s)
  | .reelGoWrite c => keepsFixed_of_frame (execReelGoWrite_fixed c s)
  | .dcCfgWrite c => keepsFixed_of_frame (execDcCfgWrite_fixed c s)
  | .dcRldWrite c => keepsFixed_of_frame (execDcRldWrite_fixed c s)
  | .dcSleptClear c => keepsFixed_of_frame (execDcSleptClear_fixed c s)
  | .capOvrClear c => keepsFixed_of_frame (execCapOvrClear_fixed c s)
  | .toutCtlActWrite c => keepsFixed_of_frame (execToutCtlActWrite_fixed c s)
  | .capV2Read c => keepsFixed_of_frame (execCapV2Read_fixed c s)
  | .dcCnt0Read c => keepsFixed_of_frame (execDcCnt0Read_fixed c s)
  | .kslotLinkRead c => keepsFixed_of_frame (execKslotLinkRead_fixed c s)
  | .gdlCollClear c => keepsFixed_of_frame (execGdlCollClear_fixed c s)
  | .port3DivWrite c => keepsFixed_of_frame (execPort3DivWrite_fixed c s)
  | .coexCfgWrite c => keepsFixed_of_frame (execCoexCfgWrite_fixed c s)
  | .splDataAccess c write => keepsFixed_of_frame (execSplDataAccess_fixed c write s)
  | .v1Transaction sdi => keepsFixed_of_frame (execV1Transaction_fixed sdi s)
  | .v1Start => keepsFixed_of_frame (execV1Start_fixed s)
  | .v1Stop => keepsFixed_of_frame (execV1Stop_fixed s)
  | .v1Single => keepsFixed_of_frame (execV1Single_fixed s)
  | .v1FifoRead => keepsFixed_of_frame (execV1FifoRead_fixed s)
  | .v1IrqflgClear mask => keepsFixed_of_frame (execV1IrqflgClear_fixed mask s)
  | .v1RegionWrite v => keepsFixed_of_frame (execV1RegionWrite_fixed v s)
  | .v1LinkWrite v => keepsFixed_of_frame (execV1LinkWrite_fixed v s)
  | .v1PowerWrite v => keepsFixed_of_frame (execV1PowerWrite_fixed v s)
  | .v1DwellExpiry now => keepsFixed_of_frame (execV1DwellExpiry_fixed now s)
  | .spAdd x d a b => keepsFixed_of_frame (execSpAdd_fixed x d a b s)
  | .spSub x d a b => keepsFixed_of_frame (execSpSub_fixed x d a b s)
  | .spAnd x d a b => keepsFixed_of_frame (execSpAnd_fixed x d a b s)
  | .spOr x d a b => keepsFixed_of_frame (execSpOr_fixed x d a b s)
  | .spXor x d a b => keepsFixed_of_frame (execSpXor_fixed x d a b s)
  | .spShl x d a b => keepsFixed_of_frame (execSpShl_fixed x d a b s)
  | .spShr x d a b => keepsFixed_of_frame (execSpShr_fixed x d a b s)
  | .spAsr x d a b => keepsFixed_of_frame (execSpAsr_fixed x d a b s)
  | .spMul x d a b => keepsFixed_of_frame (execSpMul_fixed x d a b s)
  | .spCmp x a b => keepsFixed_of_frame (execSpCmp_fixed x a b s)
  | .spAddi x d a imm => keepsFixed_of_frame (execSpAddi_fixed x d a imm s)
  | .spAndi x d a imm => keepsFixed_of_frame (execSpAndi_fixed x d a imm s)
  | .spOri x d a imm => keepsFixed_of_frame (execSpOri_fixed x d a imm s)
  | .spXori x d a imm => keepsFixed_of_frame (execSpXori_fixed x d a imm s)
  | .spCmpi x a imm => keepsFixed_of_frame (execSpCmpi_fixed x a imm s)
  | .spLui x d imm => keepsFixed_of_frame (execSpLui_fixed x d imm s)
  | .spJ x cond target => keepsFixed_of_frame (execSpJ_fixed x cond target s)
  | .spCall x cond target => keepsFixed_of_frame (execSpCall_fixed x cond target s)
  | .spRet x cond => keepsFixed_of_frame (execSpRet_fixed x cond s)
  | .spJr x a => keepsFixed_of_frame (execSpJr_fixed x a s)
  | .spDjnz x d imm => keepsFixed_of_frame (execSpDjnz_fixed x d imm s)
  | .spWaitt x d a b off => keepsFixed_of_frame (execSpWaitt_fixed x d a b off s)
  | .spWaitd x a imm => keepsFixed_of_frame (execSpWaitd_fixed x a imm s)
  | .spWaite x d a b src => keepsFixed_of_frame (execSpWaite_fixed x d a b src s)
  | .spGett x d a b part => keepsFixed_of_frame (execSpGett_fixed x d a b part s)
  | .spHop x d a noWait => keepsFixed_of_frame (execSpHop_fixed x d a noWait s)
  | .spPwr x d a noWait => keepsFixed_of_frame (execSpPwr_fixed x d a noWait s)
  | .spAsel x d a noWait => keepsFixed_of_frame (execSpAsel_fixed x d a noWait s)
  | .spTxcw x d on noWait => keepsFixed_of_frame (execSpTxcw_fixed x d on noWait s)
  | .spTxsym x d a b src pre qry noWait => keepsFixed_of_frame (execSpTxsym_fixed x d a b src pre qry noWait s)
  | .spRxwin x d a b count pclen crc noWait => keepsFixed_of_frame (execSpRxwin_fixed x d a b count pclen crc noWait s)
  | .spRssi x d noWait => keepsFixed_of_frame (execSpRssi_fixed x d noWait s)
  | .spSniff x d noWait => keepsFixed_of_frame (execSpSniff_fixed x d noWait s)
  | .spRfoff x d noWait => keepsFixed_of_frame (execSpRfoff_fixed x d noWait s)
  | .spLch x d a txi noWait => keepsFixed_of_frame (execSpLch_fixed x d a txi noWait s)
  | .spLtx x d a sf smode ack fcs noWait => keepsFixed_of_frame (execSpLtx_fixed x d a sf smode ack fcs noWait s)
  | .spLrx x d a b lanes noWait => keepsFixed_of_frame (execSpLrx_fixed x d a b lanes noWait s)
  | .spLcca x d txi noWait => keepsFixed_of_frame (execSpLcca_fixed x d txi noWait s)
  | .spLoff x d noWait => keepsFixed_of_frame (execSpLoff_fixed x d noWait s)
  | .spLd x d a imm => keepsFixed_of_frame (execSpLd_fixed x d a imm s)
  | .spSt x d a imm => keepsFixed_of_frame (execSpSt_fixed x d a imm s)
  | .spBufAlloc x d => keepsFixed_of_frame (execSpBufAlloc_fixed x d s)
  | .spBufFree x d a => keepsFixed_of_frame (execSpBufFree_fixed x d a s)
  | .spBufRdw x d a b => keepsFixed_of_frame (execSpBufRdw_fixed x d a b s)
  | .spBufWrw x d a b => keepsFixed_of_frame (execSpBufWrw_fixed x d a b s)
  | .spBufLen x d a => keepsFixed_of_frame (execSpBufLen_fixed x d a s)
  | .spBufSetlen x d a b => keepsFixed_of_frame (execSpBufSetlen_fixed x d a b s)
  | .spKsel x d a b => keepsFixed_of_frame (execSpKsel_fixed x d a b s)
  | .spAesb x d a b decrypt => keepsFixed_of_frame (execSpAesb_fixed x d a b decrypt s)
  | .spCrc x d a b preset mode => keepsFixed_of_frame (execSpCrc_fixed x d a b preset mode s)
  | .spRng x d a b => keepsFixed_of_frame (execSpRng_fixed x d a b s)
  | .spPost x d a b n hand => keepsFixed_of_frame (execSpPost_fixed x d a b n hand s)
  | .spEvt x d a kind => keepsFixed_of_frame (execSpEvt_fixed x d a kind s)
  | .spTout x d act => keepsFixed_of_frame (execSpTout_fixed x d act s)
  | .spYield x d a b => keepsFixed_of_frame (execSpYield_fixed x d a b s)
  | .spHalt x d a b => keepsFixed_of_frame (execSpHalt_fixed x d a b s)
  | .spMread x d a b => keepsFixed_of_frame (execSpMread_fixed x d a b s)
  | .spIllegal x word => keepsFixed_of_frame (execSpIllegal_fixed x word s)
  | .waittRelease x now => keepsFixed_of_frame (execWaittRelease_fixed x now s)
  | .waitdRelease x now => keepsFixed_of_frame (execWaitdRelease_fixed x now s)
  | .waiteRelease x now => keepsFixed_of_frame (execWaiteRelease_fixed x now s)
  | .hopComplete x now cal => keepsFixed_of_frame (execHopComplete_fixed x now cal s)
  | .txcwComplete x now pafb pacur => keepsFixed_of_frame (execTxcwComplete_fixed x now pafb pacur s)
  | .txsymComplete x now => keepsFixed_of_frame (execTxsymComplete_fixed x now s)
  | .rxwinComplete x now reply => keepsFixed_of_frame (execRxwinComplete_fixed x now reply s)
  | .sniffComplete x now g => keepsFixed_of_frame (execSniffComplete_fixed x now g s)
  | .rfoffComplete x now => keepsFixed_of_frame (execRfoffComplete_fixed x now s)
  | .lchComplete x now cal => keepsFixed_of_frame (execLchComplete_fixed x now cal s)
  | .ltxComplete x now => keepsFixed_of_frame (execLtxComplete_fixed x now s)
  | .lrxComplete x now frame => keepsFixed_of_frame (execLrxComplete_fixed x now frame s)
  | .lccaComplete x now dbm => keepsFixed_of_frame (execLccaComplete_fixed x now dbm s)
  | .loffComplete x now => keepsFixed_of_frame (execLoffComplete_fixed x now s)
  | .kselComplete x now => keepsFixed_of_frame (execKselComplete_fixed x now s)
  | .aesbComplete x now => keepsFixed_of_frame (execAesbComplete_fixed x now s)
  | .rngComplete x now => keepsFixed_of_frame (execRngComplete_fixed x now s)
  | .airGrant now => keepsFixed_of_frame (execAirGrant_fixed now s)
  | .noWaitAirDenied x now => keepsFixed_of_frame (execNoWaitAirDenied_fixed x now s)
  | .budgetWatchdog x => keepsFixed_of_frame (execBudgetWatchdog_fixed x s)
  | .hostFrame p bus data lag => keepsFixed_of_frame (execHostFrame_fixed p bus data lag s)
  | .spiInvalidTransaction p first => keepsFixed_of_frame (execSpiInvalidTransaction_fixed p first s)
  | .frameAbort p => keepsFixed_of_frame (execFrameAbort_fixed p s)
  | .uartGapTimeout => keepsFixed_of_frame (execUartGapTimeout_fixed s)
  | .uartFramingError => keepsFixed_of_frame (execUartFramingError_fixed s)
  | .outgoingFrameDelivered p bus => keepsFixed_of_frame (execOutgoingFrameDelivered_fixed p bus s)
  | .uartHdxReply n => keepsFixed_of_frame (execUartHdxReply_fixed n s)
  | .spiPortResetSequence p => keepsFixed_of_frame (execSpiPortResetSequence_fixed p s)
  | .i2cStuckBus => keepsFixed_of_frame (execI2cStuckBus_fixed s)
  | .uartBreak => keepsFixed_of_frame (execUartBreak_fixed s)
  | .vioReturn => keepsFixed_of_frame (execVioReturn_fixed s)
  | .presenceTimeout p now => keepsFixed_of_frame (execPresenceTimeout_fixed p now s)
  | .powerOnReset => execPowerOnReset_keepsFixed s
  | .nreset ns => execNreset_keepsFixed ns s
  | .resetRelease spaSdo addr1 addr0 test f => keepsFixed_of_frame (execResetRelease_fixed spaSdo addr1 addr0 test f s)
  | .startComplete => keepsFixed_of_frame (execStartComplete_fixed s)
  | .keelWatchdogExpiry f => keepsFixed_of_frame (execKeelWatchdogExpiry_fixed f s)
  | .xo24Timeout => keepsFixed_of_frame (execXo24Timeout_fixed s)
  | .xo32Timeout => keepsFixed_of_frame (execXo32Timeout_fixed s)
  | .xo32Stop => keepsFixed_of_frame (execXo32Stop_fixed s)
  | .wakePin => keepsFixed_of_frame (execWakePin_fixed s)
  | .portWakeEdge e addr => keepsFixed_of_frame (execPortWakeEdge_fixed e addr s)
  | .wakeComplete aonCycles => keepsFixed_of_frame (execWakeComplete_fixed aonCycles s)
  | .regulatorTimeout => keepsFixed_of_frame (execRegulatorTimeout_fixed s)
  | .sleepEntry now vhu => keepsFixed_of_frame (execSleepEntry_fixed now vhu s)
  | .pwrfail now ns vhu headerLanded => keepsFixed_of_frame (execPwrfail_fixed now ns vhu headerLanded s)
  | .holdEntry => keepsFixed_of_frame (execHoldEntry_fixed s)
  | .pwrfailClear => keepsFixed_of_frame (execPwrfailClear_fixed s)
  | .deepCalibration core now temp => keepsFixed_of_frame (execDeepCalibration_fixed core now temp s)
  | .coexGntChange now ns level => keepsFixed_of_frame (execCoexGntChange_fixed now ns level s)
  | .coexLeadElapsed now => keepsFixed_of_frame (execCoexLeadElapsed_fixed now s)
  | .coexWaitExpiry now => keepsFixed_of_frame (execCoexWaitExpiry_fixed now s)
  | .roundEnd x now => keepsFixed_of_frame (execRoundEnd_fixed x now s)
  | .inventoryDurExpiry x now => keepsFixed_of_frame (execInventoryDurExpiry_fixed x now s)
  | .fccBudgetWaitEnd x now => keepsFixed_of_frame (execFccBudgetWaitEnd_fixed x now s)
  | .etsiReturnWaitEnd x now => keepsFixed_of_frame (execEtsiReturnWaitEnd_fixed x now s)
  | .sniffBurstDue now => keepsFixed_of_frame (execSniffBurstDue_fixed now s)
  | .paIlimTrip now => keepsFixed_of_frame (execPaIlimTrip_fixed now s)
  | .compensationRecompute smp => keepsFixed_of_frame (execCompensationRecompute_fixed smp s)
  | .linkCompensation smp => keepsFixed_of_frame (execLinkCompensation_fixed smp s)
  | .cancellerConverged tapL jammerDbm suppHalfDb => keepsFixed_of_frame (execCancellerConverged_fixed tapL jammerDbm suppHalfDb s)
  | .tapLSaturation => keepsFixed_of_frame (execTapLSaturation_fixed s)
  | .rxGainStep now levelDbm => keepsFixed_of_frame (execRxGainStep_fixed now levelDbm s)
  | .adcClip now => keepsFixed_of_frame (execAdcClip_fixed now s)
  | .fieldQualified now levelDbm => keepsFixed_of_frame (execFieldQualified_fixed now levelDbm s)
  | .fieldDrop now => keepsFixed_of_frame (execFieldDrop_fixed now s)
  | .tagSelect target action bank ptr mask => keepsFixed_of_frame (execTagSelect_fixed target action bank ptr mask s)
  | .tagQuery sel sess targetB dr m trext trcal => keepsFixed_of_frame (execTagQuery_fixed sel sess targetB dr m trext trcal s)
  | .tagAck rn16 => keepsFixed_of_frame (execTagAck_fixed rn16 s)
  | .tagRead handle bank ptr count => keepsFixed_of_frame (execTagRead_fixed handle bank ptr count s)
  | .fz1Received handle msg now => keepsFixed_of_frame (execFz1Received_fixed handle msg now s)
  | .fz3Received handle msg now => keepsFixed_of_frame (execFz3Received_fixed handle msg now s)
  | .tam1Received handle msg => keepsFixed_of_frame (execTam1Received_fixed handle msg s)
  | .sessionMessage handle msg => keepsFixed_of_frame (execSessionMessage_fixed handle msg s)
  | .readoutRead off len => keepsFixed_of_frame (execReadoutRead_fixed off len s)
  | .readoutInfo now => keepsFixed_of_frame (execReadoutInfo_fixed now s)
  | .readoutClose => keepsFixed_of_frame (execReadoutClose_fixed s)
  | .authBackoffExpiry now => keepsFixed_of_frame (execAuthBackoffExpiry_fixed now s)
  | .fz2Reply x msg rateHz now => keepsFixed_of_frame (execFz2Reply_fixed x msg rateHz now s)
  | .fz3Reply x msg rateHz now => keepsFixed_of_frame (execFz3Reply_fixed x msg rateHz now s)
  | .sessionReply x msg rateHz now => keepsFixed_of_frame (execSessionReply_fixed x msg rateHz now s)
  | .tam1Response x msg rateHz now => keepsFixed_of_frame (execTam1Response_fixed x msg rateHz now s)
  | .tagReplyTimeout x now => keepsFixed_of_frame (execTagReplyTimeout_fixed x now s)
  | .sessionIdleTimeout x now => keepsFixed_of_frame (execSessionIdleTimeout_fixed x now s)
  | .sessionDwellHop x now cal => keepsFixed_of_frame (execSessionDwellHop_fixed x now cal s)
  | .laneDetection found now => keepsFixed_of_frame (execLaneDetection_fixed found now s)
  | .diversityDecision here there => keepsFixed_of_frame (execDiversityDecision_fixed here there s)
  | .sfdTimeout now => keepsFixed_of_frame (execSfdTimeout_fixed now s)
  | .phrReceived len hcs asksAck => keepsFixed_of_frame (execPhrReceived_fixed len hcs asksAck s)
  | .linkFrameReceived f now => keepsFixed_of_frame (execLinkFrameReceived_fixed f now s)
  | .ackTransmit now => keepsFixed_of_frame (execAckTransmit_fixed now s)
  | .beaconDue now => keepsFixed_of_frame (execBeaconDue_fixed now s)
  | .sendTimeDue now => keepsFixed_of_frame (execSendTimeDue_fixed now s)
  | .csmaBackoffEnd now => keepsFixed_of_frame (execCsmaBackoffEnd_fixed now s)
  | .ccaResult now dbm => keepsFixed_of_frame (execCcaResult_fixed now dbm s)
  | .linkTxEnd now => keepsFixed_of_frame (execLinkTxEnd_fixed now s)
  | .ackReceived now f => keepsFixed_of_frame (execAckReceived_fixed now f s)
  | .ackWindowExpiry now => keepsFixed_of_frame (execAckWindowExpiry_fixed now s)
  | .nbrAgeing now => keepsFixed_of_frame (execNbrAgeing_fixed now s)
  | .listenDurExpiry x now => keepsFixed_of_frame (execListenDurExpiry_fixed x now s)
  | .compareFire k now => keepsFixed_of_frame (execCompareFire_fixed k now s)
  | .compareWakeLead aonCycles => keepsFixed_of_frame (execCompareWakeLead_fixed aonCycles s)
  | .dcFire n now => keepsFixed_of_frame (execDcFire_fixed n now s)
  | .captureEdge n rising now => keepsFixed_of_frame (execCaptureEdge_fixed n rising now s)
  | .toutPulseEnd n now => keepsFixed_of_frame (execToutPulseEnd_fixed n now s)
  | .tamperAssertion now => keepsFixed_of_frame (execTamperAssertion_fixed now s)
  | .drbgReseed passed => keepsFixed_of_frame (execDrbgReseed_fixed passed s)
  | .entropyRetry passed => keepsFixed_of_frame (execEntropyRetry_fixed passed s)
  | .blockReply block x epoch => keepsFixed_of_frame (execBlockReply_fixed block x epoch s)
  | .storeCommit vhu badWrites => keepsFixed_of_frame (execStoreCommit_fixed vhu badWrites s)
  | .ballastRecheck now vhu badWrites => keepsFixed_of_frame (execBallastRecheck_fixed now vhu badWrites s)
  | .wearMoveStep => keepsFixed_of_frame (execWearMoveStep_fixed s)
  | .coldSectorMove sector => keepsFixed_of_frame (execColdSectorMove_fixed sector s)
  | .intervalBoundary now => keepsFixed_of_frame (execIntervalBoundary_fixed now s)
  | .ledgerSealLanded => keepsFixed_of_frame (execLedgerSealLanded_fixed s)
  | .surveySample now smp => keepsFixed_of_frame (execSurveySample_fixed now smp s)
  | .scheduledSweep now => keepsFixed_of_frame (execScheduledSweep_fixed now s)
  | .sweepTimeout now => keepsFixed_of_frame (execSweepTimeout_fixed now s)
  | .sweepComplete now => keepsFixed_of_frame (execSweepComplete_fixed now s)
  | .telemetrySnapshot now smp => keepsFixed_of_frame (execTelemetrySnapshot_fixed now smp s)
  | .daylightWindowOpen now => keepsFixed_of_frame (execDaylightWindowOpen_fixed now s)
  | .mendStep now found => keepsFixed_of_frame (execMendStep_fixed now found s)
  | .daylightWindowEnd => keepsFixed_of_frame (execDaylightWindowEnd_fixed s)
  | .sramCorrection bank row now => keepsFixed_of_frame (execSramCorrection_fixed bank row now s)
  | .uncorrectableSramError bank row vhu f => keepsFixed_of_frame (execUncorrectableSramError_fixed bank row vhu f s)
  | .synthCheckCalibration core passed => keepsFixed_of_frame (execSynthCheckCalibration_fixed core passed s)
  | .mendResourceSwitch r => keepsFixed_of_frame (execMendResourceSwitch_fixed r s)
  | .unassignedOpcode c op => keepsFixed_of_frame (execUnassignedOpcode_fixed c op s)
  | .xo32Ready => keepsFixed_of_frame (execXo32Ready_fixed s)
  | .vioLoss => keepsFixed_of_frame (execVioLoss_fixed s)
  | .partialDelivery p bus n => keepsFixed_of_frame (execPartialDelivery_fixed p bus n s)
  | .sweepPointDone now g => keepsFixed_of_frame (execSweepPointDone_fixed now g s)

/-- A step takes the front off the queue, where there is one, and keeps the rest. -/
theorem step_keepsFixed (s t : State) (h : step s = .next t) : KeepsFixed { s with pending := s.pending.tail } t := by
  rw [step] at h
  split at h
  · next hp =>
    cases h
    rw [hp]
    refine keepsFixed_of_fixedPart ((advanceTo_fixed ..).trans ?_)
    rw [fixedPart, hp]
    rfl
  · next c rest hp =>
    rw [hp]
    exact exec_keepsFixed c _ t h

/-- Settles O49: a step keeps the binding or leaves one that is one-to-one. -/
theorem bindingStaysOneToOne : Obligations.BindingStaysOneToOne := by
  unfold Obligations.BindingStaysOneToOne
  refine ⟨reset_oneToOne, fun s t hs h => ?_⟩
  obtain ⟨-, -, hbinding | hnew⟩ := step_keepsFixed s t h
  · exact oneToOne_of_binding hbinding hs
  · exact hnew

/-- Settles O50: what a step keeps of the queue is all but its front. -/
theorem queueConsumedFromFront : Obligations.QueueConsumedFromFront := by
  unfold Obligations.QueueConsumedFromFront
  intro s t h
  obtain ⟨hpending, hserial, -⟩ := step_keepsFixed s t h
  exact ⟨hpending, hserial⟩

end Sys2Proof.Machine
end

section
/-!
PROOFS. TEN.BIND, TEN.LOCK and TEN.SHARE (5.1, 5.3), and the provisioning acts that are T0's alone (R20, R145).
-/
namespace Sys2Proof.Machine

-- ------------------------------------------------------------------ TEN.BIND

theorem replyAhead_binding (t : Tenant) (s : State) : (replyAhead t s).binding = s.binding := by
  rw [replyAhead]
  split <;> rfl

/-- Answering ahead of the port's frames takes the command out of execution too. -/
theorem replyAhead_exec (t : Tenant) (s : State) : (replyAhead t s).tens[t].exec = none := by
  rw [replyAhead]
  split
  · assumption
  · simp

section Command
variable {c : Cmd} {s u : State} (ht : c.t = 0)
include ht

theorem isT0_of_t0 : (!isT0 c) = false := by simp [isT0, ht]

/-- R137 to R139: with nothing outstanding on a tenant that moves but this command, the map is applied and the command answered,
ahead of the port's other frames where its own tenant moves. -/
theorem execTenBind_rebinds (h : Taken 0x0300 c s u) (hlen : c.args.length = 1) (hmap : mapOneToOne (fld c.args 0 1) = true)
    (hlock : u.bindLock = false)
    (hidle : ∀ p : Fin 4, mapPort (fld c.args 0 1) p ≠ u.binding[p] →
      outstanding u.tens[u.binding[p]] ≤ (if u.binding[p] = c.t then 1 else 0)) :
    execTenBind c s = .next (replyAhead c.t (rebind (fld c.args 0 1) u)) ∨
    execTenBind c s = .next (reply c.t stOk [] (rebind (fld c.args 0 1) u)) := by
  rw [execTenBind, keelRun_some _ _ _ _ _ h]
  dsimp only
  rw [if_neg (by omega), isT0_of_t0 ht, hmap, hlock]
  rw [if_neg (by decide), if_neg (by decide), if_neg (by decide), if_neg]
  · split
    · exact .inl rfl
    · exact .inr rfl
  · simp only [List.any_eq_true, List.mem_filter, bne_iff_ne, decide_eq_true_eq]
    rintro ⟨p, ⟨-, hp⟩, hbusy⟩
    exact Nat.not_lt.mpr (hidle p hp) hbusy

/-- R141. -/
theorem execTenLock_locks (h : Taken 0x0301 c s u) (hlen : c.args.length = 1) (hlow : 1 ≤ fld c.args 0 1)
    (hhigh : fld c.args 0 1 ≤ 3) :
    execTenLock c s = .next (reply c.t stOk [] { u with
      bindLock := u.bindLock || fld c.args 0 1 % 2 == 1, shareLock := u.shareLock || decide (2 ≤ fld c.args 0 1) }) := by
  rw [execTenLock, keelRun_some _ _ _ _ _ h]
  dsimp only
  rw [if_neg (by omega), isT0_of_t0 ht, if_neg (by decide), if_neg (by omega)]

/-- R151. -/
theorem execTenShare_shares (h : Taken 0x0302 c s u) (hlen : c.args.length = 4)
    (hsum : fld c.args 0 1 + fld c.args 1 1 + fld c.args 2 1 + fld c.args 3 1 = 100) (hlock : u.shareLock = false) :
    execTenShare c s = .next (reply c.t stOk [] { u with
      tens := Vector.ofFn fun t => { u.tens[t] with share := fld c.args t.val 1 } }) := by
  rw [execTenShare, keelRun_some _ _ _ _ _ h]
  dsimp only
  rw [if_neg (by omega), isT0_of_t0 ht, if_neg (by decide), if_neg (by omega), hlock, if_neg (by decide)]

end Command

/-- Settles O4, one command after the other. -/
theorem tenantCommandsComplete : Obligations.TenantCommandsComplete := by
  unfold Obligations.TenantCommandsComplete
  refine ⟨?bind, fun c s u h ht => execTenLock_locks ht h, fun c s u h ht => execTenShare_shares ht h⟩
  case bind =>
    intro c s u h ht hlen hmap hlock hidle
    obtain answered | answered := execTenBind_rebinds ht h hlen hmap hlock hidle
    · refine ⟨_, answered, fun p => ?_, replyAhead_exec ..⟩
      rw [replyAhead_binding, rebind_binding]
    · refine ⟨_, answered, fun p => ?_, reply_exec ..⟩
      rw [reply_binding, rebind_binding]

-- ------------------------------------------------------------------ another tenant's provisioning

/-- A provisioning act checks its length, then its tenant (R145), before anything else. -/
theorem keelRun_denied {op : BitVec 16} {c : Cmd} {s u : State} (n : Nat) (act : State → State) (h : Taken op c s u)
    (hlen : c.args.length = n) (ht : c.t ≠ 0) :
    keelRun op c (fun r => if c.args.length ≠ n then refuse c.t stBadArg r
      else if !isT0 c then refuse c.t stDenied r else act r) s = reply c.t stDenied [] u := by
  have other : (!isT0 c) = true := by simp [isT0, ht]
  rw [keelRun_some _ _ _ _ _ h, if_neg (not_not_intro hlen), if_pos other]
  rfl

/-- The rows of the provisioning acts are those of R20. -/
theorem cmdOf_provisioning {i : Instr} {op : BitVec 16} {c : Cmd} (h : cmdOf i = some (op, c))
    (hop : op ∈ ([0x0102, 0x0300, 0x0301, 0x0302, 0x4010, 0x5001, 0x7002, 0x7401, 0x8801] : List (BitVec 16))) :
    (op = 0x0102 ∧ ∃ vhu f, i = .sysReset c vhu f) ∨ (op = 0x0300 ∧ i = .tenBind c) ∨ (op = 0x0301 ∧ i = .tenLock c) ∨
    (op = 0x0302 ∧ i = .tenShare c) ∨ (op = 0x4010 ∧ ∃ pin, i = .keyTamper c pin) ∨ (op = 0x5001 ∧ i = .mbxLock c) ∨
    (op = 0x7002 ∧ i = .nvmBallast c) ∨ (op = 0x7401 ∧ i = .ledgerOwner c) ∨ (op = 0x8801 ∧ i = .mendWindow c) := by
  unfold cmdOf at h
  split at h <;> cases h <;> simp at hop ⊢

/-- Settles O56: the nine bodies begin with the same two checks. -/
theorem provisioningDenied : Obligations.ProvisioningDenied := by
  unfold Obligations.ProvisioningDenied
  intro i op c s u hrow h hop ht hlen
  obtain ⟨rfl, vhu, f, rfl⟩ | ⟨rfl, rfl⟩ | ⟨rfl, rfl⟩ | ⟨rfl, rfl⟩ | ⟨rfl, pin, rfl⟩ | ⟨rfl, rfl⟩ | ⟨rfl, rfl⟩ | ⟨rfl, rfl⟩ |
    ⟨rfl, rfl⟩ := cmdOf_provisioning hrow hop
  all_goals exact congrArg Host.Outcome.next (keelRun_denied _ _ h hlen ht)

end Sys2Proof.Machine
end

section
/-!
PROOFS. A tenant's event queue (5.5, R161 to R163; log entry 57).
-/
namespace Sys2Proof.Machine

section Full
variable {q : TenantSt} (now : Tick) (code : BitVec 16) (data : Bytes) (hfull : 63 ≤ (q.outQ.filter Out.isOrdinary).length)
include hfull

/-- R162: behind an EV_EVENT_LOST that waits, an event is dropped and counted. -/
theorem pushEvent_dropped (hlost : q.outQ.any Out.isLost = true) :
    pushEvent now code data q =
      { q with evSeq := q.evSeq + 1, evLost := satInc 0xFFFF q.evLost, lostRun := satInc 0xFFFF q.lostRun } := by
  rw [pushEvent, if_neg (Nat.not_lt.mpr hfull), if_pos hlost]

/-- R162: the first drop takes the reserved entry. -/
theorem pushEvent_firstDrop (hlost : q.outQ.any Out.isLost = false) :
    pushEvent now code data q =
      { q with outQ := q.outQ ++ [.lost (q.evSeq + 1) now], evSeq := q.evSeq + 2, evLost := satInc 0xFFFF q.evLost,
               lostRun := 1 } := by
  rw [pushEvent, if_neg (Nat.not_lt.mpr hfull), if_neg (Bool.eq_false_iff.mp hlost)]

end Full

/-- The events of a queue are its ordinary entries and its EV_EVENT_LOST. -/
theorem events_length (l : List Out) :
    (l.filter Out.isEvent).length = (l.filter Out.isOrdinary).length + (l.filter Out.isLost).length := by
  induction l with
  | nil => rfl
  | cons o l ih => cases o <;> simp [List.filter_cons, Out.isEvent, Out.isOrdinary, Out.isLost, ih] <;> omega

/-- The bounds of R161 and R162: 63 ordinary entries and one EV_EVENT_LOST. -/
theorem pushEvent_bounded (now : Tick) (code : BitVec 16) (data : Bytes) (q : TenantSt)
    (hord : (q.outQ.filter Out.isOrdinary).length ≤ 63) (hlost : (q.outQ.filter Out.isLost).length ≤ 1) :
    ((pushEvent now code data q).outQ.filter Out.isOrdinary).length ≤ 63 ∧
    ((pushEvent now code data q).outQ.filter Out.isLost).length ≤ 1 := by
  by_cases hroom : (q.outQ.filter Out.isOrdinary).length < 63
  · rw [pushEvent_room now code data q hroom]
    simpa [Out.isOrdinary, Out.isLost] using ⟨hroom, hlost⟩
  · have hfull := Nat.not_lt.mp hroom
    cases hany : q.outQ.any Out.isLost
    · have none : q.outQ.filter Out.isLost = [] := by simpa [List.filter_eq_nil_iff] using hany
      rw [pushEvent_firstDrop now code data hfull hany]
      simpa [Out.isOrdinary, Out.isLost, List.filter, none] using hord
    · rw [pushEvent_dropped now code data hfull hany]
      exact ⟨hord, hlost⟩

/-- An event leaves the responses of the queue as they are. -/
theorem pushEvent_responses (now : Tick) (code : BitVec 16) (data : Bytes) (q : TenantSt) :
    (pushEvent now code data q).outQ.filter (fun o => !o.isEvent) = q.outQ.filter fun o => !o.isEvent := by
  rw [pushEvent]
  split
  · simp [Out.isEvent]
  · split
    · rfl
    · simp [Out.isEvent]

/-- Settles O58, from the three cases of an event: room, the first drop, a later drop. -/
theorem eventQueueRules : Obligations.EventQueueRules := by
  unfold Obligations.EventQueueRules
  refine fun now code data q => ⟨fun hroom => ?room, fun hfull => ?full, fun _ hord hlost => ?bounds,
    pushEvent_responses now code data q⟩
  case room =>
    rw [pushEvent_room now code data q hroom]
    exact ⟨rfl, rfl, rfl⟩
  case full =>
    cases hany : q.outQ.any Out.isLost
    · rw [pushEvent_firstDrop now code data hfull hany]
      simp [Out.isOrdinary]
    · rw [pushEvent_dropped now code data hfull hany]
      simp
  case bounds =>
    obtain ⟨hord', hlost'⟩ := pushEvent_bounded now code data q hord hlost
    have := events_length (pushEvent now code data q).outQ
    exact ⟨hord', hlost', by omega⟩

end Sys2Proof.Machine
end

section
/-!
PROOFS. The RDR commands (6.4, 9.5, 10.6, 11.6). A command that is taken up runs its body; a statement's premises then decide each
check of the body, down to the branch that the statement names.
-/
namespace Sys2Proof.Machine

/-- Ending a sniff moves no time. -/
@[simp] theorem sniffStop_reel (s : State) : (sniffStop s).reel = s.reel := by
  simp only [sniffStop]
  split
  · rfl
  · next n _ =>
    have steady : steadyPart (if holds (.sniff n.owner) .reader (dropWaiters (.sniff n.owner) s) = true
        then releaseAir .reader (dropWaiters (.sniff n.owner) s) else dropWaiters (.sniff n.owner) s) = steadyPart s :=
      ite_steady ((releaseAir_steady ..).trans (dropWaiters_steady ..)) (dropWaiters_steady ..)
    exact congrArg (fun q => q.2.1) steady

/-- The sniff that an RDR.SNIFF begins at a tick (R339); its first burst is due one interval later, log entry 25. -/
def sniffOf (c : Cmd) (now : Tick) : Sniff :=
  { owner := c.t, tseq := c.seq, ivl := fld c.args 0 2, asel := mod4 (fld c.args 2 1), thr := fld c.args 3 2
    auto := fld c.args 5 1 == 1, armed := true, below := 0, waiting := false
    due := now + BitVec.ofNat 48 (fld c.args 0 2 * 24000) }

section Command
variable {c : Cmd} {s u : State}

/-- R187, R289, R313. -/
theorem execRdrInventory_starts (h : Taken 0x1000 c s u) (a : InvArgs) (power : Int) (hargs : invArgsOf c.args = some (a, power))
    (hup : rdrRefusal c.t (a.region == 2) u = none) (hhop : a.region = 2 → u.prof[c.t].hop ≠ [])
    (b : InvArgs) (hb : b = { a with pset := BitVec.ofInt 16 (clampPower u.prof[c.t] power u) }) :
    execRdrInventory c s = .next (invStart c.t b c.seq false (a.dur == 0)
      (setRdr (fun r => { r with lastInv := r.lastInv.set c.t.val (some b) c.t.isLt })
        (reply c.t stOk (leBytes 2 b.pset.toNat ++ leBytes 2 (u.rdr.roundCnt + 1).toNat) u))) := by
  have hops : ¬ (a.region = 2 ∧ u.prof[c.t].hop.isEmpty = true) := by
    rw [List.isEmpty_iff]
    exact fun ⟨hregion, hnil⟩ => hhop hregion hnil
  subst hb
  rw [execRdrInventory, keelRun_some _ _ _ _ _ h]
  simp only [hargs, hup, if_neg hops]

section Stop
variable (h : Taken 0x1001 c s u) (i : Inv) (hinv : u.rdr.inv[c.t] = some i) (hlen : c.args.length = 2)
  (hseq : fld c.args 0 2 = i.tseq.toNat)
include h hinv hlen hseq

/-- R276: before the commit point of its slot. -/
theorem execRdrStop_ends (hpast : pastCommit .reader u = false) :
    execRdrStop c s = .next (invDone c.t stCancelled (reply c.t stCancelled [] u)) := by
  rw [execRdrStop, keelRun_some _ _ _ _ _ h]
  simp only [hinv]
  rw [if_neg (by omega), if_neg (by simp [hpast])]
  rfl

/-- R276: past it, the slot is the last. -/
theorem execRdrStop_lastSlot (hheld : holds (.ctx c.t) .reader u = true) (hpast : pastCommit .reader u = true)
    (hstage : i.stage ≠ .over) :
    execRdrStop c s = .next (setInv c.t (some { i with ending := some (i.ending.getD stLateCancel) })
      (reply c.t stLateCancel [] u)) := by
  rw [execRdrStop, keelRun_some _ _ _ _ _ h]
  simp only [hinv]
  rw [if_neg (by omega), if_pos ⟨hheld, hpast, hstage⟩]
  rfl

end Stop

/-- The form of RDR.ACCESS that its first check lets pass (6.4). -/
theorem rdrAccess_form {a : Bytes} {n : Nat} (hop : fld a 0 1 ≤ 2) (hasel : fld a 1 1 ≤ 3) (hbank : fld a 6 1 ≤ 3)
    (hwords : fld a 0 1 ≠ 2 → 1 ≤ fld a 9 1 ∧ fld a 9 1 ≤ 32) (hlock : fld a 0 1 = 2 → fld a 9 1 ≤ 15)
    (hlow : 1 ≤ fld a 10 1) (hhigh : fld a 10 1 ≤ 31) (hlen : a.length = 11 + 2 * fld a 10 1 + 2 * n) :
    ¬ (a.length < 11 ∨ 2 < fld a 0 1 ∨ 3 < fld a 1 1 ∨ 3 < fld a 6 1 ∨ fld a 10 1 < 1 ∨ 31 < fld a 10 1 ∨
      (if fld a 0 1 = 2 then 15 < fld a 9 1 else fld a 9 1 < 1 ∨ 32 < fld a 9 1) ∨
      a.length ≠ 11 + 2 * fld a 10 1 + 2 * n) := by
  split <;> omega

/-- R301. -/
theorem execRdrAccess_starts (h : Taken 0x1002 c s u) (g : InvArgs) (n : Nat) (hlast : u.rdr.lastInv[c.t] = some g)
    (hlimp : inLimp u = false) (hup : rdrRefusal c.t (g.region == 2) u = none) (hop : fld c.args 0 1 ≤ 2)
    (hasel : fld c.args 1 1 ≤ 3) (hbank : fld c.args 6 1 ≤ 3)
    (hwords : fld c.args 0 1 ≠ 2 → 1 ≤ fld c.args 9 1 ∧ fld c.args 9 1 ≤ 32) (hlock : fld c.args 0 1 = 2 → fld c.args 9 1 ≤ 15)
    (hlow : 1 ≤ fld c.args 10 1) (hhigh : fld c.args 10 1 ≤ 31)
    (hn : n = (if fld c.args 0 1 = 1 then fld c.args 9 1 else 0)) (hlen : c.args.length = 11 + 2 * fld c.args 10 1 + 2 * n) :
    execRdrAccess c s = .next (accTune c.t
      { kind := .access (fld c.args 0 1) (BitVec.ofNat 32 (fld c.args 2 4)) (fld c.args 6 1) (fld c.args 7 2) (fld c.args 9 1)
          ((List.range n).map fun i => BitVec.ofNat 16 (fld c.args (11 + 2 * fld c.args 10 1 + 2 * i) 2)),
        args := g, tseq := c.seq, asel := mod4 (fld c.args 1 1), epc := (c.args.drop 11).take (2 * fld c.args 10 1),
        stage := .tune, step := .select, freq := 0, attempt := 0, rn := 0, handle := 0, tid := [], done := [], ending := none }
      (startBuiltin c.t c.seq (reply c.t stOk [] u))) := by
  subst hn
  rw [execRdrAccess, keelRun_some _ _ _ _ _ h]
  dsimp only
  rw [if_neg (rdrAccess_form hop hasel hbank hwords hlock hlow hhigh hlen), hlimp, if_neg (by decide)]
  simp only [hlast, hup]

section Sniff
variable (hup : sniffDown u = none) (hown : ∀ n, u.rdr.sniff = some n → n.owner = c.t)
include hup hown

/-- R339. -/
theorem execRdrSniff_stops (h : Taken 0x1003 c s u) (hlen : c.args.length = 6) (hasel : fld c.args 2 1 ≤ 3)
    (hauto : fld c.args 5 1 ≤ 1) (hivl : fld c.args 0 2 = 0) :
    execRdrSniff c s = .next (sniffStop (reply c.t stOk [] u)) := by
  rw [execRdrSniff, keelRun_some _ _ _ _ _ h]
  simp only [hup]
  rw [if_neg (by omega), if_neg (by simp [hivl]), if_neg (by split <;> simp [*]), if_pos hivl]

/-- R339. -/
theorem execRdrSniff_starts (h : Taken 0x1003 c s u) (hlen : c.args.length = 6) (hasel : fld c.args 2 1 ≤ 3)
    (hauto : fld c.args 5 1 ≤ 1) (hlow : 50 ≤ fld c.args 0 2) (hhigh : fld c.args 0 2 ≤ 2000)
    (hpa : paSniffBad u.prof[c.t] = false) (hfeed : feedBad u.prof[c.t] = false) :
    execRdrSniff c s = .next (setRdr (fun r => { r with skip := 0, sniff := some (sniffOf c u.reel.cnt) })
      (sniffStop (reply c.t stOk [] u))) := by
  rw [execRdrSniff, keelRun_some _ _ _ _ _ h]
  simp only [hup, hpa, hfeed]
  rw [if_neg (by omega), if_neg (by simp), if_neg (by split <;> simp [*]), if_neg (by omega), sniffStop_reel, reply_reel, sniffOf]

/-- R340, R343. -/
theorem execRdrBaseline_stores (bursts : List Gamma) (h : Taken 0x1004 c s u) (hlen : c.args.length = 1)
    (hasel : fld c.args 0 1 ≤ 3) (hpa : paSniffBad u.prof[c.t] = false) (hfeed : feedBad u.prof[c.t] = false)
    (hair : airNow (baselineReq c.t u) u = true) (hbursts : bursts.length = 16) :
    execRdrBaseline c bursts s = .next (reply c.t stOk [] (setBase (mod4 (fld c.args 0 1)) (gammaMean bursts)
      (baselineCharged c.t (releaseAir .reader (grantAir (baselineReq c.t u) u.reel.cnt (takeHalf .reader c.t u)))))) := by
  rw [execRdrBaseline, keelRun_some _ _ _ _ _ h]
  simp only [hup, hpa, hfeed, hair]
  rw [if_neg (by omega), if_neg (by decide), if_neg (by split <;> simp [*]), if_neg (by simp [hbursts])]

end Sniff

end Command

/-- Settles O17, one command after the other. -/
theorem readerCommandsComplete : Obligations.ReaderCommandsComplete := by
  unfold Obligations.ReaderCommandsComplete
  refine ⟨fun c s u a power h => execRdrInventory_starts h a power, ?stop, fun c s u g n h => execRdrAccess_starts h g n, ?sniff,
    fun c bursts s u h hlen hasel hup hpa hfeed hown hair => execRdrBaseline_stores hup hown bursts h hlen hasel hpa hfeed hair⟩
  case stop =>
    exact fun c s u i h hinv hlen hseq => ⟨execRdrStop_ends h i hinv hlen hseq, execRdrStop_lastSlot h i hinv hlen hseq⟩
  case sniff =>
    exact fun c s u h hlen hasel hauto hup hown => ⟨execRdrSniff_stops hup hown h hlen hasel hauto,
      fun hlow hhigh hpa hfeed => ⟨_, execRdrSniff_starts hup hown h hlen hasel hauto hlow hhigh hpa hfeed, rfl⟩⟩

end Sys2Proof.Machine
end

section
/-!
PROOFS. The commands that Keel turns away for their form alone: a wrong argument length (R175), an unassigned opcode (R176).
-/
namespace Sys2Proof.Machine

-- ------------------------------------------------------------------ a wrong length

section Length
variable {op : BitVec 16} {c : Cmd} {s u : State} (h : Taken op c s u)
include h

/-- A body that answers ST_BAD_ARG makes its command do so. -/
theorem keelRun_badArg {body : State → State} (hbody : body u = refuse c.t stBadArg u) :
    Host.Outcome.next (ρ := Refusal) (φ := Fault) (keelRun op c body s) = .next (reply c.t 0x04 [] u) := by
  rw [keelRun_some _ _ _ _ _ h, hbody]
  rfl

end Length

theorem argLen_rdrAccess (a : Bytes) :
    argLen 0x1002 a = 11 + 2 * fld a 10 1 + 2 * if fld a 0 1 = 1 then fld a 9 1 else 0 := by
  simp only [argLen, BitVec.reduceToNat]
  split <;> rfl

theorem patchForm_wrongLength {a : Bytes} (h : a.length ≠ 76 + fld a 10 2) : patchForm a = none :=
  if_neg fun ⟨_, _, _, _, _, hlen, _⟩ => h hlen

theorem invArgsOf_wrongLength {a : Bytes} (h : a.length ≠ 11 + (fld a 10 1 + 7) / 8) : invArgsOf a = none :=
  if_pos (.inr (.inl h))

theorem startProgram_wrongLength (how : Starter) {c : Cmd} (down : State → Option Byte) (prof : Profile → Profile → Profile)
    (u : State) (h : c.args.length ≠ 17) : startProgram how c down prof u = refuse c.t stBadArg u :=
  if_pos (.inl h)

/-- Settles O55: each body judges the length first, alone or with the ranges of its fields, or behind a number whose absence it
answers alike. -/
theorem wrongLengthRefused : Obligations.WrongLengthRefused := by
  unfold Obligations.WrongLengthRefused
  intro i op c s u hrow h hlen
  cases i
  -- The length alone.
  case sysInfo | sysSleep | sysReset | tenBind | tenLock | tenShare | rdrReset | tagDisable | tagPublish | lnkNode | lnkListen |
      lnkCancel | lnkReset | radioStatus | coexConfig | tmrRead | tmrGo | keyErase | keyInvalidate | keyInfo | keyTamper |
      cryptoReset | mbxBind | mbxLock | nvmBallast | nvmStatus | ledgerConfig | ledgerOwner | ledgerRead | ledgerAck |
      ledgerStatus | clockSet | measSnapshot | measPartners | mendStatus | mendWindow | spoolStatus | spoolReset =>
    obtain ⟨rfl, rfl⟩ := Prod.mk.inj (Option.some.inj hrow)
    exact keelRun_badArg h (if_pos hlen)
  -- The length with the ranges of the fields.
  case rdrSniff | rdrBaseline | tagEnable | secTam1 | secFarzOpen | secFarzSend | secClose | lnkSend | nbrList |
      nbrForget | radioHoptable | keyDerive | keyUnwrap | rngGet | cryptoAes | cryptoCcm | cryptoCmac | cvuSet | cvuRun |
      nvmRead | nvmWrite | measSubscribe | spoolLoad | spoolStop | regRead | regWrite =>
    obtain ⟨rfl, rfl⟩ := Prod.mk.inj (Option.some.inj hrow)
    simp only [argLen, BitVec.reduceToNat] at hlen
    exact keelRun_badArg h (if_pos (by omega))
  case rdrAccess =>
    obtain ⟨rfl, rfl⟩ := Prod.mk.inj (Option.some.inj hrow)
    rw [argLen_rdrAccess] at hlen
    exact keelRun_badArg h (if_pos (by omega))
  case rdrRunSpool | lnkRunSpool | spoolStart =>
    obtain ⟨rfl, rfl⟩ := Prod.mk.inj (Option.some.inj hrow)
    exact keelRun_badArg h (startProgram_wrongLength _ _ _ _ hlen)
  -- The form of a patch image and of an inventory's arguments.
  case sysPatch =>
    obtain ⟨rfl, rfl⟩ := Prod.mk.inj (Option.some.inj hrow)
    exact keelRun_badArg h (by simp only [patchForm_wrongLength hlen])
  case rdrInventory =>
    obtain ⟨rfl, rfl⟩ := Prod.mk.inj (Option.some.inj hrow)
    exact keelRun_badArg h (by simp only [invArgsOf_wrongLength hlen])
  -- A number first, then the length.
  case rdrStop | measSweep =>
    obtain ⟨rfl, rfl⟩ := Prod.mk.inj (Option.some.inj hrow)
    simp only [argLen, BitVec.reduceToNat] at hlen
    refine keelRun_badArg h ?_
    split
    · rfl
    · exact if_pos (by omega)
  case tmrCmp | tmrDc | tmrCap | tmrOut | mbxWrite | mbxRead | semTake | semGive =>
    obtain ⟨rfl, rfl⟩ := Prod.mk.inj (Option.some.inj hrow)
    simp only [argLen, BitVec.reduceToNat] at hlen
    refine keelRun_badArg h ?_
    dsimp only
    split
    · rfl
    · exact if_pos (by omega)
  all_goals cases hrow

/-- Settles O54: the opcode is none of the table, so its one body runs. -/
theorem unassignedOpcodeRefused : Obligations.UnassignedOpcodeRefused := by
  unfold Obligations.UnassignedOpcodeRefused
  intro c op s u h hop
  have unassigned : assignedOpcodes.contains op.toNat = false := by simpa using hop
  show execUnassignedOpcode c op s = _
  rw [execUnassignedOpcode, unassigned, if_neg (by decide), keelRun_some _ _ _ _ _ h]
  rfl

end Sys2Proof.Machine
end

section
/-!
PROOFS. REG.READ and REG.WRITE (6.2, chapter 25).
-/
namespace Sys2Proof.Machine

section Command
variable {c : Cmd} {s u : State}

/-- R184: every word of the run, its addresses visible to the tenant. -/
theorem execRegRead_reads (h : Taken 0x0110 c s u) (hlen : c.args.length = 3) (hlow : 1 ≤ fld c.args 2 1)
    (hhigh : fld c.args 2 1 ≤ 64) (hend : fld c.args 0 2 + fld c.args 2 1 ≤ 0x10000)
    (hread : ∀ i, i < fld c.args 2 1 → canRead c.t (fld c.args 0 2 + i) u = true) :
    execRegRead c s = .next (reply c.t stOk ((readRun c.t (fld c.args 2 1) (fld c.args 0 2) u).1.map (leBytes 2)).flatten
      (readRun c.t (fld c.args 2 1) (fld c.args 0 2) u).2) := by
  have visible : (runOf (fld c.args 0 2) (fld c.args 2 1)).all (fun i => canRead c.t i u) = true := by
    simpa [runOf] using hread
  rw [execRegRead, keelRun_some _ _ _ _ _ h, regRead]
  dsimp only
  rw [if_neg (by omega), visible, if_neg (by decide)]

/-- R184: a refused run writes nothing, so each of its addresses and values is judged before the first word is written. -/
theorem execRegWrite_writes (h : Taken 0x0111 c s u) (hok : regWriteOk c u) :
    execRegWrite c s = .next (reply c.t stOk [] (writeRun c.t (fld c.args 0 2) (regWords c) u)) := by
  obtain ⟨hlow, hhigh, hlen, hend, hwrite, hvalues⟩ := hok
  have allowed : (runOf (fld c.args 0 2) (fld c.args 2 1)).all (fun i => canWrite c.t i u) = true := by
    simpa [runOf] using hwrite
  have owned : ((runOf (fld c.args 0 2) (fld c.args 2 1)).zip (regWords c)).any
      (fun e => badGo c.t e.1 e.2 || badKeySlot c.t e.1 e.2) = false :=
    List.any_eq_false.mpr fun e he => by
      obtain ⟨hgo, hslot, -⟩ := hvalues e he
      simp [hgo, hslot]
  have legal : ((runOf (fld c.args 0 2) (fld c.args 2 1)).zip (regWords c)).any (fun e => badValue e.1 e.2) = false :=
    List.any_eq_false.mpr fun e he => by
      obtain ⟨-, -, hvalue⟩ := hvalues e he
      simp [hvalue]
  rw [regWords] at owned legal
  rw [execRegWrite, keelRun_some _ _ _ _ _ h, regWrite]
  rw [if_neg (by omega), allowed, owned, if_neg (by decide), legal, if_neg (by decide), regWords]

end Command

/-- Settles O2, one command after the other. -/
theorem registerCommandsComplete : Obligations.RegisterCommandsComplete := by
  unfold Obligations.RegisterCommandsComplete
  exact ⟨fun c s u h => execRegRead_reads h, fun c s u h => execRegWrite_writes h⟩

end Sys2Proof.Machine
end

section
/-!
PROOFS. The LEDGER commands and CLOCK.SET (6.15, 20.2 to 20.4).
-/
namespace Sys2Proof.Machine

-- ------------------------------------------------------------------ the owner's commands

section Owner
variable {c : Cmd} {s u : State} (howner : c.t = u.ldg.owner) (hroot : u.bri.rootOk = true)
include howner hroot

/-- 6.15, R635: the next configuration waits for the next interval; its commit is queued. -/
theorem execLedgerConfig_waits (h : Taken 0x7400 c s u) (hlen : c.args.length = 4 + 8 * fld c.args 3 1)
    (hivlLow : 1 ≤ fld c.args 0 1) (hivl : fld c.args 0 1 ≤ 60) (hdedupeLow : 1 ≤ fld c.args 1 2)
    (hdedupe : fld c.args 1 2 ≤ 600) (hclsLow : 1 ≤ fld c.args 3 1) (hcls : fld c.args 3 1 ≤ 16) (cfg : LedgerCfg)
    (hcfg : cfg = { ivl := fld c.args 0 1, dedupe := fld c.args 1 2,
                    cls := (List.range (fld c.args 3 1)).map fun i =>
      (BitVec.ofNat 32 (fld c.args (4 + 8 * i) 4), BitVec.ofNat 32 (fld c.args (8 + 8 * i) 4)) }) :
    execLedgerConfig c s = .next (reply c.t stOk [] (queueCommit (.ledgerCfg u.ldg.cfg (some cfg)) 1
      (setLdg (fun l => { l with nextCfg := some cfg }) u))) := by
  subst hcfg
  rw [execLedgerConfig, keelRun_some _ _ _ _ _ h]
  dsimp only
  rw [if_neg (by omega), if_neg (not_not_intro howner), if_neg (by omega), hroot, if_neg (by decide)]

/-- R198, R539. -/
theorem execLedgerRead_reads (h : Taken 0x7402 c s u) (hlen : c.args.length = 5) (hstrap : u.power.strapV1 = false)
    (hlow : 1 ≤ fld c.args 4 1) (hhigh : fld c.args 4 1 ≤ 8) (rs : List Record)
    (hrs : rs = (u.ldg.held.filter fun r => decide (fld c.args 0 4 ≤ r.seq)).take (fld c.args 4 1)) :
    execLedgerRead c s = .next (reply c.t stOk (BitVec.ofNat 8 rs.length :: (rs.map (recordBytes u)).flatten) u) := by
  subst hrs
  rw [execLedgerRead, keelRun_some _ _ _ _ _ h]
  dsimp only
  rw [if_neg (not_not_intro hlen), if_neg (by simp [hstrap]), if_neg (not_not_intro howner), if_neg (by omega), hroot,
    if_neg (by decide)]

/-- R541. -/
theorem execLedgerAck_frees (h : Taken 0x7403 c s u) (hlen : c.args.length = 4) (hupto : fld c.args 0 4 ≤ u.ldg.lastSeq) :
    execLedgerAck c s = .next (reply c.t stOk []
      (setLdg (fun l => { l with held := l.held.filter fun r => decide (fld c.args 0 4 < r.seq) }) u)) := by
  rw [execLedgerAck, keelRun_some _ _ _ _ _ h]
  dsimp only
  rw [if_neg (not_not_intro hlen), if_neg (not_not_intro howner), hroot, if_neg (by decide), if_neg (Nat.not_lt.mpr hupto)]

end Owner

@[simp] theorem tenNo_val (t : Tenant) : tenNo t.val = some t := by
  simp [tenNo]

/-- R541. -/
theorem execLedgerOwner_moves {c : Cmd} {s u : State} (h : Taken 0x7401 c s u) (ht : c.t = 0) (hlen : c.args.length = 1)
    (t : Tenant) (hto : fld c.args 0 1 = t.val) :
    execLedgerOwner c s = .next (reply c.t stOk [] (queueCommit (.owner t) 1 (setLdg (fun l => { l with owner := t }) u))) := by
  rw [execLedgerOwner, keelRun_some _ _ _ _ _ h]
  rw [if_neg (not_not_intro hlen), isT0_of_t0 ht, if_neg (by decide), hto, tenNo_val]

theorem execLedgerStatus_reads {c : Cmd} {s u : State} (h : Taken 0x7404 c s u) (hargs : c.args = []) :
    execLedgerStatus c s = .next (reply c.t stOk (leBytes 4 (u.ldg.lastSeq + 1) ++ leBytes 4 (oldestSeq u.ldg) ++
      leBytes 2 u.ldg.held.length ++ leBytes 2 u.ldg.lost ++ [BitVec.ofNat 8 u.ldg.cfg.ivl, BitVec.ofNat 8 u.ldg.owner.val,
      BitVec.ofNat 8 ((if u.ldg.wall.isSome then 1 else 0) + (if u.bri.rootOk then 0 else 2))]) u) := by
  have flags : bitAt 0 u.ldg.wall.isSome + bitAt 1 (!u.bri.rootOk) =
      (if u.ldg.wall.isSome then 1 else 0) + (if u.bri.rootOk then 0 else 2) := by
    cases u.bri.rootOk <;> rfl
  rw [execLedgerStatus, keelRun_some _ _ _ _ _ h]
  dsimp only
  rw [if_neg (by simp [hargs]), flags]

-- ------------------------------------------------------------------ CLOCK.SET

/-- What CLOCK.SET of the owner does in a state whose boundary is not due (R542, R543). -/
def clockSetTo (t : Tenant) (new : Int) (v : State) : State :=
  let now := v.reel.cnt
  let old := ledgerMs v now
  let set := setLdg fun l => { l with wall := some (now, new) }
  match wallTicks v now with
  | none => openInterval now (set (sealOpen lfFirstWall old (reply t stOk (leInt 8 0) v)))
  | some w =>
    let answered := reply t stOk (leInt 8 (new - old)) v
    if new - old ≤ -1000 then openInterval now (set (sealOpen lfBack old answered))
    else if 1000 ≤ new - old then openInterval now (set (sealOpen lfFwd old answered))
    else
      set (setLdg (fun l => { l with cur := l.cur.map fun iv =>
        let left : Int := ticksBetween now iv.endsAt - (new * msTicks - w)
        { iv with endsAt := now + BitVec.ofNat 48 left.toNat } }) answered)

/-- R544: a due boundary is sealed first. -/
theorem execClockSet_owner {c : Cmd} {s u : State} (h : Taken 0x7410 c s u) (hlen : c.args.length = 8)
    (howner : c.t = u.ldg.owner) (hroot : u.bri.rootOk = true) :
    execClockSet c s = .next (clockSetTo c.t (fld c.args 0 8) (boundaryIfDue u)) := by
  rw [execClockSet, keelRun_some _ _ _ _ _ h]
  dsimp only
  rw [if_neg (not_not_intro hlen), if_neg (not_not_intro howner), hroot, if_neg (by decide)]
  rfl

section Clock
variable (t : Tenant) (new : Int) (v : State)

/-- R543. -/
theorem clockSetTo_first (hwall : v.ldg.wall = none) :
    clockSetTo t new v = openInterval v.reel.cnt (setLdg (fun l => { l with wall := some (v.reel.cnt, new) })
      (sealOpen lfFirstWall (ledgerMs v v.reel.cnt) (reply t stOk (leInt 8 0) v))) := by
  have unset : wallTicks v v.reel.cnt = none := by rw [wallTicks, hwall]; rfl
  simp only [clockSetTo, unset]

variable (hwall : v.ldg.wall ≠ none)
include hwall

theorem wallTicks_some (at_ : Tick) : ∃ w, wallTicks v at_ = some w := by
  obtain ⟨w, hw⟩ := Option.ne_none_iff_exists'.mp hwall
  exact ⟨_, by rw [wallTicks, hw]; rfl⟩

/-- R542. -/
theorem clockSetTo_back (hstep : new - ledgerMs v v.reel.cnt ≤ -1000) :
    clockSetTo t new v = openInterval v.reel.cnt (setLdg (fun l => { l with wall := some (v.reel.cnt, new) })
      (sealOpen lfBack (ledgerMs v v.reel.cnt) (reply t stOk (leInt 8 (new - ledgerMs v v.reel.cnt)) v))) := by
  obtain ⟨w, hw⟩ := wallTicks_some v hwall v.reel.cnt
  simp only [clockSetTo, hw, if_pos hstep]

/-- R542. -/
theorem clockSetTo_forward (hstep : 1000 ≤ new - ledgerMs v v.reel.cnt) :
    clockSetTo t new v = openInterval v.reel.cnt (setLdg (fun l => { l with wall := some (v.reel.cnt, new) })
      (sealOpen lfFwd (ledgerMs v v.reel.cnt) (reply t stOk (leInt 8 (new - ledgerMs v v.reel.cnt)) v))) := by
  obtain ⟨w, hw⟩ := wallTicks_some v hwall v.reel.cnt
  have notBack : ¬ new - ledgerMs v v.reel.cnt ≤ -1000 := by omega
  simp only [clockSetTo, hw, if_neg notBack, if_pos hstep]

/-- 20.5: a smaller step is absorbed and seals nothing. -/
theorem clockSetTo_small (hlow : -1000 < new - ledgerMs v v.reel.cnt) (hhigh : new - ledgerMs v v.reel.cnt < 1000) :
    (clockSetTo t new v).ldg.wall = some (v.reel.cnt, new) ∧ (clockSetTo t new v).ldg.lastSeq = v.ldg.lastSeq := by
  obtain ⟨w, hw⟩ := wallTicks_some v hwall v.reel.cnt
  simp only [clockSetTo, hw, if_neg (Int.not_le.mpr hlow), if_neg (Int.not_le.mpr hhigh)]
  simp

end Clock

/-- Settles O31, one command after the other. -/
theorem ledgerCommandsComplete : Obligations.LedgerCommandsComplete := by
  unfold Obligations.LedgerCommandsComplete
  refine ⟨?config, fun c s u t h ht hlen => execLedgerOwner_moves h ht hlen t, ?read, ?ack,
    fun c s u h => execLedgerStatus_reads h, ?clock⟩
  case config =>
    exact fun c s u h hlen howner hivlLow hivl hdedupeLow hdedupe hclsLow hcls hroot =>
      execLedgerConfig_waits howner hroot h hlen hivlLow hivl hdedupeLow hdedupe hclsLow hcls
  case read =>
    exact fun c s u h hlen hstrap howner hlow hhigh hroot => execLedgerRead_reads howner hroot h hlen hstrap hlow hhigh
  case ack =>
    exact fun c s u h hlen howner hroot => execLedgerAck_frees howner hroot h hlen
  case clock =>
    rintro c s u h hlen howner hroot v now new set
    rw [show exec (.clockSet c) s = _ from execClockSet_owner h hlen howner hroot]
    exact ⟨fun hwall => congrArg _ (clockSetTo_first c.t new v hwall),
      fun hwall hstep => congrArg _ (clockSetTo_back c.t new v hwall hstep),
      fun hwall hstep => congrArg _ (clockSetTo_forward c.t new v hwall hstep),
      fun hwall hlow hhigh => ⟨_, rfl, clockSetTo_small c.t new v hwall hlow hhigh⟩⟩

end Sys2Proof.Machine
end

section
/-!
PROOFS. The MEAS and MEND commands (6.16, 6.17).
-/
namespace Sys2Proof.Machine

section Command
variable {c : Cmd} {s u : State}

/-- R565: the record is that of the fresh sample. -/
theorem execMeasSnapshot_samples (smp : Sample) (h : Taken 0x8000 c s u) (hargs : c.args = []) :
    execMeasSnapshot c smp s = .next (reply c.t stOk (telemetry (takeSample smp u)) (takeSample smp u)) := by
  rw [execMeasSnapshot, keelRun_some _ _ _ _ _ h]
  dsimp only
  rw [if_neg (by simp [hargs])]

@[simp] theorem targetNo_val (n : Fin 6) : targetNo n.val = some n := by
  simp [targetNo]

/-- R553: nothing of the reader is asked for where the target is of the link. -/
theorem execMeasSweep_begins (n : Fin 6) (h : Taken 0x8001 c s u) (hlen : c.args.length = 2) (htarget : fld c.args 0 1 = n.val)
    (hpoints : fld c.args 1 1 ≤ 1) (hlimp : inLimp u = false) (hsyn : noSyn u = false)
    (hrx : n.val < 4 → lostReaderRx u = false) (hfeed : n.val < 4 → feedBad u.prof[c.t] = false)
    (hidle : u.svy.sweep = none) :
    execMeasSweep c s = .next (sweepBegin (some c.t) c.seq n (fld c.args 1 1 == 1) [] (reply c.t stOk [] u)) := by
  have receives : (noSyn u || (decide (n.val < 4) && lostReaderRx u)) = false := by
    simpa [hsyn] using hrx
  have band : ¬ (n.val < 4 ∧ feedBad u.prof[c.t] = true) := fun ⟨hreader, hbad⟩ => by
    rw [hfeed hreader] at hbad
    cases hbad
  rw [execMeasSweep, keelRun_some _ _ _ _ _ h]
  simp only [htarget, targetNo_val]
  rw [if_neg (by omega), hlimp, if_neg (by decide), receives, if_neg (by decide), if_neg band, hidle, if_neg (by decide)]

/-- R199: 0, or 10 s to an hour. -/
theorem execMeasSubscribe_sets (h : Taken 0x8002 c s u) (hlen : c.args.length = 2)
    (hperiod : fld c.args 0 2 = 0 ∨ (10 ≤ fld c.args 0 2 ∧ fld c.args 0 2 ≤ 3600)) (subs : Vector Nat 4)
    (hsubs : subs = u.svy.subs.set c.t.val (fld c.args 0 2) c.t.isLt) :
    execMeasSubscribe c s = .next (reply c.t stOk (leBytes 2 (periodOf subs))
      (setSvy (fun v => { v with subs := subs, period := periodOf subs }) u)) := by
  subst hsubs
  rw [execMeasSubscribe, keelRun_some _ _ _ _ _ h]
  dsimp only
  rw [if_neg (by omega)]

/-- R563. -/
theorem execMeasPartners_reads (h : Taken 0x8003 c s u) (hargs : c.args = []) :
    execMeasPartners c s = .next (reply c.t stOk ([portsByte u, BitVec.ofNat 8 u.link.nbrs.length] ++
      leBytes 4 u.svy.tagCap.toNat) u) := by
  rw [execMeasPartners, keelRun_some _ _ _ _ _ h]
  rw [if_neg (by simp [hargs])]

theorem execMendStatus_reads (h : Taken 0x8800 c s u) (hargs : c.args = []) :
    execMendStatus c s = .next (reply c.t stOk (leBytes 2 (mendLevel u) ++
      ((List.range 8).map fun i => BitVec.ofNat 8 (sparesLeft u i)) ++ leBytes 2 u.mend.lost.toNat) u) := by
  rw [execMendStatus, keelRun_some _ _ _ _ _ h]
  rw [if_neg (by simp [hargs])]

/-- R635: in force before its commit lands. -/
theorem execMendWindow_sets (h : Taken 0x8801 c s u) (ht : c.t = 0) (hlen : c.args.length = 4) (hstart : fld c.args 0 2 ≤ 1439)
    (hlow : 1 ≤ fld c.args 2 2) (hhigh : fld c.args 2 2 ≤ 720) :
    execMendWindow c s = .next (reply c.t stOk [] (queueCommit (.window (fld c.args 0 2) (fld c.args 2 2)) 1
      (setMend (fun m => { m with winStart := fld c.args 0 2, winLen := fld c.args 2 2 }) u))) := by
  rw [execMendWindow, keelRun_some _ _ _ _ _ h]
  dsimp only
  rw [if_neg (not_not_intro hlen), isT0_of_t0 ht, if_neg (by decide), if_neg (by omega)]

end Command

/-- Settles O32, one command after the other. -/
theorem surveyMendCommandsComplete : Obligations.SurveyMendCommandsComplete := by
  unfold Obligations.SurveyMendCommandsComplete
  exact ⟨fun c smp s u h => execMeasSnapshot_samples smp h, fun c s u n h => execMeasSweep_begins n h,
    fun c s u h => execMeasSubscribe_sets h, fun c s u h => execMeasPartners_reads h, fun c s u h => execMendStatus_reads h,
    fun c s u h => execMendWindow_sets h⟩

end Sys2Proof.Machine
end

section
/-!
PROOFS. The MBX, SEM and CVU commands (6.12, 6.13, chapters 17 and 18).
-/
namespace Sys2Proof.Machine

-- ------------------------------------------------------------------ channels

@[simp] theorem chanNo_val (g : Fin 16) : chanNo g.val = some g := by
  simp [chanNo]

section Mailbox
variable {c : Cmd} {s u : State} {g : Fin 16}

/-- R490 to R493: an end is a tenant or a Spool context (4 is none), and no tenant is both ends. -/
theorem execMbxBind_binds (h : Taken 0x5000 c s u) (ht : c.t = 0) (hlen : c.args.length = 3) (hg : fld c.args 0 1 = g.val)
    (hsnd : fld c.args 1 1 ≤ 5) (hsnd4 : fld c.args 1 1 ≠ 4) (hrcv : fld c.args 2 1 ≤ 5) (hrcv4 : fld c.args 2 1 ≠ 4)
    (hends : fld c.args 1 1 = fld c.args 2 1 → 4 ≤ fld c.args 1 1) (hlock : u.gdl.locked = false) :
    execMbxBind c s = .next (reply c.t stOk [] (modChan g (fun _ => {
      bound := some (fld c.args 1 1, fld c.args 2 1), msg := none, last := 0, next := 0, coll := false, ccnt := 0 })
      (dropMsg u.gdl.chans[g].msg u))) := by
  rw [execMbxBind, keelRun_some _ _ _ _ _ h]
  dsimp only
  rw [if_neg (not_not_intro hlen), isT0_of_t0 ht, if_neg (by decide), hg, chanNo_val]
  dsimp only
  rw [if_neg (by omega), hlock, if_neg (by decide)]

/-- R493. -/
theorem execMbxLock_locks (h : Taken 0x5001 c s u) (ht : c.t = 0) (hargs : c.args = []) :
    execMbxLock c s = .next (reply c.t stOk [] { u with gdl := { u.gdl with locked := true } }) := by
  rw [execMbxLock, keelRun_some _ _ _ _ _ h]
  dsimp only
  rw [if_neg (by simp [hargs]), isT0_of_t0 ht, if_neg (by decide)]

/-- R495: MSEQ is the one that the message is stamped with. -/
theorem execMbxWrite_fills (h : Taken 0x5002 c s u) (hg : fld c.args 0 1 = g.val) (hwords : fld c.args 1 1 ≤ 8)
    (hlen : c.args.length = 2 + 4 * fld c.args 1 1) (hsender : senderOf g u.gdl.chans[g] = some (.tenant c.t))
    (hstrap : u.power.strapV1 = false) :
    execMbxWrite c s = .next (reply c.t stOk [u.gdl.chans[g].next, if u.gdl.chans[g].msg.isSome then 1 else 0]
      (writeChan g c.t.val ((List.range (fld c.args 1 1)).map fun i => BitVec.ofNat 32 (fld c.args (2 + 4 * i) 4)) none u)) := by
  rw [execMbxWrite, keelRun_some _ _ _ _ _ h]
  dsimp only
  rw [hg, chanNo_val]
  dsimp only
  rw [if_neg (by omega), if_neg (not_not_intro hsender), if_neg (by simp [hstrap])]

/-- R496, R499. -/
theorem execMbxRead_empties (m : Msg) (h : Taken 0x5003 c s u) (hg : fld c.args 0 1 = g.val) (hlen : c.args.length = 2)
    (hclear : fld c.args 1 1 ≤ 1) (hreceiver : receiverOf g u.gdl.chans[g] = some (.tenant c.t))
    (hmsg : u.gdl.chans[g].msg = some m) :
    execMbxRead c s = .next (reply c.t stOk
      ([BitVec.ofNat 8 m.snd, m.mseq, BitVec.ofNat 8 m.words.length, if u.gdl.chans[g].coll then 3 else 1,
        BitVec.ofNat 8 u.gdl.chans[g].ccnt] ++ (m.words.map fun w => leBytes 4 w.toNat).flatten)
      (modChan g (fun ch => { ch with msg := none, coll := ch.coll && fld c.args 1 1 != 1 }) (dropMsg (some m) u))) := by
  have flags : BitVec.ofNat 8 (bitAt 0 true + bitAt 1 u.gdl.chans[g].coll) = if u.gdl.chans[g].coll then 3 else 1 := by
    cases u.gdl.chans[g].coll <;> rfl
  rw [execMbxRead, keelRun_some _ _ _ _ _ h]
  dsimp only
  rw [hg, chanNo_val]
  dsimp only
  rw [if_neg (by omega), if_neg (not_not_intro hreceiver), hmsg, flags]
  rfl

end Mailbox

-- ------------------------------------------------------------------ semaphores

@[simp] theorem semNo_val (i : Fin 8) : semNo i.val = some i := by
  simp [semNo]

section Semaphore
variable {c : Cmd} {s u : State} {i : Fin 8} (hlen : c.args.length = 1) (hi : fld c.args 0 1 = i.val)
include hlen hi

/-- R503: the answer tells whether the holder before was lost. -/
theorem execSemTake_free (h : Taken 0x5004 c s u) (hfree : u.gdl.sems[i].holder = none) :
    execSemTake c s = .next (reply c.t stOk [if u.gdl.sems[i].broken then 1 else 0]
      (modSem i (fun _ => { holder := some c.t, broken := false }) u)) := by
  rw [execSemTake, keelRun_some _ _ _ _ _ h]
  simp only [hi, semNo_val, hfree]
  rw [if_neg (not_not_intro hlen)]

/-- R504. -/
theorem execSemGive_own (h : Taken 0x5005 c s u) (hown : u.gdl.sems[i].holder = some c.t) :
    execSemGive c s = .next (reply c.t stOk [] (modSem i (fun q => { q with holder := none }) u)) := by
  rw [execSemGive, keelRun_some _ _ _ _ _ h]
  simp only [hi, semNo_val]
  rw [if_neg (not_not_intro hlen), if_pos hown]

end Semaphore

-- ------------------------------------------------------------------ check values

/-- A field's first byte counts 1, the bytes behind it 256 (R11). -/
theorem fld_succ (a : Bytes) (off n : Nat) : fld a off (n + 1) = fld a off 1 + 256 * fld a (off + 1) n := by
  simp only [fld, ← List.drop_drop]
  cases a.drop off <;> simp [leNat]

/-- A field of zero bytes is 0. -/
theorem fld_eq_zero (a : Bytes) (off n : Nat) (h : ∀ i, off ≤ i → i < off + n → fld a i 1 = 0) : fld a off n = 0 := by
  induction n generalizing off with
  | zero => simp [fld, leNat]
  | succ n ih =>
    have first := h off (by omega) (by omega)
    have rest := ih (off + 1) fun i hlow hhigh => h i (by omega) (by omega)
    rw [fld_succ, first, rest]

section CheckValue
variable {c : Cmd} {s u : State}

section Set
variable (h : Taken 0x6000 c s u) (hlen : c.args.length = 15)
include h hlen

/-- R510: an own parameter set, within its width. -/
theorem execCvuSet_own (hpreset : fld c.args 0 1 = 0) (hlow : 1 ≤ fld c.args 1 1) (hhigh : fld c.args 1 1 ≤ 32)
    (hpoly : fld c.args 2 4 ≠ 0) (hpolyFits : fld c.args 2 4 < 2 ^ fld c.args 1 1)
    (hinit : fld c.args 6 4 < 2 ^ fld c.args 1 1) (hxor : fld c.args 10 4 < 2 ^ fld c.args 1 1) (hrefl : fld c.args 14 1 ≤ 3)
    (p : CvuPar) (hp : p = { preset := 0, width := fld c.args 1 1, poly := BitVec.ofNat 32 (fld c.args 2 4),
                             init := BitVec.ofNat 32 (fld c.args 6 4), xorout := BitVec.ofNat 32 (fld c.args 10 4),
                             reflIn := fld c.args 14 1 % 2 == 1, reflOut := decide (2 ≤ fld c.args 14 1) }) :
    execCvuSet c s = .next (reply c.t stOk [] { u with cvu := u.cvu.set c.t.val p c.t.isLt }) := by
  subst hp
  rw [execCvuSet, keelRun_some _ _ _ _ _ h]
  dsimp only
  rw [if_neg (by omega), if_pos hpreset, if_neg (by omega)]

/-- R510: the fields of an own set are 0. -/
theorem execCvuSet_preset (hlow : 1 ≤ fld c.args 0 1) (hhigh : fld c.args 0 1 ≤ 4)
    (hzero : ∀ i, 1 ≤ i → i < 15 → fld c.args i 1 = 0) :
    execCvuSet c s = .next (reply c.t stOk [] { u with cvu := u.cvu.set c.t.val (cvuPreset (fld c.args 0 1)) c.t.isLt }) := by
  have zero : ∀ off n, 1 ≤ off → off + n ≤ 15 → fld c.args off n = 0 := fun off n hoff hend =>
    fld_eq_zero _ _ _ fun i hi hin => hzero i (by omega) (by omega)
  rw [execCvuSet, keelRun_some _ _ _ _ _ h]
  dsimp only
  rw [if_neg (by omega), if_neg (by omega), if_neg]
  simp [zero]

end Set

section Run
variable (h : Taken 0x6001 c s u) (hlen : c.args.length = 3 + fld c.args 1 2) (hdata : fld c.args 1 2 ≤ 1000)
include h hlen hdata

theorem execCvuRun_computes (hmode : fld c.args 0 1 = 0) :
    execCvuRun c s = .next (reply c.t stOk (leBytes 4 (checkValue u.cvu[c.t] (c.args.drop 3))) u) := by
  rw [execCvuRun, keelRun_some _ _ _ _ _ h]
  dsimp only
  rw [if_neg (by omega), if_pos hmode]

/-- R512. -/
theorem execCvuRun_appends (hmode : fld c.args 0 1 = 1) :
    execCvuRun c s = .next (reply c.t stOk
      (c.args.drop 3 ++ appendedValue u.cvu[c.t] (checkValue u.cvu[c.t] (c.args.drop 3))) u) := by
  rw [execCvuRun, keelRun_some _ _ _ _ _ h]
  dsimp only
  rw [if_neg (by omega), if_neg (by omega), if_pos hmode]

/-- R513, R514: the data holds a check value to strip. -/
theorem execCvuRun_strips (hmode : fld c.args 0 1 = 2) (hholds : cvuBytes u.cvu[c.t] ≤ fld c.args 1 2) :
    execCvuRun c s = .next (reply c.t stOk ((if (stripCheck u.cvu[c.t] (c.args.drop 3)).1 then 1 else 0) ::
      (stripCheck u.cvu[c.t] (c.args.drop 3)).2) u) := by
  rw [execCvuRun, keelRun_some _ _ _ _ _ h]
  dsimp only
  rw [if_neg (by omega), if_neg (by omega), if_neg (by omega), if_neg (Nat.not_lt.mpr hholds)]

end Run

end CheckValue

/-- Settles O29, one command after the other. -/
theorem gondolaAndCheckValues : Obligations.GondolaAndCheckValues := by
  unfold Obligations.GondolaAndCheckValues
  refine ⟨⟨fun c s u g h => execMbxBind_binds h, fun c s u h => execMbxLock_locks h, fun c s u g h => execMbxWrite_fills h,
    fun c s u g m h => execMbxRead_empties m h, ?take, ?give⟩, ?set, ?run⟩
  case take => exact fun c s u i h hlen hi => execSemTake_free hlen hi h
  case give => exact fun c s u i h hlen hi => execSemGive_own hlen hi h
  case set => exact fun c s u h hlen => ⟨execCvuSet_own h hlen, execCvuSet_preset h hlen⟩
  case run =>
    exact fun c s u h hlen hdata =>
      ⟨execCvuRun_computes h hlen hdata, execCvuRun_appends h hlen hdata, execCvuRun_strips h hlen hdata⟩

end Sys2Proof.Machine
end

section
/-!
PROOFS. The TAG and SEC commands (6.5, 6.6, chapter 12).
-/
namespace Sys2Proof.Machine

-- ------------------------------------------------------------------ the lantern tag

@[simp] theorem tagOff_work (s : State) : workPart (tagOff s) = workPart s := by
  simp only [tagOff]
  split <;> simp

/-- Disabling the tag answers no command. -/
theorem tagOff_exec (t : Tenant) (s : State) : (tagOff s).tens[t].exec = s.tens[t].exec :=
  congrArg (fun w => (w.commands t).1) (tagOff_work s)

/-- R190, R369. -/
theorem tagOff_cleared (s : State) (h : s.tag.enabled = true) :
    (tagOff s).tag.area = [] ∧ (tagOff s).tag.epc = [] ∧ (tagOff s).tag.field = false := by
  rw [tagOff, if_pos h]
  simp

section Tag
variable {c : Cmd} {s u : State}

/-- R188, R369, log entry 31: the owner may enable again. -/
theorem execTagEnable_enables (k : Fin 48) (h : Taken 0x1100 c s u) (hlow : 2 ≤ fld c.args 2 1) (hhigh : fld c.args 2 1 ≤ 8)
    (hlen : c.args.length = 3 + 2 * fld c.args 2 1) (hflags : fld c.args 1 1 ≤ 7) (hlimp : inLimp u = false)
    (howner : u.tag.enabled = true → u.tag.owner = c.t) (hk : fld c.args 0 1 = k.val)
    (hkey : keyRefusal c.t k.val isDerive u = none) :
    execTagEnable c s = .next (reply c.t stOk [] (setTag (fun g => { g with
      enabled := true, owner := c.t, key := k, flags := BitVec.ofNat 8 (fld c.args 1 1), epc := c.args.drop 3 }) u)) := by
  have free : ¬ (u.tag.enabled = true ∧ u.tag.owner ≠ c.t) := fun ⟨henabled, hother⟩ => hother (howner henabled)
  rw [execTagEnable, keelRun_some _ _ _ _ _ h]
  dsimp only
  rw [if_neg (by omega), hlimp, if_neg (by decide), if_neg free, hk, hkey, slotNo_val]

section Owner
variable (henabled : u.tag.enabled = true) (howner : u.tag.owner = c.t)
include henabled howner

theorem notTagOwner_own : notTagOwner c.t u = false := by simp [notTagOwner, henabled, howner]

/-- R190, R369. -/
theorem execTagDisable_disables (h : Taken 0x1101 c s u) (hargs : c.args = []) :
    execTagDisable c s = .next (tagOff (reply c.t stOk [] u)) := by
  rw [execTagDisable, keelRun_some _ _ _ _ _ h]
  rw [if_neg (by simp [hargs]), notTagOwner_own henabled howner, if_neg (by decide)]

section Publish
variable (h : Taken 0x1102 c s u) (hlen : c.args.length = 4 + fld c.args 2 2) (hlow : 1 ≤ fld c.args 2 2)
  (hhigh : fld c.args 2 2 ≤ 512) (hfits : fld c.args 0 2 + fld c.args 2 2 ≤ 2048)
include h hlen hlow hhigh hfits

/-- R189: at once, or, log entry 32, at the next crew message of an open session. -/
theorem execTagPublish_owner : execTagPublish c s = .next (reply c.t stOk [] (setTag (fun g =>
    if g.session then { g with pubNext := g.pubNext ++ [(fld c.args 0 2, c.args.drop 4)] }
    else { g with area := memPutAll g.area (fld c.args 0 2) (c.args.drop 4) }) u)) := by
  rw [execTagPublish, keelRun_some _ _ _ _ _ h]
  dsimp only
  rw [if_neg (not_not_intro hlen), notTagOwner_own henabled howner, if_neg (by decide), if_neg (by omega)]

theorem execTagPublish_writes (hsession : u.tag.session = false) :
    execTagPublish c s = .next (reply c.t stOk []
      (setTag (fun g => { g with area := memPutAll g.area (fld c.args 0 2) (c.args.drop 4) }) u)) := by
  rw [execTagPublish_owner henabled howner h hlen hlow hhigh hfits]
  simp only [setTag, hsession, Bool.false_eq_true, if_false]

theorem execTagPublish_waits (hsession : u.tag.session = true) :
    execTagPublish c s = .next (reply c.t stOk []
      (setTag (fun g => { g with pubNext := g.pubNext ++ [(fld c.args 0 2, c.args.drop 4)] }) u)) := by
  rw [execTagPublish_owner henabled howner h hlen hlow hhigh hfits]
  simp only [setTag, hsession, if_true]

end Publish

end Owner

end Tag

-- ------------------------------------------------------------------ exchanges with a tag

/-- The access of an exchange as its command begins it: the tag is named by the bytes from `base` on, their count and the aerial
stand before them (6.6). -/
def exchangeOf (c : Cmd) (base : Nat) (g : InvArgs) (kind : AccKind) : Acc :=
  { kind := kind, args := g, tseq := c.seq, asel := mod4 (fld c.args (base - 2) 1), epc := c.args.drop base,
    stage := .tune, step := .select, freq := 0, attempt := 0, rn := 0, handle := 0, tid := [], done := [], ending := none }

section Exchange
variable {c : Cmd} {s u : State} {g : InvArgs} {k : Fin 48} (hlast : u.rdr.lastInv[c.t] = some g) (hlimp : inLimp u = false)
  (hup : rdrRefusal c.t (g.region == 2) u = none) (hk : fld c.args 0 1 = k.val)
  (hkey : keyRefusal c.t k.val isDerive u = none) (hrng : u.bri.drbgOk = true) (hclosed : u.sess[c.t].opened = false)
include hlast hlimp hup hk hkey hrng hclosed

/-- R301, R362: with nothing that refuses it, an exchange is answered and its access begins. -/
theorem exchangeBegin_begins (base : Nat) (kind : Fin 48 → AccKind) (res : Bytes) (note : Fin 48 → SecSess → SecSess) :
    exchangeBegin c.t c.seq (fld c.args 0 1) (fld c.args (base - 2) 1) (c.args.drop base) kind u.sess[c.t].opened res note u =
      accTune c.t (exchangeOf c base g (kind k)) (startBuiltin c.t c.seq (modSess c.t (note k) (reply c.t stOk res u))) := by
  simp only [exchangeBegin, hlimp, hlast, hup, hk, hkey, slotNo_val, hrng, hclosed, Bool.false_eq_true, if_false, Bool.not_true]
  rfl

/-- R347, R362. -/
theorem execSecTam1_begins (h : Taken 0x1200 c s u) (hasel : fld c.args 2 1 ≤ 3) (hlow : 1 ≤ fld c.args 3 1)
    (hhigh : fld c.args 3 1 ≤ 31) (hlen : c.args.length = 4 + 2 * fld c.args 3 1) :
    execSecTam1 c s = .next (accTune c.t (exchangeOf c 4 g (.tam1 k (BitVec.ofNat 8 (fld c.args 1 1))))
      (startBuiltin c.t c.seq (modSess c.t (fun q => { q with challenge := [] }) (reply c.t stOk [] u)))) := by
  rw [execSecTam1, keelRun_some _ _ _ _ _ h]
  dsimp only
  rw [if_neg (by omega)]
  exact congrArg _ (exchangeBegin_begins hlast hlimp hup hk hkey hrng hclosed 4 _ _ _)

/-- R362, R367. -/
theorem execSecFarzOpen_begins (h : Taken 0x1201 c s u) (hasel : fld c.args 1 1 ≤ 3) (hlow : 1 ≤ fld c.args 2 1)
    (hhigh : fld c.args 2 1 ≤ 31) (hlen : c.args.length = 3 + 2 * fld c.args 2 1) :
    execSecFarzOpen c s = .next (accTune c.t (exchangeOf c 3 g (.farz k)) (startBuiltin c.t c.seq
      (modSess c.t (fun q => { q with sid := nextSid u.sess[c.t].sid, tseq := c.seq, key := k, keyGone := false, challenge := [],
                                      ctx := none }) (reply c.t stOk [nextSid u.sess[c.t].sid] u)))) := by
  rw [execSecFarzOpen, keelRun_some _ _ _ _ _ h]
  dsimp only
  rw [if_neg (by omega)]
  exact congrArg _ (exchangeBegin_begins hlast hlimp hup hk hkey hrng hclosed 3 _ _ _)

end Exchange

-- ------------------------------------------------------------------ an open session

section Session
variable {c : Cmd} {s u : State} (hopen : u.sess[c.t].opened = true) (hsid : u.sess[c.t].sid.toNat = fld c.args 0 1)
include hopen hsid

theorem sessIs_own : sessIs c.t (fld c.args 0 1) u = true := by
  rw [sessIs, hopen, hsid, beq_self_eq_true, Bool.and_self]

/-- R366, R195: a message is sent, or waits for the reply to the one before it. -/
theorem execSecFarzSend_takes (h : Taken 0x1202 c s u) (hlen : c.args.length = 3 + fld c.args 1 2) (hlow : 1 ≤ fld c.args 1 2)
    (hhigh : fld c.args 1 2 ≤ 256) (hlimp : inLimp u = false) (hram : u.mend.keyram.getLsbD u.sess[c.t].key.val = false)
    (hroom : noUseLeft u.sess[c.t].key (if 200 < fld c.args 1 2 then 2 else 1) u = false) (v : State)
    (hv : v = modSess c.t (fun q => { q with idleFrom := u.reel.cnt }) (reply c.t stOk [] u)) :
    execSecFarzSend c s = .next (if u.sess[c.t].busy.isSome
      then modSess c.t (fun q => { q with sendQ := q.sendQ ++ [(c.seq, c.args.drop 3)] }) v
      else sessSend c.t c.seq (c.args.drop 3) 203 v) := by
  subst hv
  rw [execSecFarzSend, keelRun_some _ _ _ _ _ h]
  dsimp only
  rw [if_neg (by omega), hlimp, if_neg (by decide), sessIs_own hopen hsid, if_neg (by decide), hram, if_neg (by decide), hroom,
    if_neg (by simp)]

/-- R191. -/
theorem execSecClose_closes (h : Taken 0x1203 c s u) (hlen : c.args.length = 1) :
    execSecClose c s = .next (closeSession c.t 0 (reply c.t stOk [] u)) := by
  rw [execSecClose, keelRun_some _ _ _ _ _ h]
  rw [if_neg (by simp [hlen, sessIs_own hopen hsid])]

end Session

/-- Settles O19, one command after the other. -/
theorem tagCommandsComplete : Obligations.TagCommandsComplete := by
  unfold Obligations.TagCommandsComplete
  refine ⟨fun c k s u h => execTagEnable_enables k h, ?disable, ?publish, ?exchange, ?send,
    fun c s u h hlen hopen hsid => execSecClose_closes hopen hsid h hlen⟩
  case disable =>
    intro c s u h hargs henabled howner _
    have still : (reply c.t stOk [] u).tag.enabled = true := by rw [reply_tag]; exact henabled
    obtain ⟨harea, hepc, hfield⟩ := tagOff_cleared _ still
    exact ⟨_, execTagDisable_disables henabled howner h hargs, tagOff_enabled _, harea, hepc, hfield,
      (tagOff_exec ..).trans (reply_exec ..)⟩
  case publish =>
    exact fun c s u h hlen henabled howner hlow hhigh hfits =>
      ⟨execTagPublish_writes henabled howner h hlen hlow hhigh hfits,
        execTagPublish_waits henabled howner h hlen hlow hhigh hfits⟩
  case exchange =>
    intro c k g s u n base kind note res hlast hlimp hup hk hkey hrng hclosed hlow hhigh hlen begins
    constructor
    · rintro h rfl hasel rfl rfl rfl rfl
      exact execSecTam1_begins hlast hlimp hup hk hkey hrng hclosed h hasel hlow hhigh hlen
    · rintro h rfl hasel rfl rfl rfl rfl
      exact execSecFarzOpen_begins hlast hlimp hup hk hkey hrng hclosed h hasel hlow hhigh hlen
  case send =>
    intro c s u h hlen hlow hhigh hopen hsid hlimp hram hroom v hv
    rw [show exec (.secFarzSend c) s = _ from execSecFarzSend_takes hopen hsid h hlen hlow hhigh hlimp hram hroom v hv]
    exact ⟨fun hbusy => by rw [hbusy]; rfl, fun hbusy => by rw [if_pos hbusy]⟩

end Sys2Proof.Machine
end

section
/-!
PROOFS. The LNK and NBR commands (6.7, chapter 14).
-/
namespace Sys2Proof.Machine

-- ------------------------------------------------------------------ LNK.NODE

section Node
variable {c : Cmd} {s u : State} (h : Taken 0x2000 c s u) (hlen : c.args.length = 13)
  (hholder : ∀ t, u.link.holder = some t → t = c.t)
include h hlen hholder

/-- R192, log entry 35: the configuration stays. -/
theorem execLnkNode_releases (hrelease : fld c.args 12 1 = 1) :
    execLnkNode c s = .next (reply c.t stOk [] (setLink (fun l => { l with holder := none }) u)) := by
  rw [execLnkNode, keelRun_some _ _ _ _ _ h]
  dsimp only
  rw [if_neg (not_not_intro hlen), if_neg ?other, if_neg (by omega), if_pos hrelease]
  case other =>
    split
    · next t ht => simp [hholder t ht]
    · decide

/-- R192, R423: the beacons of the configuration begin with a plan of their own. -/
theorem execLnkNode_sets (hset : fld c.args 12 1 = 0) (haddr : fld c.args 0 2 < 0xFFFE) (hfreq : fld c.args 2 2 ≤ 4800)
    (hrate : fld c.args 4 1 ≤ 2) (hregion : fld c.args 5 1 ≤ 1) (hbeacon : fld c.args 6 2 ≤ 3600)
    (hcap : fld c.args 8 4 < 2 ^ 28) (hsmode : fld c.args 4 1 = 2 → 2480 ≤ fld c.args 2 2 ∧ fld c.args 2 2 ≤ 3520)
    (hband : bandOk (fld c.args 2 2) (fld c.args 4 1) (fld c.args 5 1) = true) (hidle : linkBusy u = false) (v : State)
    (hv : v = setLink (fun l => { l with
      configured := true, holder := some c.t, addr := BitVec.ofNat 16 (fld c.args 0 2), freq := fld c.args 2 2,
      rate := fld c.args 4 1, region := fld c.args 5 1, beacon := fld c.args 6 2,
      cap := BitVec.ofNat 28 (fld c.args 8 4), beaconAt := none }) u) :
    execLnkNode c s = .next (reply c.t stOk [] (if fld c.args 6 2 = 0 then v else beaconPlan v.reel.cnt v)) := by
  subst hv
  rw [execLnkNode, keelRun_some _ _ _ _ _ h]
  dsimp only
  rw [if_neg (not_not_intro hlen), if_neg ?other, if_neg (by omega), if_neg (by omega), if_neg ?form, hidle,
    if_neg (by decide)]
  · rfl
  case other =>
    split
    · next t ht => simp [hholder t ht]
    · decide
  case form =>
    simp only [hband, Bool.not_true, Bool.false_eq_true, or_false]
    omega

end Node

-- ------------------------------------------------------------------ LNK.LISTEN

section Listen
variable {c : Cmd} {s u : State} (h : Taken 0x2002 c s u) (hlen : c.args.length = 2) (hup : linkRefusal c.t true u = none)
  (huses : u.link.uses ≠ 0) (hnew : u.link.listens[c.t] = none)
  (l : Listen) (hl : l = { tseq := c.seq, dur := fld c.args 0 2, frames := 0, ending := none,
                           from_ := if holds .listen .link u then some u.reel.cnt else none })
  (v : State) (hv : v = setLink (fun q => { q with listens := q.listens.set c.t.val (some l) c.t.isLt }) (reply c.t stOk [] u))
include h hlen hup huses hnew hl hv

/-- R422: the first listen asks for the air, a later one joins it. -/
theorem execLnkListen_listens : execLnkListen c s = .next (if u.link.listens.toList.all Option.isNone then requestAir
      { core := .link, who := .listen, cls := 5, freq := v.link.freq, since := v.reel.cnt, gnt := lkbShared c.t v,
        wait := coexWait c.t v, noWait := false } (setLink (fun q => { q with rxHost := c.t }) v)
    else v) := by
  subst hl hv
  rw [execLnkListen, keelRun_some _ _ _ _ _ h]
  simp only [hup, hnew]
  rw [if_neg (not_not_intro hlen), if_neg huses, if_neg (by decide)]

end Listen

-- ------------------------------------------------------------------ LNK.CANCEL

section Cancel
variable {c : Cmd} {s u : State} (h : Taken 0x2003 c s u) (hlen : c.args.length = 2) (seq : BitVec 16)
  (hseq : seq = BitVec.ofNat 16 (fld c.args 0 2))
include h hlen hseq

section Mine
variable (l : Listen) (hl : u.link.listens[c.t] = some l) (hmine : l.tseq = seq)
include hl hmine

/-- R434: a listen with nothing of a frame on its way ends at once. -/
theorem execLnkCancel_listen (hfree : holds .listen .link u = false ∨ listenBusy u = false) :
    execLnkCancel c s = .next (listenEnd c.t stCancelled (reply c.t stCancelled [] u)) := by
  have notBusy : (holds .listen .link u && listenBusy u) = false := by
    rcases hfree with hfree | hfree <;> simp [hfree]
  subst hseq
  rw [execLnkCancel, keelRun_some _ _ _ _ _ h]
  simp only [hl, notBusy]
  rw [if_neg (not_not_intro hlen), if_pos (by simp [hmine, w16]), if_neg (by decide)]
  rfl

/-- R434: one with a frame under way ends behind it. -/
theorem execLnkCancel_late (hheld : holds .listen .link u = true) (hbusy : listenBusy u = true) :
    execLnkCancel c s = .next (setLink (fun q => { q with
      listens := vmod q.listens c.t fun o => o.map fun l => { l with ending := some stLateCancel } })
      (reply c.t stLateCancel [] u)) := by
  subst hseq
  rw [execLnkCancel, keelRun_some _ _ _ _ _ h]
  simp only [hl, hheld, hbusy]
  rw [if_neg (not_not_intro hlen), if_pos (by simp [hmine, w16]), if_pos (by decide)]
  rfl

end Mine

/-- R433. -/
theorem execLnkCancel_send (e : Send) (st : Byte) (hother : (u.link.listens[c.t]).any (fun l => l.tseq == seq) = false)
    (hfind : u.link.sends.find? (fun e => e.owner == some c.t && e.tseq == seq) = some e)
    (hst : st = if sendCommitted e u then stLateCancel else stCancelled) :
    execLnkCancel c s = .next (sendStop e st (reply c.t st [] u)) := by
  subst hseq hst
  rw [execLnkCancel, keelRun_some _ _ _ _ _ h]
  simp only [w16, hother, hfind]
  rw [if_neg (not_not_intro hlen), if_neg (by decide)]
  rfl

end Cancel

-- ------------------------------------------------------------------ the neighbour table

section Neighbours
variable {c : Cmd} {s u : State} (hlen : c.args.length = 2)
include hlen

theorem execNbrList_lists (h : Taken 0x2100 c s u) (hfrom : fld c.args 0 1 ≤ 63) (hlow : 1 ≤ fld c.args 1 1)
    (hhigh : fld c.args 1 1 ≤ 32) (l : List Nbr) (hl : l = (u.link.nbrs.drop (fld c.args 0 1)).take (fld c.args 1 1)) :
    execNbrList c s = .next (reply c.t stOk ([BitVec.ofNat 8 l.length] ++ (l.map fun e => nbrEntry e u).flatten) u) := by
  subst hl
  rw [execNbrList, keelRun_some _ _ _ _ _ h]
  dsimp only
  rw [if_neg (by omega)]

theorem execNbrForget_forgets (h : Taken 0x2101 c s u) (hknown : (nbrOf (BitVec.ofNat 16 (fld c.args 0 2)) u).isSome = true) :
    execNbrForget c s = .next (nbrLost (BitVec.ofNat 16 (fld c.args 0 2)) 1 (reply c.t stOk [] u)) := by
  rw [execNbrForget, keelRun_some _ _ _ _ _ h]
  dsimp only
  rw [if_neg (by simp [hlen, w16, ← Option.isSome_iff_ne_none, hknown])]
  rfl

end Neighbours

-- ------------------------------------------------------------------ LNK.SEND

/-- The form of LNK.SEND that its first check lets pass (6.7): an address, a mode and its tenant number, a key, a power. -/
theorem lnkSend_form {a : Bytes} (hlen : a.length = 15 + fld a 13 2) (hdst : fld a 0 2 ≠ 0xFFFE) (hdten : fld a 2 1 ≤ 3)
    (hmode : fld a 3 1 ≤ 4 ∨ fld a 3 1 = 128) (hsmode : fld a 3 1 = 128 → fld a 2 1 = 0)
    (hkey : fld a 4 1 ≤ 47 ∨ fld a 4 1 = 0xFF) (hlow : -40 ≤ sByte (fld a 5 1)) (hhigh : sByte (fld a 5 1) ≤ 28)
    (hack : fld a 6 1 ≤ 1) (hfits : fld a 13 2 ≤ payloadMax (fld a 3 1 == 128) (fld a 4 1 != 0xFF)) :
    ¬ (a.length < 15 ∨ a.length ≠ 15 + fld a 13 2 ∨ w16 (fld a 0 2) = 0xFFFE ∨ 3 < fld a 2 1 ∨
      ((fld a 3 1 == 128) = true ∧ fld a 2 1 ≠ 0) ∨ (4 < fld a 3 1 ∧ (!(fld a 3 1 == 128)) = true) ∨
      (47 < fld a 4 1 ∧ fld a 4 1 ≠ 0xFF) ∨ sByte (fld a 5 1) < -40 ∨ 28 < sByte (fld a 5 1) ∨ 1 < fld a 6 1 ∨
      payloadMax (fld a 3 1 == 128) (fld a 4 1 != 0xFF) < fld a 13 2) := by
  have unicast : w16 (fld a 0 2) ≠ 0xFFFE := mt (w16_fld_eq a 0 0xFFFE (by decide)).mp hdst
  simp only [unicast, false_or, beq_iff_eq, Bool.not_eq_true', beq_eq_false_iff_ne]
  omega

/-- The lane of a MODE (6.7): an SF code, or S-mode. -/
theorem lnkSend_lane {mode : Nat} {lane : Fin 6} (hmode : mode ≤ 4 ∨ mode = 128)
    (hlane : lane.val = if mode = 128 then 5 else mode) :
    (if (mode == 128) = true then (5 : Fin 6) else ⟨mode % 5, by omega⟩) = lane := by
  rw [← Fin.val_inj, hlane]
  rcases hmode with hmode | hmode
  · have tmode : mode ≠ 128 := by omega
    simp only [tmode, beq_iff_eq, if_false]
    omega
  · simp [hmode]

/-- Settles O23, one command after the other. -/
theorem linkCommandsComplete : Obligations.LinkCommandsComplete := by
  unfold Obligations.LinkCommandsComplete
  refine ⟨⟨?node, ?send, ?listen, ?cancel⟩, fun c s u h hlen => execNbrList_lists hlen h,
    fun c s u h hlen => execNbrForget_forgets hlen h⟩
  case node =>
    exact fun c s u h hlen hholder => ⟨execLnkNode_releases h hlen hholder, execLnkNode_sets h hlen hholder⟩
  case send =>
    rintro c s u v kv h smode ar lane dst mode key time hu rfl rfl rfl rfl hmode hlane rfl rfl hlen hdst hdten hsmode hkey hlow
      hhigh hack hfits hup hband huses hkeyed hbuf m v1 psdu e rfl
    have form := lnkSend_form hlen hdst hdten hmode hsmode hkey hlow hhigh hack hfits
    have band : ¬ ((fld c.args 3 1 == 128) = true ∧ (u.link.rate = 1 ∨ u.link.freq < 2480 ∨ 3520 < u.link.freq)) := by
      rintro ⟨hs, hbad⟩
      obtain ⟨hrate, hfl, hfh⟩ := hband (beq_iff_eq.mp hs)
      omega
    have asks : (fld c.args 6 1 == 1 && w16 (fld c.args 0 2) != 0xFFFF) =
        (decide (fld c.args 6 1 = 1) && decide (BitVec.ofNat 16 (fld c.args 0 2) ≠ 0xFFFF)) := by
      simp [w16, bne, Bool.beq_eq_decide_eq]
    have acked : ¬ ((decide (fld c.args 6 1 = 1) && decide (BitVec.ofNat 16 (fld c.args 0 2) ≠ 0xFFFF)) = true ∧
        (!bit u.link.uses lane.val) = true) := by
      rintro ⟨har, hunused⟩
      rw [huses har] at hunused
      cases hunused
    show execLnkSend c s = _
    rw [execLnkSend, keelRun_some _ _ _ _ _ hu]
    dsimp only
    rw [if_neg form, asks, lnkSend_lane hmode hlane]
    simp only [hup, hkeyed, hbuf]
    rw [if_neg band, if_neg acked]
    split <;> rfl
  case listen =>
    intro c s u h hlen hup huses hnew l hl v hv
    rw [show exec (.lnkListen c) s = _ from execLnkListen_listens h hlen hup huses hnew l hl v hv]
    exact ⟨fun hjoin => by rw [hjoin]; rfl, fun hfirst => by rw [if_pos hfirst]⟩
  case cancel =>
    intro c seq s u h hlen hseq
    refine ⟨fun l hl hmine => ⟨execLnkCancel_listen h hlen seq hseq l hl hmine, fun hheld hbusy =>
      ⟨_, execLnkCancel_late h hlen seq hseq l hl hmine hheld hbusy, ?_⟩⟩, execLnkCancel_send h hlen seq hseq⟩
    simp [show u.link.listens[(c.t : Nat)] = some l from hl]

end Sys2Proof.Machine
end

section
/-!
SUPPORT. The tick arithmetic of frames on the air, and what the link transmitter's operations leave alone.
-/
namespace Sys2Proof.Machine

-- ------------------------------------------------------------------ ticks

/-- The half-range rule (R441): a tick less than half the range ahead is not reached. -/
theorem reached_ahead (t : Tick) (n : Nat) (hpos : 0 < n) (hn : n ≤ 2 ^ 47) : reached t (t + BitVec.ofNat 48 n) = false := by
  have := t.isLt
  simp only [reached, decide_eq_false_iff_not, BitVec.toNat_sub, BitVec.toNat_add, BitVec.toNat_ofNat]
  omega

theorem reached_behind (t : Tick) (n : Nat) (hn : n < 2 ^ 47) : reached t (t - BitVec.ofNat 48 n) = true := by
  have := t.isLt
  simp only [reached, decide_eq_true_eq, BitVec.toNat_sub, BitVec.toNat_ofNat]
  omega

theorem reached_laterTick {t a b : Tick} (ha : reached t a = true) (hb : reached t b = true) :
    reached t (laterTick a b) = true := by
  rw [laterTick]
  split <;> assumption

/-- A PSDU of at most 255 bytes lasts a few seconds at most. -/
theorem airTicks_bounds (lane : Fin 6) (slow : Bool) (len : Nat) (h : len ≤ 255) :
    0 < airTicks lane slow len ∧ airTicks lane slow len ≤ 2 ^ 46 := by
  have code : 1 ≤ sfChips lane.val ∧ sfChips lane.val ≤ 256 := by revert lane; decide
  have chip : 1 ≤ chipTicks slow ∧ chipTicks slow ≤ 120 := by revert slow; decide
  rw [airTicks]
  split
  · omega
  · have symbols : 64 ≤ 64 + 8 * len ∧ 64 + 8 * len ≤ 2104 := by omega
    constructor
    · exact Nat.mul_pos (Nat.mul_pos (by omega) code.1) chip.1
    · exact (Nat.mul_le_mul (Nat.mul_le_mul symbols.2 code.2) chip.2).trans (by decide)

-- ------------------------------------------------------------------ the transmitter's operations

@[simp] theorem setCore_link_lState (x : CoreSt) (s : State) : (setCore .link x s).radio.lState = x := by
  simp only [setCore]
  split
  · split <;> rfl
  · rfl

@[simp] theorem setCore_reel (c : CoreId) (x : CoreSt) (s : State) : (setCore c x s).reel = s.reel :=
  congrArg (fun q => q.2.1) (setCore_steady c x s)

/-- A core's change of state leaves the MAC's step and the node's rate. -/
theorem setCore_mac (c : CoreId) (x : CoreSt) (s : State) :
    (setCore c x s).link.step = s.link.step ∧ (setCore c x s).link.rate = s.link.rate := by
  cases c
  · exact ⟨rfl, rfl⟩
  · simp only [setCore]
    split
    · split <;> exact ⟨rfl, rfl⟩
    · exact ⟨rfl, rfl⟩

theorem setCommit_only (c : CoreId) (t : Option Tick) (s : State) :
    setCommit c t s = { s with radio := (setCommit c t s).radio } ∧ (setCommit c t s).radio.lState = s.radio.lState := by
  simp only [setCommit]
  split
  · exact ⟨rfl, rfl⟩
  · cases c <;> exact ⟨rfl, rfl⟩

theorem dutyAdd_only (start : Tick) (n : Nat) (s : State) :
    dutyAdd start n s = { s with link := { s.link with duty := (dutyAdd start n s).link.duty } } := by
  rw [dutyAdd]
  split <;> rfl

/-- R54: TRSW is high from the ramp on, while the frame has not ended. -/
theorem trswSpan_high (a : Tick) (n : Nat) (s : State) (ha : reached s.reel.cnt a = true) (hpos : 0 < n) (hn : n ≤ 2 ^ 46) :
    trswHigh (trswSpan a (s.reel.cnt + BitVec.ofNat 48 n) s) = true := by
  have ramp := Nat.mod_lt (drawNat s).1 (show 0 < 577 by decide)
  have notOver := reached_ahead s.reel.cnt (n + (drawNat s).1 % 577) (by omega) (by omega)
  rw [BitVec.ofNat_add, ← BitVec.add_assoc] at notOver
  show (reached s.reel.cnt a && !reached s.reel.cnt (_ + BitVec.ofNat 48 ((drawNat s).1 % 577))) = true
  rw [ha, notOver]
  rfl

end Sys2Proof.Machine
end

section
/-!
PROOFS. The transmit side of the link MAC (Table 14-4, chapter 14).
-/
namespace Sys2Proof.Machine

-- ------------------------------------------------------------------ on the air

/-- What `transmit` leaves (Table 14-4): the frame on its way with its first chip, and the tick of its last chip. -/
theorem transmit_sends (e : Send) (first : Tick) (u : State) :
    (transmit e first u).link.step = .tx ∧ (transmit e first u).link.sentPsdu = e.psdu ∧
    (transmit e first u).link.timer = first + BitVec.ofNat 48 (frameTicks e.lane e.psdu.length u) ∧
    (transmit e first u).radio.lState = .tx ∧
    ∃ f, (transmit e first u).link.onAir = some f ∧ f.first = first ∧ f.lane = e.lane ∧ f.power = e.power := by
  obtain ⟨v, hv⟩ : ∃ v, setCommit .link (some (first - 192)) (linkCompApply (setCore .link .tx u)) = v := ⟨_, rfl⟩
  obtain ⟨hother, hstate⟩ := setCommit_only .link (some (first - 192)) (linkCompApply (setCore .link .tx u))
  rw [hv] at hother hstate
  have rate : v.link.rate = u.link.rate := by
    rw [hother]
    exact (setCore_mac .link .tx u).2
  have state : v.radio.lState = .tx := hstate.trans (setCore_link_lState .tx u)
  have length : frameTicks e.lane e.psdu.length v = frameTicks e.lane e.psdu.length u := by
    simp only [frameTicks, linkSlow, rate]
  simp only [transmit, hv, length]
  exact ⟨rfl, rfl, rfl, state, _, rfl, rfl, rfl, rfl⟩

/-- R193, R261: the ramp begins, unless the calibration of its channel failed. -/
theorem sendGo_goes (e : Send) (u : State) (hheld : holds (sendWho e) .link u = true) (hgnt : u.radio.gnt = true)
    (hlead : leadTick u u.reel.cnt = u.reel.cnt) (hduty : dutyShort (frameTicks e.lane e.psdu.length u) u = false) :
    sendGo e u = if (calResult .link u).1 then sendMissed e (calResult .link u).2
      else transmit e ((calResult .link u).2.reel.cnt + 432) (calResult .link u).2 := by
  rw [sendGo]
  dsimp only
  rw [if_pos (by simp [hheld, hgnt, hlead, hduty])]

theorem sendGo_misses (e : Send) (u : State) (h : ¬ (holds (sendWho e) .link u = true ∧ u.radio.gnt = true ∧
    leadTick u u.reel.cnt = u.reel.cnt ∧ dutyShort (frameTicks e.lane e.psdu.length u) u = false)) :
    sendGo e u = sendMissed e u := by
  rw [sendGo]
  dsimp only
  rw [if_neg]
  simpa [and_assoc] using h

section Event
variable {now : Tick} {s u : State} (hu : advanceTo now s = u)
include hu

-- ------------------------------------------------------------------ the backoff and the CCA

section Send
variable {e : Send} {r : List Send} (hsends : u.link.sends = e :: r)
include hsends

/-- The end of a backoff: the random number that it took is drawn, and the attempt's calibration has its result. -/
def backoffOver (e : Send) (c : Bool × State) : State :=
  if c.1 then sendEnd stCalFail c.2
  else if dutyShort (frameTicks e.lane e.psdu.length c.2) c.2 then sendEnd stAirtime c.2
  else setCore .link .rx (setLink (fun l => { l with step := .cca, timer := c.2.reel.cnt }) c.2)

/-- 14.3, log entry 36: a whole number of units below 2^BE. -/
theorem execCsmaBackoffEnd_whole (hstep : u.link.step = .backoff) (k : Nat) (hk : k < 2 ^ e.be)
    (hticks : ticksBetween u.link.timer u.reel.cnt = k * backoffUnit u) (hheld : holds (sendWho e) .link u = true) :
    execCsmaBackoffEnd now s =
      .next (backoffOver e (calResult .link (match drbgTake 1 u with | some (_, w) => w | none => u))) := by
  have unit : 0 < backoffUnit u := by
    rw [backoffUnit]
    split <;> decide
  have whole : ticksBetween u.link.timer u.reel.cnt % backoffUnit u = 0 ∧
      ticksBetween u.link.timer u.reel.cnt / backoffUnit u < 2 ^ e.be ∧ holds (sendWho e) .link u = true := by
    rw [hticks, Nat.mul_mod_left, Nat.mul_div_cancel _ unit]
    exact ⟨rfl, hk, hheld⟩
  simp only [execCsmaBackoffEnd, hu, hstep, hsends, if_pos whole, backoffOver, apply_ite Host.Outcome.next] <;> rfl

section Cca
variable (dbm : Int) (hstep : u.link.step = .cca) (hover : reached u.reel.cnt (u.link.timer + 3072) = true)
include hstep hover

/-- Table 14-4: the first chip follows within 24 µs, 576 ticks. -/
theorem execCcaResult_clear (hclear : dbm < ccaThr u.prof[linkHost u]) :
    execCcaResult now dbm s = .next (transmit e
      (leadTick (drawNat u).2 u.reel.cnt + BitVec.ofNat 48 ((drawNat u).1 % 577)) (drawNat u).2) := by
  simp only [execCcaResult, hu, hstep, hsends, if_pos hover, if_pos hclear]
  rfl

/-- R417, Table 14-4: the fifth busy channel ends the send. -/
theorem execCcaResult_fifth (hbusy : ccaThr u.prof[linkHost u] ≤ dbm) (hnb : 4 ≤ e.nb) :
    execCcaResult now dbm s = .next (sendEnd stAirtime (setLink (fun l => { l with txCaf := satInc 255 l.txCaf }) u)) := by
  simp only [execCcaResult, hu, hstep, hsends, if_pos hover, if_neg (Int.not_lt.mpr hbusy), if_pos (Nat.lt_succ_of_le hnb)]

theorem execCcaResult_again (hbusy : ccaThr u.prof[linkHost u] ≤ dbm) (hnb : e.nb < 4) :
    execCcaResult now dbm s = .next (setCore .link .synth (setLink (fun l => { l with
      step := .backoff, timer := u.reel.cnt, sends := { e with nb := e.nb + 1, be := min (e.be + 1) 5 } :: r }) u)) := by
  have again : ¬ 4 < e.nb + 1 := by omega
  simp only [execCcaResult, hu, hstep, hsends, if_pos hover, if_neg (Int.not_lt.mpr hbusy), if_neg again]

end Cca

-- ------------------------------------------------------------------ the last chip and the ACK window

section LastChip
variable (hack : u.link.ackEnd = none) (hstep : u.link.step = .tx) (hover : reached u.reel.cnt u.link.timer = true)
  {g : Send} {n : Nat} (hn : n = frameTicks e.lane e.psdu.length u)
  (hg : g = { e with tries := e.tries + 1, tstart := u.link.timer - BitVec.ofNat 48 n, time := none })
  {v : State} (hv : v = dutyAdd g.tstart n (setCore .link .synth (setLink (fun l => { l with sends := g :: r }) u)))
include hack hstep hover hn hg hv

/-- R415, R418: the ACK window opens at class 1. -/
theorem execLinkTxEnd_awaits (hasks : e.ar = true ∧ e.dst ≠ 0xFFFF ∧ e.ending ≠ some stAbortedReset) (w : State)
    (hw : w = setLink (fun l => { l with step := .ackWait, timer := u.link.timer + BitVec.ofNat 48 (ackWaitTicks v) }) v) :
    execLinkTxEnd now s = .next (setCore .link .rx (match w.radio.lHold with
      | some h => setHold .link (some { h with req := { h.req with cls := 1 }, commit := none, ends := none }) w
      | none => w)) := by
  subst hw hv hg hn
  simp only [execLinkTxEnd, hu, hack, hstep, hsends, if_pos hover, if_pos hasks] <;> rfl

theorem execLinkTxEnd_ends (hasks : ¬ (e.ar = true ∧ e.dst ≠ 0xFFFF ∧ e.ending ≠ some stAbortedReset)) :
    execLinkTxEnd now s = .next (sendEnd (e.ending.getD stOk) v) := by
  subst hv hg hn
  simp only [execLinkTxEnd, hu, hack, hstep, hsends, if_pos hover, if_neg hasks]

end LastChip

section Window
variable (hstep : u.link.step = .ackWait)
include hstep

/-- R415, R416, R428. -/
theorem execAckReceived_ends (f : RxFrame) (m : MacFrame) (hlane : f.lane = e.lane) (hfcs : fcsGood f = true)
    (hparse : parseMac u.link.pan f.lane f.psdu = some m) (htype : m.ftype = 1) (hmseq : m.mseq = e.mseq)
    (hdst : m.smode = true ∨ m.dst = u.link.addr)
    (hfound : reached u.link.timer (u.reel.cnt - BitVec.ofNat 48 (frameTicks f.lane f.psdu.length u) +
      BitVec.ofNat 48 (if f.lane = 5 then 1536 else 4 * sfChips f.lane.val * chipTicks (linkSlow u))) = true) :
    execAckReceived now f s =
      .next (sendEnd stOk (setLink (fun l => { l with noackRun := 0 }) (linkHeard (rssiReported f) u))) := by
  have fits : (m.ftype == 1 && m.mseq == e.mseq && (m.smode || m.dst == u.link.addr)) = true := by
    simpa [htype, hmseq] using hdst
  simp only [execAckReceived, hu, hstep, hsends, hparse, fits]
  exact if_pos ⟨hlane, hfcs, trivial, hfound⟩

section Expiry
variable (hover : reached u.reel.cnt u.link.timer = true) (hdemod : u.link.demod = false) (hack : u.link.ackEnd = none)
include hover hdemod hack

/-- R433: a send that was to end behind its frame. -/
theorem execAckWindowExpiry_stopped (st : Byte) (hending : e.ending = some st) :
    execAckWindowExpiry now s = .next (sendEnd st u) := by
  simp [execAckWindowExpiry, hu, hstep, hsends, hover, hdemod, hack, hending]

/-- R416. -/
theorem execAckWindowExpiry_fourth (hending : e.ending = none) (htries : 4 ≤ e.tries) :
    execAckWindowExpiry now s = .next (noAck (sendEnd stNoAck u)) := by
  simp [execAckWindowExpiry, hu, hstep, hsends, hover, hdemod, hack, hending, htries]

/-- R416: a retry asks at class 3. -/
theorem execAckWindowExpiry_retries (hending : e.ending = none) (htries : e.tries < 4) (v : State)
    (hv : v = setCore .link .synth (setLink (fun l => { l with
      step := .backoff, timer := u.reel.cnt, sends := { e with nb := 0, be := 3 } :: r }) u)) :
    execAckWindowExpiry now s = .next (frameEnd .link (match v.radio.lHold with
      | some h => setHold .link (some { h with req := { h.req with cls := 3 } }) v
      | none => v)) := by
  subst hv
  have window : (reached u.reel.cnt u.link.timer && !u.link.demod && u.link.ackEnd.isNone) = true := by
    simp [hover, hdemod, hack]
  simp only [execAckWindowExpiry, hu, hstep, hsends, if_pos window, hending, if_neg (Nat.not_le.mpr htries)] <;> rfl

end Expiry

end Window

end Send

-- ------------------------------------------------------------------ an owed ACK

/-- The last chip of an ACK. -/
theorem execLinkTxEnd_ack (till : Tick) (hack : u.link.ackEnd = some till) (hover : reached u.reel.cnt till = true) :
    execLinkTxEnd now s = .next (ackOver u) := by
  simp only [execLinkTxEnd, hu, hack, if_pos hover]

-- ------------------------------------------------------------------ a send with a TIME

/-- A send's TIME has come and it is not going on air (R193). -/
def sendOverdue (u : State) (e : Send) : Bool :=
  match e.time with
  | some t => reached u.reel.cnt t && !sendActive e u
  | none => false

theorem execSendTimeDue_ends (e : Send) (hfind : u.link.sends.find? (sendOverdue u) = some e) :
    execSendTimeDue now s = .next (if holds (sendWho e) .link u then sendEnd stAirtime u else sendDrop e stAirtime u) := by
  rw [execSendTimeDue, hu]
  show (match u.link.sends.find? (sendOverdue u) with | none => _ | some e => _) = _
  rw [hfind]

end Event

/-- The transmitter as an owed ACK goes on air (R405, R431). -/
def ackTuned (lane : Fin 6) (psdu : Bytes) (s : State) : State :=
  linkCompApply (dutyAdd s.reel.cnt (frameTicks lane psdu.length s) (setCore .link .tx s))

/-- An owed ACK goes on air now; TRSW rises 432 ticks before, but not before the ACK was due (R54). -/
def ackSent (due : Tick) (psdu : Bytes) (lane : Fin 6) (lkb : Bool) (s : State) : State :=
  let v := ackTuned lane psdu s
  let last := v.reel.cnt + BitVec.ofNat 48 (frameTicks lane psdu.length s)
  let f : LinkTx := { lane := lane, slow := linkSlow v, lkb := lkb, first := v.reel.cnt,
                      power := BitVec.ofNat 8 (bits v.prof[linkHost v].txpwr 7 0) }
  trswSpan (laterTick (v.reel.cnt - 432) due) last
    (setLink (fun l => { l with sentPsdu := psdu, onAir := some f, ackDue := none, ackEnd := some last }) v)

section Ack
variable (due : Tick) (psdu : Bytes) (lane : Fin 6) (lkb : Bool) (u : State)

theorem ackTuned_on : (ackTuned lane psdu u).reel = u.reel ∧ (ackTuned lane psdu u).radio.lState = .tx := by
  rw [ackTuned, dutyAdd_only]
  exact ⟨setCore_reel .link .tx u, setCore_link_lState .tx u⟩

theorem ackSent_onAir (hdue : reached u.reel.cnt due = true) (hlen : psdu.length ≤ 255) :
    (ackSent due psdu lane lkb u).link.ackDue = none ∧ (ackSent due psdu lane lkb u).link.sentPsdu = psdu ∧
    trswHigh (ackSent due psdu lane lkb u) = true ∧ (ackSent due psdu lane lkb u).radio.lState = .tx ∧
    (ackSent due psdu lane lkb u).link.ackEnd = some (u.reel.cnt + BitVec.ofNat 48 (frameTicks lane psdu.length u)) ∧
    ∃ f, (ackSent due psdu lane lkb u).link.onAir = some f ∧ f.first = u.reel.cnt ∧ f.lane = lane ∧ f.lkb = lkb := by
  obtain ⟨hreel, hstate⟩ := ackTuned_on psdu lane u
  obtain ⟨hpos, hbound⟩ := airTicks_bounds lane (linkSlow u) psdu.length hlen
  simp only [ackSent, hreel]
  refine ⟨rfl, rfl, ?_, hstate, rfl, _, rfl, rfl, rfl, rfl⟩
  rw [← hreel]
  refine trswSpan_high _ _ (setLink _ _) ?_ hpos hbound
  rw [setLink_reel, hreel]
  exact reached_laterTick (reached_behind _ 432 (by decide)) hdue

variable {due psdu lane lkb u} {now : Tick} {s : State} (hu : advanceTo now s = u)
  (howed : u.link.ackDue = some (due, psdu, lane, lkb)) (hack : u.link.ackEnd = none) (hheld : u.radio.lHold.isSome = true)
  (hdue : reached u.reel.cnt due = true) (hgnt : u.radio.gnt = true) (hlead : leadTick u u.reel.cnt = u.reel.cnt)
include hu howed hack hheld hdue hgnt hlead

/-- R431: the budget of REGION 1 is spent or not; an ACK may use all of it. -/
theorem execAckTransmit_due : execAckTransmit now s =
    .next (if u.link.region = 1 ∧ dutyBudget u ≤ dutyUsed u then ackOver u else ackSent due psdu lane lkb u) := by
  have free : (u.link.ackEnd.isSome || u.radio.lHold.isNone || !reached u.reel.cnt due || !u.radio.gnt ||
      leadTick u u.reel.cnt != u.reel.cnt) = false := by
    simpa [hack, hdue, hgnt, hlead] using hheld
  simp only [execAckTransmit, hu, howed, free, Bool.false_eq_true, if_false, apply_ite Host.Outcome.next]
  rfl

end Ack

-- ------------------------------------------------------------------ beacons

/-- A beacon on its way (R423): its send, with the next MSEQ, for a key and the state that the key's charge leaves. -/
def beaconSend (v : State) (key : Option (Fin 48 × Bytes × Nat)) (w : State) : Send :=
  let smode := v.link.rate == 2
  let body := (if smode then [0x4B, 0x42] else []) ++ beaconPayload v
  let dten := match key with | some k => (slotOwner k.1).val | none => 0
  { owner := none, tseq := 0, dst := 0xFFFF, mseq := w.link.mseq,
    psdu := buildFrame smode 2 dten false w.link.mseq 0xFFFF body key (takeMseq w).2,
    lane := if smode then 5 else ⟨bits v.link.maccfg 2 0 % 5, by omega⟩, ar := false, time := none, tries := 0, nb := 0,
    be := 3, tstart := 0, power := BitVec.ofNat 8 (bits w.prof[linkHost (takeMseq w).2].txpwr 7 0), ending := none,
    buf := none, late := false }

theorem beaconSend_lane (v : State) (key : Option (Fin 48 × Bytes × Nat)) (w : State) :
    (beaconSend v key w).lane.val = if v.link.rate == 2 then 5 else bits v.link.maccfg 2 0 % 5 := by
  simp only [beaconSend]
  split <;> rfl

/-- The beacon joins the sends and asks for the air (R418). -/
def beaconAsks (v : State) (key : Option (Fin 48 × Bytes × Nat)) (w : State) : State :=
  sendAsk (beaconSend v key w) (setLink (fun l => { l with sends := l.sends ++ [beaconSend v key w] }) (takeMseq w).2)

section Beacon
variable {now start due : Tick} {s u v : State} (hu : advanceTo now s = u) (hplan : u.link.beaconAt = some (start, due))
  (hmode : u.power.mode = .run) (hbeacon : u.link.beacon ≠ 0) (hdue : reached u.reel.cnt due = true)
  (hv : beaconPlan (start + BitVec.ofNat 48 (beaconIvl u * 24000000)) u = v)

section Run
include hmode hbeacon hdue

theorem beaconDue_runs : (u.power.mode != .run || u.link.beacon == 0 || !reached u.reel.cnt due) = false := by
  simp [hmode, hbeacon, hdue]

end Run

include hu hplan hmode hbeacon hdue hv

/-- R423: a beacon whose synthesizer is lost, or whose predecessor still waits, is not built. -/
theorem execBeaconDue_skips (hskip : noSyn v = true ∨ (v.link.sends.any fun e => e.owner.isNone) = true) :
    execBeaconDue now s = .next v := by
  simp only [execBeaconDue, hu, hplan, beaconDue_runs hmode hbeacon hdue, Bool.false_eq_true, if_false, hv, if_pos hskip]

variable (hfree : ¬ (noSyn v = true ∨ (v.link.sends.any fun e => e.owner.isNone) = true))
include hfree

theorem execBeaconDue_plain (hkey : slotNo (bits v.link.maccfg 13 8) = none) :
    execBeaconDue now s = .next (beaconAsks v none v) := by
  simp only [execBeaconDue, hu, hplan, beaconDue_runs hmode hbeacon hdue, Bool.false_eq_true, if_false, hv, if_neg hfree, hkey]
  rfl

section Secured
variable (k : Fin 48) (hslot : slotNo (bits v.link.maccfg 13 8) = some k)
include hslot

theorem execBeaconDue_secured (key : Bytes) (f : Nat) (w : State) (hkey : beaconKey k v = some (key, f, w)) :
    execBeaconDue now s = .next (beaconAsks v (some (k, key, f)) w) := by
  simp only [execBeaconDue, hu, hplan, beaconDue_runs hmode hbeacon hdue, Bool.false_eq_true, if_false, hv, if_neg hfree, hslot, hkey]
  rfl

/-- R412. -/
theorem execBeaconDue_unkeyed (hkey : beaconKey k v = none) :
    execBeaconDue now s = .next (setLink (fun l => { l with macNokey := satInc 255 l.macNokey }) v) := by
  simp only [execBeaconDue, hu, hplan, beaconDue_runs hmode hbeacon hdue, Bool.false_eq_true, if_false, hv, if_neg hfree, hslot, hkey]

end Secured

end Beacon

/-- Settles O41, one event after the other. -/
theorem linkTransmitEvents : Obligations.LinkTransmitEvents := by
  unfold Obligations.LinkTransmitEvents
  refine ⟨?backoff, ?cca, transmit_sends, ?lastChip, ?ackReceived, ?window, ?ack, fun now s e => execSendTimeDue_ends rfl e, ?go,
    ?beacon⟩
  case backoff =>
    intro now s e r k u v c hsends hstep hk hticks hheld
    rw [show exec (.csmaBackoffEnd now) s = .next (backoffOver e c) from
      execCsmaBackoffEnd_whole rfl hsends hstep k hk hticks hheld, backoffOver]
    refine ⟨fun hfailed => by rw [if_pos hfailed], fun hgood hshort => ?_, fun hgood hroom => ⟨_, ?_, rfl, ?_, ?_⟩⟩
    · rw [hgood, hshort]; rfl
    · rw [hgood, hroom]; rfl
    · exact (setCore_mac ..).1
    · exact setCore_link_lState ..
  case cca =>
    intro now dbm s e r u hsends hstep hover
    exact ⟨fun hclear => ⟨_, execCcaResult_clear rfl hsends dbm hstep hover hclear,
        Nat.lt_succ_iff.mp (Nat.mod_lt _ (by decide))⟩,
      execCcaResult_fifth rfl hsends dbm hstep hover, execCcaResult_again rfl hsends dbm hstep hover⟩
  case lastChip =>
    intro now s u
    refine ⟨execLinkTxEnd_ack rfl, ?_⟩
    intro e g r n v hack hsends hstep hover hn hg hv w listen
    exact ⟨fun hasks => execLinkTxEnd_awaits rfl hsends hack hstep hover hn hg hv hasks w rfl,
      execLinkTxEnd_ends rfl hsends hack hstep hover hn hg hv⟩
  case ackReceived =>
    intro now f m s e r u hsends hstep
    exact execAckReceived_ends rfl hsends hstep f m
  case window =>
    intro now s e r u hsends hstep hover hdemod hack
    exact ⟨execAckWindowExpiry_stopped rfl hsends hstep hover hdemod hack,
      execAckWindowExpiry_fourth rfl hsends hstep hover hdemod hack,
      execAckWindowExpiry_retries rfl hsends hstep hover hdemod hack⟩
  case ack =>
    intro now due psdu lane lkb s u howed hack hheld hdue hgnt hlead hlen
    rw [show exec (.ackTransmit now) s = _ from execAckTransmit_due rfl howed hack hheld hdue hgnt hlead]
    refine ⟨fun hbudget => ⟨_, congrArg _ (if_neg ?_), ackSent_onAir due psdu lane lkb u hdue hlen⟩,
      fun hregion hspent => by rw [if_pos ⟨hregion, hspent⟩]⟩
    rintro ⟨hregion, hspent⟩
    rcases hbudget with hother | hleft
    · exact hother hregion
    · exact Nat.not_lt.mpr hspent hleft
  case go =>
    rintro e u c may
    refine ⟨fun ⟨hheld, hgnt, hlead, hduty⟩ hgood => ?_, fun ⟨hheld, hgnt, hlead, hduty⟩ hfailed => ?_, sendGo_misses e u⟩
    · rw [sendGo_goes e u hheld hgnt hlead hduty, if_neg (Bool.eq_false_iff.mp hgood)]
    · rw [sendGo_goes e u hheld hgnt hlead hduty, if_pos hfailed]
  case beacon =>
    intro now start due s u hplan hmode hbeacon hdue v hv smode built
    have asks : ∀ key w, execBeaconDue now s = .next (beaconAsks v key w) → ∃ e, built key w e := fun key w heq =>
      ⟨beaconSend v key w, rfl, rfl, rfl, rfl, rfl, beaconSend_lane v key w, rfl, heq⟩
    have beaconWaits : (∃ e ∈ v.link.sends, e.owner = none) ↔ (v.link.sends.any fun e => e.owner.isNone) = true := by
      simp
    refine ⟨fun hskip => execBeaconDue_skips rfl hplan hmode hbeacon hdue hv.symm (hskip.imp_right beaconWaits.mp),
      fun hsyn hnone => ?_⟩
    have free : ¬ (noSyn v = true ∨ (v.link.sends.any fun e => e.owner.isNone) = true) := by
      rw [hsyn, ← beaconWaits]
      rintro (hlost | ⟨e, he, howner⟩)
      · cases hlost
      · exact hnone e he howner
    exact ⟨fun hkey => asks _ _ (execBeaconDue_plain rfl hplan hmode hbeacon hdue hv.symm free hkey), fun k hslot =>
      ⟨fun key f w hkey => asks _ _ (execBeaconDue_secured rfl hplan hmode hbeacon hdue hv.symm free k hslot key f w hkey),
        execBeaconDue_unkeyed rfl hplan hmode hbeacon hdue hv.symm free k hslot⟩⟩

end Sys2Proof.Machine
end

section
/-!
SUPPORT. What the radio's operations leave alone of the Spool contexts and the tenants' queues.
-/
namespace Sys2Proof.Machine

/-- The contexts and the tenants' queues. -/
def progPart (s : State) : Vector Ctx 4 × Vector TenantSt 4 := (s.ctxs, s.tens)

theorem ctxs_of_prog {s t : State} (h : progPart s = progPart t) : s.ctxs = t.ctxs := congrArg Prod.fst h

theorem tens_of_prog {s t : State} (h : progPart s = progPart t) : s.tens = t.tens := congrArg Prod.snd h

@[simp] theorem setRadio_prog (f : RadioSt → RadioSt) (s : State) : progPart (setRadio f s) = progPart s := rfl
@[simp] theorem setRdr_prog (f : ReaderSt → ReaderSt) (s : State) : progPart (setRdr f s) = progPart s := rfl
@[simp] theorem setLink_prog (f : LinkSt → LinkSt) (s : State) : progPart (setLink f s) = progPart s := rfl
@[simp] theorem setMend_prog (f : MendSt → MendSt) (s : State) : progPart (setMend f s) = progPart s := rfl
@[simp] theorem setInv_prog (x : Tenant) (i : Option Inv) (s : State) : progPart (setInv x i s) = progPart s := rfl
@[simp] theorem drawBool_prog (s : State) : progPart (drawBool s).2 = progPart s := rfl
@[simp] theorem readerAsSlot_prog (s : State) : progPart (readerAsSlot s) = progPart s := rfl
@[simp] theorem countQuery_prog (s : State) : progPart (countQuery s) = progPart s := rfl
@[simp] theorem clockTo_prog (now : Tick) (s : State) : progPart (clockTo now s) = progPart s := rfl
@[simp] theorem linkCompApply_prog (s : State) : progPart (linkCompApply s) = progPart s := rfl
@[simp] theorem compApply_prog (ext : Bool) (s : State) : progPart (compApply ext s) = progPart s := rfl
@[simp] theorem chargeTenant_prog (t : Tenant) (since : Tick) (s : State) : progPart (chargeTenant t since s) = progPart s := rfl
@[simp] theorem leaveChannel_prog (now : Tick) (s : State) : progPart (leaveChannel now s) = progPart s := rfl
@[simp] theorem aerialRestore_prog (s : State) : progPart (aerialRestore s) = progPart s := rfl
@[simp] theorem trswSpan_prog (a b : Tick) (s : State) : progPart (trswSpan a b s) = progPart s := rfl

theorem ite_prog {c : Prop} [Decidable c] {a b s : State} (ha : progPart a = progPart s) (hb : progPart b = progPart s) :
    progPart (if c then a else b) = progPart s := by
  split <;> assumption

theorem foldl_prog {α : Type} (f : State → α → State) (l : List α) (s : State) (h : ∀ s a, progPart (f s a) = progPart s) :
    progPart (l.foldl f s) = progPart s := by
  induction l generalizing s with
  | nil => rfl
  | cons a l ih => rw [List.foldl_cons, ih, h]

-- ------------------------------------------------------------------ letting a core go

@[simp] theorem setHold_prog (c : CoreId) (h : Option Hold) (s : State) : progPart (setHold c h s) = progPart s := by
  cases c <;> rfl

@[simp] theorem setCoreAt_prog (c : CoreId) (t : Tick) (x : CoreSt) (s : State) : progPart (setCoreAt c t x s) = progPart s := by
  cases c <;> rfl

@[simp] theorem setCore_prog (c : CoreId) (x : CoreSt) (s : State) : progPart (setCore c x s) = progPart s := by
  cases c with
  | reader => rfl
  | link => exact ite_prog (ite_prog rfl rfl) rfl

@[simp] theorem coexTrack_prog (s : State) : progPart (coexTrack s) = progPart s := by
  simp only [coexTrack]
  split
  · split <;> rfl
  · rfl

@[simp] theorem chargeListen_prog (h : Hold) (t : Tenant) (s : State) : progPart (chargeListen h t s) = progPart s := by
  simp only [chargeListen]
  split
  · split <;> simp
  · rfl

@[simp] theorem charge_prog (h : Hold) (s : State) : progPart (charge h s) = progPart s := by
  simp only [charge]
  split
  · simp [forTenants]
  · simp
  · rfl

@[simp] theorem ownRoundEnd_prog (s : State) : progPart (ownRoundEnd s) = progPart s := by
  simp only [ownRoundEnd]
  split <;> rfl

@[simp] theorem carrierOff_prog (now : Tick) (s : State) : progPart (carrierOff now s) = progPart s := by
  simp only [carrierOff]
  split <;> split <;> simp

@[simp] theorem trswEnd_prog (s : State) : progPart (trswEnd s) = progPart s := by
  simp only [trswEnd]
  split
  · rfl
  · exact ite_prog rfl (ite_prog rfl rfl)

@[simp] theorem coreDown_prog (c : CoreId) (s : State) : progPart (coreDown c s) = progPart s := by
  cases c <;> simp only [coreDown]
  case reader => split <;> simp
  case link => simp

@[simp] theorem releaseAir_prog (c : CoreId) (s : State) : progPart (releaseAir c s) = progPart s := by
  simp only [releaseAir]
  split
  · rfl
  · split <;> simp

@[simp] theorem dropWaiters_prog (w : Who) (s : State) : progPart (dropWaiters w s) = progPart s := by
  simp [dropWaiters]

@[simp] theorem dropAir_prog (x : Tenant) (s : State) : progPart (dropAir x s) = progPart s := by
  simp only [dropAir]
  split <;> split <;> simp

-- ------------------------------------------------------------------ driving a core

@[simp] theorem setCommit_prog (c : CoreId) (t : Option Tick) (s : State) : progPart (setCommit c t s) = progPart s := by
  simp only [setCommit]
  split <;> simp

@[simp] theorem paUp_prog (p : Profile) (at_ : Tick) (s : State) : progPart (paUp p at_ s) = progPart s :=
  ite_prog rfl rfl

@[simp] theorem burstDrive_prog (p : Profile) (at_ : Tick) (s : State) : progPart (burstDrive p at_ s) = progPart s := by
  simp [burstDrive]

@[simp] theorem pointDrive_prog (c : CoreId) (s : State) : progPart (pointDrive c s) = progPart s := by
  cases c <;> rfl

@[simp] theorem fwdEnd_prog (first : Tick) (f : AirFrame) (s : State) : progPart (fwdEnd first f s).2 = progPart s := by
  simp only [fwdEnd]
  split <;> rfl

-- ------------------------------------------------------------------ calibrating and tuning a core

@[simp] theorem deepAtChange_prog (c : CoreId) (session : Bool) (s : State) : progPart (deepAtChange c session s) = progPart s :=
  ite_prog rfl (ite_prog rfl rfl)

@[simp] theorem calEnd_prog (c : CoreId) (cal : Cal) (s : State) : progPart (calEnd c cal s) = progPart s := by
  cases cal <;> simp [calEnd]

@[simp] theorem calResult_prog (c : CoreId) (s : State) : progPart (calResult c s).2 = progPart s := by
  cases c <;> simp only [calResult] <;> split <;> simp

@[simp] theorem coreGoes_prog (c : CoreId) (now : Tick) (x : CoreSt) (s : State) : progPart (coreGoes c now x s) = progPart s := by
  simp only [coreGoes]
  split
  · exact setCoreAt_prog ..
  · exact setCoreAt_prog ..

@[simp] theorem coreTune_prog (r : AirReq) (now : Tick) (s : State) : progPart (coreTune r now s) = progPart s := by
  simp only [coreTune]
  split <;> simp [apply_ite progPart]

@[simp] theorem coreFreq_prog (r : AirReq) (s : State) : progPart (coreFreq r s) = progPart s := by
  rcases r with ⟨c, w, _, _, _, _, _, _⟩
  cases w <;> cases c <;> rfl

@[simp] theorem aerialFor_prog (r : AirReq) (s : State) : progPart (aerialFor r s) = progPart s := by
  simp only [aerialFor]
  split <;> rfl

@[simp] theorem sweepSkip_prog (s : State) : progPart (sweepSkip s) = progPart s := by
  simp only [sweepSkip]
  split
  · rfl
  · split
    · split <;> rfl
    · rfl

end Sys2Proof.Machine
end

section
/-!
SUPPORT. Whose program a context runs, a tenant's own or one of Keel's, stays as it is while time passes (R165, R206).
-/
namespace Sys2Proof.Machine

/-- The command that each context's program was started by. -/
def starters (s : State) : Vector Starter 4 := s.ctxs.map (·.starter)

theorem starters_of_prog {s t : State} (h : progPart s = progPart t) : starters s = starters t := by
  rw [starters, starters, ctxs_of_prog h]

theorem isBuiltin_of_starters {s t : State} (h : starters s = starters t) (x : Tenant) :
    isBuiltin s.ctxs[x] = isBuiltin t.ctxs[x] := by
  have entry := congrArg (·[x]) h
  simp only [starters, Fin.getElem_fin, Vector.getElem_map] at entry
  simp only [isBuiltin, Fin.getElem_fin, entry]

/-- An update of a context that does not start a program. -/
theorem modCtx_starters (x : Tenant) (f : Ctx → Ctx) (s : State) (h : ∀ k, (f k).starter = k.starter) :
    starters (modCtx x f s) = starters s := by
  ext i hi
  have entry := vmod_get s.ctxs x ⟨i, hi⟩ f
  simp only [starters, modCtx_ctxs, Vector.getElem_map, entry]
  split
  · next hx => subst hx; exact h _
  · rfl

theorem ite_starters {c : Prop} [Decidable c] {a b s : State} (ha : starters a = starters s) (hb : starters b = starters s) :
    starters (if c then a else b) = starters s := by
  split <;> assumption

-- ------------------------------------------------------------------ air that is lost

@[simp] theorem sessionGone_starters (t : Tenant) (reason : Nat) (s : State) : starters (sessionGone t reason s) = starters s :=
  ite_starters rfl rfl

@[simp] theorem builtinWaits_starters (t : Tenant) (s : State) : starters (builtinWaits t s) = starters s := by
  have waits : ∀ p, starters (modCtx t (fun k => { k with run := .waiting, pend := some p }) s) = starters s :=
    fun p => modCtx_starters _ _ _ fun _ => rfl
  simp only [builtinWaits]
  split <;> exact waits _

@[simp] theorem ctxLost_starters (t : Tenant) (c : CoreId) (s : State) : starters (ctxLost t c s) = starters s := by
  refine (modCtx_starters _ _ _ fun k => ?_).trans (starters_of_prog (setRadio_prog _ s))
  cases c <;> dsimp only <;> split <;> (try split_ifs) <;> rfl

@[simp] theorem afterLoss_starters (h : Hold) (s : State) : starters (afterLoss h s) = starters s := by
  simp only [afterLoss]
  split
  case h_1 => exact ite_starters (builtinWaits_starters ..) (ctxLost_starters ..)
  case h_8 => exact sessionGone_starters ..
  all_goals rfl

@[simp] theorem loseAir_starters (c : CoreId) (s : State) : starters (loseAir c s) = starters s := by
  simp only [loseAir]
  split
  · rfl
  · rw [starters_of_prog (coexTrack_prog _), afterLoss_starters]
    exact starters_of_prog (by simp)

@[simp] theorem preemptFor_starters (r : AirReq) (c : CoreId) (s : State) : starters (preemptFor r c s) = starters s := by
  simp only [preemptFor]
  split
  · rfl
  · exact ite_starters rfl (loseAir_starters c s)

-- ------------------------------------------------------------------ air that is granted

@[simp] theorem ctxGranted_starters (t : Tenant) (now : Tick) (s : State) : starters (ctxGranted t now s) = starters s := by
  have runs : starters (modCtx t (fun k => { k with run := .running, pend := none, cursor := now }) s) = starters s :=
    modCtx_starters _ _ _ fun _ => rfl
  have acts : ∀ p, starters (modCtx t (fun k => { k with cursor := now, pend := some p }) s) = starters s :=
    fun p => modCtx_starters _ _ _ fun _ => rfl
  simp only [ctxGranted]
  split
  · rfl
  · refine ite_starters rfl (ite_starters runs ?_)
    split
    · exact ite_starters (acts _) (acts _)
    · rw [starters_of_prog (trswSpan_prog ..), starters_of_prog (setCore_prog ..), starters_of_prog (setHold_prog ..)]
      exact acts _
    · exact (starters_of_prog (setCore_prog ..)).trans (acts _)
    · exact (starters_of_prog (setCore_prog ..)).trans (acts _)
    · exact acts _

@[simp] theorem builtinGranted_starters (t : Tenant) (now : Tick) (s : State) :
    starters (builtinGranted t now s) = starters s := by
  have slot : starters (accGranted t (takeProfile t s)) = starters s := ite_starters rfl rfl
  simp only [builtinGranted]
  split
  · exact ite_starters slot slot
  · exact slot

@[simp] theorem onGrant_starters (r : AirReq) (now : Tick) (s : State) : starters (onGrant r now s) = starters s := by
  unfold onGrant
  cases r.who
  case ctx t => exact ite_starters (by simp) ((ctxGranted_starters ..).trans rfl)
  case sweep o => exact starters_of_prog ((pointDrive_prog ..).trans rfl)
  case sniff t => exact starters_of_prog ((burstDrive_prog ..).trans rfl)
  all_goals rfl

@[simp] theorem grantAir_starters (r : AirReq) (now : Tick) (s : State) : starters (grantAir r now s) = starters s := by
  simp only [grantAir]
  rw [starters_of_prog (sweepSkip_prog _), onGrant_starters, ← preemptFor_starters r r.core s,
    ← preemptFor_starters r (otherCore r.core) (preemptFor r r.core s)]
  exact starters_of_prog (by simp)

@[simp] theorem requestAir_starters (r : AirReq) (s : State) : starters (requestAir r s) = starters s :=
  ite_starters (grantAir_starters ..) (starters_of_prog (by simp))

-- ------------------------------------------------------------------ what comes about by itself

@[simp] theorem transmit_prog (e : Send) (first : Tick) (s : State) : progPart (transmit e first s) = progPart s := by
  simp [transmit]

@[simp] theorem sendMissed_prog (e : Send) (s : State) : progPart (sendMissed e s) = progPart s := by
  simp only [sendMissed]
  split <;> simp

@[simp] theorem sendGo_prog (e : Send) (s : State) : progPart (sendGo e s) = progPart s := by
  simp only [sendGo]
  refine ite_prog ?_ (sendMissed_prog e s)
  exact ite_prog (by simp) (by simp)

@[simp] theorem openSlot_prog (o : Opening) (s : State) : progPart (openSlot o s) = progPart s := by
  simp only [openSlot]
  split
  · split <;> simp
  · simp

@[simp] theorem openDue_prog (s : State) : progPart (openDue s) = progPart s := by
  simp only [openDue]
  split
  · exact ite_prog (by simp) rfl
  · rfl

@[simp] theorem runTo_starters (now : Tick) (n : Nat) (s : State) : starters (runTo now n s) = starters s := by
  have clock : ∀ t s, starters (openDue (clockTo t s)) = starters s := fun t s => starters_of_prog (by simp)
  induction n generalizing s with
  | zero => exact clock now s
  | succ n ih =>
    simp only [runTo]
    split
    · refine ite_starters ?_ (clock now s)
      rw [ih]
      refine (ite_starters (starters_of_prog (sendGo_prog ..)) (requestAir_starters ..)).trans (clock _ s)
    · exact clock now s

@[simp] theorem advanceTo_starters (now : Tick) (s : State) : starters (advanceTo now s) = starters s :=
  ite_starters (runTo_starters ..) rfl

@[simp] theorem issueMoment_starters (x : Tenant) (s : State) : starters (issueMoment x s) = starters s := by
  rw [issueMoment_eq, advanceTo_starters]
  exact ite_starters (modCtx_starters _ _ _ fun _ => rfl) rfl

end Sys2Proof.Machine
end

section
/-!
SUPPORT. The Spool engine's shared operations, each said once: a word that issues, an instruction that is over at once, a fault, and a
wait that may end.
-/
namespace Sys2Proof.Machine

-- ------------------------------------------------------------------ issue

/-- R205, R225. -/
theorem issue_at {x : Tenant} {w : BitVec 32} {s : State} (h : AtWord x w s) (body : State → State) :
    issue x w body s = body (issueMoment x s) := by
  obtain ⟨hlive, hrun, hown, hstop, hpc, hword⟩ := h
  exact issue_word x w body s hlive hrun hown hpc hstop hword

/-- An own program is one at the moment of issue. -/
theorem issueMoment_own {x : Tenant} {w : BitVec 32} {s : State} (h : AtWord x w s) :
    isBuiltin (issueMoment x s).ctxs[x] = false := by
  obtain ⟨-, -, hown, -⟩ := h
  rw [isBuiltin_of_starters (issueMoment_starters x s), hown]

-- ------------------------------------------------------------------ registers

theorem rd_wr_same (d : Fin 16) (v : Reg32) (k : Ctx) : rd (wr d v k) d = if d = 0 then 0 else v := by
  by_cases hd : d = 0
  · simp [rd, hd]
  · simp [rd, wr, hd]

/-- Writing a register changes the registers alone. -/
theorem wr_only (d : Fin 16) (v : Reg32) (k : Ctx) : wr d v k = { k with regs := (wr d v k).regs } := by
  unfold wr; split <;> rfl

-- ------------------------------------------------------------------ waits

theorem pendIs_some {x : Tenant} {s : State} {p : Pend} (hrun : s.ctxs[x].run = .waiting) (hpend : s.ctxs[x].pend = some p)
    (hair : p.noAir = false) {op : WaitOp} (hop : p.op = op) : pendIs x op s = some p := by
  simp only [pendIs, hrun, hpend, hair, hop, beq_self_eq_true, Bool.not_false, Bool.and_self, if_true]

/-- What the end of a wait makes of the context (R210, R217, R230) depends only on what the instruction does to it there. -/
theorem endWait_congr {x : Tenant} {now : Tick} {f g : Ctx → Ctx} {s : State}
    (h : ∀ k, k.latch = s.ctxs[x].latch → f k = g k) : endWait x now f s = endWait x now g s :=
  modCtx_congr x _ _ s (h _ rfl)

-- ------------------------------------------------------------------ faults

theorem freeBufs_prog (l : List (Fin 32)) (s : State) : progPart (l.foldl (fun s h => freeBuf h s) s) = progPart s :=
  foldl_prog _ l s fun _ _ => rfl

/-- The context that a fault or an end leaves holds no buffer (R215). -/
theorem dropped_ctxs (x : Tenant) (s : State) :
    (dropBufs x (dropAir x s)).ctxs = vmod s.ctxs x fun k => { k with held := [] } := by
  rw [dropBufs, modCtx_ctxs, ctxs_of_prog (freeBufs_prog ..), ctxs_of_prog (dropAir_prog x s)]

theorem dropped_tens (x : Tenant) (s : State) : (dropBufs x (dropAir x s)).tens = s.tens := by
  rw [dropBufs, modCtx_tens, tens_of_prog (freeBufs_prog ..), tens_of_prog (dropAir_prog x s)]

theorem dropped_reel (x : Tenant) (s : State) : (dropBufs x (dropAir x s)).reel = s.reel :=
  congrArg (fun q => q.2.1) ((dropBufs_steady x _).trans (dropAir_steady x s))

/-- A run that is over leaves its PC where it was (R216, R220). -/
theorem runOver_ctx (x : Tenant) (s : State) :
    (runOver x s).ctxs[x] = { s.ctxs[x] with
      pend := none, stopping := none, wipe := false, data := if s.ctxs[x].wipe then [] else s.ctxs[x].data
      pc := pcNow s.ctxs[x] s, cyc := if isBuiltin s.ctxs[x] then cycNow s.ctxs[x] s else s.ctxs[x].cyc } := by
  simp only [runOver, Fin.getElem_fin, modCtx_ctxs, vmod_self]
  rfl

/-- The PC that a program shows is a matter of its run, of its code and of Reel. -/
theorem pcNow_congr {k k' : Ctx} {s s' : State} (hrun : k.run = k'.run) (hstarter : k.starter = k'.starter) (hpc : k.pc = k'.pc)
    (hreel : s.reel = s'.reel) : pcNow k s = pcNow k' s' := by
  have running : inRun k = inRun k' := by rw [inRun, inRun, hrun]
  have builtin : isBuiltin k = isBuiltin k' := by rw [isBuiltin, isBuiltin, hstarter]
  rw [pcNow, pcNow, running, builtin, hpc, romNow, romNow, hreel]

/-- The state at the moment that a fault is told: the context has stopped, its air and buffers are given back (R216). -/
def faultStop (x : Tenant) (code : Nat) (s : State) : State :=
  modCtx x (fun k => { k with run := .faulted, fault := code }) (runOver x (dropBufs x (dropAir x s)))

theorem spoolFault_eq (x : Tenant) (code : Nat) (s : State) :
    spoolFault x code s = raise x evSpoolFault (leBytes 2 (finishStart x stSpoolFault (faultStop x code s)).ctxs[x].tseq.toNat ++
      [BitVec.ofNat 8 code] ++ leBytes 2 (finishStart x stSpoolFault (faultStop x code s)).ctxs[x].pc)
      (finishStart x stSpoolFault (faultStop x code s)) := rfl

/-- What a fault keeps of the context and what it clears (R216, R218). -/
theorem faultStop_ctx (x : Tenant) (code : Nat) (s : State) :
    let k := (faultStop x code s).ctxs[x]
    k.run = .faulted ∧ k.fault = code ∧ k.pc = pcNow s.ctxs[x] s ∧ k.regs = s.ctxs[x].regs ∧ k.held = [] ∧ k.pend = none ∧
      k.tseq = s.ctxs[x].tseq ∧ k.start = s.ctxs[x].start := by
  have stopped : (dropBufs x (dropAir x s)).ctxs[x] = { s.ctxs[x] with held := [] } := by
    simp [dropped_ctxs]
  have fault : (faultStop x code s).ctxs[x] =
      { (runOver x (dropBufs x (dropAir x s))).ctxs[x] with run := .faulted, fault := code } := by
    simp [faultStop]
  rw [fault, runOver_ctx, stopped]
  exact ⟨rfl, rfl, pcNow_congr rfl rfl rfl (dropped_reel x s), rfl, rfl, rfl, rfl, rfl⟩

theorem faultStop_tens (x : Tenant) (code : Nat) (s : State) : (faultStop x code s).tens = s.tens := by
  simp [faultStop, runOver, setBri, dropped_tens]

theorem faultStop_reel (x : Tenant) (code : Nat) (s : State) : (faultStop x code s).reel = s.reel := by
  simp [faultStop, runOver, setBri, dropped_reel]

/-- An event with room in its queue stands last there (R161). -/
theorem raise_lastOut (t : Tenant) (code : BitVec 16) (data : Bytes) (s : State)
    (hroom : (s.tens[t].outQ.filter Out.isOrdinary).length < 63) :
    LastOut t (.evt s.tens[t].evSeq code s.reel.cnt data) (raise t code data s) := by
  have queued : (raise t code data s).tens[t] = pushEvent s.reel.cnt code data s.tens[t] := by
    simp
  rw [LastOut, queued, pushEvent_room _ _ _ _ hroom, List.getLast?_concat]

end Sys2Proof.Machine
end

section
/-!
PROOFS. Retirement, faults and waits of Spool (7.3 to 7.5, 8.5).
-/
namespace Sys2Proof.Machine

/-- Settles O5: the context by its equation, the rest by what retiring leaves alone. -/
theorem spoolRetirement : Obligations.SpoolRetirement := by
  unfold Obligations.SpoolRetirement
  intro x pc n u
  refine ⟨?context, fun y hy => ⟨retireTo_ctx_ne x y pc n u hy, retireTo_ten_ne x y pc n u hy⟩, retireTo_tens x pc n u,
    retireTo_only x pc n u⟩
  have ticks : cycleTicks u = if u.power.mode = .limp then 6 else 2 := by
    simp [cycleTicks, inLimp]
  rw [← ticks]
  exact retireTo_ctx x pc n u

-- ------------------------------------------------------------------ faults

theorem jumpTo_outside {x : Tenant} {t : Nat} {s : State} (hown : isBuiltin s.ctxs[x] = false) (ht : s.ctxs[x].codeLen ≤ t) :
    jumpTo x t s = spoolFault x 5 s := by
  have outside : targetOk s.ctxs[x] t = false := by
    rw [targetOk, hown, decide_eq_false (Nat.not_lt.mpr ht), Bool.false_or, Bool.and_false]
  rw [jumpTo, outside, if_neg (by decide)]

theorem execBudgetWatchdog_faults {x : Tenant} {s : State} (hrun : s.ctxs[x].run = .running) (hwdog : 1000000 ≤ s.ctxs[x].wdog) :
    execBudgetWatchdog x s = .next (spoolFault x 6 s) := by
  rw [execBudgetWatchdog, hrun, decide_eq_true hwdog]
  rfl

/-- R216, R218: what the tenant finds in the registers of a faulted context. -/
theorem spoolFault_ctx (x : Tenant) (code : Nat) (s : State) :
    let k := (spoolFault x code s).ctxs[x]
    k.run = .faulted ∧ k.fault = code ∧ k.pc = pcNow s.ctxs[x] s ∧ k.regs = s.ctxs[x].regs ∧ k.held = [] ∧ k.pend = none := by
  obtain ⟨hrun, hfault, hpc, hregs, hheld, hpend, -, -⟩ := faultStop_ctx x code s
  simp only [spoolFault_eq, raise_ctxs, Fin.getElem_fin, finishStart_ctx]
  exact ⟨hrun, hfault, hpc, hregs, hheld, hpend⟩

/-- R216: a fault is told with TSEQ, its code and the PC. -/
theorem spoolFault_told (x : Tenant) (code : Nat) (s : State) (hstart : s.ctxs[x].start = none)
    (hroom : (s.tens[x].outQ.filter Out.isOrdinary).length < 63) :
    LastOut x (.evt s.tens[x].evSeq evSpoolFault s.reel.cnt
      (leBytes 2 s.ctxs[x].tseq.toNat ++ [BitVec.ofNat 8 code] ++ leBytes 2 (pcNow s.ctxs[x] s))) (spoolFault x code s) := by
  obtain ⟨-, -, hpc, -, -, -, htseq, hidle⟩ := faultStop_ctx x code s
  rw [spoolFault_eq, finishStart_idle x _ _ (hidle.trans hstart), hpc, htseq, ← faultStop_reel x code s, ← faultStop_tens x code s]
  exact raise_lastOut x _ _ _ (by rw [faultStop_tens]; exact hroom)

/-- Settles O9: each fault by the branch that its premises name, then what every fault leaves. -/
theorem spoolFaults : Obligations.SpoolFaults := by
  unfold Obligations.SpoolFaults
  refine ⟨fun x d a cond target imm w s => ?faults, fun x code u => ?leaves, fun k u hown => ?pc⟩
  case faults =>
    refine ⟨fun h hillegal => ?illegal, fun hlive hrun hown hstop hpc hillegal => ?past, fun h hcond htarget => ?jump,
      fun h hcond hfull => ?call, fun h hcond hempty => ?ret, fun h hword => ?ld, fun h hword => ?st, execBudgetWatchdog_faults⟩
    case illegal =>
      show execSpIllegal x w s = _
      rw [execSpIllegal, hillegal, issue_at h]
      rfl
    case past =>
      show execSpIllegal x w s = _
      rw [execSpIllegal, hillegal, issue_past x w _ s hlive hrun hown hpc hstop]
      rfl
    case jump =>
      show execSpJ x cond target s = _
      rw [execSpJ, issue_at h]
      simp only [hcond, if_true, jumpTo_outside (issueMoment_own h) htarget]
    case call =>
      show execSpCall x cond target s = _
      rw [execSpCall, issue_at h]
      simp only [hcond, hfull, Bool.not_true, Bool.false_eq_true, if_false, if_true]
    case ret =>
      show execSpRet x cond s = _
      rw [execSpRet, issue_at h]
      simp only [hcond, hempty, Bool.not_true, Bool.false_eq_true, if_false]
    case ld =>
      show execSpLd x d a imm s = _
      rw [execSpLd, issue_at h]
      exact congrArg _ (if_pos hword)
    case st =>
      show execSpSt x d a imm s = _
      rw [execSpSt, issue_at h]
      exact congrArg _ (if_pos hword)
  case leaves =>
    obtain ⟨hrun, hfault, hpc, hregs, hheld, hpend⟩ := spoolFault_ctx x code u
    exact ⟨hrun, hfault, hpc, hregs, hheld, hpend, spoolFault_told x code u⟩
  case pc =>
    simp [pcNow, hown]

-- ------------------------------------------------------------------ the waits end

section Release
variable {x : Tenant} {now : Tick} {p : Pend} {s u : State} (hu : advanceTo now s = u)
include hu

/-- R210, R236. -/
theorem execWaittRelease_ends (hp : pendIs x .waitt u = some p) (hreached : reached u.reel.cnt p.until_ = true) :
    execWaittRelease x now s = .next (endWait x p.until_ id u) := by
  simp only [execWaittRelease, hu, hp, hreached, if_true]

/-- R210, R237. -/
theorem execWaitdRelease_ends (hp : pendIs x .waitd u = some p) (hreached : reached u.reel.cnt p.until_ = true) :
    execWaitdRelease x now s = .next (endWait x p.until_ id u) := by
  simp only [execWaitdRelease, hu, hp, hreached, if_true]

variable (hp : pendIs x .waite u = some p)
include hp

/-- R238, R239: D shows the latches that ended the wait, and they clear. -/
theorem execWaiteRelease_latch {hit : BitVec 4} (hhit : hit = u.ctxs[x].latch &&& p.fn.setWidth 4) (hset : hit ≠ 0) :
    execWaiteRelease x now s = .next (endWait x u.reel.cnt
      (fun k => wr p.d (hit.setWidth 32) { k with z := false, latch := k.latch &&& ~~~hit }) u) := by
  simp only [execWaiteRelease, hu, hp, ← hhit, bne_iff_ne.mpr hset, if_true]
  refine congrArg _ (endWait_congr fun k hk => ?_)
  simp only [waiteCtx, hk, ← hhit, decide_eq_false hset]

/-- R238: the timeout. -/
theorem execWaiteRelease_timeout (hclear : u.ctxs[x].latch &&& p.fn.setWidth 4 = 0) (ha : p.a ≠ 0)
    (hreached : reached u.reel.cnt p.until_ = true) :
    execWaiteRelease x now s = .next (endWait x p.until_ (fun k => wr p.d 0 { k with z := true }) u) := by
  simp only [execWaiteRelease, hu, hp, hclear, bne_self_eq_false, Bool.false_eq_true, if_false, bne_iff_ne.mpr ha, hreached,
    Bool.and_self, if_true]
  refine congrArg _ (endWait_congr fun k hk => ?_)
  have kept : k.latch &&& ~~~(0 : BitVec 4) = k.latch := BitVec.and_allOnes
  simp only [waiteCtx, hk, hclear, decide_true]
  rw [← hk, kept]
  rfl

end Release

/-- Settles O11: each wait by its release, then what the end of a wait does. -/
theorem spoolWaits : Obligations.SpoolWaits := by
  unfold Obligations.SpoolWaits
  refine ⟨fun x now p s => ?releases, fun x now u => ⟨?context, fun y hy => vmod_ne _ _ _ _ hy, rfl⟩⟩
  case releases =>
    intro u hrun hpend hair
    have waits : ∀ op, p.op = op → pendIs x op u = some p := fun op hop => pendIs_some hrun hpend hair hop
    exact ⟨fun hop => execWaittRelease_ends rfl (waits _ hop), fun hop => execWaitdRelease_ends rfl (waits _ hop),
      fun hop => ⟨fun hit => execWaiteRelease_latch rfl (waits _ hop), execWaiteRelease_timeout rfl (waits _ hop)⟩⟩
  case context =>
    simp only [endWait, Fin.getElem_fin, modCtx_ctxs, vmod_self, id]

end Sys2Proof.Machine
end

section
/-!
PROOFS. Time and waiting in Spool programs (8.4, R236 to R240, R258).
-/
namespace Sys2Proof.Machine

-- ------------------------------------------------------------------ instructions that are over at once

/-- What a WAITD of no or too many ticks leaves (R217, R237): the next instruction, the same cursor, a clear watchdog. -/
theorem waitdNone_ctx (x : Tenant) (s : State) :
    let k := (finishStart x stOk (modCtx x (fun k => { k with
      pc := k.pc + 1, cyc := min 0xFFFFFFFF (k.cyc + 1), wdog := 0, issues := k.issues + 1 }) s)).ctxs[x]
    k.pc = s.ctxs[x].pc + 1 ∧ k.cursor = s.ctxs[x].cursor ∧ k.wdog = 0 ∧ k.regs = s.ctxs[x].regs ∧ k.run = s.ctxs[x].run := by
  simp [finishStart_ctx]

/-- What a WAITE that is over at once leaves (R210, R217, R238, R239). -/
theorem waiteAtOnce_ctx (x : Tenant) (d : Fin 16) (src : BitVec 4) (s : State) :
    let k := (wAtOnce x (waiteCtx d src) s).ctxs[x]
    let hit := s.ctxs[x].latch &&& src
    k.pc = s.ctxs[x].pc + 1 ∧ k.run = s.ctxs[x].run ∧ k.cursor = s.reel.cnt ∧ k.wdog = 0 ∧
      rd k d = (if d = 0 then 0 else hit.setWidth 32) ∧ k.z = decide (hit = 0) ∧ k.latch = s.ctxs[x].latch &&& ~~~hit := by
  simp only [wAtOnce, waiteCtx, Fin.getElem_fin, finishStart_ctx, modCtx_ctxs, vmod_self]
  rw [wr_only]
  exact ⟨rfl, rfl, rfl, rfl, rd_wr_same d _ _, rfl, rfl⟩

/-- Settles O10, one instruction after the other. -/
theorem spoolTimeComplete : Obligations.SpoolTimeComplete := by
  unfold Obligations.SpoolTimeComplete
  intro x d a b off imm src part s u k n wait
  refine ⟨fun hrun hwdog => ?watchdog, fun h => ?waitt, fun h => ⟨fun hne hlt => ?waitd, fun hnone => ?waitdNone⟩,
    fun h => ⟨fun hclear hlt => ?waite, fun hover => ?waiteNow⟩, fun h => ?gett, fun h => ?yield, fun h => ?halt⟩
  case watchdog =>
    obtain ⟨hfaulted, hcode, -, -, hheld, hpend⟩ := spoolFault_ctx x 6 s
    exact ⟨_, execBudgetWatchdog_faults hrun hwdog, hfaulted, hcode, hheld, hpend⟩
  case waitt =>
    show execSpWaitt x d a b off s = _
    rw [execSpWaitt, issue_at h]
    rfl
  case waitd =>
    show execSpWaitd x a imm s = _
    rw [execSpWaitd, issue_at h]
    exact congrArg _ (if_neg (not_or.mpr ⟨hne, Nat.not_le.mpr hlt⟩))
  case waitdNone =>
    refine ⟨_, ?_, waitdNone_ctx x u⟩
    show execSpWaitd x a imm s = _
    rw [execSpWaitd, issue_at h]
    exact congrArg _ (if_pos hnone)
  case waite =>
    show execSpWaite x d a b src s = _
    rw [execSpWaite, issue_at h]
    refine congrArg _ (if_neg ?_)
    rw [Bool.or_eq_true, bne_iff_ne, decide_eq_true_iff]
    exact not_or.mpr ⟨not_not.mpr hclear, Nat.not_le.mpr hlt⟩
  case waiteNow =>
    refine ⟨_, ?_, waiteAtOnce_ctx x d src u⟩
    show execSpWaite x d a b src s = _
    rw [execSpWaite, issue_at h]
    refine congrArg _ (if_pos ?_)
    rw [Bool.or_eq_true, bne_iff_ne, decide_eq_true_iff]
    exact hover
  case gett =>
    show execSpGett x d a b part s = _
    rw [execSpGett, issue_at h]
    have parts : ∀ q : BitVec 2, q = 0 ∨ q = 1 ∨ q = 2 ∨ q = 3 := by decide
    rcases parts part with rfl | rfl | rfl | rfl <;> rfl
  case yield =>
    show execSpYield x d a b s = _
    rw [execSpYield, issue_at h]
  case halt =>
    show execSpHalt x d a b s = _
    rw [execSpHalt, issue_at h]

end Sys2Proof.Machine
end

section
/-!
PROOFS. The register accesses that are rows of their own (25.2).
-/
namespace Sys2Proof.Machine

/-- A run that touches such a register is the REG.WRITE that carries it. -/
theorem regWriteRow_touches {p : Nat → Bool} {c : Cmd} {s u : State} (h : Taken 0x0111 c s u) (hok : regWriteOk c u)
    (htouch : runTouches c p = true) :
    (.next (regWriteRow p c s) : Host.Outcome State Fault Refusal) =
      .next (reply c.t stOk [] (writeRun c.t (fld c.args 0 2) (regWords c) u)) := by
  rw [regWriteRow, if_pos htouch]
  exact execRegWrite_writes h hok

/-- A run that touches such a register is the REG.READ that carries it. -/
theorem regReadRow_touches {p : Nat → Bool} {c : Cmd} {s u : State} (h : Taken 0x0110 c s u) (hlen : c.args.length = 3)
    (hlow : 1 ≤ fld c.args 2 1) (hhigh : fld c.args 2 1 ≤ 64) (hend : fld c.args 0 2 + fld c.args 2 1 ≤ 0x10000)
    (hread : ∀ i, i < fld c.args 2 1 → canRead c.t (fld c.args 0 2 + i) u = true) (htouch : runTouches c p = true) :
    (.next (regReadRow p c s) : Host.Outcome State Fault Refusal) =
      .next (reply c.t stOk ((readRun c.t (fld c.args 2 1) (fld c.args 0 2) u).1.map (leBytes 2)).flatten
        (readRun c.t (fld c.args 2 1) (fld c.args 0 2) u).2) := by
  rw [regReadRow, if_pos htouch]
  exact execRegRead_reads h hlen hlow hhigh hend hread

/-- Settles O3: each row is the REG command whose run it is. -/
theorem registerRowsComplete : Obligations.RegisterRowsComplete := by
  unfold Obligations.RegisterRowsComplete
  refine ⟨fun c s u h hok => ?writes, fun c s u h hlen hlow hhigh hend hread => ?reads⟩
  case writes =>
    have row : ∀ p, runTouches c p = true → _ := fun p => regWriteRow_touches (p := p) h hok
    exact ⟨row _, row _, row _, row _, row _, row _, row _, row _, row _, row _, row _⟩
  case reads =>
    have row : ∀ p, runTouches c p = true → _ := fun p => regReadRow_touches (p := p) h hlen hlow hhigh hend hread
    exact ⟨row _, row _, row _, row _⟩

end Sys2Proof.Machine
end

section
/-!
PROOFS. Frame buffers, check values, channels, events and timer outputs from a Spool program (8.8 to 8.10).
-/
namespace Sys2Proof.Machine

-- ------------------------------------------------------------------ held buffers

/-- R251: the handle of a held buffer is its number. -/
theorem heldBuf_some {k : Ctx} {v : Reg32} {h : Fin 32} (hv : v = BitVec.ofNat 32 h.val) (hheld : h ∈ k.held) :
    heldBuf k v = some h := by
  have number : v.toNat = h.val := by
    rw [hv, BitVec.toNat_ofNat]
    exact Nat.mod_eq_of_lt (by omega)
  simp [heldBuf, number, hheld]

theorem onBuf_held {x : Tenant} {a : Fin 16} {s : State} {h : Fin 32} (hbuf : heldBuf s.ctxs[x] (rd s.ctxs[x] a) = some h)
    (body : Fin 32 → State → State) : onBuf x a body s = body h s := by
  rw [onBuf, hbuf]

section Alloc
variable {x : Tenant} {d : Fin 16} {s u : State} (hw : AtWord x (wordA 0x36 d 0 0 0) s) (hu : issueMoment x s = u)
include hw hu

/-- R215: a free buffer, while fewer than four are held. -/
theorem execSpBufAlloc_takes {h : Fin 32} (hroom : u.ctxs[x].held.length < 4) (hfree : findBuf (posOf x) u = some h) :
    execSpBufAlloc x d s = .next (retire x 1
      (modCtx x (fun k => wr d (BitVec.ofNat 32 h.val) { k with held := k.held ++ [h], c := false }) (serveBuf (posOf x) true h u))) := by
  rw [execSpBufAlloc, issue_at (w := wordBuf d 0 0 0) hw, hu]
  simp only [decide_eq_true hroom, hfree]

/-- R215: a fifth is not given. -/
theorem execSpBufAlloc_full {h : Fin 32} (hfull : 4 ≤ u.ctxs[x].held.length) (hfree : findBuf (posOf x) u = some h) :
    execSpBufAlloc x d s = .next (retire x 1 (modCtx x (fun k => wr d 0xFFFFFFFF { k with c := true }) u)) := by
  rw [execSpBufAlloc, issue_at (w := wordBuf d 0 0 0) hw, hu]
  simp only [decide_eq_false (Nat.not_lt.mpr hfull), hfree]

/-- R593: an empty pool. -/
theorem execSpBufAlloc_none (hnone : findBuf (posOf x) u = none) :
    execSpBufAlloc x d s =
      .next (retire x 1 (modCtx x (fun k => wr d 0xFFFFFFFF { k with c := true }) (missBuf (posOf x) true u))) := by
  rw [execSpBufAlloc, issue_at (w := wordBuf d 0 0 0) hw, hu]
  simp only [hnone]

end Alloc

-- ------------------------------------------------------------------ CRC, POST, MREAD

section Service
variable {x : Tenant} {d a b : Fin 16} {s u : State} (hu : issueMoment x s = u)
include hu

/-- R254, R515: the value in D. -/
theorem execSpCrc_value {preset : Fin 5} {h : Fin 32} (hw : AtWord x (wordA 0x3A d a b (BitVec.ofNat 14 preset.val)) s)
    (hpreset : preset ≠ 0) (hbuf : heldBuf u.ctxs[x] (rd u.ctxs[x] a) = some h) (hlen : (rd u.ctxs[x] b).toNat ≤ 256) :
    execSpCrc x d a b preset 0 s = .next (retire x (1 + ((rd u.ctxs[x] b).toNat + 3) / 4) (modCtx x (fun k =>
      wr d (BitVec.ofNat 32 (checkValue (cvuPreset preset.val) (bufBytes u.bufs[h] (rd u.ctxs[x] b).toNat))) { k with c := false }) u)) := by
  rw [execSpCrc, issue_at (w := wordA 0x3A d a b (BitVec.ofNat 14 (preset.val + 8 * (0 : Fin 3).val))) hw, hu]
  simp only [if_neg hpreset, hbuf, if_neg (Nat.not_lt.mpr hlen)]

/-- R256: words of the data RAM into a channel that the context sends on. -/
theorem execSpPost_words {n : Fin 9} {g : Fin 16} (hw : AtWord x (wordA 0x3C d a b (BitVec.ofNat 14 n.val)) s)
    (hg : (rd u.ctxs[x] a).toNat % 16 = g.val) (hsend : senderOf g u.gdl.chans[g] = some (.spool x))
    (hwords : n.val = 0 ∨ (rd u.ctxs[x] b).toNat + n.val ≤ 256) :
    execSpPost x d a b n false s = .next (retire x (1 + n.val)
      (modCtx x (fun k => wr d (if u.gdl.chans[g].msg.isSome then 1 else 0) { k with c := false })
        (writeChan g 5 ((List.range n.val).map fun i => memWord u.ctxs[x].data ((rd u.ctxs[x] b).toNat + i)) none u))) := by
  have word : BitVec.ofNat 14 n.val ||| fnBit 4 false = BitVec.ofNat 14 n.val := by simp [fnBit]
  have chan : (⟨(rd u.ctxs[x] a).toNat % 16, Nat.mod_lt _ (by decide)⟩ : Fin 16) = g := Fin.ext hg
  rw [execSpPost, word, issue_at hw, hu]
  simp only [chan, hsend, ne_eq, not_true_eq_false, if_false, Bool.false_eq_true]
  rw [if_neg (by omega)]

/-- R259: a message without a buffer moves to the data RAM. -/
theorem execSpMread_words {g : Fin 16} {m : Msg} (hw : AtWord x (wordA 0x3F d a b 2) s)
    (hg : (rd u.ctxs[x] a).toNat % 16 = g.val) (hrecv : receiverOf g u.gdl.chans[g] = some (.spool x))
    (hmsg : u.gdl.chans[g].msg = some m) (hhand : m.hand = none) (hwords : (rd u.ctxs[x] b).toNat + m.words.length ≤ 256) :
    execSpMread x d a b s = .next (retire x 1 (modCtx x (fun k => wr d (BitVec.ofNat 32 m.words.length)
      { k with
        c := false
        data := m.words.zipIdx.foldl (fun mem q => memPutWord mem ((rd u.ctxs[x] b).toNat + q.2) q.1) k.data })
        (modChan g (fun ch => { ch with msg := none }) u))) := by
  have chan : (⟨(rd u.ctxs[x] a).toNat % 16, Nat.mod_lt _ (by decide)⟩ : Fin 16) = g := Fin.ext hg
  rw [execSpMread, issue_at hw, hu]
  simp only [chan, hrecv, hmsg, hhand, ne_eq, not_true_eq_false, if_false, Option.isSome_none, Bool.false_and, Bool.false_eq_true]
  rw [if_neg (by omega)]
  exact congrArg _ (congrArg _ (modCtx_congr x _ _ _ rfl))

end Service

/-- Settles O12, one instruction after the other. -/
theorem spoolBuffersAndServices : Obligations.SpoolBuffersAndServices := by
  unfold Obligations.SpoolBuffersAndServices
  refine ⟨fun x d a b h s => ?buffers, fun x d a b h preset n act g s => ?services⟩
  case buffers =>
    intro u k o
    refine ⟨fun hw => ⟨execSpBufAlloc_takes hw rfl, execSpBufAlloc_full hw rfl, execSpBufAlloc_none hw rfl⟩, fun hv hheld => ?_⟩
    have held := fun body => onBuf_held (s := u) (heldBuf_some hv hheld) body
    refine ⟨fun hw => ?free, fun hw ho => ?rdw, fun hw ho => ?wrw, fun hw => ?len, fun hw ho => ?setlen⟩
    case free =>
      show execSpBufFree x d a s = _
      rw [execSpBufFree, issue_at (w := wordBuf d a 0 1) hw, held]
    case rdw =>
      show execSpBufRdw x d a b s = _
      rw [execSpBufRdw, issue_at (w := wordBuf d a b 2) hw, held]
      exact congrArg _ (if_neg (Nat.not_lt.mpr ho))
    case wrw =>
      show execSpBufWrw x d a b s = _
      rw [execSpBufWrw, issue_at (w := wordBuf d a b 3) hw, held]
      exact congrArg _ (if_neg (Nat.not_lt.mpr ho))
    case len =>
      show execSpBufLen x d a s = _
      rw [execSpBufLen, issue_at (w := wordBuf d a 0 4) hw, held]
    case setlen =>
      show execSpBufSetlen x d a b s = _
      rw [execSpBufSetlen, issue_at (w := wordBuf d a b 5) hw, held]
      exact congrArg _ (if_neg (Nat.not_lt.mpr ho))
  case services =>
    intro u k o
    refine ⟨fun hw hpreset hv hheld => execSpCrc_value rfl hw hpreset (heldBuf_some hv hheld), execSpPost_words rfl,
      fun hw hg hrecv m => execSpMread_words rfl hw hg hrecv, fun hw => ?evt, fun hw hact => ?tout⟩
    case evt =>
      show execSpEvt x d a 0 s = _
      rw [execSpEvt, issue_at (w := wordA 0x3D d a 0 (BitVec.ofNat 14 (0 : Fin 3).val)) hw]
    case tout =>
      show execSpTout x d act s = _
      rw [execSpTout, issue_at hw]
      exact congrArg _ (if_neg hact)

end Sys2Proof.Machine
end

section
/-!
PROOFS. The arbiter's and the coexistence events (9.1, 9.3, 9.6).
-/
namespace Sys2Proof.Machine

section Event
variable {now : Tick} {s u : State} (hu : advanceTo now s = u)
include hu

/-- R269. -/
theorem execAirGrant_grants {r : AirReq} (hr : firstGrantable u.reel.cnt u [] (orderedWaiters u) = some r) :
    execAirGrant now s = .next (grantAir r u.reel.cnt u) := by
  simp only [execAirGrant, hu, hr]

/-- R262. -/
theorem execDeepCalibration_runs {core : CoreId} (temp : Int) (hmode : u.power.mode = .run) (hdue : deepDue core u = true)
    (hcore : coreState core u = .standby) (hhold : holdOf core u = none)
    (hidle : u.radio.waiters.any (fun r => r.core == core) = false) :
    execDeepCalibration core now temp s = .next (deepRan core temp u) := by
  simp only [execDeepCalibration, hu]
  exact if_pos (by rw [hmode, hdue, hcore, hhold, hidle]; rfl)

/-- R280: a pulse of less than 0.5 µs is no change, and neither is a level that stands. -/
theorem execCoexGntChange_ignored {ns : Nat} {level : Bool} (h : ns < 500 ∨ level = u.radio.gnt) :
    execCoexGntChange now ns level s = .next u := by
  simp only [execCoexGntChange, hu]
  exact if_pos h.symm

/-- R239, R283: the latches, and diversity at the next preamble search. -/
theorem execCoexGntChange_rises {ns : Nat} (hns : 500 ≤ ns) (hgnt : u.radio.gnt = false) :
    execCoexGntChange now ns true s = .next (setRadio (fun r => { r with lkbDue := r.lkbGiven })
      (setRadio (fun r => { r with gnt := true }) (forTenants (fun t => modCtx t fun k => { k with latch := k.latch ||| 8 }) u))) := by
  simp only [execCoexGntChange, hu, hgnt]
  exact if_neg (not_or.mpr ⟨Bool.noConfusion, Nat.not_lt.mpr hns⟩)

/-- R239, R283, R284. -/
theorem execCoexGntChange_falls {ns : Nat} {v : State} (hns : 500 ≤ ns) (hgnt : u.radio.gnt = true)
    (hv : setRadio (fun r => { r with gnt := false }) (forTenants (fun t => modCtx t fun k => { k with latch := k.latch ||| 8 }) u) = v) :
    execCoexGntChange now ns false s = .next (linkWithdrawn (readerWithdrawn
      (setRadio (fun r => { r with leadDone := false, lkbDue := false, waiters := r.waiters.map fun (q : AirReq) =>
        if q.gnt then { q with since := v.reel.cnt } else q }) v))) := by
  simp only [execCoexGntChange, hu, hgnt, hv]
  exact if_neg (not_or.mpr ⟨Bool.noConfusion, Nat.not_lt.mpr hns⟩)

/-- R278, R282. -/
theorem execCoexLeadElapsed_over {rose : Tick} (hrose : u.radio.reqRose = some rose) (hgnt : u.radio.gnt = true)
    (hover : reached u.reel.cnt (rose + 1200) = true) :
    execCoexLeadElapsed now s = .next (setRadio (fun r => { r with leadDone := true }) u) := by
  simp only [execCoexLeadElapsed, hu, hrose, hgnt, hover, Bool.and_self, if_true]

/-- R279. -/
theorem execCoexWaitExpiry_denies {r : AirReq} (hgnt : u.radio.gnt = false)
    (hr : u.radio.waiters.find? (fun r => r.gnt && reached u.reel.cnt (coexDeadline r u)) = some r) :
    execCoexWaitExpiry now s = .next (coexDenied r u) := by
  simp only [execCoexWaitExpiry, hu, hgnt, hr, Bool.false_eq_true, if_false]

/-- R279, R282: an ACK that is owed. -/
theorem execCoexWaitExpiry_ack (hgnt : u.radio.gnt = false)
    (hnone : u.radio.waiters.find? (fun r => r.gnt && reached u.reel.cnt (coexDeadline r u)) = none) (hack : ackDenied u = true) :
    execCoexWaitExpiry now s = .next (ackOver (setRadio (fun q => { q with denied := satInc 255 q.denied }) u)) := by
  simp only [execCoexWaitExpiry, hu, hgnt, hnone, hack, Bool.false_eq_true, if_false, if_true]

/-- R214. -/
theorem execNoWaitAirDenied_faults {x : Tenant} {p : Pend} (hrun : u.ctxs[x].run = .waiting) (hpend : u.ctxs[x].pend = some p)
    (hair : p.noAir = true) (hnowait : bit p.fn 13 = true) (hover : reached u.reel.cnt p.until_ = true) :
    execNoWaitAirDenied x now s = .next (spoolFault x 4 u) := by
  simp only [execNoWaitAirDenied, hu, hrun, hpend, hair, hnowait, hover, Bool.and_self, if_true]

end Event

/-- Settles O38, one event after the other. -/
theorem arbitrationEventsComplete : Obligations.ArbitrationEventsComplete := by
  unfold Obligations.ArbitrationEventsComplete
  refine ⟨fun now s r => execAirGrant_grants rfl, fun core now temp s => execDeepCalibration_runs rfl temp,
    fun now ns level s => ⟨execCoexGntChange_ignored rfl, ?rises, ?falls⟩, fun now rose s => execCoexLeadElapsed_over rfl,
    fun now s => fun hgnt => ⟨fun r => execCoexWaitExpiry_denies rfl hgnt, execCoexWaitExpiry_ack rfl hgnt⟩,
    fun x now s p => execNoWaitAirDenied_faults rfl⟩
  case rises =>
    rintro hns rfl hgnt
    exact execCoexGntChange_rises rfl hns hgnt
  case falls =>
    rintro hns rfl hgnt
    exact execCoexGntChange_falls rfl hns hgnt rfl

end Sys2Proof.Machine
end

section
/-!
SUPPORT. The air instructions of an own program (7.4, 8.6, 8.7): what issues them, what blocks them, what they wait for.
-/
namespace Sys2Proof.Machine

/-- R205, R225. -/
theorem issue_instr {x : Tenant} {i : Instr} {w : BitVec 32} {s : State} (h : AtInstr x i s) (hw : spoolWord i = some (x, w))
    (body : State → State) : issue x w body s = body (issueMoment x s) := by
  obtain ⟨word, hword, hat⟩ := h
  obtain rfl : w = word := congrArg Prod.snd (Option.some.inj (hw.symm.trans hword))
  exact issue_at hat body

-- ------------------------------------------------------------------ going on air

theorem calResult_closed {core : CoreId} {s : State} (h : calOpen core s = false) : calResult core s = (false, s) := by
  cases core <;> exact if_neg (Bool.eq_false_iff.mp h)

theorem airCursor_radio (x : Tenant) (s : State) : (airCursor x s).radio = s.radio := by
  rw [airCursor]
  split <;> rfl

theorem holds_of_radio {w : Who} {core : CoreId} {s t : State} (h : s.radio = t.radio) : holds w core s = holds w core t := by
  cases core <;> simp only [holds, holdOf, h]

theorem airClass_link (x : Tenant) (s : State) : airClass x .link s = s := rfl

/-- An instruction that nothing keeps off the air acts, its action tick not in the past (R211), at the class of a slot where it holds
the reader (R213). -/
theorem airIssue_clear {x : Tenant} {core : CoreId} {bad : Profile → Bool} {s u : State} (hclear : AirClear x core bad s)
    (hu : airClass x core (airCursor x s) = u) (w : Bool) (d : Fin 16) (body : State → State) :
    airIssue w x core d bad body s = body u := by
  obtain ⟨hblock, hcal⟩ := hclear
  subst hu
  rw [airIssue, hblock]
  dsimp only
  cases hh : holds (.ctx x) core s
  · have notHeld : airClass x core (airCursor x s) = airCursor x s := by
      cases core
      · rw [airClass, holds_of_radio (airCursor_radio x s), hh]
        rfl
      · rfl
    rw [if_neg Bool.false_ne_true, notHeld]
  · rw [if_pos rfl, calResult_closed (hcal hh)]
    rfl

/-- An air instruction at the PC of an own program, with nothing that keeps it off the air. -/
theorem airInstr_acts {x : Tenant} {core : CoreId} {bad : Profile → Bool} {ins : Instr} {word : BitVec 32} {s i u : State}
    (hi : issueMoment x s = i) (hu : airClass x core (airCursor x i) = u) (h : AtInstr x ins s)
    (hword : spoolWord ins = some (x, word)) (hclear : AirClear x core bad i) (w : Bool) (d : Fin 16) (body : State → State) :
    issue x word (airIssue w x core d bad body) s = body u := by
  rw [issue_instr h hword, hi, airIssue_clear hclear hu]

/-- R214: the air that the instruction needs is its own. -/
theorem airFirst_held {x : Tenant} {core : CoreId} {s : State} (h : holds (.ctx x) core s = true) (d : Fin 16) (fn : BitVec 14)
    (body : State → State) : airFirst x core d fn body s = body s :=
  if_pos h

/-- R214: what the instruction would do does not matter while it waits for its air. -/
theorem airFirst_asks {x : Tenant} {core : CoreId} {s : State} (h : holds (.ctx x) core s = false) (d : Fin 16) (fn : BitVec 14)
    (body : State → State) : airFirst x core d fn body s = airFirst x core d fn id s := by
  simp only [airFirst, h, Bool.false_eq_true, if_false]

/-- A wait's ticks count from the cursor. -/
theorem airPend_congr {s t : State} (h : s.ctxs = t.ctxs) (x : Tenant) (op : WaitOp) (d : Fin 16) (a b : Reg32) (fn : BitVec 14)
    (lead : Nat) : airPend x op d a b fn lead s = airPend x op d a b fn lead t := by
  simp only [airPend, h]

/-- What the context waits for, once an instruction waits (R230). -/
theorem enterWait_waits (x : Tenant) (p : Pend) (s : State) :
    (enterWait x p s).ctxs[x].run = .waiting ∧
    (enterWait x p s).ctxs[x].pend = some { p with epoch := opEpoch p.op s } := by
  simp only [Fin.getElem_fin, enterWait_ctx, and_self]

-- ------------------------------------------------------------------ what an instruction finds that cannot go on air

/-- R231: N and Z set, C clear, the status in D, and the program goes on. -/
theorem airFail_ctx (w : Bool) (x : Tenant) (d : Fin 16) (st : Byte) (s : State) :
    let k := (airFail w x d st s).ctxs[x]
    k.n = true ∧ k.z = true ∧ k.c = false ∧ rd k d = (if d = 0 then 0 else st.setWidth 32) ∧ k.pc = s.ctxs[x].pc + 1 := by
  cases w
  case true =>
    simp only [airFail, atOnce, if_true, wAtOnce, airFailCtx, Fin.getElem_fin, finishStart_ctx, modCtx_ctxs, vmod_self]
    rw [wr_only]
    exact ⟨rfl, rfl, rfl, rd_wr_same d _ _, rfl⟩
  case false =>
    simp only [airFail, atOnce, Bool.false_eq_true, if_false, retire, airFailCtx, Fin.getElem_fin, retireTo_ctx, modCtx_ctxs, vmod_self]
    rw [wr_only]
    exact ⟨rfl, rfl, rfl, rd_wr_same d _ _, rfl⟩

/-- R231: the order of the blocks. -/
theorem airBlock_order {x : Tenant} {core : CoreId} {bad : Profile → Bool} {s : State} {st : Byte}
    (h : airBlock x core bad s = some st) :
    (inLimp s = true → st = stLimp) ∧ (inLimp s = false → noSyn s = true → st = stDegraded) ∧
    (inLimp s = false → noSyn s = false → core = .link → s.ctxs[x].lostL = true → st = stAirtime) := by
  refine ⟨fun hlimp => ?limp, fun hlimp hsyn => ?syn, fun hlimp hsyn hcore hlost => ?lost⟩
  case limp =>
    simp only [airBlock, hlimp, if_true] at h
    exact (Option.some.inj h).symm
  case syn =>
    simp only [airBlock, hlimp, hsyn, Bool.true_or, Bool.false_eq_true, if_false, if_true] at h
    exact (Option.some.inj h).symm
  case lost =>
    subst hcore
    have spared : (noSyn s || (CoreId.link == .reader && s.power.vpaLow)) = false := by rw [hsyn]; rfl
    simp only [airBlock, hlimp, spared, hlost, Bool.false_eq_true, if_false, if_true] at h
    exact (Option.some.inj h).symm

/-- What a blocked instruction leaves of its context (R231, R267). -/
theorem airIssue_blocked {x : Tenant} {core : CoreId} {bad : Profile → Bool} {s : State} {st : Byte}
    (h : airBlock x core bad s = some st) (w : Bool) (d : Fin 16) (body : State → State) :
    let k := (airIssue w x core d bad body s).ctxs[x]
    k.n = true ∧ k.z = true ∧ k.c = false ∧ rd k d = (if d = 0 then 0 else st.setWidth 32) ∧ k.pc = s.ctxs[x].pc + 1 := by
  have told : (airIssue w x core d bad body s).ctxs[x] = clearLost core (airFail w x d st s).ctxs[x] := by
    simp [airIssue, h]
  rw [told]
  have failed := airFail_ctx w x d st s
  cases core <;> exact failed

/-- R261: with a calibration open, its result decides. -/
theorem airIssue_held {x : Tenant} {core : CoreId} {bad : Profile → Bool} {s : State} (h : airBlock x core bad s = none)
    (hh : holds (.ctx x) core s = true) (w : Bool) (d : Fin 16) (body : State → State) :
    airIssue w x core d bad body s = airFail w x d stCalFail (calResult core s).2 ∨
    airIssue w x core d bad body s = body (airClass x core (airCursor x (calResult core s).2)) := by
  rw [airIssue, h]
  dsimp only
  rw [if_pos hh]
  cases (calResult core s).1
  · exact .inr (if_neg Bool.false_ne_true)
  · exact .inl (if_pos rfl)

end Sys2Proof.Machine
end

section
/-!
PROOFS. The reader's air instructions (8.6).
-/
namespace Sys2Proof.Machine

-- ------------------------------------------------------------------ a forward-link frame on its way

theorem fwdEnd_rdr (first : Tick) (f : AirFrame) (s : State) : (fwdEnd first f s).2.rdr = s.rdr := by
  simp only [fwdEnd]
  split <;> rfl

theorem fwdEnd_radio (first : Tick) (f : AirFrame) (s : State) : (fwdEnd first f s).2.radio = s.radio := by
  simp only [fwdEnd]
  split <;> rfl

/-- Adapting the predistortion leaves the frame on the air and the holds (R326). -/
theorem dpdFrame_keeps (p : Profile) (s : State) : (dpdFrame p s).rdr.onAir = s.rdr.onAir ∧ (dpdFrame p s).radio = s.radio := by
  rw [dpdFrame]
  split <;> exact ⟨rfl, rfl⟩

theorem setCommit_rHold (t : Option Tick) (s : State) :
    (setCommit .reader t s).radio.rHold = s.radio.rHold.map fun q => { q with commit := t, ends := none } := by
  cases hh : s.radio.rHold <;> simp [setCommit, holdOf, hh, setHold, setRadio]

/-- A TXSYM's frame goes on its way with its commit point (R243, R275, R320). -/
def symbolsGo (x : Tenant) (f : AirFrame) (qry : Bool) (act : Tick) (s : State) : State :=
  setRdr (fun r => { r with onAir := some f, opening := if qry then opensQuery x 0 act else none })
    (setCommit .reader (some act) (compApply (extPa s.loaded[x]) s))

/-- The context waits for the end of the last symbol (R243). -/
def symbolsWait (x : Tenant) (d : Fin 16) (fn : BitVec 14) (f : AirFrame) (act : Tick) (s : State) : State :=
  enterWait x { airPend x .txsym d 0 0 fn 0 (fwdEnd (act + 192) f s).2 with until_ := (fwdEnd (act + 192) f s).1 }
    (dpdFrame (fwdEnd (act + 192) f s).2.loaded[x] (fwdEnd (act + 192) f s).2)

theorem symbolsWait_waits (x : Tenant) (d : Fin 16) (fn : BitVec 14) (f : AirFrame) (qry : Bool) (act : Tick) (s : State) :
    let t := symbolsWait x d fn f act (symbolsGo x f qry act s)
    t.ctxs[x].run = .waiting ∧ t.rdr.onAir = some f ∧
    t.radio.rHold = s.radio.rHold.map (fun q => { q with commit := some act, ends := none }) ∧
    ∃ p, t.ctxs[x].pend = some p ∧ p.op = .txsym ∧ p.d = d ∧ p.issued = s.ctxs[x].cursor ∧ p.noAir = false := by
  have kept : (fwdEnd (act + 192) f (symbolsGo x f qry act s)).2.ctxs = s.ctxs := ctxs_of_prog (by simp [symbolsGo])
  obtain ⟨hrun, hpend⟩ := enterWait_waits x
    { airPend x .txsym d 0 0 fn 0 (fwdEnd (act + 192) f (symbolsGo x f qry act s)).2 with
      until_ := (fwdEnd (act + 192) f (symbolsGo x f qry act s)).1 }
    (dpdFrame (fwdEnd (act + 192) f (symbolsGo x f qry act s)).2.loaded[x] (fwdEnd (act + 192) f (symbolsGo x f qry act s)).2)
  refine ⟨hrun, ?frame, ?hold, _, hpend, rfl, rfl, ?issued, rfl⟩
  case frame =>
    rw [symbolsWait, enterWait_rdr, (dpdFrame_keeps _ _).1, fwdEnd_rdr]
    rfl
  case hold =>
    rw [symbolsWait, enterWait_radio, (dpdFrame_keeps _ _).2, fwdEnd_radio]
    exact setCommit_rHold _ _
  case issued =>
    simp only [airPend, kept]

-- ------------------------------------------------------------------ HOP, PWR, ASEL

section Reader
variable {x : Tenant} {d a b : Fin 16} {nw : Bool} {s i u : State} (hi : issueMoment x s = i)
  (hu : airClass x .reader (airCursor x i) = u)
include hi hu

section Hop
variable (h : AtInstr x (.spHop x d a nw) s) (hclear : AirClear x .reader (fun _ => false) i)
include h hclear

/-- R212, R213: the request for a channel, no carrier of the context being on. -/
theorem execSpHop_asks (hfreq : (rd u.ctxs[x] a).toNat ≤ 4800) (hoff : u.rdr.carrier = none ∨ holds (.ctx x) .reader u = false) :
    execSpHop x d a nw s = .next (waitAir x .hop d (rd u.ctxs[x] a) 0 (fnNoWait nw)
      (ctxRequest x .reader (readerClass x u) (rd u.ctxs[x] a).toNat nw u) u) := by
  have silent : (u.rdr.carrier.isSome && holds (.ctx x) .reader u) = false := by
    rcases hoff with hnone | hfree
    · rw [hnone]; rfl
    · rw [hfree, Bool.and_false]
  rw [execSpHop, airInstr_acts hi hu h rfl hclear]
  simp only [if_neg (Nat.not_lt.mpr hfreq), silent, Bool.false_eq_true, if_false]

/-- R241: a carrier that is on ramps down before the channel is left. -/
theorem execSpHop_rampsDown (hfreq : (rd u.ctxs[x] a).toNat ≤ 4800) (hon : u.rdr.carrier.isSome = true)
    (hheld : holds (.ctx x) .reader u = true) {v : State} (hv : v = carrierOff (u.ctxs[x].cursor + 243) u) :
    execSpHop x d a nw s = .next (waitAir x .hop d (rd v.ctxs[x] a) 240 (fnNoWait nw)
      (ctxRequest x .reader (readerClass x v) (rd u.ctxs[x] a).toNat nw v) v) := by
  rw [execSpHop, airInstr_acts hi hu h rfl hclear]
  simp only [if_neg (Nat.not_lt.mpr hfreq), hon, hheld, Bool.and_self, if_true, hv]

/-- 6.1: no FREQ code. -/
theorem execSpHop_offBand (hfreq : 4800 < (rd u.ctxs[x] a).toNat) : execSpHop x d a nw s = .next (airNothing x u) := by
  rw [execSpHop, airInstr_acts hi hu h rfl hclear]
  exact congrArg _ (if_pos hfreq)

end Hop

section Pwr
variable (h : AtInstr x (.spPwr x d a nw) s) (hclear : AirClear x .reader paBad i)
include h hclear

theorem execSpPwr_asks (hfree : holds (.ctx x) .reader u = false) :
    execSpPwr x d a nw s = .next (airFirst x .reader d (fnNoWait nw) id u) := by
  rw [execSpPwr, airInstr_acts hi hu h rfl hclear, airFirst_asks hfree]

variable (hheld : holds (.ctx x) .reader u = true) {v : Int} (hv : v = sWord ((rd u.ctxs[x] a).toNat % 65536))
include hheld hv

/-- R61, R317, R321: clamped to what the ceiling lets through. -/
theorem execSpPwr_sets (hlow : -120 ≤ v) {w : Int} (hw : w = clampPower u.loaded[x] v u) :
    execSpPwr x d a nw s = .next (retire x 1 (modCtx x (fun k =>
      wr d (BitVec.ofInt 32 w) { k with n := false, c := decide (w < v), power := BitVec.ofInt 16 w }) u)) := by
  rw [execSpPwr, airInstr_acts hi hu h rfl hclear, airFirst_held hheld]
  simp only [← hv, ← hw, if_neg (Int.not_lt.mpr hlow)]

/-- R317: below −30 dBm nothing changes. -/
theorem execSpPwr_keeps (hlow : v < -120) :
    ∃ t, execSpPwr x d a nw s = .next t ∧ t.ctxs[x].power = u.ctxs[x].power ∧ t.ctxs[x].c = true := by
  rw [execSpPwr, airInstr_acts hi hu h rfl hclear, airFirst_held hheld]
  simp only [← hv, if_pos hlow]
  refine ⟨_, rfl, ?_⟩
  simp only [retire, Fin.getElem_fin, retireTo_ctx, modCtx_ctxs, vmod_self]
  rw [wr_only]
  exact ⟨BitVec.ofInt_toInt, rfl⟩

end Pwr

section Asel
variable (h : AtInstr x (.spAsel x d a nw) s) (hclear : AirClear x .reader (fun _ => false) i)
include h hclear

theorem execSpAsel_asks (hfree : holds (.ctx x) .reader u = false) :
    execSpAsel x d a nw s = .next (airFirst x .reader d (fnNoWait nw) id u) := by
  rw [execSpAsel, airInstr_acts hi hu h rfl hclear, airFirst_asks hfree]

variable (hheld : holds (.ctx x) .reader u = true)
include hheld

/-- R337: the aerial at the action tick. -/
theorem execSpAsel_selects (hoff : u.rdr.carrier = none) :
    execSpAsel x d a nw s = .next (retire x 1 (modCtx x (fun k => wr d 0 { k with n := false, c := false })
      (selectAerial (mod4 (rd u.ctxs[x] a).toNat) (u.ctxs[x].cursor + 3) u))) := by
  rw [execSpAsel, airInstr_acts hi hu h rfl hclear, airFirst_held hheld]
  simp only [hoff, Option.isSome_none, Bool.false_eq_true, if_false]

/-- R337: not under a carrier. -/
theorem execSpAsel_keeps (hon : u.rdr.carrier.isSome = true) :
    execSpAsel x d a nw s = .next (retire x 1 (modCtx x (fun k => { k with n := false, c := true }) u)) := by
  rw [execSpAsel, airInstr_acts hi hu h rfl hclear, airFirst_held hheld]
  exact congrArg _ (if_pos hon)

end Asel

-- ------------------------------------------------------------------ TXCW, TXSYM

section Carrier
variable (h : AtInstr x (.spTxcw x d true nw) s) (hclear : AirClear x .reader paBad i) (htuned : tuned x .reader u = true)
include h hclear htuned

/-- R242, R278: a ramp of 240 ticks, not before the lead is over. -/
theorem execSpTxcw_rampsUp (hoff : u.rdr.carrier = none) :
    execSpTxcw x d true nw s = .next (enterWait x { airPend x .txcw d 0 0 (1 ||| fnNoWait nw) 240 u with
      until_ := leadTick u (u.ctxs[x].cursor + 3) + 240 } (rampUp u.loaded[x] u.ctxs[x].power (leadTick u (u.ctxs[x].cursor + 3)) u)) := by
  rw [execSpTxcw, airInstr_acts (bad := fun p => true && paBad p) hi hu h rfl hclear]
  simp only [htuned, hoff, Option.isSome_none, Bool.not_true, Bool.false_eq_true, if_false, if_true]
  rfl

/-- R242: a carrier that is on already. -/
theorem execSpTxcw_isOn (hon : u.rdr.carrier.isSome = true) : execSpTxcw x d true nw s = .next (wAtOnce x (airOkNz d 0) u) := by
  rw [execSpTxcw, airInstr_acts (bad := fun p => true && paBad p) hi hu h rfl hclear]
  simp only [htuned, hon, Bool.not_true, Bool.false_eq_true, if_false, if_true]

end Carrier

section CarrierOff
variable (h : AtInstr x (.spTxcw x d false nw) s) (hclear : AirClear x .reader (fun _ => false) i)
include h hclear

theorem execSpTxcw_acts (body : State → State)
    (hbody : body = fun s => if s.rdr.carrier.isNone then wAtOnce x (airOkNz d 0) s
      else enterWait x (airPend x .txcw d 0 0 (fnNoWait nw) 240 u) (compApply (extPa s.loaded[x]) s)) :
    execSpTxcw x d false nw s = .next (airFirst x .reader d (fnNoWait nw) body u) := by
  have word : fnBit 0 false ||| fnNoWait nw = fnNoWait nw := BitVec.zero_or
  rw [execSpTxcw, airInstr_acts (bad := fun p => false && paBad p) hi hu h rfl hclear, hbody]
  simp only [word, Bool.false_eq_true, if_false]

theorem execSpTxcw_asks (hfree : holds (.ctx x) .reader u = false) :
    execSpTxcw x d false nw s = .next (airFirst x .reader d (fnNoWait nw) id u) := by
  rw [execSpTxcw_acts hi hu h hclear _ rfl, airFirst_asks hfree]

variable (hheld : holds (.ctx x) .reader u = true)
include hheld

/-- R242: a carrier that is off already. -/
theorem execSpTxcw_isOff (hoff : u.rdr.carrier = none) : execSpTxcw x d false nw s = .next (wAtOnce x (airOkNz d 0) u) := by
  rw [execSpTxcw_acts hi hu h hclear _ rfl, airFirst_held hheld]
  exact congrArg _ (if_pos (by rw [hoff]; rfl))

/-- R242, R320. -/
theorem execSpTxcw_rampsDown (hon : u.rdr.carrier.isSome = true) :
    execSpTxcw x d false nw s = .next (enterWait x (airPend x .txcw d 0 0 (fnNoWait nw) 240 u) (compApply (extPa u.loaded[x]) u)) := by
  rw [execSpTxcw_acts hi hu h hclear _ rfl, airFirst_held hheld]
  exact congrArg _ (if_neg (by simpa using Option.isSome_iff_ne_none.mp hon))

end CarrierOff

/-- R243, R244, R275: the symbols go on their way, and the context waits for the end of the last. -/
theorem execSpTxsym_sends {src : Fin 3} {pre qry : Bool} {fr : List Bool} (h : AtInstr x (.spTxsym x d a b src pre qry nw) s)
    (hcount : symCountOk src (rd i.ctxs[x] b).toNat = true)
    (hbits : symBits x src (rd i.ctxs[x] a) (rd i.ctxs[x] b).toNat i = some fr)
    (hclear : AirClear x .reader (fun p => fwdBad p || (pre && backBad p)) i) (hheld : holds (.ctx x) .reader u = true)
    (hon : u.rdr.carrier.isSome = true) (hstop : u.ctxs[x].stopping = none) :
    execSpTxsym x d a b src pre qry nw s = .next (symbolsWait x d
      (BitVec.ofNat 14 src.val ||| fnBit 2 pre ||| fnBit 3 qry ||| fnNoWait nw)
      { set := profileSet u.loaded[x], pre := pre, bits := fr } (u.ctxs[x].cursor + 3)
      (symbolsGo x { set := profileSet u.loaded[x], pre := pre, bits := fr } qry (u.ctxs[x].cursor + 3) u)) := by
  have sends : ¬ (!true || u.rdr.carrier.isNone) = true := by
    simpa using Option.isSome_iff_ne_none.mp hon
  have runs : ¬ (u.ctxs[x].stopping.isSome && opensAnew fr) = true := by
    rw [hstop]; exact Bool.false_ne_true
  rw [execSpTxsym, issue_instr h rfl, hi]
  simp only [hcount, if_true, hbits]
  rw [airIssue_clear hclear hu, airFirst_held hheld, if_neg sends, if_neg runs]
  rfl

-- ------------------------------------------------------------------ RXWIN, RSSI, SNIFF, RFOFF

section Window
variable {count : BitVec 10} {pclen crc : Bool} {hb : Fin 32} (h : AtInstr x (.spRxwin x d a b count pclen crc nw) s)
  (hform : pclen = true → count = 0) (hbuf : heldBuf i.ctxs[x] (rd i.ctxs[x] a) = some hb) (hclear : AirClear x .reader backBad i)
  (hrx : lostReaderRx u = false) (htuned : tuned x .reader u = true)
include h hform hbuf hclear hrx htuned

/-- R245: a window from the action tick on. -/
theorem execSpRxwin_waits (hspan : rd u.ctxs[x] b ≠ 0) :
    execSpRxwin x d a b count pclen crc nw s = .next (enterWait x (airPend x .rxwin d (rd u.ctxs[x] a) (rd u.ctxs[x] b)
      (count.setWidth 14 ||| fnBit 10 pclen ||| fnBit 11 crc ||| fnNoWait nw) (rd u.ctxs[x] b).toNat u) (setOver .reader none u)) := by
  rw [execSpRxwin, issue_instr h rfl, hi]
  simp only [if_neg fun bad : pclen = true ∧ count ≠ 0 => bad.2 (hform bad.1)]
  rw [onBuf_held hbuf, airIssue_clear hclear hu]
  simp only [hrx, htuned, Bool.not_true, Bool.false_eq_true, if_false, if_neg hspan]

/-- R245: an empty window. -/
theorem execSpRxwin_empty (hspan : rd u.ctxs[x] b = 0) :
    execSpRxwin x d a b count pclen crc nw s = .next (wAtOnce x (fun k => { airOkCtx d 0 k with z := true }) u) := by
  rw [execSpRxwin, issue_instr h rfl, hi]
  simp only [if_neg fun bad : pclen = true ∧ count ≠ 0 => bad.2 (hform bad.1)]
  rw [onBuf_held hbuf, airIssue_clear hclear hu]
  simp only [hrx, htuned, Bool.not_true, Bool.false_eq_true, if_false, if_pos hspan]

end Window

section Rssi
variable (h : AtInstr x (.spRssi x d nw) s) (hclear : AirClear x .reader (fun _ => false) i)
include h hclear

theorem execSpRssi_asks (hfree : holds (.ctx x) .reader u = false) :
    execSpRssi x d nw s = .next (airFirst x .reader d (fnNoWait nw) id u) := by
  rw [execSpRssi, airInstr_acts hi hu h rfl hclear, airFirst_asks hfree]

theorem execSpRssi_reads (hheld : holds (.ctx x) .reader u = true) :
    execSpRssi x d nw s = .next (retire x 1 (modCtx x (fun k => wr d ((k.phase ++ k.rssi).setWidth 32) { k with n := false }) u)) := by
  rw [execSpRssi, airInstr_acts hi hu h rfl hclear, airFirst_held hheld]

end Rssi

/-- R246, R278, R344: one burst, which is its own commit point. -/
theorem execSpSniff_bursts (h : AtInstr x (.spSniff x d nw) s) (hclear : AirClear x .reader paBad i)
    (htuned : tuned x .reader u = true) (hoff : u.rdr.carrier = none) {act : Tick} (hact : act = leadTick u (u.ctxs[x].cursor + 3)) :
    execSpSniff x d nw s = .next (enterWait x { airPend x .sniff d 0 0 (fnNoWait nw) 0 u with until_ := act + 960 }
      (setCommit .reader (some act) (setCore .reader .tx (burstDrive u.loaded[x] act u)))) := by
  rw [execSpSniff, airInstr_acts hi hu h rfl hclear]
  simp only [htuned, hoff, Option.isSome_none, Bool.not_true, Bool.false_eq_true, if_false, ← hact]
  rw [airPend_congr (t := u) (ctxs_of_prog (by simp))]

section Rfoff
variable (h : AtInstr x (.spRfoff x d nw) s) (hclear : AirClear x .reader (fun _ => false) i)
include h hclear

theorem execSpRfoff_asks (hfree : holds (.ctx x) .reader u = false) :
    execSpRfoff x d nw s = .next (airFirst x .reader d (fnNoWait nw) id u) := by
  rw [execSpRfoff, airInstr_acts hi hu h rfl hclear, airFirst_asks hfree]

theorem execSpRfoff_waits (hheld : holds (.ctx x) .reader u = true) :
    execSpRfoff x d nw s = .next (enterWait x
      (airPend x .rfoff d 0 0 (fnNoWait nw) (if u.rdr.carrier.isSome then 240 else 0) u) u) := by
  rw [execSpRfoff, airInstr_acts hi hu h rfl hclear, airFirst_held hheld]

end Rfoff

end Reader

/-- Settles O14: each instruction where the air is clear for it, then where it holds no air, then what blocks it. -/
theorem spoolReaderAirComplete : Obligations.SpoolReaderAirComplete := by
  unfold Obligations.SpoolReaderAirComplete
  refine ⟨fun x d a b nw hb s => ?acts, fun w x core d bad st body u t hblock ht => ?blocked,
    fun w x core d bad body u hblock hheld => airIssue_held hblock hheld w d body⟩
  case acts =>
    intro i u k fn
    refine ⟨fun h hclear => ⟨execSpHop_asks rfl rfl h hclear,
        fun hfreq hon hheld v hv => execSpHop_rampsDown rfl rfl h hclear hfreq hon hheld hv, execSpHop_offBand rfl rfl h hclear⟩,
      fun h hclear hheld v hv => ⟨fun hlow w hw => execSpPwr_sets rfl rfl h hclear hheld hv hlow hw,
        execSpPwr_keeps rfl rfl h hclear hheld hv⟩,
      fun h hclear hheld => ⟨execSpAsel_selects rfl rfl h hclear hheld, execSpAsel_keeps rfl rfl h hclear hheld⟩,
      fun h hclear htuned => ⟨execSpTxcw_rampsUp rfl rfl h hclear htuned, execSpTxcw_isOn rfl rfl h hclear htuned⟩,
      fun h hclear hheld => ⟨execSpTxcw_isOff rfl rfl h hclear hheld, execSpTxcw_rampsDown rfl rfl h hclear hheld⟩,
      fun src pre qry fr h hcount hbits hclear hheld hon hstop => ?txsym,
      fun count pclen crc h hform hbuf hclear hrx htuned => ⟨fun hspan => ?window,
        execSpRxwin_empty rfl rfl h hform hbuf hclear hrx htuned⟩,
      execSpRssi_reads rfl rfl, fun h hclear htuned hoff act => execSpSniff_bursts rfl rfl h hclear htuned hoff,
      execSpRfoff_waits rfl rfl,
      fun hfree => ⟨fun h hclear => execSpPwr_asks rfl rfl h hclear hfree, fun h hclear => execSpAsel_asks rfl rfl h hclear hfree,
        fun h hclear => execSpTxcw_asks rfl rfl h hclear hfree, fun h hclear => execSpRssi_asks rfl rfl h hclear hfree,
        fun h hclear => execSpRfoff_asks rfl rfl h hclear hfree⟩⟩
    case txsym =>
      obtain ⟨hrun, hair, hhold, p, hpend, hop, hd, hissued, hnoair⟩ := symbolsWait_waits x d
        (BitVec.ofNat 14 src.val ||| fnBit 2 pre ||| fnBit 3 qry ||| fnNoWait nw)
        { set := profileSet u.loaded[x], pre := pre, bits := fr } qry (k.cursor + 3) u
      exact ⟨_, p, execSpTxsym_sends rfl rfl h hcount hbits hclear hheld hon hstop, hrun, hair, hhold, hpend, hop, hd, hissued, hnoair⟩
    case window =>
      obtain ⟨hrun, hpend⟩ := enterWait_waits x (airPend x .rxwin d (rd k a) (rd k b)
        (count.setWidth 14 ||| fnBit 10 pclen ||| fnBit 11 crc ||| fnNoWait nw) (rd k b).toNat u) (setOver .reader none u)
      exact ⟨_, _, execSpRxwin_waits rfl rfl h hform hbuf hclear hrx htuned hspan, hrun, hpend, rfl, rfl, rfl, rfl, rfl, rfl⟩
  case blocked =>
    subst ht
    obtain ⟨hn, hz, hc, hd, hpc⟩ := airIssue_blocked hblock w d body
    exact ⟨hn, hz, hc, hd, hpc, airBlock_order hblock⟩

end Sys2Proof.Machine
end

section
/-!
PROOFS. The link's air instructions (8.7).
-/
namespace Sys2Proof.Machine

section Link
variable {x : Tenant} {d a b : Fin 16} {nw : Bool} {s i u : State} (hi : issueMoment x s = i) (hu : airCursor x i = u)
include hi hu

section Lch
variable {txi : Bool} (h : AtInstr x (.spLch x d a txi nw) s) (hclear : AirClear x .link linkProfileBad i)
include h hclear

/-- R233, R247: the request for a channel. -/
theorem execSpLch_asks (hfreq : (rd u.ctxs[x] a).toNat ≤ 4800) :
    execSpLch x d a txi nw s = .next (waitAir x .lch d (rd u.ctxs[x] a) 0 (fnBit 12 txi ||| fnNoWait nw)
      (ctxRequest x .link (lchClass x txi u) (rd u.ctxs[x] a).toNat nw u) u) := by
  rw [execSpLch, airInstr_acts hi ((airClass_link ..).trans hu) h rfl hclear]
  exact congrArg _ (if_neg (Nat.not_lt.mpr hfreq))

/-- 6.1: no FREQ code. -/
theorem execSpLch_offBand (hfreq : 4800 < (rd u.ctxs[x] a).toNat) : execSpLch x d a txi nw s = .next (airNothing x u) := by
  rw [execSpLch, airInstr_acts hi ((airClass_link ..).trans hu) h rfl hclear]
  exact congrArg _ (if_pos hfreq)

end Lch

/-- R248: from SYNTH a frame that fits asks for the air of its transmission. -/
theorem execSpLtx_asks {hb : Fin 32} {sf : Fin 5} {smode ack fcs : Bool} {psdu : Bytes} {lane : Fin 6} {f : LinkTx} {w : State}
    (h : AtInstr x (.spLtx x d a sf smode ack fcs nw) s) (hform : smode = true → sf = 0)
    (hbuf : heldBuf i.ctxs[x] (rd i.ctxs[x] a) = some hb) (hclear : AirClear x .link linkProfileBad i)
    (hpsdu : psdu = if fcs then withFcs (bufBytes u.bufs[hb] u.bufs[hb].len) else bufBytes u.bufs[hb] u.bufs[hb].len)
    (hlane : lane = if smode then 5 else ⟨sf.val, by omega⟩) (hlow : 1 ≤ psdu.length)
    (hhigh : psdu.length ≤ if smode then 127 else 255) (hheld : holds (.ctx x) .link u = true)
    (hsynth : coreState .link u = .synth)
    (hf : f = { lane := lane, slow := slowChips u.loaded[x] u, lkb := txLkb u.loaded[x] u, first := 0,
                power := BitVec.ofNat 8 (bits u.loaded[x].txpwr 7 0) })
    (hw : w = setLink (fun l => { l with sentPsdu := psdu, onAir := some f }) u) :
    execSpLtx x d a sf smode ack fcs nw s = .next (waitAir x .ltx d (rd w.ctxs[x] a)
      (BitVec.ofNat 32 (432 + airTicks lane (slowChips u.loaded[x] u) psdu.length))
      (BitVec.ofNat 14 sf.val ||| fnBit 7 smode ||| fnBit 8 ack ||| fnBit 9 fcs ||| fnNoWait nw)
      { ctxRequest x .link 3 w.radio.lFreq nw w with gnt := true } w) := by
  have fits : ¬ (psdu.length = 0 ∨ (if smode then 127 else 255) < psdu.length ∨ (!holds (.ctx x) .link u) = true ∨
      (coreState .link u != .synth) = true) := by
    rw [hheld, hsynth]
    simp only [Bool.not_true, bne_self_eq_false, Bool.false_eq_true, or_false]
    omega
  rw [execSpLtx, issue_instr h rfl, hi]
  simp only [if_neg fun bad : smode = true ∧ sf ≠ 0 => bad.2 (hform bad.1)]
  rw [onBuf_held hbuf, airIssue_clear hclear ((airClass_link ..).trans hu)]
  simp only [← hpsdu, ← hlane, ← hf, ← hw, if_neg fits]

section Lrx
variable {hb : Fin 32} {lanes : BitVec 6} (h : AtInstr x (.spLrx x d a b lanes nw) s)
  (hbuf : heldBuf i.ctxs[x] (rd i.ctxs[x] a) = some hb) (hclear : AirClear x .link (fun _ => false) i) (hrx : lostLinkRx u = false)
  (hlanes : (if lanes = 0 then 0x3F else lanes) &&& u.link.uses &&& (if slowChips u.loaded[x] u then 0x1F else 0x3F) ≠ 0)
  (htuned : tuned x .link u = true)
include h hbuf hclear hrx hlanes htuned

/-- R213, R249: class 1 right behind a frame of its own that asks for an ACK, class 5 otherwise. -/
theorem execSpLrx_asks (hspan : rd u.ctxs[x] b ≠ 0) :
    ∃ cls, (cls = 1 ∨ cls = 5) ∧ execSpLrx x d a b lanes nw s = .next (waitAir x .lrx d (rd u.ctxs[x] a) (rd u.ctxs[x] b)
      (lanes.setWidth 14 ||| fnNoWait nw) { ctxRequest x .link cls u.radio.lFreq nw u with gnt := lkbShared x u } u) := by
  rw [execSpLrx, issue_instr h rfl, hi, onBuf_held hbuf, airIssue_clear hclear ((airClass_link ..).trans hu)]
  simp only [hrx, beq_eq_false_iff_ne.mpr hlanes, htuned, Bool.or_self, Bool.not_true, Bool.false_eq_true, if_false, if_neg hspan]
  exact ⟨_, ite_eq_or_eq _ 1 5, rfl⟩

/-- R249: an empty window. -/
theorem execSpLrx_empty (hspan : rd u.ctxs[x] b = 0) :
    execSpLrx x d a b lanes nw s = .next (wAtOnce x (fun k => { airOkCtx d 0 k with z := true }) u) := by
  rw [execSpLrx, issue_instr h rfl, hi, onBuf_held hbuf, airIssue_clear hclear ((airClass_link ..).trans hu)]
  simp only [hrx, beq_eq_false_iff_ne.mpr hlanes, htuned, Bool.or_self, Bool.not_true, Bool.false_eq_true, if_false, if_pos hspan]

end Lrx

/-- R233, R250. -/
theorem execSpLcca_asks {txi : Bool} (h : AtInstr x (.spLcca x d txi nw) s) (hclear : AirClear x .link (fun _ => false) i)
    (hrx : lostLinkRx u = false) (htuned : tuned x .link u = true) :
    execSpLcca x d txi nw s = .next (waitAir x .lcca d 0 0 (fnBit 12 txi ||| fnNoWait nw)
      (ctxRequest x .link (if txi then 3 else 5) u.radio.lFreq nw u) u) := by
  rw [execSpLcca, airInstr_acts hi ((airClass_link ..).trans hu) h rfl hclear]
  simp only [hrx, htuned, Bool.not_true, Bool.false_eq_true, if_false]

section Loff
variable (h : AtInstr x (.spLoff x d nw) s) (hclear : AirClear x .link (fun _ => false) i)
include h hclear

/-- R247. -/
theorem execSpLoff_waits (hheld : holds (.ctx x) .link u = true) :
    execSpLoff x d nw s = .next (enterWait x (airPend x .loff d 0 0 (fnNoWait nw) 0 u) u) := by
  rw [execSpLoff, airInstr_acts hi ((airClass_link ..).trans hu) h rfl hclear, airFirst_held hheld]

theorem execSpLoff_asks (hfree : holds (.ctx x) .link u = false) :
    execSpLoff x d nw s = .next (airFirst x .link d (fnNoWait nw) id u) := by
  rw [execSpLoff, airInstr_acts hi ((airClass_link ..).trans hu) h rfl hclear, airFirst_asks hfree]

end Loff

end Link

/-- Settles O15, one instruction after the other. -/
theorem spoolLinkAirComplete : Obligations.SpoolLinkAirComplete := by
  unfold Obligations.SpoolLinkAirComplete
  intro x d a b nw hb s i u k fn
  exact ⟨fun txi h hclear => ⟨execSpLch_asks rfl rfl h hclear, execSpLch_offBand rfl rfl h hclear⟩,
    fun sf smode ack fcs psdu lane h hform hbuf hclear hpsdu hlane hlow hhigh hheld hsynth f w =>
      execSpLtx_asks rfl rfl h hform hbuf hclear hpsdu hlane hlow hhigh hheld hsynth,
    fun lanes h hbuf hclear hrx hlanes htuned =>
      ⟨execSpLrx_asks rfl rfl h hbuf hclear hrx hlanes htuned, execSpLrx_empty rfl rfl h hbuf hclear hrx hlanes htuned⟩,
    fun txi => execSpLcca_asks rfl rfl,
    fun h hclear => ⟨execSpLoff_waits rfl rfl h hclear, execSpLoff_asks rfl rfl h hclear⟩⟩

end Sys2Proof.Machine
end

section
/-!
SUPPORT. The fields of Spool words (Table 8-2): what each format holds, and when a word is an assigned one (R226).
-/
namespace Sys2Proof.Machine

-- ------------------------------------------------------------------ the formats as numbers

/-- A concatenation as a number. -/
theorem append_toNat {n m : Nat} (u : BitVec n) (v : BitVec m) : (u ++ v).toNat = u.toNat * 2 ^ m + v.toNat := by
  rw [BitVec.toNat_append, ← Nat.shiftLeft_add_eq_or_of_lt v.isLt, Nat.shiftLeft_eq]

theorem wordA_toNat (op : BitVec 6) (d a b : Fin 16) (fn : BitVec 14) :
    (wordA op d a b fn).toNat = op.toNat * 2 ^ 26 + d.val * 2 ^ 22 + a.val * 2 ^ 18 + b.val * 2 ^ 14 + fn.toNat := by
  simp only [wordA, append_toNat, BitVec.toNat_ofNat]
  omega

theorem wordI_toNat (op : BitVec 6) (d a : Fin 16) (imm : BitVec 18) :
    (wordI op d a imm).toNat = op.toNat * 2 ^ 26 + d.val * 2 ^ 22 + a.val * 2 ^ 18 + imm.toNat := by
  simp only [wordI, append_toNat, BitVec.toNat_ofNat]
  omega

theorem wordJ_toNat (op : BitVec 6) (cond : Fin 8) (target : BitVec 10) :
    (wordJ op cond target).toNat = op.toNat * 2 ^ 26 + cond.val * 2 ^ 22 + target.toNat := by
  simp only [wordJ, append_toNat, BitVec.toNat_ofNat, BitVec.ofNat_eq_ofNat]
  omega

-- ------------------------------------------------------------------ what the formats hold

theorem bits_regD (w : BitVec 32) : bits w 25 22 = (regField w 22).val := rfl

theorem bits_regA (w : BitVec 32) : bits w 21 18 = (regField w 18).val := rfl

theorem bits_regB (w : BitVec 32) : bits w 17 14 = (regField w 14).val := rfl

section Fields
variable (op : BitVec 6) (d a b : Fin 16) (cond : Fin 8) (imm : BitVec 18) (target : BitVec 10) (fn : BitVec 14)

@[simp] theorem wordA_op : bits (wordA op d a b fn) 31 26 = op.toNat := by
  simp only [bits, wordA_toNat]
  omega

@[simp] theorem wordA_d : regField (wordA op d a b fn) 22 = d := by
  apply Fin.ext
  simp only [regField, wordA_toNat]
  omega

@[simp] theorem wordA_a : regField (wordA op d a b fn) 18 = a := by
  apply Fin.ext
  simp only [regField, wordA_toNat]
  omega

@[simp] theorem wordA_b : regField (wordA op d a b fn) 14 = b := by
  apply Fin.ext
  simp only [regField, wordA_toNat]
  omega

@[simp] theorem wordA_fn : (wordA op d a b fn).setWidth 14 = fn := by
  apply BitVec.eq_of_toNat_eq
  simp only [BitVec.toNat_setWidth, wordA_toNat]
  omega

@[simp] theorem wordI_op : bits (wordI op d a imm) 31 26 = op.toNat := by
  simp only [bits, wordI_toNat]
  omega

@[simp] theorem wordI_d : regField (wordI op d a imm) 22 = d := by
  apply Fin.ext
  simp only [regField, wordI_toNat]
  omega

@[simp] theorem wordI_a : regField (wordI op d a imm) 18 = a := by
  apply Fin.ext
  simp only [regField, wordI_toNat]
  omega

@[simp] theorem wordI_imm : (wordI op d a imm).setWidth 18 = imm := by
  apply BitVec.eq_of_toNat_eq
  simp only [BitVec.toNat_setWidth, wordI_toNat]
  omega

@[simp] theorem wordJ_op : bits (wordJ op cond target) 31 26 = op.toNat := by
  simp only [bits, wordJ_toNat]
  omega

@[simp] theorem wordJ_cond : fieldFin 8 (regField (wordJ op cond target) 22).val = cond := by
  apply Fin.ext
  simp only [fieldFin, Fin.ofNat, regField, wordJ_toNat]
  omega

@[simp] theorem wordJ_target : (wordJ op cond target).setWidth 10 = target := by
  apply BitVec.eq_of_toNat_eq
  simp only [BitVec.toNat_setWidth, wordJ_toNat]
  omega

@[simp] theorem wordJ_condBits : bits (wordJ op cond target) 25 22 = cond.val := by
  simp only [bits, wordJ_toNat]
  omega

@[simp] theorem wordJ_gap : bits (wordJ op cond target) 21 10 = 0 := by
  simp only [bits, wordJ_toNat]
  omega

@[simp] theorem wordJ_noTarget : bits (wordJ op cond 0) 9 0 = 0 := by
  simp only [bits, wordJ_toNat, BitVec.ofNat_eq_ofNat, BitVec.toNat_ofNat]
  omega

end Fields

variable {w : BitVec 32}

theorem wordA_of_fields {op : BitVec 6} {d a b : Fin 16} {fn : BitVec 14} (hop : bits w 31 26 = op.toNat) (hd : d = regField w 22)
    (ha : a = regField w 18) (hb : b = regField w 14) (hfn : fn = w.setWidth 14) : wordA op d a b fn = w := by
  subst hd ha hb hfn
  apply BitVec.eq_of_toNat_eq
  rw [wordA_toNat, ← hop, bits, regField, regField, regField, BitVec.toNat_setWidth]
  have := w.isLt
  simp only
  omega

theorem wordI_of_fields {op : BitVec 6} {d a : Fin 16} (hop : bits w 31 26 = op.toNat) (hd : d = regField w 22)
    (ha : a = regField w 18) : wordI op d a (w.setWidth 18) = w := by
  subst hd ha
  apply BitVec.eq_of_toNat_eq
  rw [wordI_toNat, ← hop, bits, regField, regField, BitVec.toNat_setWidth]
  have := w.isLt
  simp only
  omega

theorem wordJ_of_fields {op : BitVec 6} {target : BitVec 10} (hop : bits w 31 26 = op.toNat) (hd : bits w 25 22 ≤ 7)
    (hgap : bits w 21 10 = 0) (ht : target = w.setWidth 10) : wordJ op (fieldFin 8 (regField w 22).val) target = w := by
  subst ht
  apply BitVec.eq_of_toNat_eq
  rw [wordJ_toNat, ← hop, BitVec.toNat_setWidth, ← bits_regD]
  simp only [bits, fieldFin, Fin.ofNat] at *
  have := w.isLt
  omega

-- ------------------------------------------------------------------ assigned words

theorem spoolLegal_wordA {op : BitVec 6} {d a b : Fin 16} {fn : BitVec 14} {f : FormA} (hform : formA op.toNat fn = some f)
    (hfn : f.fn fn = true) (hzero : (!(f.d0 && d.val != 0) && !(f.a0 && a.val != 0) && !(f.b0 && b.val != 0)) = true) :
    spoolLegal (wordA op d a b fn) = true := by
  have others : ¬ (op.toNat = 0x0E ∨ op.toNat = 0x19) ∧ ¬ (op.toNat = 0x0F ∨ op.toNat = 0x14) ∧
      ¬ ((0x0A ≤ op.toNat ∧ op.toNat ≤ 0x0D) ∨ op.toNat = 0x34 ∨ op.toNat = 0x35) ∧ ¬ (op.toNat = 0x10 ∨ op.toNat = 0x11) ∧
      ¬ op.toNat = 0x12 := by
    have none : ∀ n, n = 0x0E ∨ n = 0x19 ∨ n = 0x0F ∨ n = 0x14 ∨ n = 0x0A ∨ n = 0x0B ∨ n = 0x0C ∨ n = 0x0D ∨ n = 0x34 ∨ n = 0x35 ∨
        n = 0x10 ∨ n = 0x11 ∨ n = 0x12 → formA n fn = none := by
      rintro n (rfl | rfl | rfl | rfl | rfl | rfl | rfl | rfl | rfl | rfl | rfl | rfl | rfl) <;> rfl
    have formed : formA op.toNat fn ≠ Option.none := by rw [hform]; exact Option.some_ne_none f
    have out := mt (none op.toNat) formed
    omega
  obtain ⟨h1, h2, h3, h4, h5⟩ := others
  simp only [spoolLegal, wordA_op, if_neg h1, if_neg h2, if_neg h3, if_neg h4, if_neg h5, wordA_fn, hform, hfn, bits_regD,
    bits_regA, bits_regB, wordA_d, wordA_a, wordA_b]
  simpa using hzero

theorem spoolLegal_wordI {op : BitVec 6} {d a : Fin 16} {imm : BitVec 18}
    (hop : op ∈ [0x0A, 0x0B, 0x0C, 0x0D, 0x0E, 0x0F, 0x14, 0x19, 0x34, 0x35]) (hd : op = 0x0E ∨ op = 0x19 → d = 0)
    (ha : op = 0x0F ∨ op = 0x14 → a = 0) : spoolLegal (wordI op d a imm) = true := by
  simp only [spoolLegal, wordI_op, bits_regD, bits_regA, wordI_d, wordI_a]
  simp only [List.mem_cons, List.not_mem_nil, or_false] at hop
  rcases hop with rfl | rfl | rfl | rfl | rfl | rfl | rfl | rfl | rfl | rfl <;> simp_all

theorem spoolLegal_wordJ {op : BitVec 6} {cond : Fin 8} {target : BitVec 10} (hop : op = 0x10 ∨ op = 0x11 ∨ op = 0x12 ∧ target = 0) :
    spoolLegal (wordJ op cond target) = true := by
  have low : cond.val ≤ 7 := by omega
  simp only [spoolLegal, wordJ_op, wordJ_condBits, wordJ_gap, decide_eq_true low]
  rcases hop with rfl | rfl | ⟨rfl, rfl⟩
  · rfl
  · rfl
  · rw [wordJ_noTarget]
    rfl

/-- What makes a word an assigned one, format by format (Tables 8-2, 8-4 to 8-8). -/
theorem spoolLegal_inv (h : spoolLegal w = true) :
    (bits w 31 26 = 0x0E ∨ bits w 31 26 = 0x19) ∧ 0 = regField w 22 ∨ (bits w 31 26 = 0x0F ∨ bits w 31 26 = 0x14) ∧ 0 = regField w 18 ∨
    ((0x0A ≤ bits w 31 26 ∧ bits w 31 26 ≤ 0x0D) ∨ bits w 31 26 = 0x34 ∨ bits w 31 26 = 0x35) ∨
    (bits w 31 26 = 0x10 ∨ bits w 31 26 = 0x11) ∧ bits w 25 22 ≤ 7 ∧ bits w 21 10 = 0 ∨
    bits w 31 26 = 0x12 ∧ bits w 25 22 ≤ 7 ∧ bits w 21 10 = 0 ∧ bits w 9 0 = 0 ∨
    ∃ f, formA (bits w 31 26) (w.setWidth 14) = some f ∧ f.fn (w.setWidth 14) = true ∧ (f.d0 = true → 0 = regField w 22) ∧
      (f.a0 = true → 0 = regField w 18) ∧ (f.b0 = true → 0 = regField w 14) := by
  have zero : ∀ r : Fin 16, 0 = r ↔ r.val = 0 := by decide
  have zeroD : 0 = regField w 22 ↔ bits w 25 22 = 0 := zero _
  have zeroA : 0 = regField w 18 ↔ bits w 21 18 = 0 := zero _
  have zeroB : 0 = regField w 14 ↔ bits w 17 14 = 0 := zero _
  simp only [zeroD, zeroA, zeroB]
  simp only [spoolLegal] at h
  split at h
  case isTrue hop => exact .inl ⟨hop, beq_iff_eq.mp h⟩
  split at h
  case isTrue hop => exact .inr (.inl ⟨hop, beq_iff_eq.mp h⟩)
  split at h
  case isTrue hop => exact .inr (.inr (.inl hop))
  split at h
  case isTrue hop => exact .inr (.inr (.inr (.inl ⟨hop, by simpa using h⟩)))
  split at h
  case isTrue hop => exact .inr (.inr (.inr (.inr (.inl ⟨hop, by simpa [and_assoc] using h⟩))))
  split at h
  case h_1 => exact absurd h Bool.false_ne_true
  case h_2 f hform =>
    refine .inr (.inr (.inr (.inr (.inr ⟨f, hform, ?_⟩))))
    simpa [and_assoc, imp_iff_not_or] using h

end Sys2Proof.Machine
end

section
/-!
SUPPORT. The FN fields of Spool words (Tables 8-5 to 8-8): each layout reads back what was written to it, and an assigned FN is what its
fields write.
-/
namespace Sys2Proof.Machine

-- ------------------------------------------------------------------ masks and bits

theorem fnMask_or (m : Nat) (f g : BitVec 14) : fnMask m (f ||| g) = (fnMask m f && fnMask m g) := by
  have split : (f ||| g) &&& ~~~BitVec.ofNat 14 m = (f &&& ~~~BitVec.ofNat 14 m) ||| (g &&& ~~~BitVec.ofNat 14 m) := by
    ext
    simp [Bool.and_or_distrib_right]
  simp only [fnMask, split]
  rw [Bool.eq_iff_iff]
  simp

theorem fnMask_iff {m : Nat} {f : BitVec 14} : fnMask m f = true ↔ f = f &&& BitVec.ofNat 14 m := by
  rw [fnMask, beq_iff_eq]
  constructor
  · intro h
    calc f = f &&& (BitVec.ofNat 14 m ||| ~~~BitVec.ofNat 14 m) := by rw [BitVec.or_not_self, BitVec.and_allOnes]
      _ = f &&& BitVec.ofNat 14 m := by rw [BitVec.and_or_distrib_left, h]; exact BitVec.or_zero
  · intro h
    rw [h, BitVec.and_assoc, BitVec.and_not_self]
    exact BitVec.and_zero

/-- The low bits of FN, masked, are the narrower field. -/
theorem setWidth_low {k : Nat} (hk : k ≤ 14) (f : BitVec 14) : (f.setWidth k).setWidth 14 = f &&& BitVec.ofNat 14 (2 ^ k - 1) := by
  apply BitVec.eq_of_toNat_eq
  have small : 2 ^ k - 1 < 2 ^ 14 := by
    have := Nat.pow_le_pow_right (n := 2) (by decide) hk
    omega
  rw [BitVec.toNat_and, BitVec.toNat_ofNat, Nat.mod_eq_of_lt small, Nat.and_two_pow_sub_one_eq_mod, BitVec.toNat_setWidth,
    BitVec.toNat_setWidth, Nat.mod_eq_of_lt ((Nat.mod_le _ _).trans_lt f.isLt)]

theorem fnBit_bit (i : Nat) (f : BitVec 14) : fnBit i (bit f i) = f &&& BitVec.ofNat 14 (2 ^ i) := by
  have single : BitVec.twoPow 14 i = BitVec.ofNat 14 (2 ^ i) := by
    apply BitVec.eq_of_toNat_eq
    rw [BitVec.toNat_twoPow, BitVec.toNat_ofNat]
  rw [← single, BitVec.and_twoPow, single]
  rfl

theorem fnNoWait_bit (f : BitVec 14) : fnNoWait (bit f 13) = f &&& 0x2000 := fnBit_bit 13 f

theorem fieldFin_low {n k m : Nat} [NeZero n] (hm : m = 2 ^ k) (hk : k ≤ 14) (f : BitVec 14) (hn : f.toNat % m < n) :
    BitVec.ofNat 14 (fieldFin n (f.toNat % m)).val = f &&& BitVec.ofNat 14 (m - 1) := by
  subst hm
  rw [← setWidth_low hk]
  apply BitVec.eq_of_toNat_eq
  simp [fieldFin, Fin.ofNat, Nat.mod_eq_of_lt hn]

-- ------------------------------------------------------------------ what a layout reads back

theorem noWaitFn_reads (nw : Bool) : let f := fnNoWait nw
    fnMask 0x2000 f = true ∧ bit f 13 = nw := by
  revert nw
  decide

theorem txcwFn_reads (on nw : Bool) : let f := fnBit 0 on ||| fnNoWait nw
    fnMask 0x2001 f = true ∧ bit f 0 = on ∧ bit f 13 = nw := by
  revert on nw
  decide

theorem txsymFn_reads (src : Fin 3) (pre qry nw : Bool) :
    let f := BitVec.ofNat 14 src.val ||| fnBit 2 pre ||| fnBit 3 qry ||| fnNoWait nw
    (fnMask 0x200F f && f &&& 3 != 3) = true ∧ fieldFin 3 (f.toNat % 4) = src ∧ bit f 2 = pre ∧ bit f 3 = qry ∧ bit f 13 = nw := by
  revert src pre qry nw
  decide

theorem txiFn_reads (txi nw : Bool) : let f := fnBit 12 txi ||| fnNoWait nw
    fnMask 0x3000 f = true ∧ bit f 12 = txi ∧ bit f 13 = nw := by
  revert txi nw
  decide

theorem ltxFn_reads (sf : Fin 5) (smode ack fcs nw : Bool) (hform : (!(smode && sf != 0)) = true) :
    let f := BitVec.ofNat 14 sf.val ||| fnBit 7 smode ||| fnBit 8 ack ||| fnBit 9 fcs ||| fnNoWait nw
    (fnMask 0x2387 f && decide (f.toNat % 8 ≤ 4) && !(bit f 7 && f &&& 7 != 0)) = true ∧ fieldFin 5 (f.toNat % 8) = sf ∧
      bit f 7 = smode ∧ bit f 8 = ack ∧ bit f 9 = fcs ∧ bit f 13 = nw := by
  revert sf smode ack fcs nw
  decide

theorem lrxFn_reads (lanes : BitVec 6) (nw : Bool) : let f := lanes.setWidth 14 ||| fnNoWait nw
    fnMask 0x203F f = true ∧ f.setWidth 6 = lanes ∧ bit f 13 = nw := by
  revert lanes nw
  decide

theorem crcFn_reads (preset : Fin 5) (mode : Fin 3) (hpreset : preset ≠ 0) : let f := BitVec.ofNat 14 (preset.val + 8 * mode.val)
    (fnMask 0x1F f && decide (1 ≤ f.toNat % 8 ∧ f.toNat % 8 ≤ 4 ∧ f.toNat / 8 ≤ 2)) = true ∧ fieldFin 5 (f.toNat % 8) = preset ∧
      fieldFin 3 (f.toNat / 8) = mode := by
  revert preset mode
  decide

theorem postFn_reads (n : Fin 9) (hand : Bool) : let f := BitVec.ofNat 14 n.val ||| fnBit 4 hand
    (fnMask 0x1F f && decide (f.toNat % 16 ≤ 8)) = true ∧ fieldFin 9 (f.toNat % 16) = n ∧ bit f 4 = hand := by
  revert n hand
  decide

theorem evtFn_reads (kind : Fin 3) : let f := BitVec.ofNat 14 kind.val
    (fnMask 0x3 f && f &&& 3 != 3) = true ∧ fieldFin 3 f.toNat = kind := by
  revert kind
  decide

theorem toutFn_reads (act : Fin 5) (hact : act ≠ 0) : let f := BitVec.ofNat 14 act.val
    decide (1 ≤ f.toNat ∧ f.toNat ≤ 4) = true ∧ fieldFin 5 f.toNat = act := by
  revert act
  decide

theorem aesbFn_reads (dec : Bool) : let f := fnBit 0 dec
    fnMask 0x1 f = true ∧ bit f 0 = dec := by
  revert dec
  decide

theorem srcFn_reads (src : BitVec 4) : let f := src.setWidth 14
    fnMask 0xF f = true ∧ f.setWidth 4 = src := by
  revert src
  decide

theorem partFn_reads (src : BitVec 2) : let f := src.setWidth 14
    fnMask 0x3 f = true ∧ f.setWidth 2 = src := by
  revert src
  decide

theorem rxwinFn_flags (pclen crc nw : Bool) : let f := fnBit 10 pclen ||| fnBit 11 crc ||| fnNoWait nw
    fnMask 0x2FFF f = true ∧ f.setWidth 10 = 0 ∧ bit f 10 = pclen ∧ bit f 11 = crc ∧ bit f 13 = nw := by
  revert pclen crc nw
  decide

/-- RXWIN's count is 0 where FN's low ten bits are. -/
theorem and_count_ne_zero (f : BitVec 14) : (f &&& 0x3FF != 0) = (f.setWidth 10 != 0) := by
  have masked : (f.setWidth 10).setWidth 14 = f &&& 0x3FF := setWidth_low (k := 10) (by decide) f
  have back : ((f.setWidth 10).setWidth 14).setWidth 10 = f.setWidth 10 := by
    rw [BitVec.setWidth_setWidth_of_le _ (by decide), BitVec.setWidth_eq]
  have zero : f &&& 0x3FF = 0 ↔ f.setWidth 10 = 0 :=
    ⟨fun h => by rw [← back, masked, h]; rfl, fun h => by rw [← masked, h]; rfl⟩
  rw [Bool.eq_iff_iff, bne_iff_ne, bne_iff_ne]
  exact not_congr zero

theorem rxwinFn_reads (count : BitVec 10) (pclen crc nw : Bool) (hform : (!(pclen && count != 0)) = true) :
    let f := count.setWidth 14 ||| fnBit 10 pclen ||| fnBit 11 crc ||| fnNoWait nw
    (fnMask 0x2FFF f && !(bit f 10 && f &&& 0x3FF != 0)) = true ∧ f.setWidth 10 = count ∧ bit f 10 = pclen ∧ bit f 11 = crc ∧
      bit f 13 = nw := by
  intro f
  obtain ⟨hmask, hlow, hpclen, hcrc, hnw⟩ := rxwinFn_flags pclen crc nw
  have parts : f = count.setWidth 14 ||| (fnBit 10 pclen ||| fnBit 11 crc ||| fnNoWait nw) := by
    simp only [f, BitVec.or_assoc]
  have back : (count.setWidth 14).setWidth 10 = count := by
    rw [BitVec.setWidth_setWidth_of_le _ (by decide), BitVec.setWidth_eq]
  have low : f.setWidth 10 = count := by
    rw [parts, BitVec.setWidth_or, hlow, back]
    exact BitVec.or_zero
  have high : ∀ i, 10 ≤ i → bit f i = bit (fnBit 10 pclen ||| fnBit 11 crc ||| fnNoWait nw) i := fun i hi => by
    simp [parts, bit, BitVec.getLsbD_of_ge count i hi]
  have below : fnMask 0x2FFF (count.setWidth 14) = true := by
    rw [fnMask, ← back, setWidth_low (by decide), BitVec.and_assoc]
    exact beq_iff_eq.mpr BitVec.and_zero
  refine ⟨?legal, low, (high 10 (by decide)).trans hpclen, (high 11 (by decide)).trans hcrc, (high 13 (by decide)).trans hnw⟩
  rw [and_count_ne_zero, low, (high 10 (by decide)).trans hpclen, hform, parts, fnMask_or, below, hmask]
  rfl

-- ------------------------------------------------------------------ what the fields of an assigned FN write

section Written
variable {f : BitVec 14}

theorem noWaitFn_of_mask (h : fnMask 0x2000 f = true) : fnNoWait (bit f 13) = f := by
  rw [fnNoWait_bit]
  exact (fnMask_iff.mp h).symm

theorem txcwFn_of_mask (h : fnMask 0x2001 f = true) : fnBit 0 (bit f 0) ||| fnNoWait (bit f 13) = f := by
  rw [fnNoWait_bit, fnBit_bit, ← BitVec.and_or_distrib_left]
  exact (fnMask_iff.mp h).symm

theorem txiFn_of_mask (h : fnMask 0x3000 f = true) : fnBit 12 (bit f 12) ||| fnNoWait (bit f 13) = f := by
  rw [fnNoWait_bit, fnBit_bit, ← BitVec.and_or_distrib_left]
  exact (fnMask_iff.mp h).symm

theorem low_of_ne_three (h : f &&& 3 ≠ 3) : f.toNat % 4 < 3 := by
  have masked : (f &&& 3).toNat = f.toNat % 4 := Nat.and_two_pow_sub_one_eq_mod f.toNat 2
  have three : (f &&& 3).toNat ≠ 3 := fun h3 => h (BitVec.eq_of_toNat_eq h3)
  omega

theorem txsymFn_of_legal (h : (fnMask 0x200F f && f &&& 3 != 3) = true) :
    BitVec.ofNat 14 (fieldFin 3 (f.toNat % 4)).val ||| fnBit 2 (bit f 2) ||| fnBit 3 (bit f 3) ||| fnNoWait (bit f 13) = f := by
  obtain ⟨hmask, hne⟩ := (Bool.and_eq_true _ _).mp h
  have low := low_of_ne_three (bne_iff_ne.mp hne)
  rw [fieldFin_low (n := 3) (m := 4) (k := 2) rfl (by decide) f low, fnNoWait_bit, fnBit_bit, fnBit_bit]
  simp only [← BitVec.and_or_distrib_left]
  exact (fnMask_iff.mp hmask).symm

theorem rxwinFn_of_mask (h : fnMask 0x2FFF f = true) :
    (f.setWidth 10).setWidth 14 ||| fnBit 10 (bit f 10) ||| fnBit 11 (bit f 11) ||| fnNoWait (bit f 13) = f := by
  rw [setWidth_low (by decide), fnNoWait_bit, fnBit_bit, fnBit_bit]
  simp only [← BitVec.and_or_distrib_left]
  exact (fnMask_iff.mp h).symm

theorem ltxFn_of_mask (h : fnMask 0x2387 f = true) (hsf : f.toNat % 8 ≤ 4) :
    BitVec.ofNat 14 (fieldFin 5 (f.toNat % 8)).val ||| fnBit 7 (bit f 7) ||| fnBit 8 (bit f 8) ||| fnBit 9 (bit f 9) |||
      fnNoWait (bit f 13) = f := by
  rw [fieldFin_low (n := 5) (m := 8) (k := 3) rfl (by decide) f (Nat.lt_succ_of_le hsf), fnNoWait_bit, fnBit_bit, fnBit_bit,
    fnBit_bit]
  simp only [← BitVec.and_or_distrib_left]
  exact (fnMask_iff.mp h).symm

theorem lrxFn_of_mask (h : fnMask 0x203F f = true) : (f.setWidth 6).setWidth 14 ||| fnNoWait (bit f 13) = f := by
  rw [setWidth_low (by decide), fnNoWait_bit, ← BitVec.and_or_distrib_left]
  exact (fnMask_iff.mp h).symm

theorem srcFn_of_mask (h : fnMask 0xF f = true) : (f.setWidth 4).setWidth 14 = f := by
  rw [setWidth_low (by decide)]
  exact (fnMask_iff.mp h).symm

theorem partFn_of_mask (h : fnMask 0x3 f = true) : (f.setWidth 2).setWidth 14 = f := by
  rw [setWidth_low (by decide)]
  exact (fnMask_iff.mp h).symm

theorem aesbFn_of_mask (h : fnMask 0x1 f = true) : fnBit 0 (bit f 0) = f := by
  rw [fnBit_bit]
  exact (fnMask_iff.mp h).symm

theorem postFn_of_mask (h : fnMask 0x1F f = true) (hn : f.toNat % 16 ≤ 8) :
    BitVec.ofNat 14 (fieldFin 9 (f.toNat % 16)).val ||| fnBit 4 (bit f 4) = f := by
  rw [fieldFin_low (n := 9) (m := 16) (k := 4) rfl (by decide) f (Nat.lt_succ_of_le hn), fnBit_bit, ← BitVec.and_or_distrib_left]
  exact (fnMask_iff.mp h).symm

theorem crcFn_of_legal (hpreset : f.toNat % 8 ≤ 4) (hmode : f.toNat / 8 ≤ 2) :
    BitVec.ofNat 14 ((fieldFin 5 (f.toNat % 8)).val + 8 * (fieldFin 3 (f.toNat / 8)).val) = f := by
  apply BitVec.eq_of_toNat_eq
  simp only [fieldFin, Fin.ofNat, BitVec.toNat_ofNat]
  omega

theorem ofNat_fieldFin {n : Nat} [NeZero n] (h : f.toNat < n) : BitVec.ofNat 14 (fieldFin n f.toNat).val = f := by
  rw [fieldFin, Fin.val_ofNat, Nat.mod_eq_of_lt h, BitVec.ofNat_toNat, BitVec.setWidth_eq]

theorem ofNat_of_toNat {n : Nat} (h : f.toNat = n) : BitVec.ofNat 14 n = f := by
  rw [← h, BitVec.ofNat_toNat, BitVec.setWidth_eq]

theorem fieldFin_ne_zero {n v : Nat} [NeZero n] (hpos : 1 ≤ v) (hv : v < n) : (fieldFin n v != 0) = true := by
  refine bne_iff_ne.mpr fun h => ?_
  have value : v % n = 0 := congrArg Fin.val h
  rw [Nat.mod_eq_of_lt hv] at value
  omega

/-- LTX's SF code is 0 where FN's low three bits are. -/
theorem and_sf_ne_zero (hsf : f.toNat % 8 ≤ 4) : (f &&& 7 != 0) = (fieldFin 5 (f.toNat % 8) != 0) := by
  have masked : (f &&& 7).toNat = f.toNat % 8 := Nat.and_two_pow_sub_one_eq_mod f.toNat 3
  have value : (fieldFin 5 (f.toNat % 8)).val = f.toNat % 8 := Nat.mod_eq_of_lt (by omega)
  rw [Bool.eq_iff_iff, bne_iff_ne, bne_iff_ne, ne_eq, ne_eq, ← BitVec.toNat_inj, Fin.ext_iff, masked, value]
  rfl

theorem evtFn_of_legal (h : (fnMask 0x3 f && f &&& 3 != 3) = true) : BitVec.ofNat 14 (fieldFin 3 f.toNat).val = f := by
  obtain ⟨hmask, hne⟩ := (Bool.and_eq_true _ _).mp h
  have value : f.toNat = f.toNat % 4 := by
    conv_lhs => rw [fnMask_iff.mp hmask]
    exact Nat.and_two_pow_sub_one_eq_mod f.toNat 2
  have low := low_of_ne_three (bne_iff_ne.mp hne)
  exact ofNat_fieldFin (by omega)

end Written

end Sys2Proof.Machine
end

section
/-!
PROOFS. Spool's decoder (R225, R226): the words of rows decode to them, and every word spells one row.
-/
namespace Sys2Proof.Machine

/-- Decoding gives the row back, format by format. -/
theorem spoolDecode_spoolWord {i : Instr} {x : Tenant} {w : BitVec 32} (hw : spoolWord i = some (x, w))
    (hok : spoolFormOk i = true) : spoolDecode x w = i := by
  dsimp only [spoolDecode]
  unfold spoolWord at hw
  split at hw
  all_goals simp only [Option.some.injEq, Prod.mk.injEq, reduceCtorEq] at hw
  all_goals obtain ⟨rfl, rfl⟩ := hw
  -- registers alone
  case h_1 | h_2 | h_3 | h_4 | h_5 | h_6 | h_7 | h_8 | h_9 | h_10 | h_20 | h_22 | h_48 | h_51 | h_55 | h_56 | h_57 =>
    rw [spoolLegal_wordA rfl rfl rfl, wordA_op, wordA_d, wordA_a, wordA_b, wordA_fn]
    rfl
  -- BUF
  case h_42 | h_43 | h_44 | h_45 | h_46 | h_47 =>
    rw [wordBuf, spoolLegal_wordA rfl rfl rfl, wordA_op, wordA_d, wordA_a, wordA_b, wordA_fn]
    rfl
  -- format I
  case h_11 | h_12 | h_13 | h_14 | h_15 | h_16 | h_21 | h_23 | h_40 | h_41 =>
    rw [spoolLegal_wordI (by decide) (by simp) (by simp), wordI_op, wordI_d, wordI_a, wordI_imm]
    rfl
  -- format J
  case h_17 | h_18 | h_19 =>
    rw [spoolLegal_wordJ (by simp), wordJ_op]
    simp
  -- the no-wait bit alone
  case h_26 | h_27 | h_28 | h_32 | h_33 | h_34 | h_39 =>
    rw [spoolLegal_wordA rfl (noWaitFn_reads _).1 rfl, wordA_op, wordA_d, wordA_a, wordA_b, wordA_fn, (noWaitFn_reads _).2]
    rfl
  -- the FN fields of one instruction each
  case h_35 | h_38 =>
    obtain ⟨hmask, htxi, hnw⟩ := txiFn_reads _ _
    rw [spoolLegal_wordA rfl hmask rfl, wordA_op, wordA_d, wordA_a, wordA_b, wordA_fn, htxi, hnw]
    rfl
  case h_24 src =>
    obtain ⟨hmask, hsrc⟩ := srcFn_reads src
    rw [spoolLegal_wordA rfl hmask rfl, wordA_op, wordA_d, wordA_a, wordA_b, wordA_fn, hsrc]
    rfl
  case h_25 part =>
    obtain ⟨hmask, hpart⟩ := partFn_reads part
    rw [spoolLegal_wordA rfl hmask rfl, wordA_op, wordA_d, wordA_a, wordA_b, wordA_fn, hpart]
    rfl
  case h_29 on nw =>
    obtain ⟨hmask, hon, hnw⟩ := txcwFn_reads on nw
    rw [spoolLegal_wordA rfl hmask rfl, wordA_op, wordA_d, wordA_a, wordA_b, wordA_fn, hon, hnw]
    rfl
  case h_30 src pre qry nw =>
    obtain ⟨hfn, hsrc, hpre, hqry, hnw⟩ := txsymFn_reads src pre qry nw
    rw [spoolLegal_wordA rfl hfn rfl, wordA_op, wordA_d, wordA_a, wordA_b, wordA_fn, hsrc, hpre, hqry, hnw]
    rfl
  case h_31 count pclen crc nw =>
    obtain ⟨hfn, hcount, hpclen, hcrc, hnw⟩ := rxwinFn_reads count pclen crc nw hok
    rw [spoolLegal_wordA rfl hfn rfl, wordA_op, wordA_d, wordA_a, wordA_b, wordA_fn, hcount, hpclen, hcrc, hnw]
    rfl
  case h_36 sf smode ack fcs nw =>
    obtain ⟨hfn, hsf, hsmode, hack, hfcs, hnw⟩ := ltxFn_reads sf smode ack fcs nw hok
    rw [spoolLegal_wordA rfl hfn rfl, wordA_op, wordA_d, wordA_a, wordA_b, wordA_fn, hsf, hsmode, hack, hfcs, hnw]
    rfl
  case h_37 lanes nw =>
    obtain ⟨hmask, hlanes, hnw⟩ := lrxFn_reads lanes nw
    rw [spoolLegal_wordA rfl hmask rfl, wordA_op, wordA_d, wordA_a, wordA_b, wordA_fn, hlanes, hnw]
    rfl
  case h_49 dec =>
    obtain ⟨hmask, hdec⟩ := aesbFn_reads dec
    rw [spoolLegal_wordA rfl hmask rfl, wordA_op, wordA_d, wordA_a, wordA_b, wordA_fn, hdec]
    rfl
  case h_50 preset mode =>
    obtain ⟨hfn, hpreset, hmode⟩ := crcFn_reads preset mode (bne_iff_ne.mp hok)
    rw [spoolLegal_wordA rfl hfn rfl, wordA_op, wordA_d, wordA_a, wordA_b, wordA_fn, hpreset, hmode]
    rfl
  case h_52 n hand =>
    obtain ⟨hfn, hn, hhand⟩ := postFn_reads n hand
    rw [spoolLegal_wordA rfl hfn rfl, wordA_op, wordA_d, wordA_a, wordA_b, wordA_fn, hn, hhand]
    rfl
  case h_53 kind =>
    obtain ⟨hfn, hkind⟩ := evtFn_reads kind
    rw [spoolLegal_wordA rfl hfn rfl, wordA_op, wordA_d, wordA_a, wordA_b, wordA_fn, hkind]
    rfl
  case h_54 act =>
    obtain ⟨hfn, hact⟩ := toutFn_reads act (bne_iff_ne.mp hok)
    rw [spoolLegal_wordA rfl hfn rfl, wordA_op, wordA_d, wordA_a, wordA_b, wordA_fn, hact]
    rfl
  case h_58 =>
    exact if_pos hok

/-- Settles O59. -/
theorem spoolWordsRoundTrip : Obligations.SpoolWordsRoundTrip := by
  unfold Obligations.SpoolWordsRoundTrip
  exact fun i x w hword hform => spoolDecode_spoolWord hword hform

-- ------------------------------------------------------------------ every word spells a row

section FormatA
variable {x : Tenant} {op : BitVec 6} {d a b : Fin 16} {F : BitVec 14}

/-- Words with equal fields are one row's. -/
theorem row {op' : BitVec 6} {d' a' b' : Fin 16} {fn : BitVec 14} (hop : op.toNat = op'.toNat) (hd : d' = d) (ha : a' = a)
    (hb : b' = b) (hfn : fn = F) : some (x, wordA op' d' a' b' fn) = some (x, wordA op d a b F) := by
  rw [BitVec.eq_of_toNat_eq hop, hd, ha, hb, hfn]

/-- ADD to MUL (Table 8-4). -/
theorem exists_aluRow (hop : op.toNat ≤ 0x08) (hfn : 0 = F) :
    ∃ i, spoolWord i = some (x, wordA op d a b F) ∧ spoolFormOk i = true := by
  have ops : op.toNat = 0 ∨ op.toNat = 1 ∨ op.toNat = 2 ∨ op.toNat = 3 ∨ op.toNat = 4 ∨ op.toNat = 5 ∨ op.toNat = 6 ∨
    op.toNat = 7 ∨ op.toNat = 8 := by omega
  rcases ops with hop | hop | hop | hop | hop | hop | hop | hop | hop
  · exact ⟨.spAdd x d a b, row hop rfl rfl rfl hfn, rfl⟩
  · exact ⟨.spSub x d a b, row hop rfl rfl rfl hfn, rfl⟩
  · exact ⟨.spAnd x d a b, row hop rfl rfl rfl hfn, rfl⟩
  · exact ⟨.spOr x d a b, row hop rfl rfl rfl hfn, rfl⟩
  · exact ⟨.spXor x d a b, row hop rfl rfl rfl hfn, rfl⟩
  · exact ⟨.spShl x d a b, row hop rfl rfl rfl hfn, rfl⟩
  · exact ⟨.spShr x d a b, row hop rfl rfl rfl hfn, rfl⟩
  · exact ⟨.spAsr x d a b, row hop rfl rfl rfl hfn, rfl⟩
  · exact ⟨.spMul x d a b, row hop rfl rfl rfl hfn, rfl⟩

/-- YIELD, HALT and MREAD (8.10). -/
theorem exists_controlRow (hop : op.toNat = 0x3F) (hfn : F.toNat ≤ 2) :
    ∃ i, spoolWord i = some (x, wordA op d a b F) ∧ spoolFormOk i = true := by
  have codes : F.toNat = 0 ∨ F.toNat = 1 ∨ F.toNat = 2 := by omega
  rcases codes with hf | hf | hf
  · exact ⟨.spYield x d a b, row hop rfl rfl rfl (ofNat_of_toNat hf), rfl⟩
  · exact ⟨.spHalt x d a b, row hop rfl rfl rfl (ofNat_of_toNat hf), rfl⟩
  · exact ⟨.spMread x d a b, row hop rfl rfl rfl (ofNat_of_toNat hf), rfl⟩

variable {f : FormA} (hform : formA op.toNat F = some f) (hfn : f.fn F = true) (hd : f.d0 = true → 0 = d)
  (ha : f.a0 = true → 0 = a) (hb : f.b0 = true → 0 = b)
include hform hfn hd ha hb

/-- An assigned format A word is the word of a row. -/
theorem exists_formARow : ∃ i, spoolWord i = some (x, wordA op d a b F) ∧ spoolFormOk i = true := by
  simp only [formA] at hform
  split at hform
  case isTrue hop =>
    obtain rfl := Option.some.inj hform
    exact exists_aluRow hop (beq_iff_eq.mp hfn).symm
  split at hform
  case h_20 hop =>
    split at hform
    case h_7 => exact absurd hform (Option.some_ne_none f).symm
    all_goals obtain rfl := Option.some.inj hform
    case h_1 hf => exact ⟨.spBufAlloc x d, row hop rfl (ha rfl) (hb rfl) (ofNat_of_toNat hf), rfl⟩
    case h_2 hf => exact ⟨.spBufFree x d a, row hop rfl rfl (hb rfl) (ofNat_of_toNat hf), rfl⟩
    case h_3 hf => exact ⟨.spBufLen x d a, row hop rfl rfl (hb rfl) (ofNat_of_toNat hf), rfl⟩
    case h_4 hf => exact ⟨.spBufRdw x d a b, row hop rfl rfl rfl (ofNat_of_toNat hf), rfl⟩
    case h_5 hf => exact ⟨.spBufWrw x d a b, row hop rfl rfl rfl (ofNat_of_toNat hf), rfl⟩
    case h_6 hf => exact ⟨.spBufSetlen x d a b, row hop rfl rfl rfl (ofNat_of_toNat hf), rfl⟩
  case h_29 => exact absurd hform (Option.some_ne_none f).symm
  all_goals obtain rfl := Option.some.inj hform
  case h_1 hop => exact ⟨.spCmp x a b, row hop (hd rfl) rfl rfl (beq_iff_eq.mp hfn).symm, rfl⟩
  case h_2 hop => exact ⟨.spJr x a, row hop (hd rfl) rfl (hb rfl) (beq_iff_eq.mp hfn).symm, rfl⟩
  case h_3 hop => exact ⟨.spWaitt x d a b F, row hop rfl rfl rfl rfl, rfl⟩
  case h_4 hop => exact ⟨.spWaite x d a b (F.setWidth 4), row hop rfl rfl rfl (srcFn_of_mask hfn), rfl⟩
  case h_5 hop => exact ⟨.spGett x d a b (F.setWidth 2), row hop rfl rfl rfl (partFn_of_mask hfn), rfl⟩
  case h_6 hop => exact ⟨.spHop x d a (bit F 13), row hop rfl rfl (hb rfl) (noWaitFn_of_mask hfn), rfl⟩
  case h_7 hop => exact ⟨.spPwr x d a (bit F 13), row hop rfl rfl (hb rfl) (noWaitFn_of_mask hfn), rfl⟩
  case h_8 hop => exact ⟨.spAsel x d a (bit F 13), row hop rfl rfl (hb rfl) (noWaitFn_of_mask hfn), rfl⟩
  case h_9 hop => exact ⟨.spTxcw x d (bit F 0) (bit F 13), row hop rfl (ha rfl) (hb rfl) (txcwFn_of_mask hfn), rfl⟩
  case h_10 hop =>
    exact ⟨.spTxsym x d a b (fieldFin 3 (F.toNat % 4)) (bit F 2) (bit F 3) (bit F 13),
      row hop rfl rfl rfl (txsymFn_of_legal hfn), rfl⟩
  case h_11 hop =>
    obtain ⟨hmask, hcount⟩ := (Bool.and_eq_true _ _).mp hfn
    refine ⟨.spRxwin x d a b (F.setWidth 10) (bit F 10) (bit F 11) (bit F 13), row hop rfl rfl rfl (rxwinFn_of_mask hmask), ?_⟩
    rwa [and_count_ne_zero] at hcount
  case h_12 hop => exact ⟨.spRssi x d (bit F 13), row hop rfl (ha rfl) (hb rfl) (noWaitFn_of_mask hfn), rfl⟩
  case h_13 hop => exact ⟨.spSniff x d (bit F 13), row hop rfl (ha rfl) (hb rfl) (noWaitFn_of_mask hfn), rfl⟩
  case h_14 hop => exact ⟨.spRfoff x d (bit F 13), row hop rfl (ha rfl) (hb rfl) (noWaitFn_of_mask hfn), rfl⟩
  case h_15 hop => exact ⟨.spLoff x d (bit F 13), row hop rfl (ha rfl) (hb rfl) (noWaitFn_of_mask hfn), rfl⟩
  case h_16 hop => exact ⟨.spLch x d a (bit F 12) (bit F 13), row hop rfl rfl (hb rfl) (txiFn_of_mask hfn), rfl⟩
  case h_17 hop =>
    obtain ⟨hle, hsmode⟩ := (Bool.and_eq_true _ _).mp hfn
    obtain ⟨hmask, hsf⟩ := (Bool.and_eq_true _ _).mp hle
    refine ⟨.spLtx x d a (fieldFin 5 (F.toNat % 8)) (bit F 7) (bit F 8) (bit F 9) (bit F 13),
      row hop rfl rfl (hb rfl) (ltxFn_of_mask hmask (of_decide_eq_true hsf)), ?_⟩
    rwa [and_sf_ne_zero (of_decide_eq_true hsf)] at hsmode
  case h_18 hop => exact ⟨.spLrx x d a b (F.setWidth 6) (bit F 13), row hop rfl rfl rfl (lrxFn_of_mask hfn), rfl⟩
  case h_19 hop => exact ⟨.spLcca x d (bit F 12) (bit F 13), row hop rfl (ha rfl) (hb rfl) (txiFn_of_mask hfn), rfl⟩
  case h_21 hop => exact ⟨.spKsel x d a b, row hop rfl rfl rfl (beq_iff_eq.mp hfn).symm, rfl⟩
  case h_22 hop => exact ⟨.spRng x d a b, row hop rfl rfl rfl (beq_iff_eq.mp hfn).symm, rfl⟩
  case h_23 hop => exact ⟨.spAesb x d a b (bit F 0), row hop rfl rfl rfl (aesbFn_of_mask hfn), rfl⟩
  case h_24 hop =>
    obtain ⟨-, hrange⟩ := (Bool.and_eq_true _ _).mp hfn
    obtain ⟨hlow, hpreset, hmode⟩ := of_decide_eq_true hrange
    exact ⟨.spCrc x d a b (fieldFin 5 (F.toNat % 8)) (fieldFin 3 (F.toNat / 8)),
      row hop rfl rfl rfl (crcFn_of_legal hpreset hmode), fieldFin_ne_zero hlow (Nat.lt_succ_of_le hpreset)⟩
  case h_25 hop =>
    obtain ⟨hmask, hn⟩ := (Bool.and_eq_true _ _).mp hfn
    exact ⟨.spPost x d a b (fieldFin 9 (F.toNat % 16)) (bit F 4),
      row hop rfl rfl rfl (postFn_of_mask hmask (of_decide_eq_true hn)), rfl⟩
  case h_26 hop =>
    exact ⟨.spEvt x d a (fieldFin 3 F.toNat), row hop rfl rfl (hb rfl) (evtFn_of_legal hfn), rfl⟩
  case h_27 hop =>
    obtain ⟨hlow, hhigh⟩ := of_decide_eq_true hfn
    exact ⟨.spTout x d (fieldFin 5 F.toNat), row hop rfl (ha rfl) (hb rfl) (ofNat_fieldFin (Nat.lt_succ_of_le hhigh)),
      fieldFin_ne_zero hlow (Nat.lt_succ_of_le hhigh)⟩
  case h_28 hop => exact exists_controlRow hop (of_decide_eq_true hfn)

end FormatA

variable {w : BitVec 32}

/-- Every assigned word is the word of a row that its encoding admits (R225, R226). -/
theorem exists_row (x : Tenant) (h : spoolLegal w = true) : ∃ i, spoolWord i = some (x, w) ∧ spoolFormOk i = true := by
  have rowI : ∀ {op : BitVec 6} {d a : Fin 16}, bits w 31 26 = op.toNat → d = regField w 22 → a = regField w 18 →
      some (x, wordI op d a (w.setWidth 18)) = some (x, w) := fun hop hd ha => by
    rw [wordI_of_fields hop hd ha]
  have rowJ : ∀ {op : BitVec 6} {target : BitVec 10}, bits w 31 26 = op.toNat → bits w 25 22 ≤ 7 → bits w 21 10 = 0 →
      target = w.setWidth 10 → some (x, wordJ op (fieldFin 8 (regField w 22).val) target) = some (x, w) :=
    fun hop hd hgap ht => by rw [wordJ_of_fields hop hd hgap ht]
  rcases spoolLegal_inv h with ⟨hop | hop, hd⟩ | ⟨hop | hop, ha⟩ | hop | ⟨hop | hop, hd, hgap⟩ | ⟨hop, hd, hgap, ht⟩ |
    ⟨f, hform, hfn, hd, ha, hb⟩
  · exact ⟨.spCmpi x (regField w 18) (w.setWidth 18), rowI hop hd rfl, rfl⟩
  · exact ⟨.spWaitd x (regField w 18) (w.setWidth 18), rowI hop hd rfl, rfl⟩
  · exact ⟨.spLui x (regField w 22) (w.setWidth 18), rowI hop rfl ha, rfl⟩
  · exact ⟨.spDjnz x (regField w 22) (w.setWidth 18), rowI hop rfl ha, rfl⟩
  · have ops : bits w 31 26 = 0x0A ∨ bits w 31 26 = 0x0B ∨ bits w 31 26 = 0x0C ∨ bits w 31 26 = 0x0D ∨ bits w 31 26 = 0x34 ∨
      bits w 31 26 = 0x35 := by omega
    rcases ops with hop | hop | hop | hop | hop | hop
    · exact ⟨.spAddi x (regField w 22) (regField w 18) (w.setWidth 18), rowI hop rfl rfl, rfl⟩
    · exact ⟨.spAndi x (regField w 22) (regField w 18) (w.setWidth 18), rowI hop rfl rfl, rfl⟩
    · exact ⟨.spOri x (regField w 22) (regField w 18) (w.setWidth 18), rowI hop rfl rfl, rfl⟩
    · exact ⟨.spXori x (regField w 22) (regField w 18) (w.setWidth 18), rowI hop rfl rfl, rfl⟩
    · exact ⟨.spLd x (regField w 22) (regField w 18) (w.setWidth 18), rowI hop rfl rfl, rfl⟩
    · exact ⟨.spSt x (regField w 22) (regField w 18) (w.setWidth 18), rowI hop rfl rfl, rfl⟩
  · exact ⟨.spJ x (fieldFin 8 (regField w 22).val) (w.setWidth 10), rowJ hop hd hgap rfl, rfl⟩
  · exact ⟨.spCall x (fieldFin 8 (regField w 22).val) (w.setWidth 10), rowJ hop hd hgap rfl, rfl⟩
  · have zero : 0 = w.setWidth 10 := by
      apply BitVec.eq_of_toNat_eq
      rw [BitVec.toNat_setWidth]
      simpa [bits] using ht.symm
    exact ⟨.spRet x (fieldFin 8 (regField w 22).val), rowJ hop hd hgap zero, rfl⟩
  · have opcode : (BitVec.ofNat 6 (bits w 31 26)).toNat = bits w 31 26 := by
      rw [BitVec.toNat_ofNat]
      exact Nat.mod_mod _ _
    have row := exists_formARow (x := x) (op := BitVec.ofNat 6 (bits w 31 26)) (by rw [opcode]; exact hform) hfn hd ha hb
    rwa [wordA_of_fields opcode.symm rfl rfl rfl rfl] at row

/-- A Spool row acts through the issue of its word, or not at all. -/
theorem exec_spoolRow {i : Instr} {x : Tenant} {v : BitVec 32} (hword : spoolWord i = some (x, v)) :
    (∃ body, ∀ s, exec i s = .next (issue x v body s)) ∨ ∀ s, exec i s = .next s := by
  unfold spoolWord at hword
  split at hword
  all_goals simp only [Option.some.injEq, Prod.mk.injEq, reduceCtorEq] at hword
  all_goals obtain ⟨rfl, rfl⟩ := hword
  case h_58 x w =>
    cases hlegal : spoolLegal w
    · exact .inl ⟨spoolFault x 1, fun s => by
        show execSpIllegal x w s = _
        rw [execSpIllegal, hlegal]
        rfl⟩
    · exact .inr fun s => if_pos hlegal
  all_goals exact .inl ⟨_, fun s => rfl⟩

/-- R225: a row whose word does not stand at the PC does not issue. -/
theorem issue_otherWord {x : Tenant} {w v : BitVec 32} {s : State} (h : AtWord x w s) (hv : v ≠ w) (body : State → State) :
    issue x v body s = s := by
  obtain ⟨hlive, hrun, hown, hstop, hpc, hword⟩ := h
  rw [issue, if_pos (by rw [hrun, hlive]; rfl), if_neg (by rw [hown]; decide), if_neg (by rw [hstop]; simp),
    if_neg (Nat.not_le.mpr hpc), if_neg (by rw [hword]; exact hv.symm)]

/-- R226. -/
theorem execSpIllegal_faults {x : Tenant} {s : State} (hillegal : spoolLegal w = false) (h : AtWord x w s) :
    execSpIllegal x w s = .next (spoolFault x 1 (issueMoment x s)) := by
  rw [execSpIllegal, hillegal, issue_at h]
  rfl

theorem spoolDecode_illegal (x : Tenant) (hillegal : spoolLegal w = false) : spoolDecode x w = .spIllegal x w := by
  rw [spoolDecode, hillegal]
  rfl

theorem spoolDecode_row (x : Tenant) (w : BitVec 32) :
    spoolWord (spoolDecode x w) = some (x, w) ∧ (spoolLegal w = false ↔ spoolDecode x w = .spIllegal x w) := by
  cases hlegal : spoolLegal w
  case false =>
    rw [spoolDecode_illegal x hlegal]
    exact ⟨rfl, iff_of_true rfl rfl⟩
  case true =>
    obtain ⟨i, hword, hform⟩ := exists_row x hlegal
    rw [spoolDecode_spoolWord hword hform]
    refine ⟨hword, iff_of_false Bool.noConfusion ?_⟩
    rintro rfl
    have unassigned : (!spoolLegal w) = true := hform
    rw [hlegal] at unassigned
    exact absurd unassigned (by decide)

/-- Settles O60: each word by the row that it spells, another word by what its row does not issue, the spec's words by decoding them. -/
theorem spoolDecodeTotal : Obligations.SpoolDecodeTotal := by
  unfold Obligations.SpoolDecodeTotal
  refine ⟨fun x w => ?spells, fun i x w v s h hword hv => ?other,
    fun _ => ⟨rfl, rfl, rfl, rfl, rfl, rfl, rfl, rfl, rfl, rfl, rfl, rfl, rfl⟩⟩
  case spells =>
    obtain ⟨hword, hillegal⟩ := spoolDecode_row x w
    refine ⟨hword, hillegal, fun s hunassigned h => ?_⟩
    rw [spoolDecode_illegal x hunassigned]
    exact execSpIllegal_faults hunassigned h
  case other =>
    rcases exec_spoolRow hword with ⟨body, hbody⟩ | hidle
    · rw [hbody, issue_otherWord h hv]
    · exact hidle s

end Sys2Proof.Machine
end

section
/-!
PROOFS. ALU, jumps, conditions, registers and the data RAM (8.2, 8.3, 8.5).
-/
namespace Sys2Proof.Machine

-- ------------------------------------------------------------------ the ALU

/-- R228, R229: D takes the result, the flags show it, C changes where the instruction tells it. -/
theorem aluStep_eq (x : Tenant) (d : Fin 16) (cycles : Nat) (f : Ctx → AluOut) (s : State) :
    aluStep x d cycles f s = retire x cycles (modCtx x (fun k => wr d (f s.ctxs[x]).val { k with
      z := decide ((f s.ctxs[x]).val = 0), n := (f s.ctxs[x]).val.msb, c := (f s.ctxs[x]).carry.getD s.ctxs[x].c }) s) :=
  congrArg (retire x cycles) (modCtx_congr x _ _ s rfl)

theorem cmpStep_eq (x : Tenant) (f : Ctx → AluOut) (s : State) :
    cmpStep x f s = retire x 1 (modCtx x (fun k => { k with
      z := decide ((f s.ctxs[x]).val = 0), n := (f s.ctxs[x]).val.msb, c := (f s.ctxs[x]).carry.getD s.ctxs[x].c }) s) :=
  congrArg (retire x 1) (modCtx_congr x _ _ s rfl)

section Alu
variable {x : Tenant} {w : BitVec 32} {s : State} (h : AtWord x w s)
include h

theorem issue_alu (d : Fin 16) (cycles : Nat) (f : Ctx → AluOut) :
    let u := issueMoment x s
    let o := f u.ctxs[x]
    (.next (issue x w (aluStep x d cycles f) s) : Host.Outcome State Fault Refusal) =
      .next (retire x cycles (modCtx x (fun k => wr d o.val { k with
        z := decide (o.val = 0), n := o.val.msb, c := o.carry.getD u.ctxs[x].c }) u)) :=
  congrArg _ ((issue_at h _).trans (aluStep_eq ..))

theorem issue_cmp (f : Ctx → AluOut) :
    let u := issueMoment x s
    let o := f u.ctxs[x]
    (.next (issue x w (cmpStep x f) s) : Host.Outcome State Fault Refusal) =
      .next (retire x 1 (modCtx x (fun k => { k with
        z := decide (o.val = 0), n := o.val.msb, c := o.carry.getD u.ctxs[x].c }) u)) :=
  congrArg _ ((issue_at h _).trans (cmpStep_eq ..))

end Alu

/-- Settles O6: each instruction by the result and the carry that its ALU function gives. -/
theorem spoolAluCompletes : Obligations.SpoolAluCompletes := by
  unfold Obligations.SpoolAluCompletes
  intro x d a b imm s u p q n old done flags
  exact ⟨fun h => issue_alu h d 1 fun k => aluAdd (rd k a) (rd k b), fun h => issue_alu h d 1 fun k => aluSub (rd k a) (rd k b),
    fun h => issue_alu h d 1 fun k => aluAnd (rd k a) (rd k b), fun h => issue_alu h d 1 fun k => aluOr (rd k a) (rd k b),
    fun h => issue_alu h d 1 fun k => aluXor (rd k a) (rd k b), fun h => issue_alu h d 1 fun k => aluShl (rd k a) (rd k b),
    fun h => issue_alu h d 1 fun k => aluShr (rd k a) (rd k b), fun h => issue_alu h d 1 fun k => aluAsr (rd k a) (rd k b),
    fun h => issue_alu h d 2 fun k => aluMul (rd k a) (rd k b), fun h => issue_cmp h fun k => aluSub (rd k a) (rd k b),
    fun h => issue_alu h d 1 fun k => aluAdd (rd k a) (immS imm), fun h => issue_alu h d 1 fun k => aluAnd (rd k a) (immZ imm),
    fun h => issue_alu h d 1 fun k => aluOr (rd k a) (immZ imm), fun h => issue_alu h d 1 fun k => aluXor (rd k a) (immZ imm),
    fun h => issue_cmp h fun k => aluSub (rd k a) (immS imm), fun h => issue_alu h d 1 fun _ => aluLui imm⟩

-- ------------------------------------------------------------------ jumps

theorem targetOk_code {k : Ctx} {t : Nat} (hslot : t < 1024) (hcode : t < k.codeLen) : targetOk k t = true := by
  rw [targetOk, decide_eq_true hslot, decide_eq_true hcode, Bool.or_true, Bool.and_self]

/-- R229: a jump inside the slot and the code takes two cycles. -/
theorem jumpTo_inside {x : Tenant} {t : Nat} {s : State} (hslot : t < 1024) (hcode : t < s.ctxs[x].codeLen) :
    jumpTo x t s = retireTo x t 2 s := by
  rw [jumpTo, targetOk_code hslot hcode, if_pos rfl]

section Jump
variable {x : Tenant} {cond : Fin 8} {s u : State} (hu : issueMoment x s = u)
include hu

section Conditional
variable {target : BitVec 10}

theorem execSpJ_taken (h : AtWord x (wordJ 0x10 cond target) s) (hcond : condHolds cond u.ctxs[x] = true)
    (hcode : target.toNat < u.ctxs[x].codeLen) : execSpJ x cond target s = .next (retireTo x target.toNat 2 u) := by
  rw [execSpJ, issue_at h, hu, if_pos hcond, jumpTo_inside target.isLt hcode]

theorem execSpJ_notTaken (h : AtWord x (wordJ 0x10 cond target) s) (hcond : condHolds cond u.ctxs[x] = false) :
    execSpJ x cond target s = .next (retire x 1 u) := by
  rw [execSpJ, issue_at h, hu, if_neg (Bool.eq_false_iff.mp hcond)]

/-- R234: PC + 1 goes on the return stack. -/
theorem execSpCall_taken (h : AtWord x (wordJ 0x11 cond target) s) (hcond : condHolds cond u.ctxs[x] = true)
    (hroom : u.ctxs[x].stack.length < 8) (hcode : target.toNat < u.ctxs[x].codeLen) :
    execSpCall x cond target s = .next (retireTo x target.toNat 2
      (modCtx x (fun k => { k with stack := BitVec.ofNat 10 (k.pc + 1) :: k.stack }) u)) := by
  rw [execSpCall, issue_at h, hu]
  simp only [hcond, if_neg (Nat.not_le.mpr hroom), targetOk_code target.isLt hcode, Bool.not_true, Bool.false_eq_true, if_false, if_true]

theorem execSpCall_notTaken (h : AtWord x (wordJ 0x11 cond target) s) (hcond : condHolds cond u.ctxs[x] = false) :
    execSpCall x cond target s = .next (retire x 1 u) := by
  rw [execSpCall, issue_at h, hu]
  simp only [hcond, Bool.not_false, if_true]

end Conditional

/-- R234: the PC comes off the return stack. -/
theorem execSpRet_taken {r : BitVec 10} {rest : List (BitVec 10)} (h : AtWord x (wordJ 0x12 cond 0) s)
    (hcond : condHolds cond u.ctxs[x] = true) (hstack : u.ctxs[x].stack = r :: rest) (hcode : r.toNat < u.ctxs[x].codeLen) :
    execSpRet x cond s = .next (retireTo x r.toNat 2 (modCtx x (fun k => { k with stack := rest }) u)) := by
  rw [execSpRet, issue_at h, hu]
  simp only [hcond, hstack, targetOk_code r.isLt hcode, Bool.not_true, Bool.false_eq_true, if_false, if_true]

theorem execSpRet_notTaken (h : AtWord x (wordJ 0x12 cond 0) s) (hcond : condHolds cond u.ctxs[x] = false) :
    execSpRet x cond s = .next (retire x 1 u) := by
  rw [execSpRet, issue_at h, hu]
  simp only [hcond, Bool.not_false, if_true]

theorem execSpJr_jumps {a : Fin 16} (h : AtWord x (wordA 0x13 0 a 0 0) s)
    (hcode : (rd u.ctxs[x] a).toNat % 1024 < u.ctxs[x].codeLen) :
    execSpJr x a s = .next (retireTo x ((rd u.ctxs[x] a).toNat % 1024) 2 u) := by
  rw [execSpJr, issue_at h, hu, jumpTo_inside (Nat.mod_lt _ (by decide)) hcode]

section Loop
variable {d : Fin 16} {imm : BitVec 18} (h : AtWord x (wordI 0x14 d 0 imm) s) (hd : d ≠ 0)
include h hd

/-- R229: the last round of a loop falls through. -/
theorem execSpDjnz_ends (hone : rd u.ctxs[x] d = 1) : execSpDjnz x d imm s = .next (retire x 1 (modCtx x (wr d 0) u)) := by
  have ended : rd u.ctxs[x] d - 1 = 0 := by
    rw [hone]
    rfl
  rw [execSpDjnz, issue_at h, hu]
  simp only [if_neg hd, ended, if_true]

theorem execSpDjnz_jumps (hone : rd u.ctxs[x] d ≠ 1) (hcode : (imm.signExtend 32).toNat < u.ctxs[x].codeLen)
    (hslot : (imm.signExtend 32).toNat < 1024) :
    execSpDjnz x d imm s = .next (retireTo x (imm.signExtend 32).toNat 2 (modCtx x (wr d (rd u.ctxs[x] d - 1)) u)) := by
  have more : rd u.ctxs[x] d - 1 ≠ 0 := sub_ne_zero.mpr hone
  rw [execSpDjnz, issue_at h, hu]
  simp only [if_neg hd, if_neg more, immS, targetOk_code hslot hcode, if_true]

end Loop

end Jump

/-- Settles O7, one instruction after the other. -/
theorem spoolJumpsComplete : Obligations.SpoolJumpsComplete := by
  unfold Obligations.SpoolJumpsComplete
  exact fun x d a cond target imm s => ⟨fun h => ⟨execSpJ_taken rfl h, execSpJ_notTaken rfl h⟩,
    fun h => ⟨execSpCall_taken rfl h, execSpCall_notTaken rfl h⟩,
    fun h => ⟨fun r rest => execSpRet_taken rfl h, execSpRet_notTaken rfl h⟩, execSpJr_jumps rfl,
    fun h hd => ⟨execSpDjnz_ends rfl h hd, execSpDjnz_jumps rfl h hd⟩⟩

-- ------------------------------------------------------------------ registers and the data RAM

theorem rd_wr_ne {d r : Fin 16} (v : Reg32) (k : Ctx) (hr : r ≠ d) : rd (wr d v k) r = rd k r := by
  by_cases hd : d = 0
  · simp [wr, hd]
  · have apart : d.val ≠ r.val := fun h => hr (Fin.ext h.symm)
    simp [rd, wr, hd, Vector.getElem_set_ne, apart]

/-- A run of bytes reads back (R235). -/
theorem memGetAll_memPutAll (m : Memory) (a : Nat) (d : Bytes) (h : Memory.wf m = true) :
    memGetAll (memPutAll m a d) a d.length = d := by
  refine List.ext_getElem (by simp [memGetAll]) fun i hi hd => ?_
  simp [memGetAll, memGet_memPutAll d m a (a + i) h, hd]

theorem memWord_memPutWord (m : Memory) (w : Nat) (v : Reg32) (h : Memory.wf m = true) : memWord (memPutWord m w v) w = v := by
  have back := memGetAll_memPutAll m (4 * w) (leBytes 4 v.toNat) h
  rw [leBytes_length] at back
  rw [memWord, memPutWord, back, leNat_leBytes 4 _ v.isLt, BitVec.ofNat_toNat, BitVec.setWidth_eq]

theorem memGet_memPutWord (m : Memory) (w a : Nat) (v : Reg32) (h : Memory.wf m = true) (ha : a < 4 * w ∨ 4 * w + 4 ≤ a) :
    memGet (memPutWord m w v) a = memGet m a := by
  rw [memPutWord, memGet_memPutAll _ _ _ _ h, leBytes_length, if_neg (by omega)]

section Data
variable {x : Tenant} {d a : Fin 16} {imm : BitVec 18} {s u : State} (hu : issueMoment x s = u)
  (hw : (rd u.ctxs[x] a + imm.signExtend 32).toNat ≤ 255)
include hu hw

theorem execSpLd_loads (h : AtWord x (wordI 0x34 d a imm) s) :
    execSpLd x d a imm s = .next (retire x 1
      (modCtx x (fun k => wr d (memWord k.data (rd u.ctxs[x] a + imm.signExtend 32).toNat) k) u)) := by
  rw [execSpLd, issue_at h, hu]
  exact congrArg _ (if_neg (Nat.not_lt.mpr hw))

theorem execSpSt_stores (h : AtWord x (wordI 0x35 d a imm) s) :
    execSpSt x d a imm s = .next (retire x 1
      (modCtx x (fun k => { k with data := memPutWord k.data (rd u.ctxs[x] a + imm.signExtend 32).toNat (rd k d) }) u)) := by
  rw [execSpSt, issue_at h, hu]
  exact congrArg _ (if_neg (Nat.not_lt.mpr hw))

end Data

/-- Settles O8: conditions, registers and memory by their laws, then LD and ST. -/
theorem spoolRegistersAndData : Obligations.SpoolRegistersAndData := by
  unfold Obligations.SpoolRegistersAndData
  refine ⟨fun k => ⟨rfl, rfl, rfl, rfl, rfl, rfl, rfl, rfl⟩, fun k v => ⟨rfl, rfl, fun d hd => ⟨?same, ?other, wr_only d v k⟩⟩,
    fun m w v h => ⟨memWord_memPutWord m w v h, memPutWord_wf m w v h, fun a => memGet_memPutWord m w a v h⟩,
    fun x d a imm s hw => ⟨execSpLd_loads rfl hw, execSpSt_stores rfl hw⟩⟩
  case same => rw [rd_wr_same, if_neg hd]
  case other => exact fun r => rd_wr_ne v k

end Sys2Proof.Machine
end

section
/-!
PROOFS. Bridle's service of Spool programs: KSEL, AESB and RNG (8.9, R252 to R255).
-/
namespace Sys2Proof.Machine

-- ------------------------------------------------------------------ at issue

section Issue
variable {x : Tenant} {d a b : Fin 16} {s u : State} (hu : issueMoment x s = u)
include hu

section Aesb
variable {dec : Bool} {h : Fin 32} (hw : AtWord x (wordA 0x39 d a b (fnBit 0 dec)) s)
  (hbuf : heldBuf u.ctxs[x] (rd u.ctxs[x] a) = some h) (hplace : (rd u.ctxs[x] b).toNat % 16 = 0) (hend : (rd u.ctxs[x] b).toNat ≤ 240)
include hw hbuf hplace hend

/-- R253: without a selected key it is over at once. -/
theorem execSpAesb_asks : execSpAesb x d a b dec s = .next (if u.ctxs[x].ksel.isNone then
    wAtOnce x (fun k => wr d (stBadArg.setWidth 32) { k with c := true }) u
    else engineWait x .aesb d (rd u.ctxs[x] a) (rd u.ctxs[x] b) (fnBit 0 dec) u) := by
  rw [execSpAesb, issue_at hw, hu, onBuf_held hbuf]
  exact congrArg _ (if_neg (not_or.mpr ⟨not_not_intro hplace, Nat.not_lt.mpr hend⟩))

theorem execSpAesb_waits (hsel : u.ctxs[x].ksel.isSome = true) :
    execSpAesb x d a b dec s = .next (engineWait x .aesb d (rd u.ctxs[x] a) (rd u.ctxs[x] b) (fnBit 0 dec) u) := by
  rw [execSpAesb_asks hu hw hbuf hplace hend, if_neg (by simpa [Option.isSome_iff_ne_none] using hsel)]

theorem execSpAesb_noKey (hsel : u.ctxs[x].ksel = none) :
    execSpAesb x d a b dec s = .next (wAtOnce x (fun k => wr d (stBadArg.setWidth 32) { k with c := true }) u) := by
  rw [execSpAesb_asks hu hw hbuf hplace hend, hsel]
  rfl

end Aesb

/-- R255. -/
theorem execSpRng_waits (h : AtWord x (wordA 0x3B d a b 0) s) (hok : u.bri.drbgOk = true) :
    execSpRng x d a b s = .next (engineWait x .rng d 0 0 0 u) := by
  rw [execSpRng, issue_at h, hu, if_pos hok]

/-- R489. -/
theorem execSpRng_none (h : AtWord x (wordA 0x3B d a b 0) s) (hok : u.bri.drbgOk = false) :
    execSpRng x d a b s = .next (wAtOnce x (fun k => wr d 0 { k with c := true }) u) := by
  rw [execSpRng, issue_at h, hu, if_neg (Bool.eq_false_iff.mp hok)]

end Issue

-- ------------------------------------------------------------------ completions

section Complete
variable {x : Tenant} {now : Tick} {p : Pend} {s u : State} (hu : advanceTo now s = u)
include hu

/-- R252: the key is ready and selected. -/
theorem execKselComplete_selects {k : Fin 48} (hp : pendIs x .ksel u = some p) (hslot : p.a.toNat % 64 = k.val)
    (hkey : keyRefusal x k.val isAes u = none) (huse : noUseLeft k 1 u = false) :
    execKselComplete x now s = .next (endWait x (cacheKey k u).reel.cnt (fun q => wr p.d 0
      { q with c := false, ksel := some { slot := k, gone := false } }) (engineDone x (cacheKey k u))) := by
  have slot : slotNo k.val = some k := dif_pos k.isLt
  simp only [execKselComplete, hu, hp, hslot, hkey, slot, huse, Bool.false_eq_true, if_false]
  rfl

/-- R253, R481: the block is changed in place. -/
theorem execAesbComplete_changes {q : KeySel} {h : Fin 32} {key : Bytes} {w : State} (hp : pendIs x .aesb u = some p)
    (hsel : u.ctxs[x].ksel = some q) (hgone : q.gone = false) (hbuf : heldBuf u.ctxs[x] p.a = some h)
    (hkey : useKey x q.slot.val (if bit p.fn 0 then isDec else isEnc) (engineDone x u) = .ok (key, w)) :
    execAesbComplete x now s = .next (endWait x w.reel.cnt (fun q => wr p.d 0 { q with c := false })
      (modBuf h (fun b => { b with
        mark := .plain
        bytes := memPutAll b.bytes p.b.toNat
          (if bit p.fn 0 then aesDec key (memGetAll w.bufs[h].bytes p.b.toNat 16)
           else aesEnc key (memGetAll w.bufs[h].bytes p.b.toNat 16)) }) w)) := by
  have sel : (engineDone x u).ctxs[x].ksel = some q := hsel
  have buf : heldBuf (engineDone x u).ctxs[x] p.a = some h := hbuf
  simp only [execAesbComplete, hu, hp, sel, buf, hgone, hkey, Bool.false_eq_true, if_false]
  rfl

section Rng
variable (hp : pendIs x .rng u = some p)
include hp

/-- R255, R486: the bits that the request was given. -/
theorem execRngComplete_given {out : Bytes} (hout : (u.bri.engine.find? fun e => e.who == x && !e.stale).bind (·.out) = some out) :
    execRngComplete x now s = .next (endWait x (engineDone x u).reel.cnt
      (fun q => wr p.d (BitVec.ofNat 32 (leNat out)) { q with c := false }) (engineDone x u)) := by
  simp only [execRngComplete, hu, hp, hout]

/-- R255: bits of the DRBG. -/
theorem execRngComplete_taken {out : Bytes} {w : State}
    (hnone : (u.bri.engine.find? fun e => e.who == x && !e.stale).bind (·.out) = none)
    (htake : drbgTake 4 (engineDone x u) = some (out, w)) :
    execRngComplete x now s = .next (endWait x w.reel.cnt
      (fun q => wr p.d (BitVec.ofNat 32 (leNat out)) { q with c := false }) w) := by
  simp only [execRngComplete, hu, hp, hnone, htake]

end Rng

end Complete

/-- Settles O13, one instruction after the other. -/
theorem spoolEngine : Obligations.SpoolEngine := by
  unfold Obligations.SpoolEngine
  refine ⟨fun x d a b h dec s => ?issue, fun x now p s => ?complete⟩
  case issue =>
    intro u k
    refine ⟨fun hw => ?ksel, fun hw hv hheld hplace hend => ?aesb, fun hw => ⟨execSpRng_waits rfl hw, execSpRng_none rfl hw⟩⟩
    case ksel =>
      show execSpKsel x d a b s = _
      rw [execSpKsel, issue_at hw]
    case aesb =>
      have word : (if dec then 1 else 0 : BitVec 14) = fnBit 0 dec := rfl
      rw [word] at hw ⊢
      have held := heldBuf_some hv hheld
      exact ⟨execSpAesb_waits rfl hw held hplace hend, execSpAesb_noKey rfl hw held hplace hend⟩
  case complete =>
    intro u v hrun hpend hair
    have waits : ∀ op, p.op = op → pendIs x op u = some p := fun op hop => pendIs_some hrun hpend hair hop
    exact ⟨fun k hop => execKselComplete_selects rfl (waits _ hop), fun q h key w hop => execAesbComplete_changes rfl (waits _ hop),
      fun out hop => execRngComplete_given rfl (waits _ hop), fun out w hop => execRngComplete_taken rfl (waits _ hop)⟩

end Sys2Proof.Machine
end

section
/-!
SUPPORT. What a grant of air to any requester leaves of the Spool contexts (R214, R265, R267).
-/
namespace Sys2Proof.Machine

/-- A context without what it knows of its air. -/
def courseOf (k : Ctx) : Ctx := { k with lostR := false, lostL := false, tunedR := false, tunedL := false }

/-- A context keeps the stop that waits for it and, where it runs a program of its own that waits for nothing, its course. -/
structure AirKeeps (k k' : Ctx) : Prop where
  stopping : k'.stopping = k.stopping
  course : isBuiltin k = false → k.pend = none → courseOf k' = courseOf k

/-- Every context keeps these. -/
def AirKept (s t : State) : Prop := ∀ x : Tenant, AirKeeps s.ctxs[x] t.ctxs[x]

theorem AirKeeps.refl (k : Ctx) : AirKeeps k k := ⟨rfl, fun _ _ => rfl⟩

theorem AirKeeps.trans {a b c : Ctx} (hab : AirKeeps a b) (hbc : AirKeeps b c) : AirKeeps a c where
  stopping := hbc.stopping.trans hab.stopping
  course hown hpend := by
    have course := hab.course hown hpend
    have own : isBuiltin (courseOf b) = isBuiltin (courseOf a) := congrArg isBuiltin course
    have pend : (courseOf b).pend = (courseOf a).pend := congrArg Ctx.pend course
    exact (hbc.course (own.trans hown) (pend.trans hpend)).trans course

theorem AirKept.refl (s : State) : AirKept s s := fun _ => .refl _

theorem AirKept.trans {s t u : State} (hst : AirKept s t) (htu : AirKept t u) : AirKept s u := fun x => (hst x).trans (htu x)

theorem airKept_of_prog {s t : State} (h : progPart t = progPart s) : AirKept s t := by
  intro x
  rw [ctxs_of_prog h]
  exact .refl _

theorem ite_airKept {c : Prop} [Decidable c] {a b s : State} (ha : AirKept s a) (hb : AirKept s b) :
    AirKept s (if c then a else b) := by
  split <;> assumption

theorem modCtx_airKept {y : Tenant} {f : Ctx → Ctx} {s : State} (h : AirKeeps s.ctxs[y] (f s.ctxs[y])) :
    AirKept s (modCtx y f s) := by
  intro x
  rw [modCtx_ctxs, Fin.getElem_fin, Fin.getElem_fin, vmod_get]
  split
  · next hx => subst hx; exact h
  · exact .refl _

-- ------------------------------------------------------------------ air that is lost

theorem ctxLost_airKept (t : Tenant) (c : CoreId) (s : State) : AirKept s (ctxLost t c s) := by
  refine (airKept_of_prog (setRadio_prog _ s)).trans (modCtx_airKept ?_)
  generalize (setRadio _ s).ctxs[t] = k
  rcases hp : k.pend with _ | p
  case none => cases c <;> exact ⟨by simp only [hp], fun _ _ => by simp only [courseOf, hp]⟩
  case some => cases c <;> exact ⟨by simp only [hp]; split_ifs <;> rfl, fun _ hnone => by rw [hp] at hnone; cases hnone⟩

theorem builtinWaits_airKept {t : Tenant} {s : State} (h : isBuiltin s.ctxs[t] = true) : AirKept s (builtinWaits t s) := by
  have waits : ∀ p, AirKept s (modCtx t (fun k => { k with run := .waiting, pend := some p }) s) := fun p =>
    modCtx_airKept ⟨rfl, fun hown => by rw [h] at hown; cases hown⟩
  simp only [builtinWaits]
  split <;> exact waits _

theorem afterLoss_airKept (h : Hold) (s : State) : AirKept s (afterLoss h s) := by
  simp only [afterLoss]
  split
  case h_1 =>
    split
    · next hown => exact builtinWaits_airKept (s := setRadio _ s) hown
    · exact ctxLost_airKept _ _ s
  case h_8 => exact ite_airKept (.refl s) (.refl s)
  all_goals exact .refl s

theorem loseAir_airKept (c : CoreId) (s : State) : AirKept s (loseAir c s) := by
  simp only [loseAir]
  split
  · exact .refl s
  · refine (AirKept.trans (airKept_of_prog ?_) (afterLoss_airKept _ _)).trans (airKept_of_prog (coexTrack_prog _))
    simp

theorem preemptFor_airKept (r : AirReq) (c : CoreId) (s : State) : AirKept s (preemptFor r c s) := by
  simp only [preemptFor]
  split
  · exact .refl s
  · exact ite_airKept (.refl s) (loseAir_airKept c s)

-- ------------------------------------------------------------------ air that is granted

/-- A grant goes to a context that waits for it. -/
theorem ctxGranted_airKept (t : Tenant) (now : Tick) (s : State) : AirKept s (ctxGranted t now s) := by
  simp only [ctxGranted]
  split
  · exact .refl s
  · next p hp =>
    have goes : ∀ f : Ctx → Ctx, (∀ k, (f k).stopping = k.stopping) → AirKept s (modCtx t f s) := fun f hf =>
      modCtx_airKept ⟨hf _, fun _ hnone => by rw [hp] at hnone; cases hnone⟩
    have acts := goes (fun k => { k with cursor := now, pend := some { p with
      noAir := false, until_ := if p.op == WaitOp.ltx then leadTick s (now + 3) else now + 3 } }) fun _ => rfl
    refine ite_airKept (.refl s) (ite_airKept (goes _ fun _ => rfl) ?_)
    split
    · exact ite_airKept acts acts
    all_goals exact acts.trans (airKept_of_prog (by simp))

theorem builtinGranted_airKept (t : Tenant) (now : Tick) (s : State) : AirKept s (builtinGranted t now s) := by
  have slot : AirKept s (accGranted t (takeProfile t s)) := ite_airKept (.refl s) (.refl s)
  simp only [builtinGranted]
  split
  · exact ite_airKept slot slot
  · exact slot

theorem onGrant_airKept (r : AirReq) (now : Tick) (s : State) : AirKept s (onGrant r now s) := by
  unfold onGrant
  cases r.who
  case ctx t => exact ite_airKept ((ctxGranted_airKept t now s).trans (builtinGranted_airKept t now _)) (ctxGranted_airKept t now (takeHalf r.core t s))
  case sweep o => exact airKept_of_prog ((pointDrive_prog ..).trans rfl)
  case sniff t => exact airKept_of_prog ((burstDrive_prog ..).trans rfl)
  all_goals exact .refl s

theorem grantAir_airKept (r : AirReq) (now : Tick) (s : State) : AirKept s (grantAir r now s) := by
  have preempts := (preemptFor_airKept r r.core s).trans (preemptFor_airKept r (otherCore r.core) _)
  refine (AirKept.trans (preempts.trans (airKept_of_prog ?_)) (onGrant_airKept r now _)).trans (airKept_of_prog (sweepSkip_prog _))
  simp

theorem frameEnd_airKept (c : CoreId) (s : State) : AirKept s (frameEnd c s) := by
  have ends : AirKept s (setCommit c none s) := airKept_of_prog (setCommit_prog ..)
  simp only [frameEnd]
  split
  · exact ends
  · split
    · exact ite_airKept (ends.trans (grantAir_airKept _ _ _)) ends
    · exact ends

theorem slotWithdrawn_airKept (x : Tenant) (s : State) : AirKept s (slotWithdrawn x s) :=
  ite_airKept ((airKept_of_prog (releaseAir_prog ..)).trans (ctxLost_airKept x .reader _)) (.refl s)

end Sys2Proof.Machine
end

section
/-!
SUPPORT. A wait on the air that ends: what it makes of the context, and what stays of that when others get the air.
-/
namespace Sys2Proof.Machine

/-- D and the flags are what an air instruction that completes on air changes (R231). -/
theorem airOkCtx_only (d : Fin 16) (v : Reg32) (k : Ctx) :
    airOkCtx d v k = { k with n := false, z := false, c := false, regs := (wr d v k).regs } := by
  rw [airOkCtx, wr_only]
  unfold wr
  split <;> rfl

theorem rd_airOkCtx (d : Fin 16) (v : Reg32) (k : Ctx) : rd (airOkCtx d v k) d = if d = 0 then 0 else v := rd_wr_same ..

theorem stopIfDue_none {x : Tenant} {s : State} (h : s.ctxs[x].stopping = none) : stopIfDue x s = s := by
  simp only [stopIfDue, h]

/-- A context behind its wait, before its instruction changes it (R210, R217, R230). -/
def waitOver (now : Tick) (cyc : Nat) (k : Ctx) : Ctx :=
  { k with run := .running, pend := none, pc := k.pc + 1, cursor := now, wdog := 0, cyc := cyc }

theorem endWait_ctx (x : Tenant) (now : Tick) (f : Ctx → Ctx) (s : State) :
    ∃ n, (endWait x now f s).ctxs[x] = f (waitOver now n s.ctxs[x]) := by
  simp only [endWait, Fin.getElem_fin, modCtx_ctxs, vmod_self]
  exact ⟨_, rfl⟩

/-- A change of a context that leaves whose program it runs, what that waits for and the stop that waits for it. -/
structure KeepsRun (f : Ctx → Ctx) : Prop where
  starter : ∀ k, (f k).starter = k.starter
  pend : ∀ k, (f k).pend = k.pend
  stopping : ∀ k, (f k).stopping = k.stopping

theorem airOkCtx_keepsRun (d : Fin 16) (v : Reg32) : KeepsRun (airOkCtx d v) := by
  constructor <;> intro k <;> rw [airOkCtx_only]

/-- A tenant's program that is behind its wait goes on with what its instruction left, whoever gets the air then. -/
theorem ended_course {x : Tenant} {now : Tick} {f : Ctx → Ctx} {s t : State} (hf : KeepsRun f) (hown : isBuiltin s.ctxs[x] = false)
    (hstop : s.ctxs[x].stopping = none) (ht : AirKept (endWait x now f s) t) :
    stopIfDue x t = t ∧ ∃ n, courseOf t.ctxs[x] = courseOf (f (waitOver now n s.ctxs[x])) := by
  obtain ⟨n, hctx⟩ := endWait_ctx x now f s
  have kept := ht x
  rw [hctx] at kept
  refine ⟨stopIfDue_none (kept.stopping.trans ((hf.stopping _).trans hstop)), n, kept.course ?_ (hf.pend _)⟩
  rw [isBuiltin, hf.starter]
  exact hown

end Sys2Proof.Machine
end

section
/-!
PROOFS. The air instructions of Spool end (8.6, 8.7, R241 to R250, R260, R261, R267).
-/
namespace Sys2Proof.Machine

-- ------------------------------------------------------------------ the reader's, in a tenant's own program

/-- An instruction whose time has come may complete. -/
theorem mayEnd_reached {x : Tenant} {c : CoreId} {t : Tick} {s : State} (h : reached s.reel.cnt t = true) : mayEnd x c t s = true := by
  rw [mayEnd, h, Bool.or_true]

@[simp] theorem gainApply_prog (s : State) : progPart (gainApply s) = progPart s := ite_prog rfl rfl

@[simp] theorem countRate_prog (l : LinkSet) (r : Reply) (s : State) : progPart (countRate l r s) = progPart s := ite_prog rfl rfl

@[simp] theorem setOver_prog (c : CoreId) (t : Option Tick) (s : State) : progPart (setOver c t s) = progPart s := by
  simp only [setOver]
  split <;> simp

theorem gainApply_loaded (s : State) : (gainApply s).loaded = s.loaded := by
  rw [gainApply]
  split <;> rfl

theorem rxwinOver_airKept (x : Tenant) (p : Pend) (goesOn : Bool) (s : State) : AirKept s (rxwinOver x p goesOn s) :=
  ite_airKept (airKept_of_prog (setOver_prog ..)) ((frameEnd_airKept .reader s).trans (slotWithdrawn_airKept x _))

/-- The flags, D and the reply registers behind a reply of n bits, its CRC good or not (R245). -/
def replyTaken (p : Pend) (r : Reply) (n : Nat) (good : Bool) (k : Ctx) : Ctx :=
  { airOkCtx p.d (BitVec.ofNat 32 (bitsNat (((byteBits r.bytes).take n).take 16) + n % 4096 * 65536 + bitAt 28 good)) k with
    c := bit p.fn 11 && !good, rssi := r.rssi, phase := r.phase }

theorem replyTaken_keepsRun (p : Pend) (r : Reply) (n : Nat) (good : Bool) : KeepsRun (replyTaken p r n good) := by
  constructor <;> intro k <;> rw [replyTaken, airOkCtx_only]

theorem rxwinOk_ends (x : Tenant) (p : Pend) (r : Reply) (n : Nat) {good : Bool}
    (hgood : good = (bit p.fn 11 && crcGood ((byteBits r.bytes).take n))) (s : State) :
    ∃ w : State, rxwinOk x p r n s = endWait x w.reel.cnt (replyTaken p r n good) w ∧ w.ctxs = s.ctxs := by
  subst hgood
  simp only [rxwinOk]
  split
  · exact ⟨_, rfl, rfl⟩
  · exact ⟨_, rfl, rfl⟩

/-- R243: what follows the last symbol is for the air alone. -/
theorem txsymOver_airKept {x : Tenant} {u : State} (hlost : u.ctxs[x].lostR = false) (p : Pend) :
    AirKept (endWait x p.until_ (airOkCtx p.d (p.until_.setWidth 32)) u) (txsymOver x p u) := by
  simp only [txsymOver, lostAir, hlost, Bool.false_eq_true, if_false]
  split
  · split
    · exact (frameEnd_airKept .reader _).trans (slotWithdrawn_airKept x _)
    · exact airKept_of_prog (setOver_prog ..)
  · exact frameEnd_airKept _ _

section Reader
variable {x : Tenant} {now : Tick} {p : Pend} {s u : State} (hu : advanceTo now s = u) (hlost : u.ctxs[x].lostR = false)
include hu hlost

/-- R246, R342. -/
theorem execSniffComplete_none {g : Gamma} {v : State} (hp : pendIs x .sniff u = some p) (hend : reached u.reel.cnt p.until_ = true)
    (hv : v = slotWithdrawn x (setCore .reader .synth (frameEnd .reader u))) (hepoch : p.epoch = v.epoch.rdr)
    (hbase : v.rdr.base[v.rdr.aerial] = none) :
    execSniffComplete (some x) now g s =
      .next (stopIfDue x (endWait x v.reel.cnt (airOkCtx p.d 0) (setBase v.rdr.aerial g v))) := by
  simp only [execSniffComplete, hu, hp, mayEnd_reached hend, lostAir, hlost, ← hv, hepoch, hbase, bne_self_eq_false,
    Bool.false_eq_true, if_false, if_true]

theorem execSniffComplete_delta {g b : Gamma} {n : Nat} {v w : State} (hp : pendIs x .sniff u = some p)
    (hend : reached u.reel.cnt p.until_ = true) (hv : v = slotWithdrawn x (setCore .reader .synth (frameEnd .reader u)))
    (hepoch : p.epoch = v.epoch.rdr) (hbase : v.rdr.base[v.rdr.aerial] = some b) (hdelta : deltaOf g b v = (n, w)) :
    execSniffComplete (some x) now g s =
      .next (stopIfDue x (endWait x w.reel.cnt (airOkCtx p.d (BitVec.ofNat 32 n)) w)) := by
  simp only [execSniffComplete, hu, hp, mayEnd_reached hend, lostAir, hlost, ← hv, hepoch, hbase, hdelta, bne_self_eq_false,
    Bool.false_eq_true, if_false, if_true]

/-- R246. -/
theorem execRfoffComplete_ends (hp : pendIs x .rfoff u = some p) (hend : reached u.reel.cnt p.until_ = true) :
    execRfoffComplete x now s = .next (endWait x u.reel.cnt (airOkNz p.d 0)
      (modCtx x (fun k => { k with tunedR := false }) (releaseAir .reader u))) := by
  simp only [execRfoffComplete, hu, hp, mayEnd_reached hend, lostAir, hlost, Bool.false_eq_true, if_false, if_true]

variable (hown : isBuiltin u.ctxs[x] = false)
include hown

/-- R261. -/
theorem execHopComplete_failed (hp : pendIs x .hop u = some p) (hend : reached u.reel.cnt (p.until_ + p.b.setWidth 48) = true) {v : State}
    (hv : v = calibrate .reader .failed false (if u.radio.rFreq = p.a.toNat then u else leaveChannel u.reel.cnt u)) :
    execHopComplete x now .failed s = .next (endWait x v.reel.cnt (airFailCtx p.d stCalFail) v) := by
  subst hv
  simp only [execHopComplete, hu, hp, hown, mayEnd_reached hend, lostAir, hlost, Bool.false_eq_true, if_false, if_true]

/-- R241, R260. -/
theorem execHopComplete_tuned (hp : pendIs x .hop u = some p) (hend : reached u.reel.cnt (p.until_ + p.b.setWidth 48) = true) :
    ∃ t, execHopComplete x now .ok s = .next t ∧ t.radio.rFreq = p.a.toNat ∧ t.ctxs[x].tunedR = true ∧
      t.ctxs[x].run = .running ∧ t.ctxs[x].c = false ∧ rd t.ctxs[x] p.d = 0 := by
  simp only [execHopComplete, hu, hp, hown, mayEnd_reached hend, lostAir, hlost, Bool.false_eq_true, if_false, if_true]
  refine ⟨_, rfl, rfl, ?_⟩
  obtain ⟨n, hctx⟩ := endWait_ctx x _ _ _
  rw [hctx, rd_airOkCtx, airOkCtx_only]
  exact ⟨rfl, rfl, rfl, ite_self 0⟩

/-- R242. -/
theorem execTxcwComplete_ends {pafb : Int} {pacur : Nat} (hp : pendIs x .txcw u = some p) (hend : reached u.reel.cnt p.until_ = true)
    {v : State} (hv : v = if bit p.fn 0 then rampDone u.loaded[x] pafb pacur u else carrierOff u.reel.cnt u) :
    execTxcwComplete x now pafb pacur s = .next (endWait x v.reel.cnt (airOkNz p.d 0) v) := by
  subst hv
  simp only [execTxcwComplete, hu, hp, hown, mayEnd_reached hend, lostAir, hlost, Bool.false_eq_true, if_false, if_true]

variable (hstop : u.ctxs[x].stopping = none)
include hstop

/-- R243. -/
theorem execTxsymComplete_ends (hp : pendIs x .txsym u = some p) (hend : reached u.reel.cnt p.until_ = true) :
    ∃ t, execTxsymComplete x now s = .next t ∧ t.ctxs[x].run = .running ∧ t.ctxs[x].pc = u.ctxs[x].pc + 1 ∧
      t.ctxs[x].cursor = p.until_ ∧ rd t.ctxs[x] p.d = (if p.d = 0 then 0 else p.until_.setWidth 32) := by
  obtain ⟨stays, n, course⟩ := ended_course (airOkCtx_keepsRun ..) hown hstop (txsymOver_airKept hlost p)
  simp only [execTxsymComplete, hu, hp, hown, mayEnd_reached hend, Bool.false_eq_true, if_false, if_true, stays]
  refine ⟨_, rfl, ?_, ?_, ?_, (congrArg (fun k => rd k p.d) course).trans (rd_airOkCtx ..)⟩
  all_goals rw [airOkCtx_only] at course
  · exact congrArg Ctx.run course
  · exact congrArg Ctx.pc course
  · exact congrArg Ctx.cursor course

/-- R245: the window ends with no reply. -/
theorem execRxwinComplete_none (hp : pendIs x .rxwin u = some p) (hend : reached u.reel.cnt p.until_ = true) :
    ∃ t, execRxwinComplete x now none s = .next t ∧ t.ctxs[x].run = .running ∧ t.ctxs[x].pc = u.ctxs[x].pc + 1 ∧
      t.ctxs[x].z = true ∧ t.ctxs[x].c = false ∧ rd t.ctxs[x] p.d = 0 := by
  have same : (gainApply u).ctxs = u.ctxs := ctxs_of_prog (gainApply_prog u)
  have keeps : KeepsRun fun k => { airOkCtx p.d 0 k with z := true } := by constructor <;> intro k <;> rw [airOkCtx_only]
  obtain ⟨stays, n, course⟩ := ended_course keeps (by rw [same]; exact hown) (by rw [same]; exact hstop)
    (rxwinOver_airKept x p false (endWait x (gainApply u).reel.cnt (fun k => { airOkCtx p.d 0 k with z := true }) (gainApply u)))
  simp only [execRxwinComplete, hu, hp, hown, hend, lostAir, hlost, rxwinHeard, rxwinOwn, Option.filter_none, Option.isSome_none,
    Bool.not_false, Bool.not_true, Bool.and_false, Bool.false_and, Bool.or_true, Bool.false_eq_true, if_false, if_true, stays]
  refine ⟨_, rfl, ?_, ?_, ?_, ?_, (congrArg (fun k => rd k p.d) course).trans ((rd_airOkCtx ..).trans (ite_self 0))⟩
  all_goals rw [same, airOkCtx_only] at course
  · exact congrArg Ctx.run course
  · exact congrArg Ctx.pc course
  · exact congrArg Ctx.z course
  · exact congrArg Ctx.c course

/-- R245: a reply whose preamble began in the window, decoded to its end. -/
theorem execRxwinComplete_heard {r : Reply} {n : Nat} {good : Bool} (hp : pendIs x .rxwin u = some p)
    (hfrom : reached r.begun (p.until_ - p.b.setWidth 48) = true) (hto : reached r.begun p.until_ = false)
    (hstale : requestStale x .reader u = false) (hdecoded : r.decoded = true) (hrate : rateOk (profileSet u.loaded[x]) r = true)
    (hlen : n = rxwinLen p.fn r) (hbits : n ≤ r.bits) (hgood : good = (bit p.fn 11 && crcGood ((byteBits r.bytes).take n))) :
    ∃ t, execRxwinComplete x now (some r) s = .next t ∧ t.ctxs[x].run = .running ∧ t.ctxs[x].z = false ∧
      t.ctxs[x].c = (bit p.fn 11 && !good) ∧ t.ctxs[x].rssi = r.rssi ∧ t.ctxs[x].phase = r.phase ∧
      rd t.ctxs[x] p.d = (if p.d = 0 then 0 else BitVec.ofNat 32
        (bitsNat (((byteBits r.bytes).take n).take 16) + n % 4096 * 65536 + bitAt 28 good)) := by
  have heard : rxwinHeard p true (some r) = some r := by simp [rxwinHeard, hfrom, hto]
  obtain ⟨w, hw, hctxs⟩ := rxwinOk_ends x p r n hgood (countRate (profileSet u.loaded[x]) r (replyBegan (gainApply u)))
  have same : w.ctxs = u.ctxs := hctxs.trans (ctxs_of_prog ((countRate_prog ..).trans (gainApply_prog u)))
  obtain ⟨stays, m, course⟩ := ended_course (replyTaken_keepsRun p r n good) (by rw [same]; exact hown) (by rw [same]; exact hstop)
    (rxwinOver_airKept x p true (endWait x w.reel.cnt _ w))
  simp only [execRxwinComplete, hu, hp, hown, lostAir, hlost, heard, hstale, rxwinOwn, gainApply_loaded, hdecoded, hrate, ← hlen,
    decide_eq_true hbits, hw, Option.isSome_some,
    Bool.not_false, Bool.not_true, Bool.and_true, Bool.and_false, Bool.true_or, Bool.false_eq_true, if_false, if_true, stays]
  refine ⟨_, rfl, ?_, ?_, ?_, ?_, ?_, (congrArg (fun k => rd k p.d) course).trans (rd_airOkCtx ..)⟩
  all_goals rw [replyTaken, airOkCtx_only] at course
  · exact congrArg Ctx.run course
  · exact congrArg Ctx.z course
  · exact congrArg Ctx.c course
  · exact congrArg Ctx.rssi course
  · exact congrArg Ctx.phase course

end Reader

-- ------------------------------------------------------------------ the reader's, in a built-in program

theorem logEntry_rdr (code : BitVec 16) (data : Bytes) (s : State) : (logEntry code data s).rdr = s.rdr := by
  rw [logEntry]
  split <;> rfl

theorem raiseAll_rdr (code : BitVec 16) (data : Bytes) (s : State) : (raiseAll code data s).rdr = s.rdr := by
  simp only [raiseAll, forTenants, raise_rdr]

theorem reportClass_rdr (n : Fin 6) (cls : Nat) (s : State) : (reportClass n cls s).rdr = s.rdr := by
  simp only [reportClass]
  split
  · split
    · rfl
    · rw [logEntry_rdr, raiseAll_rdr, setSvy_rdr, setSvy_rdr]
  · rfl

theorem paLoad_rdr (cur : Nat) (s : State) : (paLoad cur s).rdr = s.rdr := by
  simp only [paLoad]
  split
  · rfl
  · exact reportClass_rdr ..

/-- The end of a ramp is nothing to the inventories (R323). -/
theorem rampDone_inv (p : Profile) (pafb : Int) (pacur : Nat) (s : State) : (rampDone p pafb pacur s).rdr.inv = s.rdr.inv := by
  simp only [rampDone]
  split
  · rw [paLoad_rdr]
    rfl
  · rfl

section Builtin
variable {x : Tenant} {now : Tick} {p : Pend} {i : Inv} {s u : State} (hu : advanceTo now s = u)
  (hown : isBuiltin u.ctxs[x] = true) (hinv : u.rdr.inv[x] = some i)
include hu hown hinv

theorem execHopComplete_inv (hp : pendIs x .hop u = some p) (cal : Cal) :
    execHopComplete x now cal s = .next (invTuned x i cal u) := by
  simp only [execHopComplete, hu, hp, hown, hinv, if_true]

theorem execTxcwComplete_inv (hp : pendIs x .txcw u = some p) (hend : reached u.reel.cnt p.until_ = true) (pafb : Int) (pacur : Nat) :
    ∃ t j, execTxcwComplete x now pafb pacur s = .next t ∧ t.rdr.inv[x] = some j ∧ j.stage = .settle := by
  have inv : (builtinPend x .waitd u.reel.cnt false (rampDone u.loaded[x] pafb pacur u)).rdr.inv[x] = some i :=
    (congrArg (·[x]) (rampDone_inv ..)).trans hinv
  simp only [execTxcwComplete, hu, hp, hown, hend, inv, if_true]
  exact ⟨_, _, rfl, Vector.getElem_set_self _, rfl⟩

theorem execTxsymComplete_inv (hp : pendIs x .txsym u = some p) (hend : reached u.reel.cnt p.until_ = true) :
    execTxsymComplete x now s = .next (invSent x i u) := by
  simp only [execTxsymComplete, hu, hp, hown, hend, hinv, if_true]

omit hinv in
theorem execRxwinComplete_builtin (hp : pendIs x .rxwin u = some p) (hend : reached u.reel.cnt p.until_ = true) (r : Option Reply) :
    execRxwinComplete x now r s = .next (rxwinBuiltin x r u) := by
  simp only [execRxwinComplete, hu, hp, hown, hend, rxwinHeard, Bool.not_true, Bool.false_and, Bool.or_true, Bool.false_eq_true,
    if_false]

end Builtin

-- ------------------------------------------------------------------ the link's

@[simp] theorem linkHeard_prog (f : RxFrame) (s : State) : progPart (linkHeard f s) = progPart s := by
  simp only [linkHeard, searchAgain, setLink_prog, setRadio_prog]

section Link
variable {x : Tenant} {now : Tick} {p : Pend} {s u : State} (hu : advanceTo now s = u) (hlost : u.ctxs[x].lostL = false)
include hu hlost

/-- R261. -/
theorem execLchComplete_failed (hp : pendIs x .lch u = some p) (hend : reached u.reel.cnt p.until_ = true) {v : State}
    (hv : v = calibrate .link .failed false u) :
    execLchComplete x now .failed s = .next (endWait x v.reel.cnt (airFailCtx p.d stCalFail) v) := by
  subst hv
  simp only [execLchComplete, hu, hp, mayEnd_reached hend, lostAir, hlost, Bool.false_eq_true, if_false, if_true]

/-- R247, R260. -/
theorem execLchComplete_tuned (hp : pendIs x .lch u = some p) (hend : reached u.reel.cnt p.until_ = true) :
    ∃ t, execLchComplete x now .ok s = .next t ∧ t.radio.lFreq = p.a.toNat ∧ t.ctxs[x].tunedL = true ∧
      t.ctxs[x].run = .running ∧ t.ctxs[x].c = false ∧ rd t.ctxs[x] p.d = 0 := by
  simp only [execLchComplete, hu, hp, mayEnd_reached hend, lostAir, hlost, Bool.false_eq_true, if_false, if_true]
  refine ⟨_, rfl, rfl, ?_⟩
  obtain ⟨n, hctx⟩ := endWait_ctx x _ _ _
  rw [hctx, rd_airOkCtx, airOkCtx_only]
  exact ⟨rfl, rfl, rfl, ite_self 0⟩

/-- R248. -/
theorem execLtxComplete_ends {last : Tick} (hp : pendIs x .ltx u = some p) (hlast : last = p.until_ + p.b.setWidth 48)
    (hend : reached u.reel.cnt last = true) :
    execLtxComplete x now s = .next (stopIfDue x (frameEnd .link (endWait x last (fun k => airOkCtx p.d (last.setWidth 32)
      { k with ackTx := if bit p.fn 8 then some last else none }) (dutyAdd p.until_ p.b.toNat (setCore .link .synth u))))) := by
  subst hlast
  simp only [execLtxComplete, hu, hp, mayEnd_reached hend, lostAir, hlost, Bool.false_eq_true, if_false, if_true]

/-- R249: the window ends with no frame. -/
theorem execLrxComplete_none {v : State} (hp : pendIs x .lrx u = some p)
    (hend : reached u.reel.cnt (p.until_ + 576 + p.b.setWidth 48) = true) (hidle : u.link.demod = false)
    (hv : v = frameEnd .link (setCore .link .synth u)) :
    execLrxComplete x now none s =
      .next (stopIfDue x (endWait x u.reel.cnt (fun k => { airOkCtx p.d 0 k with z := true }) v)) := by
  subst hv
  simp only [execLrxComplete, hu, hp, hend, hidle, lostAir, hlost, Bool.false_and, Bool.not_false, Bool.and_self, Bool.false_eq_true,
    if_false, if_true]

/-- R249: a frame on one of the lanes asked for; the air is free for others before the context goes on. -/
theorem execLrxComplete_taken {f : RxFrame} (hp : pendIs x .lrx u = some p)
    (hlane : bits p.fn 5 0 = 0 ∨ (bits p.fn 5 0).testBit f.lane.val = true) (hsfd : sfdInWindow p f.sfd = true)
    (hstale : requestStale x .link u = false) :
    ∃ w : State, execLrxComplete x now (some f) s = .next (stopIfDue x (endWait x w.reel.cnt
      (fun k => { airOkCtx p.d (BitVec.ofNat 32 (f.psdu.length + 65536 * lqiOf f.evm)) k with c := !fcsGood f }) w)) ∧
      w.ctxs = (frameEnd .link (setCore .link .synth (linkHeard (rssiReported f) u))).ctxs := by
  simp only [execLrxComplete, hu, hp, lostAir, hlost, hstale, if_pos (And.intro hlane hsfd), Bool.false_eq_true, if_false]
  split
  · exact ⟨_, rfl, rfl⟩
  · exact ⟨_, rfl, rfl⟩

theorem execLrxComplete_frame {f : RxFrame} (hp : pendIs x .lrx u = some p)
    (hlane : bits p.fn 5 0 = 0 ∨ (bits p.fn 5 0).testBit f.lane.val = true) (hsfd : sfdInWindow p f.sfd = true)
    (hstale : requestStale x .link u = false) (hstop : u.ctxs[x].stopping = none) :
    ∃ t, execLrxComplete x now (some f) s = .next t ∧ t.ctxs[x].run = .running ∧ t.ctxs[x].z = false ∧
      t.ctxs[x].c = !fcsGood f ∧
      rd t.ctxs[x] p.d = (if p.d = 0 then 0 else BitVec.ofNat 32 (f.psdu.length + 65536 * lqiOf f.evm)) := by
  obtain ⟨w, hw, hctxs⟩ := execLrxComplete_taken hu hlost hp hlane hsfd hstale
  have heard : progPart (setCore .link .synth (linkHeard (rssiReported f) u)) = progPart u :=
    (setCore_prog ..).trans (linkHeard_prog ..)
  have stopping : w.ctxs[x].stopping = none := by
    rw [hctxs]
    exact ((airKept_of_prog heard).trans (frameEnd_airKept .link _) x).stopping.trans hstop
  obtain ⟨n, hctx⟩ := endWait_ctx x w.reel.cnt
    (fun k => { airOkCtx p.d (BitVec.ofNat 32 (f.psdu.length + 65536 * lqiOf f.evm)) k with c := !fcsGood f }) w
  have value := (congrArg (fun k => rd k p.d) hctx).trans (rd_airOkCtx ..)
  rw [airOkCtx_only] at hctx
  rw [stopIfDue_none ((congrArg Ctx.stopping hctx).trans stopping)] at hw
  exact ⟨_, hw, congrArg Ctx.run hctx, congrArg Ctx.z hctx, congrArg Ctx.c hctx, value⟩

/-- R250. -/
theorem execLccaComplete_ends {dbm : Int} (hp : pendIs x .lcca u = some p) (hend : reached u.reel.cnt (p.until_ + 3072) = true) :
    execLccaComplete x now dbm s = .next (endWait x u.reel.cnt (fun k => { airOkNz p.d (BitVec.ofInt 32 dbm) k with
      z := decide (dbm < sByte (bits u.loaded[x].cca 7 0)) }) (setCore .link .synth u)) := by
  simp only [execLccaComplete, hu, hp, mayEnd_reached hend, lostAir, hlost, ccaThr, Bool.false_eq_true, if_false, if_true]

/-- R247. -/
theorem execLoffComplete_ends (hp : pendIs x .loff u = some p) (hend : reached u.reel.cnt p.until_ = true) :
    execLoffComplete x now s = .next (endWait x u.reel.cnt (airOkNz p.d 0)
      (modCtx x (fun k => { k with tunedL := false }) (releaseAir .link u))) := by
  simp only [execLoffComplete, hu, hp, mayEnd_reached hend, lostAir, hlost, Bool.false_eq_true, if_false, if_true]

end Link

-- ------------------------------------------------------------------ air that was lost

/-- R267. -/
theorem airDone_lost {x : Tenant} {core : CoreId} {now : Tick} {d : Fin 16} {f : Ctx → Ctx} {u : State}
    (hlost : (match core with | .reader => u.ctxs[x].lostR | .link => u.ctxs[x].lostL) = true) :
    airDone x core now d f u = endWait x now (fun k => airFailCtx d stAirtime (clearLost core k)) u := by
  cases core <;> exact if_pos hlost

/-- R231: D and the flags are what a failed air instruction changes. -/
theorem airFailCtx_only (d : Fin 16) (status : Byte) (k : Ctx) :
    airFailCtx d status k = { k with n := true, z := true, c := false, regs := (wr d (status.setWidth 32) k).regs } := by
  rw [airFailCtx, wr_only]
  unfold wr
  split <;> rfl

theorem airDone_lost_ctx {x : Tenant} {core : CoreId} {now : Tick} {d : Fin 16} {f : Ctx → Ctx} {u : State}
    (hlost : (match core with | .reader => u.ctxs[x].lostR | .link => u.ctxs[x].lostL) = true) :
    let k := (airDone x core now d f u).ctxs[x]
    k.run = .running ∧ k.n = true ∧ k.z = true ∧ k.c = false ∧ rd k d = if d = 0 then 0 else stAirtime.setWidth 32 := by
  intro k
  obtain ⟨n, hctx⟩ := endWait_ctx x now (fun k => airFailCtx d stAirtime (clearLost core k)) u
  have hk : k = airFailCtx d stAirtime (clearLost core (waitOver now n u.ctxs[x])) := by rw [← hctx, ← airDone_lost hlost]
  clear_value k
  have value : rd k d = if d = 0 then 0 else stAirtime.setWidth 32 := hk ▸ rd_wr_same ..
  rw [airFailCtx_only] at hk
  refine ⟨?_, congrArg Ctx.n hk, congrArg Ctx.z hk, congrArg Ctx.c hk, value⟩
  rw [hk]
  cases core <;> rfl

/-- Settles O16, one instruction after the other. -/
theorem spoolAirEnds : Obligations.SpoolAirEnds := by
  unfold Obligations.SpoolAirEnds
  refine ⟨fun x now p pafb pacur g s => ?reader, fun x now p cal pafb pacur r i s => ?builtin, fun x now p dbm s => ?link,
    fun x core now d f u t hlost ht => ht ▸ airDone_lost_ctx hlost⟩
  case reader =>
    intro u hrun hpend hair hown hlost
    have waits : ∀ op, p.op = op → pendIs x op u = some p := fun op hop => pendIs_some hrun hpend hair hop
    exact ⟨fun hop hend => ⟨fun v => execHopComplete_failed rfl hlost hown (waits _ hop) hend,
        execHopComplete_tuned rfl hlost hown (waits _ hop) hend⟩,
      fun hop hend v => execTxcwComplete_ends rfl hlost hown (waits _ hop) hend,
      fun hop hstop hend => execTxsymComplete_ends rfl hlost hown hstop (waits _ hop) hend,
      fun hop hstop => ⟨execRxwinComplete_none rfl hlost hown hstop (waits _ hop),
        fun r n good => execRxwinComplete_heard rfl hlost hown hstop (waits _ hop)⟩,
      fun hop hend v hv hepoch => ⟨execSniffComplete_none rfl hlost (waits _ hop) hend hv hepoch,
        fun b n w => execSniffComplete_delta rfl hlost (waits _ hop) hend hv hepoch⟩,
      fun hop => execRfoffComplete_ends rfl hlost (waits _ hop)⟩
  case builtin =>
    intro u hrun hpend hair hown hinv
    have waits : ∀ op, p.op = op → pendIs x op u = some p := fun op hop => pendIs_some hrun hpend hair hop
    exact ⟨fun hop => execHopComplete_inv rfl hown hinv (waits _ hop) cal, fun hend =>
      ⟨fun hop => execTxcwComplete_inv rfl hown hinv (waits _ hop) hend pafb pacur,
        fun hop => execTxsymComplete_inv rfl hown hinv (waits _ hop) hend,
        fun hop => execRxwinComplete_builtin rfl hown (waits _ hop) hend r⟩⟩
  case link =>
    intro u hrun hpend hair hlost
    have waits : ∀ op, p.op = op → pendIs x op u = some p := fun op hop => pendIs_some hrun hpend hair hop
    exact ⟨fun hop hend => ⟨fun v => execLchComplete_failed rfl hlost (waits _ hop) hend,
        execLchComplete_tuned rfl hlost (waits _ hop) hend⟩,
      fun hop last => execLtxComplete_ends rfl hlost (waits _ hop),
      fun hop => ⟨fun hend hidle v => execLrxComplete_none rfl hlost (waits _ hop) hend hidle,
        fun f => execLrxComplete_frame rfl hlost (waits _ hop)⟩,
      fun hop => execLccaComplete_ends rfl hlost (waits _ hop), fun hop => execLoffComplete_ends rfl hlost (waits _ hop)⟩

end Sys2Proof.Machine
end

section
/-!
PROOFS. The RADIO, COEX and TMR commands (6.8, 6.9).
-/
namespace Sys2Proof.Machine

-- ------------------------------------------------------------------ what the commands' fields say

/-- R285: a WAIT that stops at 10,000 µs leaves the shared bit its own place. -/
theorem coexWord_toNat (wait : Nat) (shared : Bool) : (coexWord wait shared).toNat = bitAt 15 shared + min 10000 wait := by
  have flag : bitAt 15 shared ≤ 2 ^ 15 := by cases shared <;> decide
  rw [coexWord, BitVec.toNat_ofNat, Nat.mod_eq_of_lt (by omega)]

theorem coexWord_wait (wait : Nat) (shared : Bool) : bits (coexWord wait shared) 14 0 = min 10000 wait := by
  have flag : bitAt 15 shared % 2 ^ 15 = 0 := by cases shared <;> rfl
  rw [bits, coexWord_toNat]
  omega

theorem coexWord_shared (wait : Nat) (shared : Bool) : bit (coexWord wait shared) 15 = shared := by
  have low : (min 10000 wait).testBit 15 = false := Nat.testBit_lt_two_pow (by omega)
  rw [bit, ← BitVec.testBit_toNat, coexWord_toNat]
  cases shared
  · rw [bitAt, if_neg (by decide), Nat.zero_add, low]
  · rw [bitAt, if_pos rfl, Nat.testBit_two_pow_add_eq, low, Bool.not_false]

@[simp] theorem cmpNo_val (k : Fin 12) : cmpNo k.val = some k := by
  simp [cmpNo]

/-- R148: a tenant's GO mask has its three compares and its down counter. -/
theorem ownMask_testBit (t : Tenant) (i : Nat) (h : (3 * t.val ≤ i ∧ i < 3 * t.val + 3) ∨ i = 12 + t.val) :
    (ownMask t).testBit i = true := by
  rcases h with ⟨hlow, hhigh⟩ | rfl
  · have compares : ∀ (t : Tenant) (j : Fin 3), (ownMask t).testBit (3 * t.val + j.val) = true := by decide
    simpa [Nat.add_sub_cancel' hlow] using compares t ⟨i - 3 * t.val, by omega⟩
  · exact (by decide : ∀ t : Tenant, (ownMask t).testBit (12 + t.val) = true) t

theorem and_ownMask (t : Tenant) (m : Nat)
    (h : ∀ i, m.testBit i = true → (3 * t.val ≤ i ∧ i < 3 * t.val + 3) ∨ i = 12 + t.val) : m &&& ownMask t = m := by
  refine Nat.eq_of_testBit_eq fun i => ?_
  rw [Nat.testBit_and]
  cases hi : m.testBit i
  · rfl
  · exact ownMask_testBit t i (h i hi)

section Command
variable {c : Cmd} {s u : State}

-- ------------------------------------------------------------------ RADIO and COEX

theorem execRadioStatus_reads (h : Taken 0x2800 c s u) (hargs : c.args = []) :
    execRadioStatus c s = .next (reply c.t stOk ([BitVec.ofNat 8 (coreIndex (coreState .reader u)),
      BitVec.ofNat 8 (coreIndex (coreState .link u)),
      BitVec.ofNat 8 ((if singleSyn u then 1 else 0) + (if concurrent u then 2 else 0) + (if u.radio.gnt then 4 else 0))] ++
      leBytes 2 (u.radio.calFailL * 256 + u.radio.calFailR)) u) := by
  rw [execRadioStatus, keelRun_some _ _ _ _ _ h, if_neg (by simp [hargs])]
  rfl

theorem execCoexConfig_sets (h : Taken 0x2801 c s u) (hlen : c.args.length = 2) :
    execCoexConfig c s = .next (reply c.t stOk []
      (modProf c.t (fun p => { p with coex := coexWord (fld c.args 0 2) (bit p.coex 15) }) u)) := by
  rw [execCoexConfig, keelRun_some _ _ _ _ _ h, if_neg (not_not_intro hlen)]

/-- R310: not while an inventory of the tenant's own hops by its table. -/
theorem execRadioHoptable_sets (h : Taken 0x2802 c s u) (hlow : 1 ≤ fld c.args 0 1) (hhigh : fld c.args 0 1 ≤ 64)
    (hlen : c.args.length = 3 + 2 * fld c.args 0 1) (hdwellLow : 1 ≤ fld c.args 1 2) (hdwellHigh : fld c.args 1 2 ≤ 4000)
    (htab : ∀ i, i < fld c.args 0 1 → fld c.args (3 + 2 * i) 2 ≤ 4800)
    (hfree : ∀ i, u.rdr.inv[c.t] = some i → i.v1 = false → i.args.region ≠ 2) :
    execRadioHoptable c s = .next (reply c.t stOk [] (setRdr (fun r => { r with tabNext := r.tabNext.set c.t.val 0 c.t.isLt })
      (modProf c.t (fun p => { p with
        hopDwell := fld c.args 1 2, hop := (List.range (fld c.args 0 1)).map fun i => fld c.args (3 + 2 * i) 2 }) u))) := by
  have channels : (((List.range (fld c.args 0 1)).map fun i => fld c.args (3 + 2 * i) 2).any fun f => decide (4800 < f)) =
      false := by
    simpa using htab
  have unused : ((u.rdr.inv[c.t]).any fun i => !i.v1 && i.args.region == 2) = false := by
    cases hinv : u.rdr.inv[c.t] with
    | none => rfl
    | some i => simpa using hfree i hinv
  rw [execRadioHoptable, keelRun_some _ _ _ _ _ h]
  dsimp only
  rw [channels, if_neg (by simp only [Bool.false_eq_true, or_false]; omega), unused, if_neg (by decide)]

-- ------------------------------------------------------------------ the timers

theorem execTmrRead_reads (h : Taken 0x3000 c s u) (hargs : c.args = []) :
    execTmrRead c s = .next (reply c.t stOk (leBytes 6 u.reel.cnt.toNat) u) := by
  rw [execTmrRead, keelRun_some _ _ _ _ _ h, if_neg (by simp [hargs])]
  rfl

/-- R440, R442. -/
theorem execTmrCmp_sets (k : Fin 12) (act : BitVec 6) (h : Taken 0x3001 c s u) (hlen : c.args.length = 8)
    (hchan : fld c.args 0 1 = k.val) (hown : k.val / 3 = c.t.val) (hact : fld c.args 7 1 = act.toNat) (hcode : act.toNat % 8 ≤ 4) :
    execTmrCmp c s = .next (reply c.t stOk [] (modCmp k (fun q => { q with
      val := BitVec.ofNat 48 (fld c.args 1 6), act := act,
      st := if bit act 5 then .disabled else if q.hold then .held else .armed }) u)) := by
  have mine : cmpOwner k = c.t := Fin.ext hown
  have good : actBad act.toNat = false := by
    have := act.isLt
    simp only [actBad, Bool.or_eq_false_iff, decide_eq_false_iff_not]
    omega
  rw [execTmrCmp, keelRun_some _ _ _ _ _ h]
  simp only [hchan, cmpNo_val, hact]
  rw [if_neg (not_not_intro hlen), if_neg (not_not_intro mine), good, if_neg (by decide), BitVec.ofNat_toNat, BitVec.setWidth_eq]
  rfl

/-- R447. -/
theorem execTmrDc_loads (h : Taken 0x3002 c s u) (hlen : c.args.length = 6) (hown : fld c.args 0 1 = c.t.val)
    (hcfg : dcCfgBad (BitVec.ofNat 16 (fld c.args 4 2)) = false) (hgap : bits (BitVec.ofNat 16 (fld c.args 4 2)) 5 4 = 0) :
    execTmrDc c s = .next (reply c.t stOk [] (modDc c.t (fun d => { d with
      cfg := BitVec.ofNat 16 (fld c.args 4 2), rld := BitVec.ofNat 24 (fld c.args 1 3),
      cnt := BitVec.ofNat 24 (fld c.args 1 3), st := .held, phase := 0, due := false }) u)) := by
  rw [execTmrDc, keelRun_some _ _ _ _ _ h]
  simp only [hown, tenNo_val]
  rw [if_neg (not_not_intro hlen), if_neg (not_not_intro rfl), if_neg (by simp [hcfg, hgap])]

/-- R452. -/
theorem execTmrGo_releases (h : Taken 0x3003 c s u) (hlen : c.args.length = 2)
    (hown : ∀ i, (fld c.args 0 2).testBit i = true → (3 * c.t.val ≤ i ∧ i < 3 * c.t.val + 3) ∨ i = 12 + c.t.val) :
    execTmrGo c s = .next (reply c.t stOk [] (goRelease (fld c.args 0 2) u)) := by
  rw [execTmrGo, keelRun_some _ _ _ _ _ h]
  dsimp only
  rw [if_neg (not_not_intro hlen), if_neg (not_not_intro (and_ownMask c.t _ hown))]

/-- R456. -/
theorem execTmrCap_reads (h : Taken 0x3004 c s u) (hlen : c.args.length = 2) (hown : fld c.args 0 1 = c.t.val)
    (harm : fld c.args 1 1 ≤ 1) :
    execTmrCap c s = .next (reply c.t stOk
      (leBytes 6 u.reel.caps[c.t].val.toNat ++ [if u.reel.caps[c.t].ovr then 1 else 0])
      (modCap c.t (fun q => { q with full := false, ovr := false, arm := fld c.args 1 1 == 1 }) u)) := by
  rw [execTmrCap, keelRun_some _ _ _ _ _ h]
  simp only [hown, tenNo_val]
  rw [if_neg (not_not_intro hlen), if_neg (not_not_intro rfl), if_neg (Nat.not_lt.mpr harm)]
  rfl

/-- R458. -/
theorem execTmrOut_acts (h : Taken 0x3005 c s u) (hlen : c.args.length = 2) (hown : fld c.args 0 1 = c.t.val)
    (hact : fld c.args 1 1 % 8 ≤ 4) :
    execTmrOut c s = .next (reply c.t stOk [] (toutAct c.t (fld c.args 1 1 % 8) u.reel.cnt
      (modTout c.t (fun o => { o with pw := BitVec.ofNat 5 (fld c.args 1 1 / 8) }) u))) := by
  rw [execTmrOut, keelRun_some _ _ _ _ _ h]
  simp only [hown, tenNo_val]
  rw [if_neg (not_not_intro hlen), if_neg (not_not_intro rfl), if_neg (Nat.not_lt.mpr hact)]

end Command

/-- Settles O24, one command after the other. -/
theorem radioAndTimerCommands : Obligations.RadioAndTimerCommands := by
  unfold Obligations.RadioAndTimerCommands
  refine ⟨⟨fun c s u h => execRadioStatus_reads h, ?coex, fun c s u h => execRadioHoptable_sets h⟩,
    fun c s u h => execTmrRead_reads h, fun c s u k act h => execTmrCmp_sets k act h, fun c s u h => execTmrDc_loads h,
    fun c s u h => execTmrGo_releases h, fun c s u h => execTmrCap_reads h, fun c s u h => execTmrOut_acts h⟩
  case coex =>
    intro c s u h hlen
    have sets : modProf c.t (fun p => { p with coex := coexWord (fld c.args 0 2) (bit p.coex 15) }) u =
        modProf c.t (fun p => { p with coex := coexWord (fld c.args 0 2) (bit u.prof[c.t].coex 15) }) u := rfl
    exact ⟨_, sets ▸ execCoexConfig_sets h hlen, coexWord_wait .., coexWord_shared ..⟩

end Sys2Proof.Machine
end

section
/-!
PROOFS. Survey's events: samples, telemetry and sweeps (chapter 21).
-/
namespace Sys2Proof.Machine

section Event
variable {now : Tick} {s u : State} (hu : advanceTo now s = u)
include hu

-- ------------------------------------------------------------------ samples and telemetry

/-- R548. -/
theorem execSurveySample_takes (smp : Sample) (hmode : u.power.mode = .run) :
    execSurveySample now smp s = .next (takeSample smp u) := by
  simp only [execSurveySample, hu, hmode, beq_self_eq_true, if_true]

/-- R564: every subscribed tenant is told the same record. -/
theorem execTelemetrySnapshot_tells (smp : Sample) (hmode : u.power.mode = .run ∨ u.power.mode = .limp)
    (hperiod : u.reel.cnt.toNat % (u.svy.period * 24000000) = 0) {v : State} (hv : v = takeSample smp u) :
    execTelemetrySnapshot now smp s =
      .next (forTenants (fun t w => if w.svy.subs[t] = 0 then w else raise t evTelemetry (telemetry v) w) v) := by
  subst hv
  have due : ((u.power.mode == .run || u.power.mode == .limp) &&
      u.reel.cnt.toNat % (u.svy.period * 24000000) == 0) = true := by
    simpa [hperiod] using hmode
  simp only [execTelemetrySnapshot, hu, due, if_true]

-- ------------------------------------------------------------------ sweeps

/-- R553: at every 900 s of Reel. -/
theorem execScheduledSweep_begins (hmode : u.power.mode = .run) (htick : u.reel.cnt.toNat % 21600000000 = 0)
    (hidle : u.svy.sweep = none) (hsyn : noSyn u = false) {t : Fin 6} {r : List (Fin 6)}
    (htargets : (([0, 1, 2, 3] : List (Fin 6)).filter fun i => bit u.svy.used i.val) ++ [4] ++
      (if bit u.mend.lost 4 = false ∧ bit u.prof[linkHost u].phycfg 1 = true then [5] else []) = t :: r) :
    execScheduledSweep now s = .next (sweepBegin none 0 t true r u) := by
  have due : (u.power.mode == .run && u.reel.cnt.toNat % 21600000000 == 0 && u.svy.sweep.isNone && !noSyn u) = true := by
    simp [hmode, htick, hidle, hsyn]
  have diversity : (!bit u.mend.lost 4 && bit u.prof[linkHost u].phycfg 1) = true ↔
      bit u.mend.lost 4 = false ∧ bit u.prof[linkHost u].phycfg 1 = true := by
    simp
  simp only [execScheduledSweep, hu, due, if_true, diversity, htargets]

section Running
variable {w : Sweep} (hsweep : u.svy.sweep = some w)
include hsweep

section Point
variable (hheld : sweepHolds (sweepCore w) u = true)
include hheld

/-- R261, log entry 54. -/
theorem execSweepPointDone_failed (g : Option Gamma) (hcal : (calResult (sweepCore w) u).1 = true) :
    execSweepPointDone now g s = .next (sweepEnd stDegraded (calResult (sweepCore w) u).2) := by
  simp only [execSweepPointDone, hu, hsweep, hheld, hcal, if_true]

variable (hcal : (calResult (sweepCore w) u).1 = false)
include hcal

/-- R551. -/
theorem execSweepPointDone_measured (p : Gamma) : execSweepPointDone now (some p) s = .next (sweepNext (setSvy (fun y => { y with
    sweep := some { w with points := w.points ++ [(w.next, p)], next := w.next + 1 } })
    (releaseAir (sweepCore w) (calResult (sweepCore w) u).2))) := by
  simp only [execSweepPointDone, hu, hsweep, hheld, hcal, if_true, Bool.false_eq_true, if_false]

/-- R552: a point that was cut is asked for again. -/
theorem execSweepPointDone_cut : execSweepPointDone now none s =
    .next (sweepNext (releaseAir (sweepCore w) (calResult (sweepCore w) u).2)) := by
  simp only [execSweepPointDone, hu, hsweep, hheld, hcal, if_true, Bool.false_eq_true, if_false]

end Point

/-- R552: 2 s after the first grant. -/
theorem execSweepTimeout_ends {f : Tick} (hfrom : w.from_ = some f) (hnext : w.next < 49)
    (hover : reached u.reel.cnt (f + 48000000) = true) : execSweepTimeout now s = .next (sweepEnd stAirtime u) := by
  simp only [execSweepTimeout, hu, hsweep, hfrom, if_pos (And.intro hnext hover)]

section Complete
variable (hdone : 49 ≤ w.next)
include hdone

/-- R561. -/
theorem execSweepComplete_silent (hsilent : sweepSilent w = true) :
    execSweepComplete now s = .next (sweepRest w (sweepTold w stOk 0xFFFF 0xFFFF
      (setSvy (fun v => { v with targets := vmod v.targets w.target fun g => { g with rl := 0xFFFF, len := 0xFFFF } }) u))) := by
  simp only [execSweepComplete, hu, hsweep, if_neg (Nat.not_lt.mpr hdone), hsilent, if_true]

/-- R555, R556: the first result of class 0 or 4 is the reference of later ones. -/
theorem execSweepComplete_reports (hsilent : sweepSilent w = false) {rl len cls : Nat} {v : State}
    (hloss : lowestLoss (w.points.filter fun p => inBand w p.1 u) u = (rl, v))
    (hlen : len = if w.length = true ∧ w.target.val < 4 then feederLength w.prof w.points else 0xFFFF)
    (hcls : cls = classify w rl len v) :
    execSweepComplete now s = .next (sweepRest w (reportClass w.target cls (sweepTold w stOk rl len
      (setSvy (fun y => { y with targets := vmod y.targets w.target fun g =>
        { g with
          rl := rl
          len := len
          refRl := if g.refRl.isNone ∧ (cls = 0 ∨ cls = 4) then some (rl, len) else g.refRl } }) v)))) := by
  subst hlen hcls
  simp only [execSweepComplete, hu, hsweep, if_neg (Nat.not_lt.mpr hdone), hsilent, Bool.false_eq_true, if_false, hloss]

end Complete

end Running

end Event

/-- Settles O36, one event after the other. -/
theorem surveyEventsComplete : Obligations.SurveyEventsComplete := by
  unfold Obligations.SurveyEventsComplete
  refine ⟨fun now smp s hmode => ?sample, fun now smp s hmode => ?telemetry, fun now s t r => ?scheduled, fun now g s w => ?point,
    fun now f s w => ?timeout, fun now s w => ?complete⟩
  case sample =>
    exact execSurveySample_takes rfl smp (by rw [advanceTo_power, hmode])
  case telemetry =>
    intro u hperiod v hv
    exact execTelemetrySnapshot_tells rfl smp (by rwa [advanceTo_power]) hperiod hv
  case scheduled =>
    intro u hmode htick hidle hsyn htargets
    exact execScheduledSweep_begins rfl hmode htick hidle hsyn htargets
  case point =>
    intro u hsweep hheld v
    refine ⟨execSweepPointDone_failed rfl hsweep hheld g, fun hcal => ⟨?_, ?_⟩⟩
    · rintro p rfl
      exact execSweepPointDone_measured rfl hsweep hheld hcal p
    · rintro rfl
      exact execSweepPointDone_cut rfl hsweep hheld hcal
  case timeout =>
    intro u hsweep hfrom hnext hover
    exact execSweepTimeout_ends rfl hsweep hfrom hnext hover
  case complete =>
    intro u hsweep hdone
    exact ⟨execSweepComplete_silent rfl hsweep hdone, fun hsilent rl len v cls =>
      execSweepComplete_reports rfl hsweep hdone hsilent⟩

end Sys2Proof.Machine
end

section
/-!
PROOFS. The link receiver: detection, headers, the MAC's checks, listens and neighbours (chapters 13 and 14).
-/
namespace Sys2Proof.Machine

-- ------------------------------------------------------------------ the strongest lane

/-- A detection wins over another: it is stronger, or as strong on a lane no higher (R391). -/
def LaneBeats (a b : Fin 6 × Nat) : Prop := b.2 ≤ a.2 ∧ (b.2 = a.2 → a.1.val ≤ b.1.val)

theorem LaneBeats.refl (a : Fin 6 × Nat) : LaneBeats a a := ⟨Nat.le_refl _, fun _ => Nat.le_refl _⟩

theorem LaneBeats.trans {a b c : Fin 6 × Nat} (hab : LaneBeats a b) (hbc : LaneBeats b c) : LaneBeats a c := by
  obtain ⟨hab, htie⟩ := hab
  obtain ⟨hbc, htie'⟩ := hbc
  exact ⟨by omega, fun h => (htie (by omega)).trans (htie' (by omega))⟩

theorem strongerLane_beats (a b : Fin 6 × Nat) : LaneBeats (strongerLane a b) a ∧ LaneBeats (strongerLane a b) b := by
  rw [strongerLane]
  split
  · exact ⟨⟨by omega, fun h => by omega⟩, .refl b⟩
  · exact ⟨.refl a, ⟨by omega, fun h => by omega⟩⟩

theorem strongerLane_mem (a b : Fin 6 × Nat) : strongerLane a b = a ∨ strongerLane a b = b := by
  rw [strongerLane]
  split
  · exact .inr rfl
  · exact .inl rfl

/-- The lane that the fold ends with is one of the list and wins over all of it. -/
theorem foldl_strongerLane (r : List (Fin 6 × Nat)) (a : Fin 6 × Nat) :
    r.foldl strongerLane a ∈ a :: r ∧ ∀ d ∈ a :: r, LaneBeats (r.foldl strongerLane a) d := by
  induction r generalizing a with
  | nil => exact ⟨List.mem_singleton_self a, fun d hd => List.mem_singleton.mp hd ▸ .refl _⟩
  | cons b r ih =>
    obtain ⟨hmem, hbeats⟩ := ih (strongerLane a b)
    obtain ⟨overA, overB⟩ := strongerLane_beats a b
    have first := hbeats _ (List.mem_cons_self ..)
    refine ⟨?_, fun d hd => ?_⟩
    · rw [List.foldl_cons]
      rcases List.mem_cons.mp hmem with heq | hrest
      · rw [heq]
        rcases strongerLane_mem a b with h | h <;> simp [h]
      · exact List.mem_cons_of_mem _ (List.mem_cons_of_mem _ hrest)
    · rcases List.mem_cons.mp hd with rfl | hd
      · exact first.trans overA
      · rcases List.mem_cons.mp hd with rfl | hd
        · exact first.trans overB
        · exact hbeats d (List.mem_cons_of_mem _ hd)

/-- R391: with one searching lane that detects, the lane picked is one of them and wins over it. -/
theorem lanePick_some {found : List (Fin 6 × Nat)} {s : State} {d : Fin 6 × Nat} (hd : d ∈ found)
    (hsearch : bit (searchLanes s) d.1.val = true) :
    ∃ w, lanePick found s = some w ∧ w ∈ found ∧ bit (searchLanes s) w.1.val = true ∧ LaneBeats w d := by
  have searching : d ∈ found.filter fun d => bit (searchLanes s) d.1.val := List.mem_filter.mpr ⟨hd, hsearch⟩
  rw [lanePick]
  cases hlanes : found.filter fun d => bit (searchLanes s) d.1.val with
  | nil => rw [hlanes] at searching; cases searching
  | cons a r =>
    rw [hlanes] at searching
    obtain ⟨hmem, hbeats⟩ := foldl_strongerLane r a
    obtain ⟨hfound, hbit⟩ := List.mem_filter.mp (hlanes ▸ hmem)
    exact ⟨_, rfl, hfound, hbit, hbeats d searching⟩

-- ------------------------------------------------------------------ what the receiver's operations leave

theorem setHold_link (c : CoreId) (h : Option Hold) (s : State) : (setHold c h s).link = s.link := by
  cases c <;> rfl

theorem coexTrack_link (s : State) : (coexTrack s).link = s.link := by
  rw [coexTrack_only]

theorem setCommit_link (c : CoreId) (t : Option Tick) (s : State) : (setCommit c t s).link = s.link := by
  rw [(setCommit_only c t s).1]

/-- R386, R387. -/
theorem phrGood_iff (lane : Fin 6) (len hcs : Byte) : phrGood lane len hcs = true ↔
    if lane = 5 then len.toNat % 128 ≠ 0 else len ≠ 0 ∧ hcs.toNat = hcsOf len.toNat := by
  rw [phrGood]
  split <;> simp

/-- What only one tenant's step changes is that step. -/
theorem forTenants_single (t : Tenant) (f : Tenant → State → State) (s : State) (h : ∀ x s, x ≠ t → f x s = s) :
    forTenants f s = f t s := by
  have which : ∀ t : Tenant, t = 0 ∨ t = 1 ∨ t = 2 ∨ t = 3 := by decide
  rcases which t with rfl | rfl | rfl | rfl <;> simp [forTenants, h]

section Event
variable {now : Tick} {s u : State} (hu : advanceTo now s = u)
include hu

-- ------------------------------------------------------------------ from the detection to the header

/-- R261, R391. -/
theorem execLaneDetection_picks {found : List (Fin 6 × Nat)} {w : Fin 6 × Nat} (hrx : coreState .link u = .rx)
    (hfree : u.link.demod = false) (hpick : lanePick found u = some w) :
    execLaneDetection found now s = .next (if (calResult .link u).1 then
      forTenants (fun x => listenEnd x stCalFail) (calResult .link u).2 else laneTaken w.1 (calResult .link u).2) := by
  simp only [execLaneDetection, hu, hrx, hfree, hpick, beq_self_eq_true, Bool.not_false, Bool.and_self, if_true,
    apply_ite Host.Outcome.next]

/-- R392. -/
theorem execSfdTimeout_searches (hdemod : u.link.demod = true) (hsfd : u.link.afterSfd = false)
    (hover : reached u.reel.cnt (u.link.detAt + BitVec.ofNat 48 (sfdTicks u)) = true) :
    execSfdTimeout now s = .next (searchAgain (setLink (fun l => { l with errFalse := satInc 255 l.errFalse }) u)) := by
  simp only [execSfdTimeout, hu, hdemod, hsfd, hover, Bool.not_false, Bool.and_self, if_true]

-- ------------------------------------------------------------------ the end of a frame

/-- What Keel makes of a frame that has ended (R419). -/
def frameJudged (g : RxFrame) (h : State) : State :=
  if fcsGood g then macProcess g (ackOwe g h) else coexTrack (setRadio (fun r => { r with pri := false }) h)

theorem execLinkFrameReceived_ends {f : RxFrame} (hrx : coreState .link u = .rx) (hlane : bit (searchLanes u) f.lane.val = true)
    (hmac : holds .listen .link u = true ∨ u.link.step = .ackWait) (hlow : 1 ≤ f.psdu.length)
    (hhigh : f.psdu.length ≤ if f.lane = 5 then 127 else 255) {v : State}
    (hv : v = frameJudged (rssiReported f) (linkHeard (rssiReported f) u)) :
    execLinkFrameReceived f now s = .next (if v.link.ackDue = none ∧ holds .listen .link v = true
      then listensDue (frameEnd .link v) else v) := by
  have taken : (macListens f.lane u && decide (1 ≤ f.psdu.length ∧ f.psdu.length ≤ if f.lane = 5 then 127 else 255)) = true := by
    simpa [macListens, macReceives, hrx, hlane, hlow, hhigh] using hmac
  simp only [execLinkFrameReceived, hu, taken, if_true]
  rw [show (if fcsGood (rssiReported f) then _ else _) = v from hv.symm]
  cases hdue : v.link.ackDue with
  | some a => simp
  | none =>
    cases hhold : v.radio.lHold with
    | none => simp [holds, holdOf, hhold]
    | some h => by_cases hwho : h.req.who = .listen <;> simp [holds, holdOf, hhold, hwho]

/-- R422. -/
theorem execListenDurExpiry_ends {x : Tenant} {l : Listen} (hl : u.link.listens[x] = some l) (hover : listenOver l u = true)
    (hfree : listenBusy u = false) : execListenDurExpiry x now s = .next (listenEnd x stOk u) := by
  simp only [execListenDurExpiry, hu, hl, hover, hfree, Bool.not_false, and_self, if_true]

/-- R426. -/
theorem execNbrAgeing_ages (hmode : u.power.mode = .run) {v : State}
    (hv : v = setLink (fun l => { l with nbrs := l.nbrs.map fun n => { n with missed := nbrMissed n u } }) u) :
    execNbrAgeing now s =
      .next ((v.link.nbrs.filter fun n => decide (4 ≤ n.missed)).foldl (fun w n => nbrLost n.addr 0 w) v) := by
  subst hv
  simp only [execNbrAgeing, hu, hmode, beq_self_eq_true, if_true]

end Event

-- ------------------------------------------------------------------ diversity and the header

section Receiving
variable {s : State} (hdemod : s.link.demod = true)
include hdemod

section Diversity
variable (hmeasures : s.link.measuring = true)
include hmeasures

/-- R394. -/
theorem execDiversityDecision_keeps {here there : Nat} (h : here ≠ there) : execDiversityDecision here there s =
    .next (aerialKept (if here < there then !s.link.keptLkb else s.link.keptLkb) s) := by
  simp only [execDiversityDecision, hdemod, hmeasures, Bool.and_self, if_true, if_neg h]

/-- Log entry 38. -/
theorem execDiversityDecision_equal (n : Nat) :
    execDiversityDecision n n s = .next (aerialKept (drawBool s).1 (drawBool s).2) := by
  simp only [execDiversityDecision, hdemod, hmeasures, Bool.and_self, if_true]

end Diversity

section Header
variable (hsfd : s.link.afterSfd = false) {len hcs : Byte} (asksAck : Bool)
include hsfd

/-- R266, R281, R395. -/
theorem execPhrReceived_good (hgood : phrGood s.link.lane len hcs = true) {v : State}
    (hv : v = setCommit .link (some s.reel.cnt) (sfdFound s)) :
    execPhrReceived len hcs asksAck s =
      .next (if asksAck && macReceives v then coexTrack (setRadio (fun r => { r with pri := true }) v) else v) := by
  subst hv
  simp only [execPhrReceived, hdemod, hsfd, hgood, Bool.not_false, Bool.and_self, if_true]

/-- R387. -/
theorem execPhrReceived_bad (hbad : phrGood s.link.lane len hcs = false) : execPhrReceived len hcs asksAck s =
    .next (searchAgain (setLink (fun l => { l with errHdr := satInc 255 l.errHdr }) s)) := by
  simp only [execPhrReceived, hdemod, hsfd, hbad, Bool.not_false, Bool.and_self, if_true, Bool.false_eq_true, if_false]

end Header

end Receiving

-- ------------------------------------------------------------------ the MAC

/-- R414: 4,608 ticks behind the frame, on its lane and aerial. -/
theorem ackOwe_due {f : RxFrame} {u : State} (hasks : (rawAck f).1 = true) (hdst : (rawAck f).2.1 = u.link.addr) :
    (ackOwe f u).link.ackDue = some (u.reel.cnt + 4608,
      if f.lane = 5 then ackS (rawAck f).2.2.2 else ackT (rawAck f).2.2.2 (rawAck f).2.2.1 u.link.addr, f.lane, f.lkb) := by
  have mine : (rawAck f).1 = true ∧ (rawAck f).2.1 = (setRadio (fun r => { r with pri := false }) u).link.addr := ⟨hasks, hdst⟩
  rw [ackOwe]
  dsimp only
  rw [if_pos mine]
  split
  · split <;> simp only [coexTrack_link, setHold_link] <;> rfl
  · rw [coexTrack_link]; rfl

section Mac
variable {f : RxFrame} {u : State}

theorem macProcess_malformed (hparse : parseMac u.link.pan f.lane f.psdu = none) :
    macProcess f u = setLink (fun l => { l with macFormat := satInc 255 l.macFormat }) u := by
  simp only [macProcess, hparse]

theorem notForeign {m : MacFrame} (htype : m.ftype ≠ 1) (hdst : m.dst = u.link.addr ∨ m.dst = 0xFFFF) :
    ¬ (m.ftype = 1 ∨ (m.dst ≠ u.link.addr ∧ m.dst ≠ 0xFFFF)) := by
  rintro (hack | ⟨hother, hone⟩)
  · exact htype hack
  · exact hdst.elim hother hone

section Parsed
variable {m : MacFrame} (hparse : parseMac u.link.pan f.lane f.psdu = some m)
include hparse

/-- R419: an ACK, or a frame to another node. -/
theorem macProcess_foreign (h : m.ftype = 1 ∨ (m.dst ≠ u.link.addr ∧ m.dst ≠ 0xFFFF)) : macProcess f u = u := by
  simp only [macProcess, hparse, if_pos h]

/-- R413, R462. -/
theorem macProcess_dropped (htype : m.ftype ≠ 1) (hdst : m.dst = u.link.addr ∨ m.dst = 0xFFFF) {d : Drop}
    (hsec : secCheck m (beaconLike m) u = .error d) : macProcess f u = countDrop d u := by
  simp only [macProcess, hparse, if_neg (notForeign htype hdst), hsec]

/-- R419: a T-mode data frame is no beacon. -/
theorem macProcess_delivers {p : Bytes} (hdst : m.dst = u.link.addr ∨ m.dst = 0xFFFF) (hmode : m.smode = false)
    (htype : m.ftype = 0) (hsec : secCheck m false u = .ok p) : macProcess f u = deliver f m p (nbrHeard f m u) := by
  have plain : beaconLike m = false := by simp [beaconLike, hmode, htype]
  have body : beaconBody m p = none := by simp [beaconBody, hmode, htype]
  have mine := notForeign (by rw [htype]; decide) hdst
  simp only [macProcess, hparse, if_neg mine, plain, hsec, body]
  rw [if_neg (by omega), if_neg (by simp [hmode])]

end Parsed

/-- The frame delivered is the last of its source; those of others are kept while they are younger than 2 s (R420). -/
def dupNoted (m : MacFrame) (s : State) : State :=
  setLink (fun l => { l with
    dup := (m.src, m.mseq, (if m.sec then some m.fcnt else none), s.reel.cnt) ::
      l.dup.filter fun d => d.1 != m.src && decide (ticksBetween d.2.2.2 s.reel.cnt < 48000000) }) s

/-- R421: in T-mode to tenant DTEN alone, whether or not it listens. -/
theorem deliver_tmode {m : MacFrame} {p : Bytes} {t : Tenant} (hmode : m.smode = false) (hten : t.val = m.dten)
    (hdup : isDup m u = false) (hbuf : findBuf 4 u ≠ none) : deliver f m p u =
      setLink (fun l => { l with listens := vmod l.listens t fun o => o.map fun x => { x with frames := satInc 0xFFFF x.frames } })
        (raise t evLnkRx (lnkRxData f m.src m.sec p) (dupNoted m u)) := by
  have room : (findBuf 4 u).isNone = false := by
    simpa [← Option.isSome_iff_ne_none] using hbuf
  simp only [deliver, hdup, room, hmode, Bool.false_eq_true, if_false]
  rw [forTenants_single t, if_pos (by simp [hten])]
  · rfl
  · intro x s hx
    exact if_neg (by simpa [← hten, ← Fin.ext_iff] using hx)

end Mac

/-- Settles O40, one event after the other. -/
theorem linkReceptionComplete : Obligations.LinkReceptionComplete := by
  unfold Obligations.LinkReceptionComplete
  refine ⟨?lanes, ?diversity, ?sfd, ?header, ?frame, fun f u => ackOwe_due, ?mac, ?deliver, ?listen, ?ageing⟩
  case lanes =>
    intro found now s d u c hrx hfree hd hsearch
    obtain ⟨w, hpick, hfound, hbit, hle, htie⟩ := lanePick_some hd hsearch
    have picks : exec (.laneDetection found now) s = .next (if c.1 then
      forTenants (fun x => listenEnd x stCalFail) c.2 else laneTaken w.1 c.2) := execLaneDetection_picks rfl hrx hfree hpick
    refine ⟨fun hfailed => by rw [picks, if_pos hfailed], fun hgood => ⟨w, _, ?_, rfl, hfound, hbit, hle, htie, rfl, rfl, rfl, rfl⟩⟩
    rw [picks, hgood]; rfl
  case diversity =>
    intro a b s hdemod hmeasures
    refine ⟨fun hle hne => ?_, fun hlt => ?_, ?_⟩
    · exact (execDiversityDecision_keeps hdemod hmeasures hne).trans (by rw [if_neg (Nat.not_lt.mpr hle)])
    · exact (execDiversityDecision_keeps hdemod hmeasures (Nat.ne_of_lt hlt)).trans (by rw [if_pos hlt])
    · rintro rfl
      exact ⟨_, execDiversityDecision_equal hdemod hmeasures a⟩
  case sfd =>
    intro now s u hdemod hsfd hover
    exact ⟨_, execSfdTimeout_searches rfl hdemod hsfd hover, rfl, rfl, rfl⟩
  case header =>
    intro len hcs asksAck s hdemod hsfd good v
    refine ⟨fun hgood => ⟨?_, ?_⟩, fun hbad => ⟨_, ?_, rfl, rfl, rfl⟩⟩
    · rw [setCommit_link]; rfl
    · exact execPhrReceived_good hdemod hsfd asksAck ((phrGood_iff ..).mpr hgood) rfl
    · exact execPhrReceived_bad hdemod hsfd asksAck (Bool.eq_false_iff.mpr (mt (phrGood_iff ..).mp hbad))
  case frame =>
    rintro f g now s u h v hrx hlane hmac hlow hhigh rfl
    exact execLinkFrameReceived_ends rfl hrx hlane hmac hlow hhigh rfl
  case mac =>
    refine fun f u => ⟨macProcess_malformed, fun m hparse => ⟨macProcess_foreign hparse, fun htype hdst => ⟨fun d => ?_, ?_⟩⟩⟩
    · exact macProcess_dropped hparse htype hdst
    · exact fun hmode hdata p => macProcess_delivers hparse hdst hmode hdata
  case deliver =>
    intro f m p t u hmode hten hdup hbuf hroom
    rw [deliver_tmode hmode hten hdup hbuf]
    exact raise_lastOut t evLnkRx _ (dupNoted m u) hroom
  case listen =>
    intro x now s l u hl hover hfree
    exact execListenDurExpiry_ends rfl hl hover hfree
  case ageing =>
    intro now s u v hmode
    exact execNbrAgeing_ages rfl hmode rfl

end Sys2Proof.Machine
end

section
/-!
PROOFS. The interrogator's side of TAM1 and FARZ: replies, sessions and their ends (chapter 12).
-/
namespace Sys2Proof.Machine

-- ------------------------------------------------------------------ what the end of a program leaves

/-- The interrogator's sessions and the accesses that run. -/
def accessPart (s : State) : Vector SecSess 4 × Vector (Option Acc) 4 := (s.sess, s.rdr.acc)

theorem ite_access {c : Prop} [Decidable c] {a b s : State} (ha : accessPart a = accessPart s)
    (hb : accessPart b = accessPart s) : accessPart (if c then a else b) = accessPart s := by
  split <;> assumption

@[simp] theorem setHold_access (c : CoreId) (h : Option Hold) (s : State) : accessPart (setHold c h s) = accessPart s := by
  cases c <;> rfl

@[simp] theorem setCore_access (c : CoreId) (x : CoreSt) (s : State) : accessPart (setCore c x s) = accessPart s := by
  cases c with
  | reader => rfl
  | link => exact ite_access (ite_access rfl rfl) rfl

@[simp] theorem coexTrack_access (s : State) : accessPart (coexTrack s) = accessPart s := by
  rw [coexTrack_only]; rfl

@[simp] theorem dropWaiters_access (w : Who) (s : State) : accessPart (dropWaiters w s) = accessPart s := by
  rw [dropWaiters_only]; rfl

@[simp] theorem chargeTenant_access (t : Tenant) (since : Tick) (s : State) :
    accessPart (chargeTenant t since s) = accessPart s := rfl

@[simp] theorem chargeListen_access (h : Hold) (t : Tenant) (s : State) : accessPart (chargeListen h t s) = accessPart s := by
  simp only [chargeListen]
  split
  · split <;> simp
  · rfl

@[simp] theorem charge_access (h : Hold) (s : State) : accessPart (charge h s) = accessPart s := by
  simp only [charge]
  split
  · simp [forTenants]
  · simp
  · rfl

@[simp] theorem ownRoundEnd_access (s : State) : accessPart (ownRoundEnd s) = accessPart s := by
  simp only [ownRoundEnd]
  split <;> rfl

@[simp] theorem carrierOff_access (now : Tick) (s : State) : accessPart (carrierOff now s) = accessPart s := by
  simp only [carrierOff]
  split <;> split <;> rfl

@[simp] theorem leaveChannel_access (now : Tick) (s : State) : accessPart (leaveChannel now s) = accessPart s := rfl

@[simp] theorem trswEnd_access (s : State) : accessPart (trswEnd s) = accessPart s := by
  rw [trswEnd_only]; rfl

@[simp] theorem coreDown_access (c : CoreId) (s : State) : accessPart (coreDown c s) = accessPart s := by
  cases c <;> simp only [coreDown]
  case reader =>
    refine ite_access rfl ?_
    simp only [setCore_access, leaveChannel_access, carrierOff_access, ownRoundEnd_access]
    rfl
  case link => simp only [setCore_access, trswEnd_access]; rfl

@[simp] theorem releaseAir_access (c : CoreId) (s : State) : accessPart (releaseAir c s) = accessPart s := by
  simp only [releaseAir]
  split
  · rfl
  · exact ite_access rfl (by simp)

@[simp] theorem dropAir_access (x : Tenant) (s : State) : accessPart (dropAir x s) = accessPart s := by
  simp only [dropAir]
  split <;> split <;> simp

@[simp] theorem dropBufs_access (x : Tenant) (s : State) : accessPart (dropBufs x s) = accessPart s := by
  have freed : ∀ (l : List (Fin 32)) (s : State), accessPart (l.foldl (fun s h => freeBuf h s) s) = accessPart s := by
    intro l
    induction l with
    | nil => exact fun _ => rfl
    | cons h l ih => exact fun s => (ih _).trans rfl
  exact freed _ s

@[simp] theorem runOver_access (x : Tenant) (s : State) : accessPart (runOver x s) = accessPart s := rfl

/-- A program's end gives back its air and buffers; no session or access knows of it (7.6). -/
theorem endProgram_access (x : Tenant) (st : Byte) (s : State) : accessPart (endProgram x st s) = accessPart s := by
  rw [accessPart, endProgram]
  simp only [apply_ite State.sess, apply_ite State.rdr, raise_sess, raise_rdr, ite_self, finishStart_sess, finishStart_rdr,
    modCtx_sess, modCtx_rdr]
  exact (runOver_access x _).trans ((dropBufs_access x _).trans (dropAir_access x s))

-- ------------------------------------------------------------------ replies to an exchange

section Exchange
variable {x : Tenant} {hz : Nat} {a : Acc}

/-- R292: a reply that is awaited, current and at its rate is heard. -/
theorem exchangeHeard_hears {step : AccStep} {u : State} (hawaits : exchangeAt x step u = some a)
    (hcurrent : requestStale x .reader u = false) (hrate : rateIn (accSet x a u) hz = true) :
    (exchangeHeard x step hz u).1 = some a := by
  simp only [exchangeHeard, hawaits, hcurrent, hrate, Bool.false_eq_true, if_false, if_true]

variable {msg : Bytes} {now : Tick} {k : Fin 48} {s v : State}

section Exchanged
variable {held : SecCtx} (hheard : exchangeHeard x .exchange hz (advanceTo now s) = (some a, v))
  (hctx : v.sess[x].ctx = some held)
include hheard hctx

section Tam1
variable {kid : Byte} (hkind : a.kind = .tam1 k kid)
include hkind

/-- R360, R562: the response carries the constant and the challenge (log entry 14). -/
theorem execTam1Response_ok (hlen : msg.length = 16) (hconst : (aesDec held.ktag msg).take 2 = [0x96, 0xC5])
    (hchal : (aesDec held.ktag msg).drop 6 = v.sess[x].challenge) : execTam1Response x msg hz now s =
      .next (endAcc x stOk 0 0 (setSvy (fun v => { v with tagCap := v.tagCap ||| 0x20 }) v)) := by
  simp only [execTam1Response, hheard, hkind, hctx, if_pos (And.intro hlen (And.intro hconst hchal))]

/-- R360: another challenge. -/
theorem execTam1Response_fails (hchal : (aesDec held.ktag msg).drop 6 ≠ v.sess[x].challenge) :
    execTam1Response x msg hz now s = .next (logAuthFail 0 x (endAcc x stAuthFail 0 3 v)) := by
  have wrong : ¬ (msg.length = 16 ∧ (aesDec held.ktag msg).take 2 = [0x96, 0xC5] ∧
      (aesDec held.ktag msg).drop 6 = v.sess[x].challenge) := fun ⟨_, _, h⟩ => hchal h
  simp only [execTam1Response, hheard, hkind, hctx, if_neg wrong]

end Tam1

section Fz2
variable (hkind : a.kind = .farz k) {c : SecCtx} (hc : c = secKeys held.ktag v.sess[x].challenge ((msg.drop 1).take 8))
include hkind hc

/-- R352: FZ3 goes out under a right TPROOF alone. -/
theorem execFz2Reply_fails (hproof : msg.drop 9 ≠ tproof c) : execFz2Reply x msg hz now s = .next (farzFails x v) := by
  subst hc
  simp only [execFz2Reply, hheard, hkind, hctx, if_pos (Or.inr (Or.inr hproof))]

/-- R350, R352: the right TPROOF, and one use charged for FZ2 and one for FZ3. -/
theorem execFz2Reply_proves {w y z : State} (hlen : msg.length = 17) (htype : msg.take 1 = [0x02])
    (hproof : msg.drop 9 = tproof c) (hcharged : chargeSession k v.sess[x].keyGone v = .ok w)
    (hgoes : accFrameOver x a (modSess x (fun q => { q with ctx := some c })
      (setSvy (fun v => { v with tagCap := v.tagCap ||| 0x40 }) w)) = (true, y))
    (hpaid : chargeSession k y.sess[x].keyGone y = .ok z) :
    execFz2Reply x msg hz now s = .next (accSend x { a with step := .fz3 } (replyGap (accSet x a z)) z) := by
  subst hc
  have good : ¬ (msg.length ≠ 17 ∨ msg.take 1 ≠ [0x02] ∨
      msg.drop 9 ≠ tproof (secKeys held.ktag v.sess[x].challenge ((msg.drop 1).take 8))) := by
    simp only [hlen, htype, hproof, ne_eq, not_true_eq_false, or_self, not_false_eq_true]
  simp only [execFz2Reply, hheard, hkind, hctx, if_neg good, hcharged, hgoes, Bool.not_true, Bool.false_eq_true, if_false,
    hpaid]

end Fz2

end Exchanged

/-- R364: the session that opens holds the reader's air, and the exchange is no access any more. -/
def sessionBegun (x : Tenant) (a : Acc) (w : State) : State :=
  setAcc x none (modSess x (fun q => { q with
    opened := true, handle := a.handle, ctrTx := 0, ctrRx := 0, msgs := 0, sendQ := [], busy := none,
    idleFrom := w.reel.cnt, sentAt := w.reel.cnt, region := a.args.region, visitFrom := w.reel.cnt, challenge := [] })
    (holdAsSession x w))

theorem sessionBegun_opens (x : Tenant) (a : Acc) (w : State) : let t := sessionBegun x a w
    t.sess[x].opened = true ∧ t.sess[x].handle = a.handle ∧ t.sess[x].ctrTx = 0 ∧ t.sess[x].ctrRx = 0 ∧ t.sess[x].msgs = 0 ∧
      t.rdr.acc[x] = none := by
  simp [sessionBegun]

/-- R364: FZ3 is acknowledged. -/
theorem execFz3Reply_opens {w t : State} (hheard : exchangeHeard x .fz3 hz (advanceTo now s) = (some a, v))
    (hkind : a.kind = .farz k) (hcharged : chargeSession k v.sess[x].keyGone v = .ok w)
    (ht : t = endProgram x stOk (sessionBegun x a w)) : execFz3Reply x [0x04, 0x00] hz now s =
      .next (raise x evSession (leBytes 2 a.tseq.toNat ++ [t.sess[x].sid, 1, 0]) t) := by
  subst ht
  simp only [execFz3Reply, hheard, hkind, hcharged, ne_eq, not_true_eq_false, if_false]
  rfl

end Exchange

-- ------------------------------------------------------------------ the session

/-- R356, R366: a final reply under its counter, counted and told. -/
def replyDelivered (x : Tenant) (tseq : BitVec 16) (sid : Byte) (plain : Bytes) (ctr : Nat) (v : State) : State :=
  raise x evSecData (leBytes 2 tseq.toNat ++ [sid] ++ leBytes 2 plain.length ++ plain)
    (modSess x (fun q => { q with ctrRx := ctr, msgs := q.msgs + 1 }) v)

theorem replyDelivered_msgs (x : Tenant) (tseq : BitVec 16) (sid : Byte) (plain : Bytes) (ctr : Nat) (v : State) :
    (replyDelivered x tseq sid plain ctr v).sess[x].msgs = v.sess[x].msgs + 1 := by
  simp [replyDelivered]

section Event
variable {x : Tenant} {now : Tick} {s u : State} (hu : advanceTo now s = u)
include hu

section Opened
variable (hopen : u.sess[x].opened = true)
include hopen

section Reply
variable {msg plain rest : Bytes} {hz : Nat} {tseq : BitVec 16} {c : SecCtx} (hctx : u.sess[x].ctx = some c)
  (hbusy : u.sess[x].busy = some (tseq, rest)) (hsent : reached u.reel.cnt u.sess[x].sentAt = true)
  (hrate : rateIn (sessSet x u) hz = true)
include hctx hbusy hsent hrate

/-- R358: the MIC of the reply fails. -/
theorem execSessionReply_fails (hmic : secOpen c 0x01 msg = none) :
    execSessionReply x msg hz now s = .next (logAuthFail 0 x (closeSession x 3 u)) := by
  simp only [execSessionReply, hu, hopen, hctx, hbusy, hsent, hrate, hmic, Option.isSome_some, Bool.and_self, Bool.not_true,
    Bool.false_eq_true, if_false]

/-- R356, R366: the last reply is delivered, and the next message may go. -/
theorem execSessionReply_delivers {v w : State} (hmic : secOpen c 0x01 msg = some plain)
    (hctr : u.sess[x].ctrRx < fld msg 1 4) (hlast : rest = []) (htype : msg.getD 0 0 = 0x11)
    (hcharged : chargeSession u.sess[x].key u.sess[x].keyGone u = .ok v) (hlimit : v.sess[x].msgs + 1 < 1048576)
    (hw : w = frameEnd .reader (replyDelivered x tseq u.sess[x].sid plain (fld msg 1 4) v)) (hstays : w.sess[x].opened = true) :
    execSessionReply x msg hz now s = .next (sessNext x w) := by
  subst hlast
  have fresh : ¬ (fld msg 1 4 ≤ u.sess[x].ctrRx ∨ msg.getD 0 0 ≠ if ([] : Bytes).isEmpty then 0x11 else 0x13) := by
    rintro (hstale | hother)
    · exact absurd hctr (Nat.not_lt.mpr hstale)
    · exact hother htype
  have below : ¬ msgLimit ≤ (replyDelivered x tseq u.sess[x].sid plain (fld msg 1 4) v).sess[x].msgs := by
    rw [replyDelivered_msgs]
    exact Nat.not_le.mpr hlimit
  simp only [execSessionReply, hu, hopen, hctx, hbusy, hsent, hrate, hmic, Option.isSome_some, Bool.and_self, Bool.not_true,
    Bool.false_eq_true, if_false, if_neg fresh, hcharged]
  rw [replyDelivered] at below hw
  simp only [List.isEmpty_nil, if_true, if_neg below, ← hw, hstays, Bool.not_true, Bool.false_eq_true, if_false]

end Reply

/-- R359: no reply within 10 ms. -/
theorem execTagReplyTimeout_closes (hacc : u.rdr.acc[x] = none) (hbusy : u.sess[x].busy.isSome = true)
    (hlate : reached u.reel.cnt (u.sess[x].sentAt + 240000) = true) :
    execTagReplyTimeout x now s = .next (closeSession x 1 u) := by
  simp only [execTagReplyTimeout, hu, hacc, hopen, hbusy, hlate, Bool.and_self, if_true]

/-- R365. -/
theorem execSessionIdleTimeout_closes (hidle : reached u.reel.cnt (u.sess[x].idleFrom + 48000000) = true) :
    execSessionIdleTimeout x now s = .next (closeSession x 1 u) := by
  simp only [execSessionIdleTimeout, hu, hopen, hidle, Bool.and_self, if_true]

section Hop
variable (hholds : holds (.session x) .reader u = true) (hdwell : dwellFits x u.sess[x].region u.sess[x].visitFrom 1 u = false)
  {v : State} (hv : v = carrierOff u.reel.cnt (leaveChannel u.reel.cnt u))
include hholds hdwell hv

/-- R364: no next channel can be had. -/
theorem execSessionDwellHop_closes {n : Nat} (hnone : nextChannel x u.sess[x].region v = .error n) (cal : Cal) :
    execSessionDwellHop x now cal s = .next (closeSession x 1 v) := by
  subst hv
  simp only [execSessionDwellHop, hu, hopen, hholds, hdwell, hnone, Bool.not_false, Bool.and_self, if_true]

/-- R364: the session hops, its carrier off meanwhile. -/
theorem execSessionDwellHop_hops {f : Nat} {w y z g : State} {h : Hold}
    (hnext : nextChannel x u.sess[x].region v = .ok (f, w)) (hheld : holdOf .reader v = some h)
    (hpasses : passes w.reel.cnt { h.req with freq := f } w.radio.lHold w = true)
    (hy : y = grantAir { h.req with freq := f } w.reel.cnt w)
    (hz : z = compHop (calibrate .reader .ok true (compApply (extPa y.loaded[x]) y)))
    (hg : g = carrierOn z.reel.cnt (rampUp z.loaded[x] z.rdr.pset z.reel.cnt z)) :
    execSessionDwellHop x now .ok s = .next (modSess x (fun q => { q with visitFrom := g.reel.cnt }) g) := by
  subst hv hy hz hg
  simp only [execSessionDwellHop, hu, hopen, hholds, hdwell, hnext, hheld, hpasses, Bool.not_false, Bool.not_true,
    Bool.and_self, Bool.false_eq_true, if_true, if_false]

end Hop

end Opened

/-- R359, R363: an exchange's frame is not answered within its window. -/
theorem execTagReplyTimeout_ends {a : Acc} {p : Pend} (hacc : u.rdr.acc[x] = some a) (hstage : a.stage = .window)
    (hstep : a.step = .exchange ∨ a.step = .fz3) (hpend : u.ctxs[x].pend = some p)
    (hlate : reached u.reel.cnt p.until_ = true) : execTagReplyTimeout x now s = .next (endAcc x stTimeout 0 1 u) := by
  have awaits : (a.step == .exchange || a.step == .fz3) = true := by simpa using hstep
  simp only [execTagReplyTimeout, hu, hacc, hstage, awaits, hpend, hlate, beq_self_eq_true, Bool.and_self, if_true]

end Event

/-- Settles O22, one event after the other. -/
theorem interrogatorCompletes : Obligations.InterrogatorCompletes := by
  unfold Obligations.InterrogatorCompletes
  refine ⟨fun x step hz a u => exchangeHeard_hears, ?tam1, ?fz2, ?fz3, ?reply, ?late, ?window, ?hop⟩
  case tam1 =>
    rintro x msg hz now a k kid held s v hheard hkind hctx p rfl
    exact ⟨execTam1Response_ok hheard hctx hkind, execTam1Response_fails hheard hctx hkind⟩
  case fz2 =>
    intro x msg hz now a k held s v hheard hkind hctx c hc
    exact ⟨execFz2Reply_fails hheard hctx hkind hc, fun w y z => execFz2Reply_proves hheard hctx hkind hc⟩
  case fz3 =>
    intro x hz now a k s v w hheard hkind hcharged
    obtain ⟨hsess, hacc⟩ := Prod.mk.inj (endProgram_access x stOk (sessionBegun x a w))
    refine ⟨_, execFz3Reply_opens hheard hkind hcharged rfl, ?_⟩
    rw [raise_sess, raise_rdr, hsess, hacc]
    exact sessionBegun_opens x a w
  case reply =>
    intro x msg plain rest hz tseq now c s v u hopen hctx hbusy hsent hrate
    refine ⟨execSessionReply_fails rfl hopen hctx hbusy hsent hrate, fun hmic hctr hlast htype hcharged hlimit w hw hstays => ?_⟩
    exact execSessionReply_delivers rfl hopen hctx hbusy hsent hrate hmic hctr hlast htype hcharged hlimit hw hstays
  case late =>
    intro x now s u hacc hopen
    exact ⟨execTagReplyTimeout_closes rfl hopen hacc, execSessionIdleTimeout_closes rfl hopen⟩
  case window =>
    intro x now a p s u hacc hstage hstep hpend hlate
    exact execTagReplyTimeout_ends rfl hacc hstage hstep hpend hlate
  case hop =>
    intro x now cal n s v u hopen hholds hdwell hv
    refine ⟨fun hnone => execSessionDwellHop_closes rfl hopen hholds hdwell hv hnone cal, ?_⟩
    intro f w h hnext hheld hpasses y z g hy hz hg
    exact execSessionDwellHop_hops rfl hopen hholds hdwell hv hnext hheld hpasses hy hz hg

end Sys2Proof.Machine
end

section
/-!
PROOFS. The reader's events: rounds, the region's waits, sniff bursts and the RF chain (chapters 10 and 11).
-/
namespace Sys2Proof.Machine

section Event
variable {now : Tick} {s u : State} (hu : advanceTo now s = u)
include hu

-- ------------------------------------------------------------------ rounds

section Round
variable {x : Tenant} {i : Inv} (hi : u.rdr.inv[x] = some i)
include hi

section Over
variable (hover : i.stage = .over)
include hover

/-- R295, R315. -/
theorem execRoundEnd_goesOn (hkept : i.withdrawn = false) :
    execRoundEnd x now s = .next (invNext x (roundClosed i) (roundTold x i u)) := by
  simp only [execRoundEnd, hu, hi, hover, hkept, Bool.false_eq_true, if_true, if_false]

/-- R283: the grant was withdrawn, and the air goes back. -/
theorem execRoundEnd_releases (hgone : i.withdrawn = true) : execRoundEnd x now s =
    .next (invNext x (roundClosed i)
      (if holds (.ctx x) .reader (roundTold x i u) then releaseAir .reader (roundTold x i u) else roundTold x i u)) := by
  simp only [execRoundEnd, hu, hi, hover, hgone, if_true]

end Over

section Spent
variable (hspent : durOver i u = true)
include hspent

/-- R313. -/
theorem execInventoryDurExpiry_ends (hruns : i.stage ≠ .over)
    (hfree : ¬ (pastCommit .reader u = true ∧ holds (.ctx x) .reader u = true)) :
    execInventoryDurExpiry x now s = .next (invDone x stOk u) := by
  simp only [execInventoryDurExpiry, hu, hi, hspent, if_true, if_neg (not_or.mpr ⟨hruns, hfree⟩)]

/-- R313: the slot past its commit point is the last. -/
theorem execInventoryDurExpiry_waits
    (hlast : i.stage = .over ∨ (pastCommit .reader u = true ∧ holds (.ctx x) .reader u = true)) :
    execInventoryDurExpiry x now s = .next (setInv x (some { i with ending := some (i.ending.getD stOk) }) u) := by
  simp only [execInventoryDurExpiry, hu, hi, hspent, if_true, if_pos hlast]

end Spent

end Round

end Event

-- ------------------------------------------------------------------ the region's waits

section Region
variable {x : Tenant} {till : Tick} {u : State} (hreached : reached u.reel.cnt till = true)
include hreached

/-- R307, R308: an inventory hops at the end of its region's wait. -/
theorem regionWaitEnd_inv {i : Inv} (hi : u.rdr.inv[x] = some i) (hstage : i.stage = .regionWait till) :
    regionWaitEnd x i.args.region u = invHop x i u := by
  simp only [regionWaitEnd, hi, hstage, hreached, and_self, if_true]

/-- R307, R308: an access asks for its air at the end of its region's wait. -/
theorem regionWaitEnd_acc {a : Acc} (hi : u.rdr.inv[x] = none) (ha : u.rdr.acc[x] = some a)
    (hstage : a.stage = .regionWait till) : regionWaitEnd x a.args.region u = accTune x a u := by
  simp only [regionWaitEnd, hi, ha, hstage, hreached, and_self, if_true]

end Region

-- ------------------------------------------------------------------ sniff bursts

/-- R342: the sniff's own inventory holds the reader's air. -/
def sniffPaused (n : Sniff) (u : State) : Bool :=
  match u.rdr.inv[n.owner] with
  | some i => i.tseq == n.tseq && holds (.ctx n.owner) .reader u
  | none => false

/-- R60, R342: the burst that is due asks for air. -/
def sniffAsks (n : Sniff) (u : State) : Bool :=
  let v := dropWaiters (.sniff n.owner) u
  !sniffPaused n u && (sniffDown v).isNone && !holds (.sniff n.owner) .reader v

/-- R342: the burst that still waited is skipped and counted, and the next one is due an interval later. -/
def sniffTold (n : Sniff) (u : State) (ask : Bool) : State :=
  let v := dropWaiters (.sniff n.owner) u
  setRdr (fun r => { r with
    skip := if n.waiting then satInc 255 v.rdr.skip else v.rdr.skip
    sniff := some { n with due := n.due + BitVec.ofNat 48 (n.ivl * 24000), waiting := ask } }) v

/-- R342, R343: a burst asks at class 6 on the channel of RDR_SNIFF. -/
def burstReq (n : Sniff) (w : State) : AirReq :=
  { core := .reader, who := .sniff n.owner, cls := 6, freq := bits w.prof[n.owner].sniff 12 0, since := w.reel.cnt,
    gnt := true, wait := coexWait n.owner w, noWait := false }

theorem sniffAsks_eq_false {n : Sniff} {u : State} (h : sniffPaused n u = true ∨
    (sniffDown (dropWaiters (.sniff n.owner) u)).isSome = true ∨
    holds (.sniff n.owner) .reader (dropWaiters (.sniff n.owner) u) = true) : sniffAsks n u = false := by
  rcases h with hpaused | hdown | hheld
  · simp [sniffAsks, hpaused]
  · simp [sniffAsks, Option.isNone_eq_false_iff.mpr hdown]
  · simp [sniffAsks, hheld]

theorem sniffAsks_eq_true {n : Sniff} {u : State} (hruns : sniffPaused n u = false)
    (hup : sniffDown (dropWaiters (.sniff n.owner) u) = none)
    (hfree : holds (.sniff n.owner) .reader (dropWaiters (.sniff n.owner) u) = false) : sniffAsks n u = true := by
  simp [sniffAsks, hruns, hup, hfree]

/-- R335: a gain step waits while a window receives. -/
def gainHeld (v : State) : State := if rxOpen v then v else gainApply v

section Event
variable {now : Tick} {s u : State} (hu : advanceTo now s = u)
include hu

/-- R60, R342, R343. -/
theorem execSniffBurstDue_tells {n : Sniff} (hmode : u.power.mode = .run) (hn : u.rdr.sniff = some n)
    (hdue : reached u.reel.cnt n.due = true) : execSniffBurstDue now s = .next (if sniffAsks n u then
      requestAir (burstReq n (sniffTold n u true)) (sniffTold n u true) else sniffTold n u false) := by
  have due : (u.power.mode == .run && reached u.reel.cnt n.due) = true := by simp [hmode, hdue]
  have runs : execSniffBurstDue now s =
      if sniffAsks n u then .next (requestAir (burstReq n (sniffTold n u (sniffAsks n u))) (sniffTold n u (sniffAsks n u)))
      else .next (sniffTold n u (sniffAsks n u)) := by
    simp only [execSniffBurstDue, hu, hn, due, if_true]
    rfl
  rw [runs]
  cases sniffAsks n u <;> rfl

-- ------------------------------------------------------------------ the RF chain

/-- R325. -/
theorem execPaIlimTrip_trips (hhigh : paenHigh u = true) : execPaIlimTrip now s =
    .next (readerFails stDegraded (setRdr (fun r => { r with trips := satInc 255 r.trips, paen := none }) u)) := by
  simp only [execPaIlimTrip, hu, hhigh, if_true]

section Gain
variable {dbm : Int} (hrest : 96000 ≤ ticksBetween u.rdr.gainAt u.reel.cnt)
include hrest

/-- R334: above the window of the gain. -/
theorem execRxGainStep_up (hlevel : -40 + 6 * (u.rdr.gain : Int) < dbm) (hroom : u.rdr.gain < 7) :
    execRxGainStep now dbm s = .next (gainHeld (setRdr (fun r => { r with gainDue := 1 }) u)) := by
  have up : -40 + 6 * (u.rdr.gain : Int) < dbm ∧ (u.rdr.gain : Int) < 7 := ⟨hlevel, by omega⟩
  simp only [execRxGainStep, hu, if_pos up, gainHeld]
  exact if_pos ⟨by decide, hrest⟩

/-- R334: below the window of the gain. -/
theorem execRxGainStep_down (hlevel : dbm < -49 + 6 * (u.rdr.gain : Int)) (hroom : 0 < u.rdr.gain) :
    execRxGainStep now dbm s = .next (gainHeld (setRdr (fun r => { r with gainDue := -1 }) u)) := by
  have notUp : ¬ (-40 + 6 * (u.rdr.gain : Int) < dbm ∧ (u.rdr.gain : Int) < 7) := by omega
  have down : dbm < -49 + 6 * (u.rdr.gain : Int) ∧ 0 < (u.rdr.gain : Int) := ⟨hlevel, by omega⟩
  simp only [execRxGainStep, hu, if_neg notUp, if_pos down, gainHeld]
  exact if_pos ⟨by decide, hrest⟩

end Gain

/-- R336: one step for each clip (log entry 79). -/
theorem execAdcClip_steps : execAdcClip now s =
    .next (gainHeld (setRdr (fun r => { r with clips := satInc 255 r.clips, gainDue := r.gainDue + 1 }) u)) := by
  subst hu
  rfl

end Event

/-- R320: while the carrier is on. -/
theorem execCompensationRecompute_ready {s : State} (hon : s.rdr.carrier.isSome = true) (smp : Sample) :
    execCompensationRecompute smp s = .next (compReady smp s) := by
  rw [execCompensationRecompute, if_pos hon]

/-- R403: while the device runs. -/
theorem execLinkCompensation_ready {s : State} (hmode : s.power.mode = .run) (smp : Sample) :
    execLinkCompensation smp s = .next (linkCompReady smp s) := by
  rw [execLinkCompensation, if_pos (beq_iff_eq.mpr hmode)]

-- ------------------------------------------------------------------ the canceller

/-- R329, R330: tap R has converged, or is saturated above +5 dBm. -/
def tapRConverged (dbm : Int) (supp : BitVec 8) (s : State) : State :=
  tapWarm false (setRdr (fun r => { r with
    convR := true
    satR := decide (5 < dbm)
    suppR := supp
    clcSat := if 5 < dbm then satInc 0xFFFF r.clcSat else r.clcSat }) s)

@[simp] theorem tapRConverged_radio (dbm : Int) (supp : BitVec 8) (s : State) : (tapRConverged dbm supp s).radio = s.radio := rfl
@[simp] theorem tapRConverged_inv (dbm : Int) (supp : BitVec 8) (s : State) :
    (tapRConverged dbm supp s).rdr.inv = s.rdr.inv := rfl
@[simp] theorem tapRConverged_acc (dbm : Int) (supp : BitVec 8) (s : State) :
    (tapRConverged dbm supp s).rdr.acc = s.rdr.acc := rfl

/-- R329: the built-in program that holds the reader and waited for the canceller goes on. -/
def settledGoesOn (v : State) : Host.Outcome State Fault Refusal :=
  match v.radio.rHold with
  | some h => (match h.req.who with
    | .ctx x => (match v.rdr.inv[x], v.rdr.acc[x] with
      | some i, _ => if i.stage = .settle then .next (invSettled x i v) else .next v
      | none, some a => if a.stage = .settle then .next (accSend x { a with step := .select } 203 v) else .next v
      | none, none => .next v)
    | _ => .next v)
  | none => .next v

section Settled
variable {v : State}

theorem settledGoesOn_idle (hidle : ∀ h x, v.radio.rHold = some h → h.req.who = .ctx x →
      (∀ i, v.rdr.inv[x] = some i → i.stage ≠ .settle) ∧ (∀ a, v.rdr.acc[x] = some a → a.stage ≠ .settle)) :
    settledGoesOn v = .next v := by
  cases hhold : v.radio.rHold with
  | none => simp only [settledGoesOn, hhold]
  | some h =>
    cases hwho : h.req.who with
    | ctx x =>
      obtain ⟨hinv, hacc⟩ := hidle h x hhold hwho
      cases hi : v.rdr.inv[x] with
      | some i => simp only [settledGoesOn, hhold, hwho, hi, if_neg (hinv i hi)]
      | none =>
        cases ha : v.rdr.acc[x] with
        | some a => simp only [settledGoesOn, hhold, hwho, hi, ha, if_neg (hacc a ha)]
        | none => simp only [settledGoesOn, hhold, hwho, hi, ha]
    | _ => simp only [settledGoesOn, hhold, hwho]

variable {h : Hold} {x : Tenant} (hhold : v.radio.rHold = some h) (hwho : h.req.who = .ctx x)
include hhold hwho

theorem settledGoesOn_inv {i : Inv} (hi : v.rdr.inv[x] = some i) (hstage : i.stage = .settle) :
    settledGoesOn v = .next (invSettled x i v) := by
  simp only [settledGoesOn, hhold, hwho, hi, hstage, if_true]

theorem settledGoesOn_acc {a : Acc} (hi : v.rdr.inv[x] = none) (ha : v.rdr.acc[x] = some a) (hstage : a.stage = .settle) :
    settledGoesOn v = .next (accSend x { a with step := .select } 203 v) := by
  simp only [settledGoesOn, hhold, hwho, hi, ha, hstage, if_true]

end Settled

section Canceller
variable {s : State} (hon : s.rdr.carrier.isSome = true) (dbm : Int) (supp : BitVec 8)
include hon

/-- R332. -/
theorem execCancellerConverged_tapL (hrx : coreState .link s = .rx) :
    execCancellerConverged true dbm supp s = .next (tapWarm true (setRdr (fun r => { r with convL := true }) s)) := by
  simp only [execCancellerConverged, Option.isNone_eq_false_iff.mpr hon, hrx, beq_self_eq_true, Bool.false_eq_true, if_false,
    if_true]

/-- R329, R330. -/
theorem execCancellerConverged_tapR :
    execCancellerConverged false dbm supp s = settledGoesOn (tapRConverged dbm supp s) := by
  simp only [execCancellerConverged, Option.isNone_eq_false_iff.mpr hon, Bool.false_eq_true, if_false, decide_eq_true_eq]
  rfl

/-- R333. -/
theorem execTapLSaturation_excludes :
    execTapLSaturation s = .next (setRdr (fun r => { r with noconc := r.noconc ||| BitVec.ofNat 4 (2 ^ r.aerial.val) }) s) := by
  rw [execTapLSaturation, if_pos hon]

end Canceller

/-- Settles O39, one event after the other. -/
theorem readerRadioEvents : Obligations.ReaderRadioEvents := by
  unfold Obligations.ReaderRadioEvents
  refine ⟨⟨?round, ?dur, ?region, ?sniff⟩, fun now s => execPaIlimTrip_trips rfl,
    fun smp s hon => execCompensationRecompute_ready hon smp, fun smp s hmode => execLinkCompensation_ready hmode smp,
    ?canceller, ?gain, fun now s => execAdcClip_steps rfl⟩
  case round =>
    intro x now s i u v hi hover
    exact ⟨execRoundEnd_goesOn rfl hi hover, execRoundEnd_releases rfl hi hover⟩
  case dur =>
    intro x now s i u past hi hspent
    exact ⟨execInventoryDurExpiry_ends rfl hi hspent, execInventoryDurExpiry_waits rfl hi hspent⟩
  case region =>
    intro x now till s u hreached
    refine ⟨fun i hi hstage => ?_, fun a hi ha hstage => ?_⟩
    · have hops := regionWaitEnd_inv hreached hi hstage
      exact ⟨fun hfcc => congrArg _ (hfcc ▸ hops), fun hetsi => congrArg _ (hetsi ▸ hops)⟩
    · have tunes := regionWaitEnd_acc hreached hi ha hstage
      exact ⟨fun hfcc => congrArg _ (hfcc ▸ tunes), fun hetsi => congrArg _ (hetsi ▸ tunes)⟩
  case sniff =>
    intro now s n u v auto told hmode hn hdue
    have tells : exec (.sniffBurstDue now) s = _ := execSniffBurstDue_tells rfl hmode hn hdue
    refine ⟨fun hquiet => ?_, fun hruns hup hfree => ?_⟩
    · rw [tells, sniffAsks_eq_false hquiet]; rfl
    · rw [tells, sniffAsks_eq_true hruns hup hfree]; rfl
  case canceller =>
    intro dbm supp s hon
    have goesOn : exec (.cancellerConverged false dbm supp) s = _ := execCancellerConverged_tapR hon dbm supp
    refine ⟨execCancellerConverged_tapL hon dbm supp, ⟨fun hidle => goesOn.trans (settledGoesOn_idle ?_), ?_⟩,
      execTapLSaturation_excludes hon⟩
    · simpa only [tapRConverged_radio, tapRConverged_inv, tapRConverged_acc] using hidle
    · intro h x hhold hwho
      have inHold : (tapRConverged dbm supp s).radio.rHold = some h := by rw [tapRConverged_radio, hhold]
      refine ⟨fun i hi hstage => goesOn.trans (settledGoesOn_inv inHold hwho ?_ hstage),
        fun a hi ha hstage => goesOn.trans (settledGoesOn_acc inHold hwho ?_ ?_ hstage)⟩
      · rw [tapRConverged_inv, hi]
      · rw [tapRConverged_inv, hi]
      · rw [tapRConverged_acc, ha]
  case gain =>
    intro now dbm s u held hrest
    exact ⟨execRxGainStep_up rfl hrest, execRxGainStep_down rfl hrest⟩

end Sys2Proof.Machine
end

section
/-!
PROOFS. The lantern tag: its field, inventory, authentication and session (12.3, 12.4, 12.7).
-/
namespace Sys2Proof.Machine

-- ------------------------------------------------------------------ the field

/-- R379: only an open session can end. -/
theorem closeTagSession_closed {s : State} (hclosed : s.tag.session = false) (reason : Nat) : closeTagSession reason s = s := by
  simp only [closeTagSession, hclosed, Bool.false_eq_true, if_false]

/-- R372: telling its owner of the field changes nothing of the tag. -/
@[simp] theorem evFieldTo_tag (on level : Byte) (s : State) : (evFieldTo on level s).tag = s.tag := by
  simp only [evFieldTo]
  split <;> simp

/-- The tag in a field of this level; FLAGS bit 0 has it drive FD (R370). -/
def inField (lv : Byte) (u : State) : State :=
  setTag (fun g => { g with field := true, level := lv, fd := bit g.flags 0 }) u

section Field
variable {now : Tick} {s u : State} (hu : advanceTo now s = u)
include hu

section Qualified
variable {lv : BitVec 8} (henabled : u.tag.enabled = true) (hnone : u.tag.field = false) (hcarrier : u.rdr.carrier = none)
  (hlevel : -40 ≤ lv.toInt)
include henabled hnone hcarrier hlevel

/-- R370 to R372, R376: a field that qualifies is told and claims the core in STANDBY or ACTIVE, and wakes the part otherwise. -/
theorem execFieldQualified_qualifies : execFieldQualified now lv s =
    if u.power.mode == .run then .next (lanternHold (evFieldTo 1 lv (inField lv u)))
    else .next (startWake .field (setTag (fun g => { g with owed := true }) (inField lv u))) := by
  have qualifies : (u.tag.enabled && !u.tag.field && u.rdr.carrier.isNone && decide (-40 ≤ lv.toInt)) = true := by
    simp [henabled, hnone, hcarrier, hlevel]
  simp only [execFieldQualified, hu, if_pos qualifies]
  rfl

/-- R271, R372, R376: in STANDBY or ACTIVE. -/
theorem execFieldQualified_claims (hmode : u.power.mode = .run) :
    execFieldQualified now lv s = .next (lanternHold (evFieldTo 1 lv (inField lv u))) := by
  rw [execFieldQualified_qualifies hu henabled hnone hcarrier hlevel, if_pos (beq_iff_eq.mpr hmode)]

/-- R372, log entry 31: in SLEEP, EV_FIELD stays owed. -/
theorem execFieldQualified_wakes (hmode : u.power.mode = .sleep) : execFieldQualified now lv s =
    .next (startWake .field (setTag (fun g => { g with owed := true }) (inField lv u))) := by
  rw [execFieldQualified_qualifies hu henabled hnone hcarrier hlevel, if_neg (by simp [hmode])]

end Qualified

/-- R370, R372: the field drops, with no session in it and nothing owed of it. -/
theorem execFieldDrop_drops (hfield : u.tag.field = true) (hcarrier : u.rdr.carrier = none) (hclosed : u.tag.session = false)
    (howed : u.tag.owed = false) : execFieldDrop now s = .next (lanternRelease (evFieldTo 0 u.tag.level
      (setTag (fun g => { g with field := false, owed := false, fd := false, rn16 := none, handle := none, ctx := none,
                                 fz2Handle := none, part := [], request := [] }) u))) := by
  simp only [execFieldDrop, hu, hfield, hcarrier, Option.isNone_none, Bool.and_self, if_true, closeTagSession_closed hclosed,
    howed, Bool.false_eq_true, if_false, setTag_tag]

end Field

-- ------------------------------------------------------------------ the inventory

section Hears
variable {s : State} (hhears : tagHears s = true)
include hhears

/-- Table 12-7: target 4 is SL. -/
theorem execTagSelect_sl (action : BitVec 3) (bank : BitVec 2) (ptr : Nat) (mask : List Bool) :
    execTagSelect 4 action bank ptr mask s =
      .next (setTag (fun g => { g with sl := selectAction action (tagMatches bank ptr mask s) g.sl }) s) := by
  rw [execTagSelect, if_pos hhears]
  rfl

/-- R374: a Query for every tag whose flag is A, its BLF in reach. -/
theorem execTagQuery_answers {sess m : BitVec 2} {dr tr : Bool} {trcal : Nat} (hflag : bit s.tag.inv sess.toNat = false)
    (hreach : blfInReach dr trcal = true) : execTagQuery 0 sess false dr m tr trcal s = .next (setTag (fun g => { g with
      rn16 := some (BitVec.ofNat 16 (Config.freeNat s.free)), blfSet := (trcal, dr, m, tr)
      replyOut := .rn16 (BitVec.ofNat 16 (Config.freeNat s.free)) }) { s with free := s.free + 1 }) := by
  have chosen : (tagHears s && true && bit s.tag.inv sess.toNat == false && blfInReach dr trcal) = true := by
    simp [hhears, hflag, hreach]
  rw [execTagQuery]
  exact if_pos chosen

theorem execTagAck_answers {rn : BitVec 16} (hrn : s.tag.rn16 = some rn) : execTagAck rn s = .next (setTag (fun g => { g with
    handle := some rn, replyOut := .epc (tagPcEpc s ++ crcBytes (tagPcEpc s)) }) s) := by
  simp only [execTagAck, hhears, hrn, beq_self_eq_true, Bool.and_self, if_true]

end Hears

section Read
variable {h : BitVec 16} {bank : BitVec 2} {ptr count : Nat} {s : State} (hhandle : withHandle h s = true) (hcount : 0 < count)
include hhandle hcount

theorem execTagRead_reads (hfits : 2 * (ptr + count) ≤ (tagBank bank s).length) : execTagRead h bank ptr count s =
    .next (setTag (fun g => { g with replyOut := .words (((tagBank bank s).drop (2 * ptr)).take (2 * count)) }) s) := by
  have inside : ¬ (count = 0 ∨ (tagBank bank s).length < 2 * (ptr + count)) := by omega
  simp only [execTagRead, hhandle, if_neg (Nat.ne_of_gt hcount), if_neg inside, if_true]

/-- Table 12-7: past the bank's end. -/
theorem execTagRead_overrun (hpast : (tagBank bank s).length < 2 * (ptr + count)) :
    execTagRead h bank ptr count s = .next (setTag (fun g => { g with replyOut := .error 0x04 }) s) := by
  simp only [execTagRead, hhandle, if_neg (Nat.ne_of_gt hcount), if_pos (Or.inr hpast : count = 0 ∨ _), if_true]

end Read

-- ------------------------------------------------------------------ the exchange

section Exchange
variable {h : BitVec 16} {msg : Bytes} {now : Tick} {s u : State} (hu : advanceTo now s = u) (hhandle : withHandle h u = true)
include hu hhandle

theorem execFz1Received_malformed (hlen : msg.length ≠ 10) : execFz1Received h msg now s = .next (tagErr 0x05 u) := by
  simp only [execFz1Received, hu, hhandle, Bool.not_true, Bool.false_eq_true, if_false,
    if_pos (Or.inl hlen : msg.length ≠ 10 ∨ _)]

/-- R351, R354, log entry 32: FZ1 ends what was open, and is answered FZ2 under keys of its own. -/
theorem execFz1Received_answers {fk tch : Bytes} {v w x : State} {c : SecCtx} (hlen : msg.length = 10)
    (htype : msg.take 2 = [0x01, 0x01]) (hfree : backingOff u = false)
    (hcharged : chargeSession u.tag.key (u.tag.keyGone && u.tag.session) u = .ok v)
    (hw : w = setTag (fun g => { g with keyGone := false, ctx := none, fz2Handle := none }) (closeTagSession 0 v))
    (hkey : keyRefusal w.tag.owner w.tag.key.val isDerive w = none) (hvalue : keyValue w 5 w.tag.key = some fk)
    (htaken : drbgTake 8 w = some (tch, x)) (hc : c = secKeys (tagKey fk (tagTid x)) (msg.drop 2) tch) :
    execFz1Received h msg now s = .next (tagAnswer ([0x02] ++ tch ++ tproof c)
      (cacheKey x.tag.key (setTag (fun g => { g with ctx := some c, fz2Handle := some h }) x))) := by
  subst hc
  simp only [execFz1Received, hu, hhandle, Bool.not_true, Bool.false_eq_true, hlen, htype, ne_eq, not_true_eq_false,
    or_self, if_false, hfree, hcharged, ← hw, hkey, hvalue, htaken]

section Fz3
variable {c : SecCtx} (hlen : msg.length = 9) (htype : msg.take 1 = [0x03]) (hctx : u.tag.ctx = some c)
  (hsame : u.tag.fz2Handle = some h)
include hlen htype hctx hsame

/-- R353, R379. -/
theorem execFz3Received_opens {v : State} (hproof : msg.drop 1 = rproof c)
    (hcharged : chargeSession u.tag.key u.tag.keyGone u = .ok v) :
    execFz3Received h msg now s = .next (tagAnswer [0x04, 0x00] (raise v.tag.owner evTagSession ([1, 0] ++ leBytes 4 0)
      (setTag (fun g => { g with session := true, fz2Handle := none, ctrTx := 0, ctrRx := 0, msgs := 0, part := [],
                                 request := [], failRun := 0, backoff := none }) v))) := by
  simp only [execFz3Received, hu, hhandle, Bool.not_true, Bool.false_eq_true, hlen, htype, hctx, hsame, ne_eq,
    not_true_eq_false, or_self, if_false, if_pos hproof, hcharged, setTag_tag]

/-- R353, R378: a wrong RPROOF. -/
theorem execFz3Received_backsOff (hproof : msg.drop 1 ≠ rproof c) :
    execFz3Received h msg now s = .next (tagErr 0x01 (logAuthFail 1 u.tag.owner
      (raise u.tag.owner evTagSession ([0, 3] ++ leBytes 4 0) (setTag (fun g => { g with
        ctx := none, fz2Handle := none, failRun := satInc 255 g.failRun, failTotal := satInc 255 g.failTotal,
        backoff := some (u.reel.cnt + BitVec.ofNat 48 (backoffSeconds (g.failRun + 1) * 24000000)) }) u)))) := by
  simp only [execFz3Received, hu, hhandle, Bool.not_true, Bool.false_eq_true, hlen, htype, hctx, hsame, ne_eq,
    not_true_eq_false, or_self, if_false, if_neg hproof, setTag_tag]

end Fz3

end Exchange

/-- R347, R361: with FLAGS bit 1 (the block by log entry 14). -/
theorem execTam1Received_answers {h : BitVec 16} {msg fk rnd : Bytes} {s v w : State} (hhandle : withHandle h s = true)
    (hflag : bit s.tag.flags 1 = true) (hlen : msg.length = 12) (htype : msg.take 2 = [0x00, 0x00])
    (hkey : keyRefusal s.tag.owner s.tag.key.val isDerive s = none) (hvalue : keyValue s 5 s.tag.key = some fk)
    (htaken : drbgTake 4 s = some (rnd, v)) (hcharged : chargeKey v.tag.key 1 v = some w) :
    execTam1Received h msg s = .next (cacheKey w.tag.key (setTag (fun g => { g with
      replyOut := .msg (aesEnc (tagKey fk (tagTid w)) ([0x96, 0xC5] ++ rnd ++ msg.drop 2)) }) w)) := by
  have good : (!bit s.tag.flags 1 || decide (msg.length ≠ 12) || msg.take 2 != [0x00, 0x00]) = false := by
    simp [hflag, hlen, htype]
  simp only [execTam1Received, hhandle, Bool.not_true, good, Bool.false_eq_true, if_false, hkey, hvalue, htaken, hcharged]

theorem backingOff_over {u : State} {e : Tick} (hbackoff : u.tag.backoff = some e) (hreached : reached u.reel.cnt e = true) :
    backingOff u = false := by
  simp only [backingOff, hbackoff, hreached, Bool.not_true]

/-- R378. -/
theorem execAuthBackoffExpiry_ends {now : Tick} {s : State} (hover : backingOff (advanceTo now s) = false) :
    execAuthBackoffExpiry now s = .next (setTag (fun g => { g with backoff := none }) (advanceTo now s)) := by
  simp only [execAuthBackoffExpiry, hover, Bool.false_eq_true, if_false]

/-- Settles O20, one event after the other. -/
theorem lanternTagOnAir : Obligations.LanternTagOnAir := by
  unfold Obligations.LanternTagOnAir
  refine ⟨⟨?qualified, ?drop, fun action bank ptr mask s hhears => execTagSelect_sl hhears action bank ptr mask,
      fun sess dr m tr trcal s hhears => execTagQuery_answers hhears, fun rn s hhears => execTagAck_answers hhears, ?read⟩,
    ?fz1, fun h msg now s hhandle => execFz1Received_malformed rfl hhandle, ?fz3,
    fun h msg fk rnd s v w => execTam1Received_answers,
    fun now s e hbackoff hreached => execAuthBackoffExpiry_ends (backingOff_over hbackoff hreached)⟩
  case qualified =>
    intro now lv s u henabled hnone hcarrier hlevel v
    exact ⟨execFieldQualified_claims rfl henabled hnone hcarrier hlevel,
      execFieldQualified_wakes rfl henabled hnone hcarrier hlevel⟩
  case drop =>
    intro now s u hfield hcarrier hclosed howed
    refine ⟨_, execFieldDrop_drops rfl hfield hcarrier hclosed howed, ?_⟩
    simp only [lanternRelease_tag, evFieldTo_tag, setTag_tag, and_self]
  case read =>
    exact fun h bank ptr count s hhandle hcount => ⟨execTagRead_reads hhandle hcount, execTagRead_overrun hhandle hcount⟩
  case fz1 =>
    intro h msg fk tch now s v w x u hhandle hlen htype hfree hcharged hw hkey hvalue htaken c hc
    exact execFz1Received_answers rfl hhandle hlen htype hfree hcharged hw hkey hvalue htaken hc
  case fz3 =>
    intro h msg now c s v u hhandle hlen htype hctx hsame
    exact ⟨execFz3Received_opens rfl hhandle hlen htype hctx hsame,
      execFz3Received_backsOff rfl hhandle hlen htype hctx hsame⟩

-- ------------------------------------------------------------------ the session

/-- R355: the form of a session message, final or not. -/
theorem sessionForm_good {msg : Bytes} (hlow : 13 ≤ msg.length) (hhigh : msg.length ≤ 213)
    (htype : msg.getD 0 0 = 0x10 ∨ msg.getD 0 0 = 0x12) :
    ¬ (msg.length < 13 ∨ 213 < msg.length ∨ (msg.getD 0 0 ≠ 0x10 ∧ msg.getD 0 0 ≠ 0x12)) := by
  rintro (hshort | hlong | ⟨hnotFinal, hnotMore⟩)
  · exact Nat.not_lt.mpr hlow hshort
  · exact Nat.not_lt.mpr hhigh hlong
  · exact htype.elim hnotFinal hnotMore

section Message
variable {h : BitVec 16} {msg : Bytes} {c : SecCtx} {s : State} (hhandle : withHandle h s = true)
  (hsession : s.tag.session = true) (hctx : s.tag.ctx = some c) (hlow : 13 ≤ msg.length) (hhigh : msg.length ≤ 213)
include hhandle hsession hctx hlow hhigh

/-- R356: a counter not above the last. -/
theorem execSessionMessage_stale (htype : msg.getD 0 0 = 0x10 ∨ msg.getD 0 0 = 0x12) (hctr : fld msg 1 4 ≤ s.tag.ctrRx) :
    execSessionMessage h msg s = .next (tagErr 0x04 s) := by
  simp only [execSessionMessage, hhandle, Bool.not_true, Bool.false_eq_true, if_false, hsession, hctx,
    if_neg (sessionForm_good hlow hhigh htype), if_pos hctr]

section Verified
variable {plain : Bytes} {v w : State} (hctr : s.tag.ctrRx < fld msg 1 4) (hmic : secOpen c 0x00 msg = some plain)
  (hcharged : chargeSession s.tag.key s.tag.keyGone s = .ok v)
  (hw : w = publishNow (setTag (fun g => { g with ctrRx := fld msg 1 4 }) v))
include hctr hmic hcharged hw

/-- R355, R358. -/
theorem execSessionMessage_acknowledges (htype : msg.getD 0 0 = 0x12) : execSessionMessage h msg s =
    .next (tagSend 0x13 [] (tagCounted (setTag (fun g => { g with part := w.tag.part ++ plain }) w))) := by
  simp only [execSessionMessage, hhandle, Bool.not_true, Bool.false_eq_true, if_false, hsession, hctx,
    if_neg (sessionForm_good hlow hhigh (.inr htype)), if_neg (Nat.not_le.mpr hctr), hmic, hcharged, ← hw, if_pos htype]

/-- R355, R377: a final message whose request a readout row answers. -/
theorem execSessionMessage_keeps {y : State} (htype : msg.getD 0 0 = 0x10)
    (hy : y = tagCounted (setTag (fun g => { g with part := [] }) w)) (hstays : y.tag.session = true)
    (hform : readoutForm (w.tag.part ++ plain) = .known) :
    execSessionMessage h msg s = .next (setTag (fun g => { g with request := w.tag.part ++ plain }) y) := by
  have final : ¬ msg.getD 0 0 = 0x12 := by rw [htype]; decide
  simp only [execSessionMessage, hhandle, Bool.not_true, Bool.false_eq_true, if_false, hsession, hctx,
    if_neg (sessionForm_good hlow hhigh (.inl htype)), if_neg (Nat.not_le.mpr hctr), hmic, hcharged, ← hw,
    if_neg final, ← hy, hstays, hform]

end Verified

end Message

-- ------------------------------------------------------------------ the readouts

section Readout
variable {s : State} (hsession : s.tag.session = true)
include hsession

section Read
variable {off : BitVec 16} {len : BitVec 8} (hrequest : s.tag.request = [0x01] ++ leBytes 2 off.toNat ++ [len])
include hrequest

/-- Table 12-8: bytes of the area. -/
theorem execReadoutRead_reads (hfits : off.toNat + len.toNat ≤ 2048) : execReadoutRead off len s = .next (answerRequest
    ([0x00] ++ memGetAll (publishNow s).tag.area off.toNat len.toNat) (publishNow s)) := by
  simp only [execReadoutRead, hsession, hrequest, beq_self_eq_true, Bool.and_self, if_true, if_neg (Nat.not_lt.mpr hfits)]

/-- Table 12-8: past the area's end. -/
theorem execReadoutRead_overrun (hpast : 2048 < off.toNat + len.toNat) :
    execReadoutRead off len s = .next (answerRequest [0x01] (publishNow s)) := by
  simp only [execReadoutRead, hsession, hrequest, beq_self_eq_true, Bool.and_self, if_true, if_pos hpast]

end Read

/-- R357: after the reply. -/
theorem execReadoutClose_closes (hrequest : s.tag.request = [0x03]) :
    execReadoutClose s = .next (closeTagSession 0 (answerRequest [0x00] s)) := by
  simp only [execReadoutClose, hsession, hrequest, beq_self_eq_true, Bool.and_self, if_true]

end Readout

/-- Table 12-8. -/
theorem execReadoutInfo_tells {now : Tick} {s u : State} (hu : advanceTo now s = u) (hsession : u.tag.session = true)
    (hrequest : u.tag.request = [0x02]) : execReadoutInfo now s =
      .next (answerRequest ([0x00] ++ leBytes 2 2048 ++ tickBytes u.reel.cnt ++ leBytes 4 u.tag.msgs) u) := by
  simp only [execReadoutInfo, hu, hsession, hrequest, beq_self_eq_true, Bool.and_self, if_true]

/-- Settles O21: a message that is stale, a fragment or a request, then one readout after the other. -/
theorem lanternSessionCompletes : Obligations.LanternSessionCompletes := by
  unfold Obligations.LanternSessionCompletes
  refine ⟨?message, fun off len s hsession hrequest =>
      ⟨execReadoutRead_reads hsession hrequest, execReadoutRead_overrun hsession hrequest⟩,
    fun now s => execReadoutInfo_tells rfl, fun s => execReadoutClose_closes⟩
  case message =>
    intro h msg plain c s v hhandle hsession hctx hlow hhigh
    refine ⟨fun htype => ?stale, fun htype hctr hmic hcharged w hw => ?fragment,
      fun htype hctr hmic hcharged w y hw hy hstays hform => ?request⟩
    case stale => exact execSessionMessage_stale hhandle hsession hctx hlow hhigh (.inr htype)
    case fragment => exact execSessionMessage_acknowledges hhandle hsession hctx hlow hhigh hctr hmic hcharged hw htype
    case request =>
      exact execSessionMessage_keeps hhandle hsession hctx hlow hhigh hctr hmic hcharged hw htype hy hstays hform

end Sys2Proof.Machine
end

section
/-!
SUPPORT. The memories of the part (log entry 4): what reads one entry of the state and what writes it.
-/
namespace Sys2Proof.Machine

-- ------------------------------------------------------------------ the memories of the part

/-- The memories of a state: code and data of the contexts, the buffers, the readout area, the tenants' areas. -/
structure Memories where
  rams    : Vector (Memory × Memory) 4
  bufs    : Vector Memory 32
  readout : Memory
  areas   : Vector Memory 4

def memories (s : State) : Memories :=
  { rams := s.ctxs.map fun k => (k.code, k.data), bufs := s.bufs.map Buf.bytes, readout := s.tag.area, areas := s.store.areas }

def Memories.Canonical (m : Memories) : Prop :=
  (∀ x : Tenant, Memory.wf m.rams[x].1 = true ∧ Memory.wf m.rams[x].2 = true) ∧ (∀ h : Fin 32, Memory.wf m.bufs[h] = true) ∧
    Memory.wf m.readout = true ∧ (∀ t : Tenant, Memory.wf m.areas[t] = true)

theorem memoriesCanonical_iff (s : State) : MemoriesCanonical s ↔ (memories s).Canonical := by
  simp [MemoriesCanonical, Memories.Canonical, memories]

-- ------------------------------------------------------------------ one entry of the state

/-- What is read of each entry of a vector, where one entry is replaced by one of which the same is read. -/
theorem map_vmod {α β : Type} {n : Nat} (g : α → β) (v : Vector α n) (i : Fin n) (f : α → α) (hf : ∀ a, g (f a) = g a) :
    (vmod v i f).map g = v.map g := by
  ext j hj
  simp only [vmod, Vector.getElem_map, Vector.getElem_set]
  split
  · next hij => subst hij; exact hf _
  · rfl

theorem getElem_vmod {α : Type} {n : Nat} (v : Vector α n) (i j : Fin n) (f : α → α) :
    (vmod v i f)[j] = if i = j then f v[j] else v[j] := by
  simp only [vmod, Fin.getElem_fin, Vector.getElem_set, Fin.val_inj]
  split
  · next hij => subst hij; rfl
  · rfl

@[simp] theorem modCtx_memories (x : Tenant) (f : Ctx → Ctx) (s : State)
    (hf : ∀ k, ((f k).code, (f k).data) = (k.code, k.data)) : memories (modCtx x f s) = memories s := by
  simp only [memories, modCtx, map_vmod (fun k : Ctx => (k.code, k.data)) _ _ _ hf]

@[simp] theorem modBuf_memories (h : Fin 32) (f : Buf → Buf) (s : State) (hf : ∀ b, (f b).bytes = b.bytes) :
    memories (modBuf h f s) = memories s := by
  simp only [memories, modBuf, map_vmod Buf.bytes _ _ _ hf]

@[simp] theorem setTag_memories (f : LanternSt → LanternSt) (s : State) (hf : (f s.tag).area = s.tag.area) :
    memories (setTag f s) = memories s := by
  simp only [memories, setTag, hf]

@[simp] theorem setStore_memories (f : StoreSt → StoreSt) (s : State) (hf : (f s.store).areas = s.store.areas) :
    memories (setStore f s) = memories s := by
  simp only [memories, setStore, hf]

/-- Writing the RAMs of a context. -/
theorem modCtx_canonical (x : Tenant) (f : Ctx → Ctx) {s : State} (hs : (memories s).Canonical)
    (hf : ∀ k, Memory.wf k.code = true → Memory.wf k.data = true → Memory.wf (f k).code = true ∧ Memory.wf (f k).data = true) :
    (memories (modCtx x f s)).Canonical := by
  rw [← memoriesCanonical_iff] at hs ⊢
  obtain ⟨hctxs, hrest⟩ := hs
  refine ⟨fun y => ?_, hrest⟩
  simp only [modCtx, getElem_vmod]
  split
  · exact hf _ (hctxs y).1 (hctxs y).2
  · exact hctxs y

/-- Writing a buffer. -/
theorem modBuf_canonical (h : Fin 32) (f : Buf → Buf) {s : State} (hs : (memories s).Canonical)
    (hf : ∀ b, Memory.wf b.bytes = true → Memory.wf (f b).bytes = true) : (memories (modBuf h f s)).Canonical := by
  rw [← memoriesCanonical_iff] at hs ⊢
  obtain ⟨hctxs, hbufs, hrest⟩ := hs
  refine ⟨hctxs, fun j => ?_, hrest⟩
  simp only [modBuf, getElem_vmod]
  split
  · exact hf _ (hbufs j)
  · exact hbufs j

/-- Writing the readout area. -/
theorem setTag_canonical (f : LanternSt → LanternSt) {s : State} (hs : (memories s).Canonical)
    (hf : Memory.wf s.tag.area = true → Memory.wf (f s.tag).area = true) : (memories (setTag f s)).Canonical := by
  obtain ⟨hctxs, hbufs, hreadout, hareas⟩ := hs
  exact ⟨hctxs, hbufs, hf hreadout, hareas⟩

/-- Writing a tenant's area. -/
theorem setStore_canonical (f : StoreSt → StoreSt) {s : State} (hs : (memories s).Canonical)
    (hf : (∀ t : Tenant, Memory.wf s.store.areas[t] = true) → ∀ t : Tenant, Memory.wf (f s.store).areas[t] = true) :
    (memories (setStore f s)).Canonical := by
  obtain ⟨hctxs, hbufs, hreadout, hareas⟩ := hs
  exact ⟨hctxs, hbufs, hreadout, hf hareas⟩

theorem forTenants_memories (f : Tenant → State → State) (s : State) (h : ∀ t s, memories (f t s) = memories s) :
    memories (forTenants f s) = memories s := by
  simp only [forTenants, h]

theorem foldl_memories {α : Type} (f : State → α → State) (l : List α) (s : State) (h : ∀ s a, memories (f s a) = memories s) :
    memories (l.foldl f s) = memories s := by
  induction l generalizing s with
  | nil => rfl
  | cons a l ih => rw [List.foldl_cons, ih, h]

theorem forTenants_canonical (f : Tenant → State → State) {s : State}
    (hf : ∀ t s, (memories s).Canonical → (memories (f t s)).Canonical) (h : (memories s).Canonical) :
    (memories (forTenants f s)).Canonical :=
  hf 3 _ (hf 2 _ (hf 1 _ (hf 0 _ h)))

theorem foldl_canonical {α : Type} (f : State → α → State) (l : List α) {s : State}
    (hf : ∀ s a, (memories s).Canonical → (memories (f s a)).Canonical) (h : (memories s).Canonical) :
    (memories (l.foldl f s)).Canonical := by
  induction l generalizing s with
  | nil => exact h
  | cons a l ih => exact ih (hf s a h)

end Sys2Proof.Machine
end

section
/-!
SUPPORT. What leaves every memory as it is: the operations that write neither a context's RAMs, nor a buffer, nor the readout area,
nor a tenant's area. A lemma true by unfolding is proved by `(rfl)` and not by `rfl`: `simp` then uses it as an equation and not as a
definitional step, so that it can be used within a side condition.
-/
namespace Sys2Proof.Machine

-- ------------------------------------------------------------ Ops

@[simp] theorem modPort_memories (p : Port) (f : PortSt → PortSt) (s : State) : memories (modPort p f s) = memories s := (rfl)
@[simp] theorem modTen_memories (t : Tenant) (f : TenantSt → TenantSt) (s : State) :
    memories (modTen t f s) = memories s := (rfl)
@[simp] theorem modProf_memories (t : Tenant) (f : Profile → Profile) (s : State) :
    memories (modProf t f s) = memories s := (rfl)
@[simp] theorem modSess_memories (t : Tenant) (f : SecSess → SecSess) (s : State) :
    memories (modSess t f s) = memories s := (rfl)
@[simp] theorem modSlot_memories (k : Fin 48) (f : Slot → Slot) (s : State) : memories (modSlot k f s) = memories s := (rfl)
@[simp] theorem modChan_memories (g : Fin 16) (f : Chan → Chan) (s : State) : memories (modChan g f s) = memories s := (rfl)
@[simp] theorem modSem_memories (i : Fin 8) (f : Sem → Sem) (s : State) : memories (modSem i f s) = memories s := (rfl)
@[simp] theorem modCmp_memories (k : Fin 12) (f : Compare → Compare) (s : State) : memories (modCmp k f s) = memories s := (rfl)
@[simp] theorem modDc_memories (n : Tenant) (f : DownCnt → DownCnt) (s : State) : memories (modDc n f s) = memories s := (rfl)
@[simp] theorem modCap_memories (n : Tenant) (f : Capture → Capture) (s : State) : memories (modCap n f s) = memories s := (rfl)
@[simp] theorem modTout_memories (n : Tenant) (f : TimerOut → TimerOut) (s : State) :
    memories (modTout n f s) = memories s := (rfl)
@[simp] theorem takeProfile_memories (t : Tenant) (s : State) : memories (takeProfile t s) = memories s := (rfl)
@[simp] theorem takeHalf_memories (c : CoreId) (t : Tenant) (s : State) : memories (takeHalf c t s) = memories s := (rfl)
@[simp] theorem setPower_memories (f : PowerSt → PowerSt) (s : State) : memories (setPower f s) = memories s := (rfl)
@[simp] theorem setRadio_memories (f : RadioSt → RadioSt) (s : State) : memories (setRadio f s) = memories s := (rfl)
@[simp] theorem setRdr_memories (f : ReaderSt → ReaderSt) (s : State) : memories (setRdr f s) = memories s := (rfl)
@[simp] theorem setLink_memories (f : LinkSt → LinkSt) (s : State) : memories (setLink f s) = memories s := (rfl)
@[simp] theorem setBri_memories (f : BridleSt → BridleSt) (s : State) : memories (setBri f s) = memories s := (rfl)
@[simp] theorem setLdg_memories (f : LedgerSt → LedgerSt) (s : State) : memories (setLdg f s) = memories s := (rfl)
@[simp] theorem setSvy_memories (f : SurveySt → SurveySt) (s : State) : memories (setSvy f s) = memories s := (rfl)
@[simp] theorem setMend_memories (f : MendSt → MendSt) (s : State) : memories (setMend f s) = memories s := (rfl)
@[simp] theorem setEpoch_memories (f : EpochSt → EpochSt) (s : State) : memories (setEpoch f s) = memories s := (rfl)
@[simp] theorem setV1_memories (f : V1St → V1St) (s : State) : memories (setV1 f s) = memories s := (rfl)
@[simp] theorem setInv_memories (x : Tenant) (i : Option Inv) (s : State) : memories (setInv x i s) = memories s := (rfl)
@[simp] theorem setAcc_memories (x : Tenant) (a : Option Acc) (s : State) : memories (setAcc x a s) = memories s := (rfl)
@[simp] theorem drawNat_memories (s : State) : memories (drawNat s).2 = memories s := (rfl)
@[simp] theorem drawBool_memories (s : State) : memories (drawBool s).2 = memories s := (rfl)
@[simp] theorem freshSample_memories (s : State) : memories (freshSample s).2 = memories s := (rfl)
@[simp] theorem countStale_memories (s : State) : memories (countStale s) = memories s := (rfl)
@[simp] theorem countQuery_memories (s : State) : memories (countQuery s) = memories s := (rfl)

@[simp] theorem ownRoundEnd_memories (s : State) : memories (ownRoundEnd s) = memories s := by
  simp only [ownRoundEnd]
  split <;> simp

@[simp] theorem readerAsSlot_memories (s : State) : memories (readerAsSlot s) = memories s := (rfl)

@[simp] theorem raise_memories (t : Tenant) (code : BitVec 16) (data : Bytes) (s : State) :
    memories (raise t code data s) = memories s := (rfl)

@[simp] theorem raiseAll_memories (code : BitVec 16) (data : Bytes) (s : State) :
    memories (raiseAll code data s) = memories s := (rfl)

@[simp] theorem reply_memories (t : Tenant) (status : Byte) (results : Bytes) (s : State) :
    memories (reply t status results s) = memories s := by
  simp only [reply]
  split <;> simp

@[simp] theorem refuse_memories (t : Tenant) (status : Byte) (s : State) :
    memories (refuse t status s) = memories s := by simp [refuse]

@[simp] theorem serve_memories (t : Tenant) (f : TenantSt → TenantSt) (s : State) : memories (serve t f s) = memories s := (rfl)

theorem takeUp_memories (op : BitVec 16) (c : Cmd) (s : State) : ∀ r, takeUp op c s = some r → memories r = memories s := by
  unfold takeUp
  dsimp only
  (repeat' split) <;> simp

@[simp] theorem notTaken_memories (op : BitVec 16) (c : Cmd) (s : State) :
    memories (notTaken op c s) = memories s := by simp [notTaken, apply_ite memories]

@[simp] theorem logEntry_memories (code : BitVec 16) (data : Bytes) (s : State) :
    memories (logEntry code data s) = memories s := by simp [logEntry, apply_ite memories]

@[simp] theorem logPartial_memories (s : State) :
    memories (logPartial s) = memories s := by simp [logPartial, apply_ite memories]

@[simp] theorem missBuf_memories (pos : Fin 6) (prog : Bool) (s : State) : memories (missBuf pos prog s) = memories s := by
  simp only [missBuf]
  split
  · split <;> rfl
  · rfl

-- ------------------------------------------------------------ Arbiter

@[simp] theorem setHold_memories (c : CoreId) (h : Option Hold) (s : State) : memories (setHold c h s) = memories s := by
  simp only [setHold]
  split <;> simp

@[simp] theorem searchAgain_memories (s : State) : memories (searchAgain s) = memories s := (rfl)

@[simp] theorem setCore_memories (c : CoreId) (x : CoreSt) (s : State) : memories (setCore c x s) = memories s := by
  cases c <;> simp [setCore, apply_ite memories]

@[simp] theorem setCoreAt_memories (c : CoreId) (t : Tick) (x : CoreSt) (s : State) :
    memories (setCoreAt c t x s) = memories s := by
  simp only [setCoreAt]
  split <;> simp

@[simp] theorem coexTrack_memories (s : State) : memories (coexTrack s) = memories s := by
  unfold coexTrack
  split
  · split <;> simp
  · simp

@[simp] theorem chargeTenant_memories (t : Tenant) (from_ : Tick) (s : State) :
    memories (chargeTenant t from_ s) = memories s := (rfl)

@[simp] theorem chargeListen_memories (h : Hold) (t : Tenant) (s : State) : memories (chargeListen h t s) = memories s := by
  unfold chargeListen
  split
  · split <;> simp
  · simp

@[simp] theorem charge_memories (h : Hold) (s : State) : memories (charge h s) = memories s := by
  grind [charge, chargeListen_memories, chargeTenant_memories, forTenants_memories]

@[simp] theorem carrierOn_memories (now : Tick) (s : State) : memories (carrierOn now s) = memories s := (rfl)

@[simp] theorem carrierOff_memories (now : Tick) (s : State) : memories (carrierOff now s) = memories s := by
  simp only [carrierOff]
  split <;> simp [apply_ite memories]

@[simp] theorem leaveChannel_memories (now : Tick) (s : State) : memories (leaveChannel now s) = memories s := (rfl)
@[simp] theorem linkRampDown_memories (s : State) : memories (linkRampDown s).2 = memories s := (rfl)
@[simp] theorem trswSpan_memories (a b : Tick) (s : State) : memories (trswSpan a b s) = memories s := (rfl)

@[simp] theorem trswEnd_memories (s : State) : memories (trswEnd s) = memories s := by
  simp only [trswEnd]
  split <;> simp [apply_ite memories]

@[simp] theorem aerialFor_memories (r : AirReq) (s : State) : memories (aerialFor r s) = memories s := by
  simp only [aerialFor]
  split <;> simp

@[simp] theorem aerialRestore_memories (s : State) : memories (aerialRestore s) = memories s := (rfl)

@[simp] theorem coreDown_memories (c : CoreId) (s : State) : memories (coreDown c s) = memories s := by
  cases c <;> simp [coreDown, apply_ite memories]

@[simp] theorem releaseAir_memories (c : CoreId) (s : State) : memories (releaseAir c s) = memories s := by
  unfold releaseAir
  split
  · simp
  · split <;> simp

@[simp] theorem dropWaiters_memories (w : Who) (s : State) : memories (dropWaiters w s) = memories s := by simp [dropWaiters]

@[simp] theorem evSessionClosed_memories (t : Tenant) (tseq : BitVec 16) (sid : Byte) (reason : Nat) (s : State) :
    memories (evSessionClosed t tseq sid reason s) = memories s := (rfl)

@[simp] theorem sessionGone_memories (t : Tenant) (reason : Nat) (s : State) :
    memories (sessionGone t reason s) = memories s := by simp [sessionGone, apply_ite memories]

@[simp] theorem builtinWaits_memories (t : Tenant) (s : State) : memories (builtinWaits t s) = memories s := by
  simp only [builtinWaits]
  split <;> simp

@[simp] theorem ctxLost_memories (t : Tenant) (c : CoreId) (s : State) : memories (ctxLost t c s) = memories s := by
  grind [ctxLost, modCtx_memories, setRadio_memories]

@[simp] theorem afterLoss_memories (h : Hold) (s : State) : memories (afterLoss h s) = memories s := by
  simp only [afterLoss]
  split <;> simp [apply_ite memories]

@[simp] theorem loseAir_memories (c : CoreId) (s : State) : memories (loseAir c s) = memories s := by
  simp only [loseAir]
  split <;> simp

@[simp] theorem preemptFor_memories (r : AirReq) (c : CoreId) (s : State) : memories (preemptFor r c s) = memories s := by
  unfold preemptFor
  split
  · simp
  · split <;> simp

@[simp] theorem sendBegins_memories (p : Send → Bool) (now : Tick) (s : State) :
    memories (sendBegins p now s) = memories s := (rfl)
@[simp] theorem deepRan_memories (c : CoreId) (temp : Int) (s : State) : memories (deepRan c temp s) = memories s := (rfl)

@[simp] theorem deepAtChange_memories (c : CoreId) (session : Bool) (s : State) :
    memories (deepAtChange c session s) = memories s := by simp [deepAtChange, apply_ite memories]

@[simp] theorem calEnd_memories (c : CoreId) (cal : Cal) (s : State) : memories (calEnd c cal s) = memories s := by
  simp only [calEnd]
  split <;> simp

@[simp] theorem calResult_memories (c : CoreId) (s : State) : memories (calResult c s).2 = memories s := by
  simp only [calResult]
  split_ifs <;> simp

@[simp] theorem coreGoes_memories (c : CoreId) (now : Tick) (x : CoreSt) (s : State) :
    memories (coreGoes c now x s) = memories s := by simp [coreGoes, apply_ite memories]

@[simp] theorem coreTune_memories (r : AirReq) (now : Tick) (s : State) : memories (coreTune r now s) = memories s := by
  simp only [coreTune]
  split <;> simp [apply_ite memories]

@[simp] theorem coreFreq_memories (r : AirReq) (s : State) : memories (coreFreq r s) = memories s := by
  unfold coreFreq
  cases r.who <;> cases r.core <;> rfl

@[simp] theorem compApply_memories (ext : Bool) (s : State) : memories (compApply ext s) = memories s := (rfl)
@[simp] theorem linkCompApply_memories (s : State) : memories (linkCompApply s) = memories s := (rfl)

@[simp] theorem paUp_memories (p : Profile) (at_ : Tick) (s : State) :
    memories (paUp p at_ s) = memories s := by simp [paUp, apply_ite memories]

@[simp] theorem burstDrive_memories (p : Profile) (at_ : Tick) (s : State) :
    memories (burstDrive p at_ s) = memories s := by simp [burstDrive]

@[simp] theorem pointDrive_memories (c : CoreId) (s : State) : memories (pointDrive c s) = memories s := by
  simp only [pointDrive]
  split <;> simp

@[simp] theorem ctxGranted_memories (t : Tenant) (now : Tick) (s : State) : memories (ctxGranted t now s) = memories s := by
  unfold ctxGranted
  dsimp only
  (repeat' split) <;> simp

@[simp] theorem accGranted_memories (t : Tenant) (s : State) :
    memories (accGranted t s) = memories s := by simp [accGranted, apply_ite memories]

@[simp] theorem builtinGranted_memories (t : Tenant) (now : Tick) (s : State) :
    memories (builtinGranted t now s) = memories s := by
  simp only [builtinGranted]
  split <;> simp [apply_ite memories]

@[simp] theorem onGrant_memories (r : AirReq) (now : Tick) (s : State) : memories (onGrant r now s) = memories s := by
  unfold onGrant
  cases r.who with
  | ctx t =>
    dsimp only
    split <;> simp
  | _ => simp

@[simp] theorem sweepSkip_memories (s : State) : memories (sweepSkip s) = memories s := by
  unfold sweepSkip
  (repeat' split) <;> simp

@[simp] theorem grantAir_memories (r : AirReq) (now : Tick) (s : State) :
    memories (grantAir r now s) = memories s := by simp [grantAir]

@[simp] theorem requestAir_memories (r : AirReq) (s : State) :
    memories (requestAir r s) = memories s := by simp [requestAir, apply_ite memories]

@[simp] theorem setCommit_memories (c : CoreId) (t : Option Tick) (s : State) : memories (setCommit c t s) = memories s := by
  simp only [setCommit]
  split <;> simp

@[simp] theorem setOver_memories (c : CoreId) (t : Option Tick) (s : State) : memories (setOver c t s) = memories s := by
  simp only [setOver]
  split <;> simp

-- ------------------------------------------------------------ Clock

@[simp] theorem dutyAdd_memories (start : Tick) (n : Nat) (s : State) :
    memories (dutyAdd start n s) = memories s := by simp [dutyAdd, apply_ite memories]

@[simp] theorem transmit_memories (e : Send) (first : Tick) (s : State) :
    memories (transmit e first s) = memories s := by simp [transmit]

@[simp] theorem sendMissed_memories (e : Send) (s : State) :
    memories (sendMissed e s) = memories s := by simp [sendMissed, apply_ite memories]

@[simp] theorem sendGo_memories (e : Send) (s : State) :
    memories (sendGo e s) = memories s := by simp [sendGo, apply_ite memories]

@[simp] theorem openSlot_memories (o : Opening) (s : State) : memories (openSlot o s) = memories s := by
  unfold openSlot
  split
  · split <;> simp
  · simp

@[simp] theorem openDue_memories (s : State) : memories (openDue s) = memories s := by
  unfold openDue
  split
  · split <;> simp
  · simp

@[simp] theorem clockTo_memories (now : Tick) (s : State) : memories (clockTo now s) = memories s := (rfl)

@[simp] theorem runTo_memories (now : Tick) (n : Nat) (s : State) : memories (runTo now n s) = memories s := by
  induction n generalizing s with
  | zero => simp [runTo]
  | succ n ih =>
    unfold runTo
    split <;> simp [ih, apply_ite memories]

@[simp] theorem advanceTo_memories (now : Tick) (s : State) :
    memories (advanceTo now s) = memories s := by simp [advanceTo, apply_ite memories]

@[simp] theorem idleTick_memories (s : State) : memories (idleTick s) = memories s := by simp [idleTick]

-- ------------------------------------------------------------ SpoolCore

-- what instructions write of a context: its registers and flags, not its RAMs

@[simp] theorem wr_code (d : Fin 16) (v : Reg32) (k : Ctx) : (wr d v k).code = k.code := by
  rw [wr]
  split <;> rfl

@[simp] theorem wr_data (d : Fin 16) (v : Reg32) (k : Ctx) : (wr d v k).data = k.data := by
  rw [wr]
  split <;> rfl

@[simp] theorem airFailCtx_code (d : Fin 16) (st : Byte) (k : Ctx) : (airFailCtx d st k).code = k.code := wr_code ..
@[simp] theorem airFailCtx_data (d : Fin 16) (st : Byte) (k : Ctx) : (airFailCtx d st k).data = k.data := wr_data ..
@[simp] theorem airOkCtx_code (d : Fin 16) (v : Reg32) (k : Ctx) : (airOkCtx d v k).code = k.code := wr_code ..
@[simp] theorem airOkCtx_data (d : Fin 16) (v : Reg32) (k : Ctx) : (airOkCtx d v k).data = k.data := wr_data ..
@[simp] theorem airOkNz_code (d : Fin 16) (v : Reg32) (k : Ctx) : (airOkNz d v k).code = k.code := wr_code ..
@[simp] theorem airOkNz_data (d : Fin 16) (v : Reg32) (k : Ctx) : (airOkNz d v k).data = k.data := wr_data ..
@[simp] theorem waiteCtx_code (d : Fin 16) (src : BitVec 4) (k : Ctx) : (waiteCtx d src k).code = k.code := wr_code ..
@[simp] theorem waiteCtx_data (d : Fin 16) (src : BitVec 4) (k : Ctx) : (waiteCtx d src k).data = k.data := wr_data ..
@[simp] theorem clearLost_code (c : CoreId) (k : Ctx) : (clearLost c k).code = k.code := by cases c <;> rfl
@[simp] theorem clearLost_data (c : CoreId) (k : Ctx) : (clearLost c k).data = k.data := by cases c <;> rfl
@[simp] theorem setAluFlags_code (o : AluOut) (k : Ctx) : (setAluFlags o k).code = k.code := rfl
@[simp] theorem setAluFlags_data (o : AluOut) (k : Ctx) : (setAluFlags o k).data = k.data := rfl

@[simp] theorem finishStart_memories (x : Tenant) (status : Byte) (s : State) :
    memories (finishStart x status s) = memories s := by
  simp only [finishStart]
  split <;> simp

@[simp] theorem raiseFrom_memories (x : Tenant) (code : BitVec 16) (data : Bytes) (s : State) :
    memories (raiseFrom x code data s) = memories s := by simp [raiseFrom, apply_ite memories]

@[simp] theorem dropAir_memories (x : Tenant) (s : State) :
    memories (dropAir x s) = memories s := by simp [dropAir, apply_ite memories]

@[simp] theorem retireTo_memories (x : Tenant) (pc cycles : Nat) (s : State) :
    memories (retireTo x pc cycles s) = memories s := by simp [retireTo, apply_ite memories]

@[simp] theorem retire_memories (x : Tenant) (cycles : Nat) (s : State) :
    memories (retire x cycles s) = memories s := by simp [retire]

@[simp] theorem issueMoment_memories (x : Tenant) (s : State) :
    memories (issueMoment x s) = memories s := by simp [issueMoment, apply_ite memories]

@[simp] theorem aluStep_memories (x : Tenant) (d : Fin 16) (cycles : Nat) (f : Ctx → AluOut) (s : State) :
    memories (aluStep x d cycles f s) = memories s := by
  simp [aluStep]

@[simp] theorem cmpStep_memories (x : Tenant) (f : Ctx → AluOut) (s : State) : memories (cmpStep x f s) = memories s :=
  (retire_memories ..).trans (modCtx_memories _ _ _ fun _ => rfl)

@[simp] theorem enterWait_memories (x : Tenant) (p : Pend) (s : State) :
    memories (enterWait x p s) = memories s := by simp [enterWait]

@[simp] theorem endWait_memories (x : Tenant) (now : Tick) (f : Ctx → Ctx) (s : State)
    (hf : ∀ k, ((f k).code, (f k).data) = (k.code, k.data)) : memories (endWait x now f s) = memories s :=
  modCtx_memories _ _ _ fun _ => hf _

@[simp] theorem wAtOnce_memories (x : Tenant) (f : Ctx → Ctx) (s : State)
    (hf : ∀ k, ((f k).code, (f k).data) = (k.code, k.data)) : memories (wAtOnce x f s) = memories s :=
  (finishStart_memories ..).trans (modCtx_memories _ _ _ fun _ => hf _)

@[simp] theorem atOnce_memories (w : Bool) (x : Tenant) (f : Ctx → Ctx) (s : State)
    (hf : ∀ k, ((f k).code, (f k).data) = (k.code, k.data)) : memories (atOnce w x f s) = memories s := by
  simp [atOnce, apply_ite memories, wAtOnce_memories _ _ _ hf, modCtx_memories _ _ _ hf]

@[simp] theorem airFail_memories (w : Bool) (x : Tenant) (d : Fin 16) (status : Byte) (s : State) :
    memories (airFail w x d status s) = memories s := by simp [airFail]

@[simp] theorem airNothing_memories (x : Tenant) (s : State) : memories (airNothing x s) = memories s := by simp [airNothing]

@[simp] theorem airCursor_memories (x : Tenant) (s : State) :
    memories (airCursor x s) = memories s := by simp [airCursor, apply_ite memories]

@[simp] theorem airClass_memories (x : Tenant) (core : CoreId) (s : State) :
    memories (airClass x core s) = memories s := by simp [airClass, apply_ite memories]

@[simp] theorem airDone_memories (x : Tenant) (core : CoreId) (now : Tick) (d : Fin 16) (f : Ctx → Ctx) (s : State)
    (hf : ∀ k, ((f k).code, (f k).data) = (k.code, k.data)) : memories (airDone x core now d f s) = memories s := by
  have kept := endWait_memories x now (fun k => f { k with n := false }) s fun _ => hf _
  cases core <;> simp [airDone, apply_ite memories, kept]

-- ------------------------------------------------------------ Services

@[simp] theorem startWake_memories (c : WakeCause) (s : State) :
    memories (startWake c s) = memories s := by simp [startWake, apply_ite memories]

@[simp] theorem queueCommit_memories (k : CommitKind) (pages : Nat) (s : State) :
    memories (queueCommit k pages s) = memories s := (rfl)

@[simp] theorem queueFirst_memories (k : CommitKind) (pages : Nat) (s : State) :
    memories (queueFirst k pages s) = memories s := (rfl)

@[simp] theorem mendEvent_memories (code : Nat) (degraded : Bool) (s : State) :
    memories (mendEvent code degraded s) = memories s := (rfl)

@[simp] theorem mendLoss_memories (code bitNo : Nat) (s : State) :
    memories (mendLoss code bitNo s) = memories s := by simp [mendLoss]

@[simp] theorem logAuthFail_memories (role : Byte) (t : Tenant) (s : State) :
    memories (logAuthFail role t s) = memories s := by simp [logAuthFail]

@[simp] theorem entropy48_memories (s : State) : memories (entropy48 s).2 = memories s := (rfl)
@[simp] theorem drbgStart_memories (s : State) : memories (drbgStart s) = memories s := (rfl)
@[simp] theorem drbgFresh_memories (s : State) : memories (drbgFresh s) = memories s := (rfl)
theorem drbgTake_memories (n : Nat) (s : State) : ∀ r, drbgTake n s = some r → memories r.2 = memories s := by simp [drbgTake]

@[simp] theorem serveReqs_memories (l : List EngineReq) (s : State) : memories (serveReqs l s).2 = memories s := by
  induction l generalizing s with
  | nil => rfl
  | cons e l ih =>
    unfold serveReqs
    split
    · next h => simp [ih, drbgTake_memories _ _ _ h]
    · simp [ih]

@[simp] theorem serveRng_memories (s : State) : memories (serveRng s) = memories s := by simp [serveRng]
@[simp] theorem dropOrphans_memories (s : State) : memories (dropOrphans s) = memories s := by simp [dropOrphans]

theorem chargeKey_memories (k : Fin 48) (n : Nat) (s : State) :
    ∀ r, chargeKey k n s = some r → memories r = memories s := by simp [chargeKey, apply_ite memories]

@[simp] theorem cacheKey_memories (k : Fin 48) (s : State) : memories (cacheKey k s) = memories s := (rfl)

theorem useKey_memories (t : Tenant) (n : Nat) (ok : KeyClass → Bool) (s : State) :
    ∀ r, useKey t n ok s = .ok r → memories r.2 = memories s := by
  grind [useKey, cacheKey_memories, chargeKey_memories]

@[simp] theorem closeSession_memories (t : Tenant) (reason : Nat) (s : State) :
    memories (closeSession t reason s) = memories s := by simp [closeSession, apply_ite memories]

-- ------------------------------------------------------------ Reel

@[simp] theorem toutAct_memories (n : Tenant) (act : Nat) (t : Tick) (s : State) :
    memories (toutAct n act t s) = memories s := (rfl)

@[simp] theorem dcFired_memories (n : Tenant) (s : State) : memories (dcFired n s) = memories s := by
  simp only [dcFired]
  split_ifs <;> simp

@[simp] theorem masterEvent_memories (n : Tenant) (src : Nat) (s : State) :
    memories (masterEvent n src s) = memories s := by simp [masterEvent, apply_ite memories]

@[simp] theorem goRelease_memories (mask : Nat) (s : State) : memories (goRelease mask s) = memories s := (rfl)

-- ------------------------------------------------------------ Ledger

@[simp] theorem openInterval_memories (t : Tick) (s : State) :
    memories (openInterval t s) = memories s := by simp [openInterval, apply_ite memories]

@[simp] theorem ringMakeRoom_memories (n f : Nat) (s : State) : memories (ringMakeRoom n f s) = memories s := by
  induction f generalizing s with
  | zero => rfl
  | succ f ih =>
    unfold ringMakeRoom
    dsimp only
    split
    · rfl
    · split <;> simp [ih]

@[simp] theorem sealRecord_memories (flags : BitVec 16) (start stop : Int) (counts : List Nat) (s : State) :
    memories (sealRecord flags start stop counts s) = memories s := by simp [sealRecord]

@[simp] theorem sealOpen_memories (extra : BitVec 16) (stop : Int) (s : State) :
    memories (sealOpen extra stop s) = memories s := by
  simp only [sealOpen]
  split <;> simp

@[simp] theorem boundaryIfDue_memories (s : State) : memories (boundaryIfDue s) = memories s := by
  unfold boundaryIfDue
  split
  · simp
  · split <;> simp

@[simp] theorem countRead_memories (epc : Bytes) (s : State) : memories (countRead epc s) = memories s := by
  unfold countRead
  dsimp only
  (repeat' split) <;> simp

@[simp] theorem ledgerStart_memories (s : State) : memories (ledgerStart s) = memories s := by
  unfold ledgerStart
  dsimp only
  (repeat' split) <;> simp

-- ------------------------------------------------------------ Gondola

@[simp] theorem ringDoorbell_memories (g : Fin 16) (m : Msg) (coll : Bool) (s : State) :
    memories (ringDoorbell g m coll s) = memories s := by
  simp only [ringDoorbell]
  split <;> simp [apply_ite memories]

@[simp] theorem breakSems_memories (t : Tenant) (s : State) : memories (breakSems t s) = memories s := (rfl)

-- ------------------------------------------------------------ Bridle

@[simp] theorem placeKey_memories (k : Fin 48) (key : Key) (s : State) :
    memories (placeKey k key s) = memories s := by simp [placeKey, apply_ite memories]

@[simp] theorem failEngineWait_memories (t : Tenant) (status : Byte) (s : State) :
    memories (failEngineWait t status s) = memories s := by
  simp only [failEngineWait]
  split
  · split <;> simp
  · rfl

@[simp] theorem entropyFail_memories (s : State) :
    memories (entropyFail s) = memories s := by simp [entropyFail, apply_ite memories]

-- ------------------------------------------------------------ SpoolIo

@[simp] theorem gatherCaps_memories (c : BitVec 32) (s : State) : memories (gatherCaps c s) = memories s := (rfl)

@[simp] theorem tellRead_memories (t : Tenant) (tseq : BitVec 16) (rssi phase : Byte) (r : TagRead) (s : State) :
    memories (tellRead t tseq rssi phase r s) = memories s := by simp [tellRead]

@[simp] theorem engineAsk_memories (x : Tenant) (rng : Bool) (s : State) : memories (engineAsk x rng s) = memories s := (rfl)
@[simp] theorem engineDone_memories (x : Tenant) (s : State) : memories (engineDone x s) = memories s := (rfl)

@[simp] theorem engineWait_memories (x : Tenant) (op : WaitOp) (d : Fin 16) (a b : Reg32) (fn : BitVec 14) (s : State) :
    memories (engineWait x op d a b fn s) = memories s := by simp [engineWait]

-- ------------------------------------------------------------ Reader

@[simp] theorem fwdEnd_memories (first : Tick) (f : AirFrame) (s : State) : memories (fwdEnd first f s).2 = memories s := by
  simp only [fwdEnd]
  split <;> simp

@[simp] theorem compReady_memories (m : Sample) (s : State) : memories (compReady m s) = memories s := (rfl)
@[simp] theorem compHop_memories (s : State) : memories (compHop s) = memories s := (rfl)

@[simp] theorem freshCycle_memories (s : State) : memories (freshCycle s).2 = memories s := by
  simp only [freshCycle, drawNat_memories]
  split
  · next h => exact drbgTake_memories _ _ _ h
  · rfl

theorem nextChannel_memories (t : Tenant) (region : Nat) (s : State) :
    ∀ r, nextChannel t region s = .ok r → memories r.2 = memories s := by
  unfold nextChannel
  (repeat' split) <;> (dsimp only; grind [freshCycle_memories, setRdr_memories])

@[simp] theorem calibrate_memories (c : CoreId) (cal : Cal) (session : Bool) (s : State) :
    memories (calibrate c cal session s) = memories s := by
  simp only [calibrate]
  split <;> simp

@[simp] theorem reportClass_memories (n : Fin 6) (cls : Nat) (s : State) :
    memories (reportClass n cls s) = memories s := by simp [reportClass, apply_ite memories]

@[simp] theorem paLoad_memories (cur : Nat) (s : State) :
    memories (paLoad cur s) = memories s := by simp [paLoad, apply_ite memories]

@[simp] theorem rampUp_memories (p : Profile) (pset : BitVec 16) (at_ : Tick) (s : State) :
    memories (rampUp p pset at_ s) = memories s := by simp [rampUp]

@[simp] theorem rampDone_memories (p : Profile) (pafb : Int) (pacur : Nat) (s : State) :
    memories (rampDone p pafb pacur s) = memories s := by simp [rampDone, apply_ite memories]

@[simp] theorem dpdFrame_memories (p : Profile) (s : State) :
    memories (dpdFrame p s) = memories s := by simp [dpdFrame, apply_ite memories]

@[simp] theorem startBuiltin_memories (t : Tenant) (tseq : BitVec 16) (s : State) :
    memories (startBuiltin t tseq s) = memories s := by simp [startBuiltin]

@[simp] theorem builtinPend_memories (x : Tenant) (op : WaitOp) (until_ : Tick) (noAir : Bool) (s : State) :
    memories (builtinPend x op until_ noAir s) = memories s := by simp [builtinPend]

@[simp] theorem builtinTune_memories (x : Tenant) (cls freq : Nat) (s : State) :
    memories (builtinTune x cls freq s) = memories s := by simp [builtinTune]

@[simp] theorem builtinSend_memories (x : Tenant) (f : AirFrame) (gap : Nat) (opens : Tick → Option Opening) (s : State) :
    memories (builtinSend x f gap opens s) = memories s := by
  simp only [builtinSend]
  split <;> simp [apply_ite memories]

@[simp] theorem frameEnd_memories (c : CoreId) (s : State) : memories (frameEnd c s) = memories s := by
  unfold frameEnd
  dsimp only
  (repeat' split) <;> simp

@[simp] theorem v1Flag_memories (m : Byte) (s : State) : memories (v1Flag m s) = memories s := (rfl)
@[simp] theorem v1Error_memories (st : Byte) (s : State) : memories (v1Error st s) = memories s := (rfl)

@[simp] theorem roundTold_memories (x : Tenant) (i : Inv) (s : State) :
    memories (roundTold x i s) = memories s := by simp [roundTold, apply_ite memories]

@[simp] theorem invHop_memories (x : Tenant) (i : Inv) (s : State) : memories (invHop x i s) = memories s := by
  simp only [invHop]
  split
  · next h => simpa [apply_ite memories] using nextChannel_memories _ _ _ _ h
  · simp [apply_ite memories]

@[simp] theorem roundOpen_memories (x : Tenant) (i : Inv) (sel : Bool) (gap : Nat) (s : State) :
    memories (roundOpen x i sel gap s) = memories s := by simp [roundOpen, apply_ite memories]

@[simp] theorem roundOver_memories (x : Tenant) (i : Inv) (s : State) :
    memories (roundOver x i s) = memories s := by simp [roundOver]

@[simp] theorem slotOpen_memories (x : Tenant) (i : Inv) (gap : Nat) (s : State) :
    memories (slotOpen x i gap s) = memories s := by simp [slotOpen, apply_ite memories]

@[simp] theorem countHz_memories (l : LinkSet) (hz : Nat) (s : State) :
    memories (countHz l hz s) = memories s := by simp [countHz, apply_ite memories]

@[simp] theorem countRate_memories (l : LinkSet) (r : Reply) (s : State) :
    memories (countRate l r s) = memories s := by simp [countRate]

@[simp] theorem invSettled_memories (x : Tenant) (i : Inv) (s : State) :
    memories (invSettled x i s) = memories s := by simp [invSettled, apply_ite memories]

@[simp] theorem v1Read_memories (r : TagRead) (rssi : Byte) (s : State) : memories (v1Read r rssi s) = memories s := (rfl)

-- ------------------------------------------------------------ Access

@[simp] theorem accSend_memories (x : Tenant) (a : Acc) (gap : Nat) (s : State) :
    memories (accSend x a gap s) = memories s := by simp [accSend]

@[simp] theorem accTune_memories (x : Tenant) (a : Acc) (s : State) : memories (accTune x a s) = memories s := by
  simp only [accTune]
  split
  · next h => simpa using nextChannel_memories _ _ _ _ h
  · simp

@[simp] theorem accOperate_memories (x : Tenant) (a : Acc) (s : State) : memories (accOperate x a s) = memories s := by
  simp only [accOperate]
  split <;> simp

@[simp] theorem accWithdrawn_memories (x : Tenant) (a : Acc) (s : State) :
    memories (accWithdrawn x a s) = memories s := by simp [accWithdrawn]

@[simp] theorem replyBegan_memories (s : State) : memories (replyBegan s) = memories s := (rfl)

@[simp] theorem regionWaitEnd_memories (x : Tenant) (region : Nat) (s : State) :
    memories (regionWaitEnd x region s) = memories s := by
  unfold regionWaitEnd
  (repeat' split) <;> simp

-- ------------------------------------------------------------ SpoolAir

@[simp] theorem waitAir_memories (x : Tenant) (op : WaitOp) (d : Fin 16) (a b : Reg32) (fn : BitVec 14) (r : AirReq)
    (s : State) :
    memories (waitAir x op d a b fn r s) = memories s := by simp [waitAir]

@[simp] theorem selectAerial_memories (a : Fin 4) (at_ : Tick) (s : State) :
    memories (selectAerial a at_ s) = memories s := (rfl)
@[simp] theorem linkCompReady_memories (m : Sample) (s : State) : memories (linkCompReady m s) = memories s := (rfl)

@[simp] theorem slotWithdrawn_memories (x : Tenant) (s : State) :
    memories (slotWithdrawn x s) = memories s := by simp [slotWithdrawn, apply_ite memories]

@[simp] theorem txsymOver_memories (x : Tenant) (p : Pend) (s : State) : memories (txsymOver x p s) = memories s := by
  simp only [txsymOver]
  split
  · simp
  · split <;> simp [apply_ite memories]

@[simp] theorem gainApply_memories (s : State) : memories (gainApply s) = memories s := by simp [gainApply, apply_ite memories]

@[simp] theorem rxwinOver_memories (x : Tenant) (p : Pend) (goesOn : Bool) (s : State) :
    memories (rxwinOver x p goesOn s) = memories s := by simp [rxwinOver, apply_ite memories]

@[simp] theorem deltaOf_memories (g base : Gamma) (s : State) : memories (deltaOf g base s).2 = memories s := by
  simp only [deltaOf]
  split_ifs <;> simp

@[simp] theorem setBase_memories (a : Fin 4) (g : Gamma) (s : State) : memories (setBase a g s) = memories s := (rfl)

@[simp] theorem sniffJudge_memories (n : Sniff) (g : Gamma) (s : State) : memories (sniffJudge n g s).2 = memories s := by
  unfold sniffJudge
  dsimp only
  (repeat' split) <;> simp

@[simp] theorem invStart_memories (t : Tenant) (a : InvArgs) (tseq : BitVec 16) (v1 single : Bool) (s : State) :
    memories (invStart t a tseq v1 single s) = memories s := by simp [invStart]

@[simp] theorem autoStart_memories (n : Sniff) (s : State) : memories (autoStart n s) = memories s := by
  simp only [autoStart]
  split <;> simp [apply_ite memories]

@[simp] theorem linkHeard_memories (f : RxFrame) (s : State) : memories (linkHeard f s) = memories s := (rfl)

-- ------------------------------------------------------------ Survey

@[simp] theorem takeSample_memories (m : Sample) (s : State) : memories (takeSample m s) = memories s := (rfl)

@[simp] theorem returnLoss_memories (g : Gamma) (s : State) : memories (returnLoss g s).2 = memories s := by
  simp only [returnLoss]
  split_ifs <;> simp

@[simp] theorem lowestLoss_memories (l : List (Nat × Gamma)) (s : State) : memories (lowestLoss l s).2 = memories s := by
  induction l generalizing s with
  | nil => rfl
  | cons p l ih => simp [lowestLoss, ih]

@[simp] theorem sweepNext_memories (s : State) : memories (sweepNext s) = memories s := by
  unfold sweepNext
  dsimp only
  (repeat' split) <;> simp

@[simp] theorem sweepBegin_memories (owner : Option Tenant) (tseq : BitVec 16) (target : Fin 6) (length : Bool) (rest : List
    (Fin 6)) (s : State) :
    memories (sweepBegin owner tseq target length rest s) = memories s := by simp [sweepBegin]

@[simp] theorem sweepTold_memories (w : Sweep) (status : Byte) (rl len : Nat) (s : State) :
    memories (sweepTold w status rl len s) = memories s := by
  simp only [sweepTold]
  split <;> simp

@[simp] theorem sweepRelease_memories (s : State) :
    memories (sweepRelease s) = memories s := by simp [sweepRelease, apply_ite memories]

@[simp] theorem sweepRest_memories (w : Sweep) (s : State) : memories (sweepRest w s) = memories s := by
  simp only [sweepRest]
  split <;> simp

@[simp] theorem sweepEnd_memories (status : Byte) (s : State) : memories (sweepEnd status s) = memories s := by
  simp only [sweepEnd]
  split <;> simp

-- ------------------------------------------------------------ RdrCmds

@[simp] theorem sniffStop_memories (s : State) : memories (sniffStop s) = memories s := by
  simp only [sniffStop]
  split <;> simp [apply_ite memories]

@[simp] theorem baselineCharged_memories (t : Tenant) (s : State) : memories (baselineCharged t s) = memories s := (rfl)
@[simp] theorem rdrClear_memories (s : State) : memories (rdrClear s) = memories s := (rfl)
@[simp] theorem tapWarm_memories (tapL : Bool) (s : State) : memories (tapWarm tapL s) = memories s := (rfl)

-- ------------------------------------------------------------ TagSec

theorem chargeSession_memories (k : Fin 48) (gone : Bool) (s : State) :
    ∀ r, chargeSession k gone s = .ok r → memories r = memories s := by
  grind [chargeSession, chargeKey_memories]

@[simp] theorem lanternRelease_memories (s : State) :
    memories (lanternRelease s) = memories s := by simp [lanternRelease, apply_ite memories]

@[simp] theorem evFieldTo_memories (on : Byte) (level : Byte) (s : State) :
    memories (evFieldTo on level s) = memories s := by simp [evFieldTo, apply_ite memories]

@[simp] theorem lanternHold_memories (s : State) :
    memories (lanternHold s) = memories s := by simp [lanternHold, apply_ite memories]

@[simp] theorem exchangeBegin_memories (t : Tenant) (seq : BitVec 16) (key asel : Nat) (epc : Bytes)
    (kind : Fin 48 → AccKind) (busy : Bool) (results : Bytes) (note : Fin 48 → SecSess → SecSess) (s : State) :
    memories (exchangeBegin t seq key asel epc kind busy results note s) = memories s := by
  unfold exchangeBegin
  dsimp only
  (repeat' split) <;> simp

@[simp] theorem sessAir_memories (t : Tenant) (msg : Bytes) (gap : Nat) (s : State) :
    memories (sessAir t msg gap s) = memories s := by simp [sessAir]

@[simp] theorem sessSend_memories (t : Tenant) (tseq : BitVec 16) (data : Bytes) (gap : Nat) (s : State) :
    memories (sessSend t tseq data gap s) = memories s := by
  grind [sessSend, chargeSession_memories, closeSession_memories, modSess_memories, sessAir_memories]

@[simp] theorem holdAsSession_memories (x : Tenant) (s : State) : memories (holdAsSession x s) = memories s := by
  simp only [holdAsSession]
  split <;> simp

@[simp] theorem sessNext_memories (x : Tenant) (s : State) : memories (sessNext x s) = memories s := by
  simp only [sessNext]
  split <;> simp

-- ------------------------------------------------------------ LinkMac

@[simp] theorem takeFrame_memories (k : Fin 48) (s : State) :
    memories (takeFrame k s).2 = memories s := by simp [takeFrame, apply_ite memories]

@[simp] theorem takeMseq_memories (s : State) : memories (takeMseq s).2 = memories s := (rfl)
@[simp] theorem sendAsk_memories (e : Send) (s : State) : memories (sendAsk e s) = memories s := by simp [sendAsk]

@[simp] theorem listenEnd_memories (x : Tenant) (status : Byte) (s : State) : memories (listenEnd x status s) = memories s := by
  unfold listenEnd
  dsimp only
  (repeat' split) <;> simp

@[simp] theorem listensDue_memories (s : State) : memories (listensDue s) = memories s := by
  grind [listensDue, forTenants_memories, listenEnd_memories]

@[simp] theorem ackOver_memories (s : State) : memories (ackOver s) = memories s := by
  simp only [ackOver]
  split <;> simp [apply_ite memories]

@[simp] theorem noAck_memories (s : State) : memories (noAck s) = memories s := by simp [noAck, apply_ite memories]
@[simp] theorem beaconPlan_memories (start : Tick) (s : State) : memories (beaconPlan start s) = memories s := (rfl)

theorem beaconKey_memories (k : Fin 48) (s : State) : ∀ r, beaconKey k s = some r → memories r.2.2 = memories s := by
  intro r h
  rw [beaconKey] at h
  split at h
  · cases h
  · split at h
    · cases h
    · next hkey =>
      cases h
      simpa [apply_ite memories] using useKey_memories _ _ _ _ _ hkey

@[simp] theorem nbrLost_memories (addr : BitVec 16) (reason : Byte) (s : State) :
    memories (nbrLost addr reason s) = memories s := (rfl)

-- ------------------------------------------------------------ LinkAir

@[simp] theorem laneTaken_memories (lane : Fin 6) (s : State) : memories (laneTaken lane s) = memories s := (rfl)
@[simp] theorem aerialKept_memories (lkb : Bool) (s : State) : memories (aerialKept lkb s) = memories s := (rfl)
@[simp] theorem sfdFound_memories (s : State) : memories (sfdFound s) = memories s := by simp [sfdFound, apply_ite memories]

@[simp] theorem ackOwe_memories (f : RxFrame) (s : State) : memories (ackOwe f s) = memories s := by
  unfold ackOwe
  dsimp only
  (repeat' split) <;> simp

@[simp] theorem countDrop_memories (d : Drop) (s : State) : memories (countDrop d s) = memories s := (rfl)
@[simp] theorem nbrHeard_memories (f : RxFrame) (m : MacFrame) (s : State) : memories (nbrHeard f m s) = memories s := (rfl)

@[simp] theorem beaconHeard_memories (f : RxFrame) (m : MacFrame) (body : Bytes) (s : State) :
    memories (beaconHeard f m body s) = memories s := by
  unfold beaconHeard
  (repeat' split) <;> (dsimp only; grind [raise_memories, setLink_memories])

@[simp] theorem deliver_memories (f : RxFrame) (m : MacFrame) (p : Bytes) (s : State) :
    memories (deliver f m p s) = memories s := by
  grind [deliver, forTenants_memories, raise_memories, setLink_memories]

@[simp] theorem macProcess_memories (f : RxFrame) (s : State) : memories (macProcess f s) = memories s := by
  unfold macProcess
  dsimp only
  (repeat' split) <;> simp

-- ------------------------------------------------------------ LinkCmds

theorem sendKey_memories (t : Tenant) (key : Nat) (s : State) : ∀ r, sendKey t key s = .ok r → memories r.2 = memories s := by
  intro r h
  unfold sendKey at h
  split at h
  · cases h
    rfl
  split at h
  · cases h
  split_ifs at h
  split at h
  · cases h
  · next hkey =>
    cases h
    simpa [apply_ite memories] using useKey_memories _ _ _ _ _ hkey

-- ------------------------------------------------------------ RadioCmds

@[simp] theorem programWithdrawn_memories (t : Tenant) (h : Hold) (s : State) :
    memories (programWithdrawn t h s) = memories s := by
  simp only [programWithdrawn]
  split <;> simp [apply_ite memories]

@[simp] theorem cutCounted_memories (s : State) : memories (cutCounted s) = memories s := (rfl)

@[simp] theorem giveLkb_memories (t : Tenant) (s : State) :
    memories (giveLkb t s) = memories s := by simp [giveLkb, apply_ite memories]

@[simp] theorem ltxWithdrawn_memories (t : Tenant) (p : Pend) (r : AirReq) (s : State) :
    memories (ltxWithdrawn t p r s) = memories s := by simp [ltxWithdrawn, apply_ite memories]

-- ------------------------------------------------------------ Store

@[simp] theorem countWrites_memories (p n : Nat) (s : State) : memories (countWrites p n s) = memories s := (rfl)
@[simp] theorem remap_memories (l p : Nat) (s : State) : memories (remap l p s) = memories s := (rfl)

@[simp] theorem ballastSample_memories (vhu : Nat) (s : State) : memories (ballastSample vhu s) = memories s := by
  refine setStore_memories _ _ ?_
  split <;> rfl

@[simp] theorem commitSectors_memories (c : Commit) (s : State) : memories (commitSectors c s).2 = memories s := by
  simp only [commitSectors]
  split <;> simp

@[simp] theorem queueMap_memories (wear : Bool) (s : State) : memories (queueMap wear s) = memories s := (rfl)
@[simp] theorem storeLoss_memories (p : Nat) (s : State) : memories (storeLoss p s) = memories s := by simp [storeLoss]

@[simp] theorem retireSector_memories (l : Nat) (s : State) : memories (retireSector l s).2 = memories s := by
  simp only [retireSector]
  split <;> simp

@[simp] theorem retireAll_memories (n : Nat) (l : List Nat) (s : State) : memories (retireAll n l s).2 = memories s := by
  fun_induction retireAll with
  | case1 | case2 => rfl
  | case3 n a l s u h => simpa [h] using retireSector_memories a s
  | case4 n a l s u h ih => simpa [h, ih] using retireSector_memories a s

@[simp] theorem writePages_memories (ls : List Nat) (s : State) : memories (writePages ls s) = memories s := by
  have counted := foldl_memories (fun s l => countWrites (physOf s.store l) 1 s) ls s fun s _ => countWrites_memories ..
  simp only [writePages]
  split
  · simpa [apply_ite memories] using counted
  · exact counted

@[simp] theorem eraseSlot_memories (k : Fin 48) (s : State) : memories (eraseSlot k s) = memories s := by
  grind [eraseSlot, dropOrphans_memories, forTenants_memories, modCtx_memories, modSess_memories, modSlot_memories,
    setStore_memories, setTag_memories]

@[simp] theorem logLand_memories (es : List LogEntry) (s : State) : memories (logLand es s) = memories s := (rfl)

@[simp] theorem mapLand_memories (wear : Bool) (copies : BitVec 3) (s : State) :
    memories (mapLand wear copies s) = memories s := by
  grind [mapLand, remap_memories, setMend_memories, setStore_memories]

@[simp] theorem failCommit_memories (k : CommitKind) (st : Byte) (s : State) : memories (failCommit k st s) = memories s := by
  simp only [failCommit]
  split <;> simp

@[simp] theorem runMap_memories (wear : Bool) (bad : Nat) (s : State) : memories (runMap wear bad s) = memories s := by
  grind [runMap, countWrites_memories, mapLand_memories, setMend_memories, storeLoss_memories]

@[simp] theorem deferCommit_memories (c : Commit) (s : State) : memories (deferCommit c s) = memories s := by
  grind [deferCommit, failCommit_memories, setStore_memories]

-- ------------------------------------------------------------ Mend

@[simp] theorem lanesApply_memories (s : State) : memories (lanesApply s) = memories s := (rfl)

@[simp] theorem mendRepair_memories (r : MendRes) (s : State) : memories (mendRepair r s) = memories s := by
  unfold mendRepair
  split
  · simp
  · split <;> simp

@[simp] theorem startRepair_memories (r : MendRes) (s : State) : memories (startRepair r s) = memories s := by
  unfold startRepair
  split
  · simp
  · split <;> simp

@[simp] theorem keyTested_memories (n : Nat) (s : State) : memories (keyTested n s) = memories s := by
  unfold keyTested
  split
  · simp
  · split <;> simp

@[simp] theorem testDone_memories (s : State) : memories (testDone s) = memories s := (rfl)

@[simp] theorem stepRepair_memories (n : Nat) (found : Option MendRes) (s : State) :
    memories (stepRepair n found s) = memories s := by
  unfold stepRepair
  split
  · split <;> simp
  · simp

-- ------------------------------------------------------------ Regs

@[simp] theorem readEffect_memories (a : Nat) (s : State) : memories (readEffect a s) = memories s := by
  unfold readEffect
  dsimp only
  (repeat' split) <;> simp

@[simp] theorem readRun_memories (t : Tenant) (n a : Nat) (s : State) : memories (readRun t n a s).2 = memories s := by
  induction n generalizing a s with
  | zero => rfl
  | succ n ih => simp [readRun, ih]

@[simp] theorem regRead_memories (c : Cmd) (s : State) :
    memories (regRead c s) = memories s := by simp [regRead, apply_ite memories]

@[simp] theorem profWrite_memories (t : Tenant) (a : Nat) (v : Reg16) (s : State) :
    memories (profWrite t a v s) = memories s := (rfl)

@[simp] theorem writeReel_memories (a : Nat) (w : Reg16) (s : State) : memories (writeReel a w s) = memories s := by
  grind [writeReel, goRelease_memories, modCap_memories, modCmp_memories, modDc_memories, modTout_memories, toutAct_memories]

-- ------------------------------------------------------------ Ports

@[simp] theorem countBad_memories (p : Port) (s : State) : memories (countBad p s) = memories s := (rfl)
@[simp] theorem countAbort_memories (p : Port) (s : State) : memories (countAbort p s) = memories s := (rfl)
@[simp] theorem countPortDrop_memories (p : Port) (s : State) : memories (countPortDrop p s) = memories s := (rfl)

@[simp] theorem acceptFrame_memories (p : Port) (s : State) :
    memories (acceptFrame p s) = memories s := by simp [acceptFrame, apply_ite memories]

@[simp] theorem acceptCommand_memories (p : Port) (op seq : BitVec 16) (args : Bytes) (y0 : Tenant) (s : State) :
    memories (acceptCommand p op seq args y0 s) = memories s := (rfl)

@[simp] theorem takeFrames_memories (p : Port) (lag n : Nat) (judged : Bool) (b : Bytes) (s : State) :
    memories (takeFrames p lag n judged b s) = memories s := by
  induction n generalizing judged b s with
  | zero => rfl
  | succ n ih => simp [takeFrames, ih, apply_ite memories]

@[simp] theorem busNack_memories (p : Port) (s : State) :
    memories (busNack p s) = memories s := by simp [busNack, apply_ite memories]

@[simp] theorem cutFrame_memories (p : Port) (s : State) :
    memories (cutFrame p s) = memories s := by simp [cutFrame, apply_ite memories]

@[simp] theorem dequeueOut_memories (p : Port) (s : State) :
    memories (dequeueOut p s) = memories s := by simp [dequeueOut, apply_ite memories]

@[simp] theorem divSwitch_memories (o : Out) (s : State) : memories (divSwitch o s) = memories s := by
  unfold divSwitch
  split
  · split <;> rfl
  · rfl

@[simp] theorem deliverToHost_memories (p : Port) (bus : Bus) (s : State) : memories (deliverToHost p bus s) = memories s := by
  simp only [deliverToHost]
  split <;> simp

@[simp] theorem deliverMany_memories (n : Nat) (s : State) : memories (deliverMany n s).2 = memories s := by
  induction n generalizing s with
  | zero => rfl
  | succ n ih =>
    unfold deliverMany
    split <;> simp [ih]

-- ------------------------------------------------------------ Power

@[simp] theorem mendStart_memories (f : StartFinds) (s : State) : memories (mendStart f s) = memories s := by
  have repaired := fun s => foldl_memories (fun s r => startRepair r s) f.faults s fun s r => startRepair_memories r s
  have mapped := fun l s => foldl_memories (fun s r => if rowMapped r s.mend then s else startRepair r s) l s
    fun s r => by split <;> simp
  simp [mendStart, apply_ite memories, repaired, mapped]

@[simp] theorem rootStart_memories (f : StartFinds) (s : State) : memories (rootStart f s) = memories s := (rfl)
@[simp] theorem counterLost_memories (s : State) : memories (counterLost s).2 = memories s := (rfl)

@[simp] theorem useResume_memories (k : Fin 48) (key : Key) (s : State) :
    memories (useResume k key s) = memories s := by simp [useResume, apply_ite memories]

@[simp] theorem frameResume_memories (k : Fin 48) (s : State) :
    memories (frameResume k s) = memories s := by simp [frameResume, apply_ite memories]

@[simp] theorem slotStart_memories (f : StartFinds) (k : Fin 48) (s : State) : memories (slotStart f k s) = memories s := by
  simp only [slotStart]
  split <;> simp [apply_ite memories]

@[simp] theorem dayResume_memories (s : State) : memories (dayResume s) = memories s := (rfl)

@[simp] theorem startLive_memories (s : State) : memories (startLive s) = memories s := by
  have reset := fun (f : TenantSt → TenantSt) s => forTenants_memories (fun t => modTen t f) s fun _ _ => rfl
  simp [startLive, apply_ite memories, reset]

@[simp] theorem untrust_memories (rc : Bool) (s : State) :
    memories (untrust rc s) = memories s := by simp [untrust, apply_ite memories]

@[simp] theorem coresTo_memories (x : CoreSt) (s : State) : memories (coresTo x s) = memories s := by simp [coresTo]

@[simp] theorem reelResume_memories (now : Tick) (s : State) : memories (reelResume now s) = memories s := by
  simp only [reelResume]
  split <;> rfl

@[simp] theorem rfWiresLow_memories (s : State) : memories (rfWiresLow s) = memories s := (rfl)

@[simp] theorem enterSleep_memories (s : State) : memories (enterSleep s) = memories s :=
  (untrust_memories ..).trans ((setPower_memories ..).trans ((coresTo_memories ..).trans (rfWiresLow_memories _)))

@[simp] theorem tellWake_memories (c : Option WakeCause) (s : State) : memories (tellWake c s) = memories s := by
  simp only [tellWake]
  split <;> simp

@[simp] theorem abortCommands_memories (t : Tenant) (s : State) :
    memories (abortCommands t s) = memories s := by simp [abortCommands]

@[simp] theorem cutWrites_memories (headerLanded : Bool) (s : State) : memories (cutWrites headerLanded s) = memories s := (rfl)
@[simp] theorem holdFromSleep_memories (s : State) : memories (holdFromSleep s) = memories s := by simp [holdFromSleep]

-- ------------------------------------------------------------ SpoolCmds

@[simp] theorem startProgram_memories (how : Starter) (c : Cmd) (down : State → Option Byte)
    (prof : Profile → Profile → Profile)
    (s : State) : memories (startProgram how c down prof s) = memories s := by
  simp only [startProgram]
  split
  · simp
  split
  · simp
  split
  · simp
  split
  · simp
  · exact modCtx_memories _ _ _ fun _ => rfl

-- ------------------------------------------------------------ V1

@[simp] theorem v1Pop_memories (s : State) : memories (v1Pop s).2 = memories s := by
  simp only [v1Pop]
  split <;> simp

@[simp] theorem v1Begin_memories (single : Bool) (s : State) : memories (v1Begin single s) = memories s := by
  simp only [v1Begin]
  split <;> simp

@[simp] theorem v1Region_memories (w : Byte) (s : State) :
    memories (v1Region w s) = memories s := by simp [v1Region, apply_ite memories]

@[simp] theorem v1Link_memories (w : Byte) (s : State) :
    memories (v1Link w s) = memories s := by simp [v1Link, apply_ite memories]
@[simp] theorem v1Power_memories (w : Byte) (s : State) : memories (v1Power w s) = memories s := (rfl)
@[simp] theorem v1Clear_memories (w : Byte) (s : State) : memories (v1Clear w s) = memories s := (rfl)

@[simp] theorem v1Reads_memories (n a : Nat) (s : State) : memories (v1Reads n a s).2 = memories s := by
  induction n generalizing a s with
  | zero => rfl
  | succ n ih =>
    simp only [v1Reads, ih]
    split <;> simp

-- ------------------------------------------------------------ Tap

@[simp] theorem tapClock_memories (tms tdi : Bool) (s : State) : memories (tapClock tms tdi s) = memories s := by
  simp only [tapClock]
  split <;> rfl

@[simp] theorem tapClocks_memories (l : List (Bool × Bool)) (s : State) : memories (tapClocks l s) = memories s := by
  induction l generalizing s with
  | nil => rfl
  | cons b l ih => rw [tapClocks, ih, tapClock_memories]

end Sys2Proof.Machine
end

section
/-!
SUPPORT. What keeps every memory in canonical form: the operations that write one, and those that call them. Bytes are written by
`memPutAll` alone, which keeps the form; a buffer that goes back to the pool and a data RAM that is wiped are empty.
-/
namespace Sys2Proof.Machine

@[simp] theorem replyAhead_memories (t : Tenant) (s : State) : memories (replyAhead t s) = memories s := by
  simp only [replyAhead]
  split <;> simp

@[simp] theorem writeDiv_memories (t : Tenant) (w : Reg16) (s : State) : memories (writeDiv t w s) = memories s := by
  simp only [writeDiv]
  split
  · rfl
  · split
    · split <;> rfl
    · rfl

theorem foldl_memPutAll_wf (l : List (Nat × Bytes)) (m : Memory) (h : Memory.wf m = true) :
    Memory.wf (l.foldl (fun m p => memPutAll m p.1 p.2) m) = true := by
  induction l generalizing m with
  | nil => exact h
  | cons p l ih => exact ih _ (memPutAll_wf _ _ _ h)

/-- Bytes written to a tenant's area. -/
theorem writeArea_canonical (t : Tenant) (off : Nat) (data : Bytes) (f : StoreSt → StoreSt) {s : State}
    (hf : (f s.store).areas = vmod s.store.areas t fun m => memPutAll m off data) (h : (memories s).Canonical) :
    (memories (setStore f s)).Canonical := by
  refine setStore_canonical _ h fun hareas u => ?_
  rw [hf, getElem_vmod]
  split
  · exact memPutAll_wf _ _ _ (hareas u)
  · exact hareas u

-- ------------------------------------------------------------ Ops

/-- A command changes the memories as its meaning does. -/
theorem keelRun_canonical (op : BitVec 16) (c : Cmd) (body : State → State) {s : State}
    (hbody : ∀ r, (memories r).Canonical → (memories (body r)).Canonical) (h : (memories s).Canonical) :
    (memories (keelRun op c body s)).Canonical := by
  rw [keelRun]
  split
  · simpa using h
  · next r hr => exact hbody r (takeUp_memories op c s r hr ▸ h)

@[simp] theorem takeBuf_canonical (b : Fin 32) {s : State} (h : (memories s).Canonical) : (memories (takeBuf b s)).Canonical :=
  modBuf_canonical _ _ h fun _ _ => rfl

@[simp] theorem serveBuf_canonical (pos : Fin 6) (prog : Bool) (b : Fin 32) {s : State} (h : (memories s).Canonical) :
    (memories (serveBuf pos prog b s)).Canonical := by
  simp only [serveBuf]
  split <;> exact takeBuf_canonical b h

@[simp] theorem freeBuf_canonical (b : Fin 32) {s : State} (h : (memories s).Canonical) : (memories (freeBuf b s)).Canonical :=
  modBuf_canonical _ _ h fun _ _ => rfl

-- ------------------------------------------------------------ SpoolCore

@[simp] theorem dropBufs_canonical (x : Tenant) {s : State} (h : (memories s).Canonical) :
    (memories (dropBufs x s)).Canonical := by
  have freed := foldl_canonical (fun s b => freeBuf b s) s.ctxs[x].held (fun _ b => freeBuf_canonical b) h
  simpa [dropBufs] using freed

/-- R220: a SPOOL.RESET that waited zeroes the data RAM. -/
@[simp] theorem runOver_canonical (x : Tenant) {s : State} (h : (memories s).Canonical) :
    (memories (runOver x s)).Canonical := by
  refine modCtx_canonical _ _ (by simpa using h) fun k hcode hdata => ⟨hcode, ?_⟩
  dsimp only
  split
  · rfl
  · exact hdata

@[simp] theorem spoolFault_canonical (x : Tenant) (code : Nat) {s : State} (h : (memories s).Canonical) :
    (memories (spoolFault x code s)).Canonical := by
  simp [spoolFault, h]

@[simp] theorem endProgram_canonical (x : Tenant) (status : Byte) {s : State} (h : (memories s).Canonical) :
    (memories (endProgram x status s)).Canonical := by
  simp only [endProgram]
  split <;> simp [h]

/-- An instruction changes the memories as its meaning does. -/
theorem issue_canonical (x : Tenant) (word : BitVec 32) (body : State → State) {s : State}
    (hbody : ∀ r, (memories r).Canonical → (memories (body r)).Canonical) (h : (memories s).Canonical) :
    (memories (issue x word body s)).Canonical := by
  have begun := hbody (issueMoment x s) (by simpa using h)
  simp only [issue]
  split_ifs <;> simp [h, begun]

@[simp] theorem jumpTo_canonical (x : Tenant) (t : Nat) {s : State} (h : (memories s).Canonical) :
    (memories (jumpTo x t s)).Canonical := by
  simp only [jumpTo]
  split <;> simp [h]

@[simp] theorem stopIfDue_canonical (x : Tenant) {s : State} (h : (memories s).Canonical) :
    (memories (stopIfDue x s)).Canonical := by
  unfold stopIfDue
  split
  · split <;> simp [h]
  · simp [h]

theorem airIssue_canonical (w : Bool) (x : Tenant) (core : CoreId) (d : Fin 16) (bad : Profile → Bool) (body : State → State)
    {s : State} (hbody : ∀ r, (memories r).Canonical → (memories (body r)).Canonical) (h : (memories s).Canonical) :
    (memories (airIssue w x core d bad body s)).Canonical := by
  simp only [airIssue]
  split
  · simp [h]
  split_ifs
  · simp [h]
  · exact hbody _ (by simpa using h)
  · exact hbody _ (by simpa using h)

theorem airFirst_canonical (x : Tenant) (core : CoreId) (d : Fin 16) (fn : BitVec 14) (body : State → State)
    {s : State} (hbody : ∀ r, (memories r).Canonical → (memories (body r)).Canonical) (h : (memories s).Canonical) :
    (memories (airFirst x core d fn body s)).Canonical := by
  simp only [airFirst]
  split
  · exact hbody s h
  · simpa using h

@[simp] theorem stopProgram_canonical (x : Tenant) (status : Byte) {s : State} (h : (memories s).Canonical) :
    (memories (stopProgram x status s)).Canonical := by
  simp only [stopProgram]
  split <;> simp [h]

-- ------------------------------------------------------------ Services

/-- R357: what was published comes into force as the session ends. -/
@[simp] theorem closeTagSession_canonical (reason : Nat) {s : State} (h : (memories s).Canonical) :
    (memories (closeTagSession reason s)).Canonical := by
  simp only [closeTagSession]
  split
  · simpa using setTag_canonical _ h (foldl_memPutAll_wf s.tag.pubNext _)
  · exact h

@[simp] theorem endAcc_canonical (t : Tenant) (status : Byte) (tagErr : Byte) (reason : Nat) {s : State} (h :
    (memories s).Canonical) :
    (memories (endAcc t status tagErr reason s)).Canonical := by
  simp only [endAcc]
  split
  · exact h
  · split <;> simp [h]

-- ------------------------------------------------------------ Gondola

@[simp] theorem dropMsg_canonical (m : Option Msg) {s : State} (h : (memories s).Canonical) :
    (memories (dropMsg m s)).Canonical := by
  unfold dropMsg
  split
  · split <;> simp [h]
  · simp [h]

@[simp] theorem writeChan_canonical (g : Fin 16) (snd : Nat) (words : List Reg32) (hand : Option (Fin 32)) {s : State} (h :
    (memories s).Canonical) :
    (memories (writeChan g snd words hand s)).Canonical := by
  simp [writeChan, h]

-- ------------------------------------------------------------ Bridle

@[simp] theorem tamperApply_canonical {s : State} (h : (memories s).Canonical) : (memories (tamperApply s)).Canonical := by
  have waits := fun s => forTenants_memories (fun t s => failEngineWait t stKeyOrphan s) s fun t s => failEngineWait_memories ..
  have closes := fun s => forTenants_memories (fun t s => closeSession t 0 s) s fun t s => closeSession_memories ..
  simp only [tamperApply, logEntry_memories, raiseAll_memories, setTag_memories]
  refine closeTagSession_canonical 0 ?_
  rw [closes]
  refine forTenants_canonical _ (fun t s h => ?_) ?_
  · split
    · split <;> simp [h]
    · exact h
  · rw [waits]
    simpa using h

-- ------------------------------------------------------------ SpoolIo

theorem onBuf_canonical (x : Tenant) (a : Fin 16) (body : Fin 32 → State → State) {s : State}
    (hbody : ∀ b r, (memories r).Canonical → (memories (body b r)).Canonical) (h : (memories s).Canonical) :
    (memories (onBuf x a body s)).Canonical := by
  simp only [onBuf]
  split
  · exact hbody _ s h
  · simp [h]

@[simp] theorem handOn_canonical (x : Tenant) (b : Fin 32) {s : State} (h : (memories s).Canonical) :
    (memories (handOn x b s)).Canonical := by
  simp [handOn, h]

-- ------------------------------------------------------------ Reader

@[simp] theorem invDone_canonical (x : Tenant) (status : Byte) {s : State} (h : (memories s).Canonical) :
    (memories (invDone x status s)).Canonical := by
  unfold invDone
  dsimp only
  (repeat' split) <;> simp [h]

@[simp] theorem slotDone_canonical (x : Tenant) (i : Inv) (gap : Nat) {s : State} (h : (memories s).Canonical) :
    (memories (slotDone x i gap s)).Canonical := by
  simp only [slotDone]
  split_ifs <;> simp [h]

@[simp] theorem invNext_canonical (x : Tenant) (i : Inv) {s : State} (h : (memories s).Canonical) :
    (memories (invNext x i s)).Canonical := by
  grind [invNext, builtinPend_memories, carrierOff_memories, invHop_memories, rampUp_memories, releaseAir_memories,
    roundOpen_memories, setHold_memories, setInv_memories, setRdr_memories, invDone_canonical]

@[simp] theorem invTuned_canonical (x : Tenant) (i : Inv) (cal : Cal) {s : State} (h : (memories s).Canonical) :
    (memories (invTuned x i cal s)).Canonical := by
  simp only [invTuned]
  split <;> simp [h]

@[simp] theorem selectSent_canonical (x : Tenant) (i : Inv) {s : State} (h : (memories s).Canonical) :
    (memories (selectSent x i s)).Canonical := by
  unfold selectSent
  dsimp only
  (repeat' split) <;> simp [h]

@[simp] theorem invSent_canonical (x : Tenant) (i : Inv) {s : State} (h : (memories s).Canonical) :
    (memories (invSent x i s)).Canonical := by
  simp only [invSent]
  split <;> simp [h]

@[simp] theorem invReply_canonical (x : Tenant) (i : Inv) (reply : Option Reply) {s : State} (h : (memories s).Canonical) :
    (memories (invReply x i reply s)).Canonical := by
  unfold invReply
  dsimp only
  (repeat' split) <;> simp [h]

-- ------------------------------------------------------------ Access

@[simp] theorem accTuned_canonical (x : Tenant) (a : Acc) (cal : Cal) {s : State} (h : (memories s).Canonical) :
    (memories (accTuned x a cal s)).Canonical := by
  simp only [accTuned]
  split <;> simp [h]

@[simp] theorem attemptFail_canonical (x : Tenant) (a : Acc) {s : State} (h : (memories s).Canonical) :
    (memories (attemptFail x a s)).Canonical := by
  simp only [attemptFail]
  split <;> simp [h]

@[simp] theorem exchangeStart_canonical (x : Tenant) (a : Acc) (key : Fin 48) (n : Nat) {s : State} (h :
    (memories s).Canonical) :
    (memories (exchangeStart x a key n s)).Canonical := by
  simp only [exchangeStart]
  split
  · simp [h]
  next u hu =>
  have hcharged : (memories u).Canonical := chargeKey_memories _ _ _ _ hu ▸ h
  split
  · simp [hcharged]
  · simp [hcharged]
  next hdrawn => simpa [drbgTake_memories _ _ _ hdrawn] using hcharged

@[simp] theorem accIdentified_canonical (x : Tenant) (a : Acc) (tid : Bytes) {s : State} (h : (memories s).Canonical) :
    (memories (accIdentified x a tid s)).Canonical := by
  unfold accIdentified
  dsimp only
  (repeat' split) <;> simp [h]

@[simp] theorem accFrameOver_canonical (x : Tenant) (a : Acc) {s : State} (h : (memories s).Canonical) :
    (memories (accFrameOver x a s).2).Canonical := by
  unfold accFrameOver
  dsimp only
  (repeat' split) <;> simp [h]

@[simp] theorem accSent_canonical (x : Tenant) (a : Acc) {s : State} (h : (memories s).Canonical) :
    (memories (accSent x a s)).Canonical := by
  simp only [accSent]
  split_ifs <;> simp [h]

@[simp] theorem accOutcome_canonical (x : Tenant) (a : Acc) (r : Reply) {s : State} (h : (memories s).Canonical) :
    (memories (accOutcome x a r s)).Canonical := by
  unfold accOutcome
  dsimp only
  (repeat' split) <;> simp [h]

@[simp] theorem accReply_canonical (x : Tenant) (a : Acc) (reply : Option Reply) {s : State} (h : (memories s).Canonical) :
    (memories (accReply x a reply s)).Canonical := by
  unfold accReply
  dsimp only
  (repeat' split) <;> simp [h]

-- ------------------------------------------------------------ SpoolAir

/-- The reply's bytes go into the buffer. -/
@[simp] theorem rxwinOk_canonical (x : Tenant) (p : Pend) (r : Reply) (n : Nat) {s : State} (h : (memories s).Canonical) :
    (memories (rxwinOk x p r n s)).Canonical := by
  simp only [rxwinOk]
  rw [endWait_memories _ _ _ _ (by simp)]
  split
  · exact modBuf_canonical _ _ h fun _ => memPutAll_wf _ _ _
  · exact h

@[simp] theorem rxwinOwn_canonical (x : Tenant) (p : Pend) (reply : Option Reply) {s : State} (h : (memories s).Canonical) :
    (memories (rxwinOwn x p reply s)).Canonical := by
  unfold rxwinOwn
  dsimp only
  (repeat' split) <;> simp [h]

@[simp] theorem rxwinBuiltin_canonical (x : Tenant) (reply : Option Reply) {s : State} (h : (memories s).Canonical) :
    (memories (rxwinBuiltin x reply s)).Canonical := by
  unfold rxwinBuiltin
  dsimp only
  (repeat' split) <;> simp [h]

-- ------------------------------------------------------------ RdrCmds

@[simp] theorem accReset_canonical (t : Tenant) {s : State} (h : (memories s).Canonical) :
    (memories (accReset t s)).Canonical := by
  grind [accReset, setAcc_memories, endAcc_canonical]

@[simp] theorem builtinReset_canonical (t : Tenant) {s : State} (h : (memories s).Canonical) :
    (memories (builtinReset t s)).Canonical := by
  unfold builtinReset
  split
  · split <;> simp [h]
  · simp [h]

@[simp] theorem ctxAirGone_canonical (t : Tenant) (c : CoreId) {s : State} (h : (memories s).Canonical) :
    (memories (ctxAirGone t c s)).Canonical := by
  unfold ctxAirGone
  dsimp only
  (repeat' split) <;> simp [h]

@[simp] theorem readerFails_canonical (status : Byte) {s : State} (h : (memories s).Canonical) :
    (memories (readerFails status s)).Canonical := by
  unfold readerFails
  dsimp only
  (repeat' split) <;> simp [h]

-- ------------------------------------------------------------ TagSec

@[simp] theorem tagOff_canonical {s : State} (h : (memories s).Canonical) : (memories (tagOff s)).Canonical := by
  simp only [tagOff]
  split
  · rw [lanternRelease_memories]
    exact setTag_canonical _ (closeTagSession_canonical 0 h) fun _ => rfl
  · exact h

@[simp] theorem tagAnswer_canonical (msg : Bytes) {s : State} (h : (memories s).Canonical) :
    (memories (tagAnswer msg s)).Canonical := by
  grind [tagAnswer, chargeSession_memories, setTag_memories, closeTagSession_canonical]

@[simp] theorem tagErr_canonical (code : Byte) {s : State} (h : (memories s).Canonical) :
    (memories (tagErr code s)).Canonical := by
  simp [tagErr, h]

@[simp] theorem tagCounted_canonical {s : State} (h : (memories s).Canonical) :
    (memories (tagCounted s)).Canonical := by
  simp only [tagCounted]
  split <;> simp [h]

@[simp] theorem tagSend_canonical (typ : Byte) (plain : Bytes) {s : State} (h : (memories s).Canonical) :
    (memories (tagSend typ plain s)).Canonical := by
  unfold tagSend
  dsimp only
  (repeat' split) <;> simp [h]

/-- What was published comes into force. -/
@[simp] theorem publishNow_canonical {s : State} (h : (memories s).Canonical) : (memories (publishNow s)).Canonical :=
  setTag_canonical _ h (foldl_memPutAll_wf s.tag.pubNext _)

@[simp] theorem answerRequest_canonical (plain : Bytes) {s : State} (h : (memories s).Canonical) :
    (memories (answerRequest plain s)).Canonical := by
  simp [answerRequest, h]

@[simp] theorem farzFails_canonical (x : Tenant) {s : State} (h : (memories s).Canonical) :
    (memories (farzFails x s)).Canonical := by
  simp [farzFails, h]

@[simp] theorem exchangeHeard_canonical (x : Tenant) (step : AccStep) (hz : Nat) {s : State} (h : (memories s).Canonical) :
    (memories (exchangeHeard x step hz s).2).Canonical := by
  unfold exchangeHeard
  dsimp only
  (repeat' split) <;> simp [h]

-- ------------------------------------------------------------ LinkMac

@[simp] theorem sendTold_canonical (e : Send) (status : Byte) {s : State} (h : (memories s).Canonical) :
    (memories (sendTold e status s)).Canonical := by
  unfold sendTold
  dsimp only
  (repeat' split) <;> simp [h]

@[simp] theorem sendEnd_canonical (status : Byte) {s : State} (h : (memories s).Canonical) :
    (memories (sendEnd status s)).Canonical := by
  simp only [sendEnd]
  split <;> simp [h]

@[simp] theorem sendDrop_canonical (e : Send) (status : Byte) {s : State} (h : (memories s).Canonical) :
    (memories (sendDrop e status s)).Canonical := by
  simp [sendDrop, h]

-- ------------------------------------------------------------ LinkCmds

@[simp] theorem sendStop_canonical (e : Send) (status : Byte) {s : State} (h : (memories s).Canonical) :
    (memories (sendStop e status s)).Canonical := by
  simp only [sendStop]
  split_ifs <;> simp [h]

-- ------------------------------------------------------------ RadioCmds

@[simp] theorem readerWithdrawn_canonical {s : State} (h : (memories s).Canonical) :
    (memories (readerWithdrawn s)).Canonical := by
  unfold readerWithdrawn
  dsimp only
  (repeat' split) <;> simp [h]

@[simp] theorem sendWithdrawn_canonical (e : Send) (r : List Send) {s : State} (h : (memories s).Canonical) :
    (memories (sendWithdrawn e r s)).Canonical := by
  unfold sendWithdrawn
  dsimp only
  (repeat' split) <;> simp [h]

@[simp] theorem macWithdrawn_canonical {s : State} (h : (memories s).Canonical) : (memories (macWithdrawn s)).Canonical := by
  unfold macWithdrawn
  generalize s.link.step = step, s.link.sends = sends, s.link.ackEnd = ackEnd
  cases step <;> cases sends <;> cases ackEnd <;> simp [h]

@[simp] theorem linkWithdrawn_canonical {s : State} (h : (memories s).Canonical) : (memories (linkWithdrawn s)).Canonical := by
  unfold linkWithdrawn
  split
  · exact h
  next r _ =>
  cases r.req.who with
  | ctx t =>
    dsimp only
    split
    · split_ifs <;> simp [h]
    · exact h
  | listen =>
    dsimp only
    split_ifs <;> simp [h]
  | _ => simp [h]

@[simp] theorem coexDenied_canonical (r : AirReq) {s : State} (h : (memories s).Canonical) :
    (memories (coexDenied r s)).Canonical := by
  have told := fun st s => forTenants_memories (fun x => listenEnd x st) s fun t s => listenEnd_memories ..
  unfold coexDenied
  cases r.who with
  | ctx t =>
    dsimp only
    split_ifs
    · simp [h]
    · simp [h]
    split
    · split_ifs <;> simp [h]
    · simp [h]
  | send t q =>
    dsimp only
    split <;> simp [h]
  | beacon =>
    dsimp only
    split <;> simp [h]
  | listen => simp [told, h]
  | _ => simp [h]

-- ------------------------------------------------------------ Store

/-- NVM.WRITE's commit is the one that writes an area. -/
@[simp] theorem landCommit_canonical (k : CommitKind) {s : State} (h : (memories s).Canonical) :
    (memories (landCommit k s)).Canonical := by
  cases k with
  | nvmWrite t job off data => simpa [landCommit] using writeArea_canonical t off data _ rfl h
  | _ => simp [landCommit, h]

@[simp] theorem runCommit_canonical (c : Commit) (bad : Nat) {s : State} (h : (memories s).Canonical) :
    (memories (runCommit c bad s)).Canonical := by
  grind [runCommit, commitSectors_memories, failCommit_memories, retireAll_memories, runMap_memories, writePages_memories,
    landCommit_canonical]

-- ------------------------------------------------------------ Regs

/-- A write to the window on the data RAM (Table 25-1). -/
@[simp] theorem regPut_canonical (t : Tenant) (a v : Nat) {s : State} (h : (memories s).Canonical) :
    (memories (regPut t a v s)).Canonical := by
  simp only [regPut]
  split
  · simp [h]
  split_ifs
  iterate 8 simp [h]
  · exact modCtx_canonical _ _ h fun _ hcode hdata => ⟨hcode, memPutAll_wf _ _ _ hdata⟩
  · exact h

@[simp] theorem writeRun_canonical (t : Tenant) (a : Nat) (l : List Nat) {s : State} (h : (memories s).Canonical) :
    (memories (writeRun t a l s)).Canonical := by
  induction l generalizing a s with
  | nil => exact h
  | cons v l ih => exact ih _ (regPut_canonical t a v h)

@[simp] theorem regWrite_canonical (c : Cmd) {s : State} (h : (memories s).Canonical) :
    (memories (regWrite c s)).Canonical := by
  simp only [regWrite]
  split_ifs <;> simp [h]

-- ------------------------------------------------------------ Ports

@[simp] theorem detach_canonical (p : Port) (reason : Byte) {s : State} (h : (memories s).Canonical) :
    (memories (detach p reason s)).Canonical := by
  simp only [detach]
  split_ifs <;> simp [h]

@[simp] theorem portReset_canonical (p : Port) {s : State} (h : (memories s).Canonical) :
    (memories (portReset p s)).Canonical := by
  simp [portReset, h]

-- ------------------------------------------------------------ Power

/-- A reset leaves the tenants' areas and clears the rest (Table 3-10). -/
@[simp] theorem clearFor_canonical (cause : BitVec 3) (warm : Bool) {s : State} (h : (memories s).Canonical) :
    (memories (clearFor cause warm s)).Canonical := by
  obtain ⟨hctxs, hbufs, hreadout, -⟩ := (memoriesCanonical_iff _).mp reset_memoriesCanonical
  obtain ⟨-, -, -, hareas⟩ := h
  exact ⟨hctxs, hbufs, hreadout, hareas⟩

/-- A write that power took in the middle is done again. -/
@[simp] theorem journalReplay_canonical {s : State} (h : (memories s).Canonical) : (memories (journalReplay s)).Canonical := by
  unfold journalReplay
  split
  · split
    · exact h
    · exact writeArea_canonical _ _ _ _ rfl (by simpa using h)
  · simpa using h

@[simp] theorem startWork_canonical (f : StartFinds) {s : State} (h : (memories s).Canonical) :
    (memories (startWork f s)).Canonical := by
  have slots := fun s => foldl_memories (fun s k => slotStart f k s) (List.finRange 48) s fun s k => slotStart_memories ..
  simp only [startWork]
  split
  · simpa using h
  · rw [ledgerStart_memories]
    split <;> simp [slots, h]

@[simp] theorem warmStart_canonical (cause : BitVec 3) (f : StartFinds) {s : State} (h : (memories s).Canonical) :
    (memories (warmStart cause f s)).Canonical := by
  simp [warmStart, h]

@[simp] theorem tamperIfLatched_canonical {s : State} (h : (memories s).Canonical) :
    (memories (tamperIfLatched s)).Canonical := by
  simp only [tamperIfLatched]
  split <;> simp [h]

@[simp] theorem landNow_canonical {s : State} (h : (memories s).Canonical) (c : Commit) :
    (memories (landNow s c)).Canonical := by
  simp [landNow, h]

@[simp] theorem emergencySet_canonical (vhu : Nat) {s : State} (h : (memories s).Canonical) :
    (memories (emergencySet vhu s).2).Canonical := by
  have landed := fun l {s} => foldl_canonical landNow l (s := s) fun s c h => runCommit_canonical c 0 h
  simp only [emergencySet]
  split
  · simpa using h
  · refine landed _ ?_
    rw [setStore_memories _ _ rfl]
    split
    · exact runCommit_canonical _ 0 (by simpa using h)
    · simpa using h

@[simp] theorem logCommitNow_canonical (vhu : Nat) {s : State} (h : (memories s).Canonical) :
    (memories (logCommitNow vhu s)).Canonical := by
  simp only [logCommitNow]
  split
  · exact foldl_canonical landNow _ (fun s c h => runCommit_canonical c 0 h) (by simpa using h)
  · simpa using h

@[simp] theorem limpEntry_canonical {s : State} (h : (memories s).Canonical) :
    (memories (limpEntry s)).Canonical := by
  simp only [limpEntry]
  split <;> simp [h]

@[simp] theorem flushQueue_canonical (vhu n : Nat) {s : State} (h : (memories s).Canonical) :
    (memories (flushQueue vhu n s)).Canonical := by
  induction n generalizing s with
  | zero => exact h
  | succ n ih =>
    unfold flushQueue
    split
    · exact h
    · refine ih ?_
      split <;> simp [h]

@[simp] theorem sleepCommits_canonical (vhu : Nat) {s : State} (h : (memories s).Canonical) :
    (memories (sleepCommits vhu s)).Canonical := by
  unfold sleepCommits
  dsimp only
  (repeat' split) <;> simp [h]

@[simp] theorem abortTenant_canonical (t : Tenant) {s : State} (h : (memories s).Canonical) :
    (memories (abortTenant t s)).Canonical := by
  grind [abortTenant, closeSession_memories, listenEnd_memories, endAcc_canonical, endProgram_canonical, invDone_canonical]

@[simp] theorem abortSend_canonical {s : State} (h : (memories s).Canonical) (e : Send) :
    (memories (abortSend s e)).Canonical := by
  simp only [abortSend]
  split <;> simp [h]

@[simp] theorem rfOff_canonical {s : State} (h : (memories s).Canonical) : (memories (rfOff s)).Canonical := by
  have sends := foldl_canonical abortSend s.link.sends (fun s e h => abortSend_canonical h e) h
  have tenants := forTenants_canonical abortTenant (fun t s h => abortTenant_canonical t h)
    (s := setLink (fun l => { l with step := .idle, ackDue := none, ackEnd := none }) (s.link.sends.foldl abortSend s))
    (by simpa using sends)
  simp only [rfOff, coexTrack_memories, rfWiresLow_memories, setRadio_memories, releaseAir_memories]
  refine closeTagSession_canonical 1 ?_
  rw [lanternRelease_memories]
  split
  · simpa using tenants
  · exact tenants

-- ------------------------------------------------------------ RegRows

@[simp] theorem regWriteRow_canonical (p : Nat → Bool) (c : Cmd) {s : State} (h : (memories s).Canonical) :
    (memories (regWriteRow p c s)).Canonical := by
  grind [regWriteRow, keelRun_canonical, regWrite_canonical]

@[simp] theorem regReadRow_canonical (p : Nat → Bool) (c : Cmd) {s : State} (h : (memories s).Canonical) :
    (memories (regReadRow p c s)).Canonical := by
  grind [regReadRow, regRead_memories, keelRun_canonical]

-- ------------------------------------------------------------ V1

@[simp] theorem v1End_canonical {s : State} (h : (memories s).Canonical) :
    (memories (v1End s)).Canonical := by
  grind [v1End, setInv_memories, invDone_canonical]

@[simp] theorem v1Ctrl_canonical (w : Byte) {s : State} (h : (memories s).Canonical) :
    (memories (v1Ctrl w s)).Canonical := by
  simp only [v1Ctrl]
  split_ifs <;> simp [h]

@[simp] theorem v1Put_canonical (a : Nat) (w : Byte) {s : State} (h : (memories s).Canonical) :
    (memories (v1Put a w s)).Canonical := by
  simp only [v1Put]
  split <;> simp [h]

@[simp] theorem v1Writes_canonical (a : Nat) (l : Bytes) {s : State} (h : (memories s).Canonical) :
    (memories (v1Writes a l s)).Canonical := by
  induction l generalizing a s with
  | nil => exact h
  | cons b l ih => exact ih _ (v1Put_canonical a b h)

end Sys2Proof.Machine
end

section
/-!
SUPPORT. Every command and happening has a next state, and its memories are canonical.
-/
namespace Sys2Proof.Machine

/-- An outcome of a step from s that is a next state, with canonical memories where s has them. -/
def NextCanonical (s : State) (o : Host.Outcome State Fault Refusal) : Prop :=
  ∃ t, o = .next t ∧ ((memories s).Canonical → (memories t).Canonical)

@[simp] theorem nextCanonical_next {s t : State} :
    NextCanonical s (.next t) ↔ ((memories s).Canonical → (memories t).Canonical) := by
  simp [NextCanonical]

theorem nextCanonical_keelRun {op : BitVec 16} {c : Cmd} {body : State → State} {s : State}
    (hbody : ∀ r, (memories r).Canonical → (memories (body r)).Canonical) : NextCanonical s (.next (keelRun op c body s)) :=
  nextCanonical_next.mpr (keelRun_canonical op c body hbody)

theorem nextCanonical_issue {x : Tenant} {word : BitVec 32} {body : State → State} {s : State}
    (hbody : ∀ r, (memories r).Canonical → (memories (body r)).Canonical) : NextCanonical s (.next (issue x word body s)) :=
  nextCanonical_next.mpr (issue_canonical x word body hbody)

-- where a key, random bytes or a channel are to be had

section Had
variable {s : State} (h : (memories s).Canonical)
include h

theorem drbgTake_canonical {n : Nat} {out : Bytes} {u : State} (hu : drbgTake n s = some (out, u)) : (memories u).Canonical :=
  drbgTake_memories _ _ _ hu ▸ h

theorem useKey_canonical {t : Tenant} {n : Nat} {ok : KeyClass → Bool} {key : Bytes} {u : State}
    (hu : useKey t n ok s = .ok (key, u)) : (memories u).Canonical :=
  useKey_memories _ _ _ _ _ hu ▸ h

theorem chargeKey_canonical {k : Fin 48} {n : Nat} {u : State} (hu : chargeKey k n s = some u) : (memories u).Canonical :=
  chargeKey_memories _ _ _ _ hu ▸ h

theorem chargeSession_canonical {k : Fin 48} {gone : Bool} {u : State} (hu : chargeSession k gone s = .ok u) :
    (memories u).Canonical :=
  chargeSession_memories _ _ _ _ hu ▸ h

theorem nextChannel_canonical {t : Tenant} {region f : Nat} {u : State} (hu : nextChannel t region s = .ok (f, u)) :
    (memories u).Canonical :=
  nextChannel_memories _ _ _ _ hu ▸ h

theorem exchangeHeard_heard {x : Tenant} {step : AccStep} {hz : Nat} {a : Option Acc} {u : State}
    (hu : exchangeHeard x step hz s = (a, u)) : (memories u).Canonical := by
  simpa [hu] using exchangeHeard_canonical x step hz h

theorem beaconKey_canonical {k : Fin 48} {v : Bytes} {f : Nat} {u : State} (hu : beaconKey k s = some (v, f, u)) :
    (memories u).Canonical :=
  beaconKey_memories _ _ _ hu ▸ h

theorem sendKey_canonical {t : Tenant} {key : Nat} {kv : Option (Fin 48 × Bytes × Nat)} {u : State}
    (hu : sendKey t key s = .ok (kv, u)) : (memories u).Canonical :=
  sendKey_memories _ _ _ _ hu ▸ h

end Had

theorem canonical_ite {c : Prop} [Decidable c] {s t : State} (hs : (memories s).Canonical) (ht : (memories t).Canonical) :
    (memories (if c then s else t)).Canonical := by
  split <;> assumption

theorem nextCanonical_ite {c : Prop} [Decidable c] {s : State} {a b : Host.Outcome State Fault Refusal}
    (ha : NextCanonical s a) (hb : NextCanonical s b) : NextCanonical s (if c then a else b) := by
  split <;> assumption

theorem foldl_memPutWord_wf (w : Nat) (l : List (Reg32 × Nat)) (m : Memory) (h : Memory.wf m = true) :
    Memory.wf (l.foldl (fun m p => memPutWord m (w + p.2) p.1) m) = true := by
  induction l generalizing m with
  | nil => exact h
  | cons p l ih => exact ih _ (memPutWord_wf _ _ _ h)

theorem rebind_memories (m : Nat) (s : State) : memories (rebind m s) = memories s := (rfl)

theorem execAirGrant_canonical (now : Tick) (s : State) : NextCanonical s (execAirGrant now s) := by
  simp only [execAirGrant]
  split <;> simp +contextual

theorem execBudgetWatchdog_canonical (x : Tenant) (s : State) : NextCanonical s (execBudgetWatchdog x s) := by
  unfold execBudgetWatchdog
  split <;> simp +contextual

theorem execSpIllegal_canonical (x : Tenant) (word : BitVec 32) (s : State) : NextCanonical s (execSpIllegal x word s) := by
  grind [nextCanonical_next, execSpIllegal, issue_canonical, spoolFault_canonical]

theorem execNoWaitAirDenied_canonical (x : Tenant) (now : Tick) (s : State) :
    NextCanonical s (execNoWaitAirDenied x now s) := by
  unfold execNoWaitAirDenied
  dsimp only
  (repeat' split) <;> simp +contextual

theorem execSpAdd_canonical (x : Tenant) (d a b : Fin 16) (s : State) : NextCanonical s (execSpAdd x d a b s) :=
  nextCanonical_issue fun r h => by simp [h]

theorem execSpSub_canonical (x : Tenant) (d a b : Fin 16) (s : State) : NextCanonical s (execSpSub x d a b s) :=
  nextCanonical_issue fun r h => by simp [h]

theorem execSpAnd_canonical (x : Tenant) (d a b : Fin 16) (s : State) : NextCanonical s (execSpAnd x d a b s) :=
  nextCanonical_issue fun r h => by simp [h]

theorem execSpOr_canonical (x : Tenant) (d a b : Fin 16) (s : State) : NextCanonical s (execSpOr x d a b s) :=
  nextCanonical_issue fun r h => by simp [h]

theorem execSpXor_canonical (x : Tenant) (d a b : Fin 16) (s : State) : NextCanonical s (execSpXor x d a b s) :=
  nextCanonical_issue fun r h => by simp [h]

theorem execSpShl_canonical (x : Tenant) (d a b : Fin 16) (s : State) : NextCanonical s (execSpShl x d a b s) :=
  nextCanonical_issue fun r h => by simp [h]

theorem execSpShr_canonical (x : Tenant) (d a b : Fin 16) (s : State) : NextCanonical s (execSpShr x d a b s) :=
  nextCanonical_issue fun r h => by simp [h]

theorem execSpAsr_canonical (x : Tenant) (d a b : Fin 16) (s : State) : NextCanonical s (execSpAsr x d a b s) :=
  nextCanonical_issue fun r h => by simp [h]

theorem execSpMul_canonical (x : Tenant) (d a b : Fin 16) (s : State) : NextCanonical s (execSpMul x d a b s) :=
  nextCanonical_issue fun r h => by simp [h]

theorem execSpCmp_canonical (x : Tenant) (a b : Fin 16) (s : State) : NextCanonical s (execSpCmp x a b s) :=
  nextCanonical_issue fun r h => by simp [h]

theorem execSpAddi_canonical (x : Tenant) (d a : Fin 16) (imm : BitVec 18) (s : State) :
    NextCanonical s (execSpAddi x d a imm s) :=
  nextCanonical_issue fun r h => by simp [h]

theorem execSpAndi_canonical (x : Tenant) (d a : Fin 16) (imm : BitVec 18) (s : State) :
    NextCanonical s (execSpAndi x d a imm s) :=
  nextCanonical_issue fun r h => by simp [h]

theorem execSpOri_canonical (x : Tenant) (d a : Fin 16) (imm : BitVec 18) (s : State) :
    NextCanonical s (execSpOri x d a imm s) :=
  nextCanonical_issue fun r h => by simp [h]

theorem execSpXori_canonical (x : Tenant) (d a : Fin 16) (imm : BitVec 18) (s : State) :
    NextCanonical s (execSpXori x d a imm s) :=
  nextCanonical_issue fun r h => by simp [h]

theorem execSpCmpi_canonical (x : Tenant) (a : Fin 16) (imm : BitVec 18) (s : State) : NextCanonical s (execSpCmpi x a imm s) :=
  nextCanonical_issue fun r h => by simp [h]

theorem execSpLui_canonical (x : Tenant) (d : Fin 16) (imm : BitVec 18) (s : State) : NextCanonical s (execSpLui x d imm s) :=
  nextCanonical_issue fun r h => by simp [h]

theorem execSpJ_canonical (x : Tenant) (cond : Fin 8) (target : BitVec 10) (s : State) :
    NextCanonical s (execSpJ x cond target s) :=
  nextCanonical_issue fun r h => by split <;> simp [h]

theorem execSpCall_canonical (x : Tenant) (cond : Fin 8) (target : BitVec 10) (s : State) :
    NextCanonical s (execSpCall x cond target s) :=
  nextCanonical_issue fun r h => by
    dsimp only
    split_ifs <;> simp [h]

theorem execSpRet_canonical (x : Tenant) (cond : Fin 8) (s : State) : NextCanonical s (execSpRet x cond s) :=
  nextCanonical_issue fun r h => by
    dsimp only
    (repeat' split) <;> simp [h]

theorem execSpJr_canonical (x : Tenant) (a : Fin 16) (s : State) : NextCanonical s (execSpJr x a s) :=
  nextCanonical_issue fun r h => by simp [h]

theorem execSpDjnz_canonical (x : Tenant) (d : Fin 16) (imm : BitVec 18) (s : State) : NextCanonical s (execSpDjnz x d imm s) :=
  nextCanonical_issue fun r h => by
    dsimp only
    split_ifs <;> simp [h]

theorem execSpWaitt_canonical (x : Tenant) (d a b : Fin 16) (off : BitVec 14) (s : State) :
    NextCanonical s (execSpWaitt x d a b off s) :=
  nextCanonical_issue fun r h => by simp [h]

theorem execSpWaitd_canonical (x : Tenant) (a : Fin 16) (imm : BitVec 18) (s : State) :
    NextCanonical s (execSpWaitd x a imm s) :=
  nextCanonical_issue fun r h => by
    dsimp only
    split <;> simp [h]

theorem execSpWaite_canonical (x : Tenant) (d a b : Fin 16) (src : BitVec 4) (s : State) :
    NextCanonical s (execSpWaite x d a b src s) :=
  nextCanonical_issue fun r h => by
    dsimp only
    split <;> simp [h]

theorem execSpGett_canonical (x : Tenant) (d a b : Fin 16) (part : BitVec 2) (s : State) :
    NextCanonical s (execSpGett x d a b part s) :=
  nextCanonical_issue fun r h => by split <;> simp [h]

theorem execSpLd_canonical (x : Tenant) (d a : Fin 16) (imm : BitVec 18) (s : State) : NextCanonical s (execSpLd x d a imm s) :=
  nextCanonical_issue fun r h => by
    dsimp only
    split <;> simp [h]

/-- ST writes a word of the data RAM. -/
theorem execSpSt_canonical (x : Tenant) (d a : Fin 16) (imm : BitVec 18) (s : State) : NextCanonical s (execSpSt x d a imm s) :=
  nextCanonical_issue fun r h => by
  dsimp only
  split
  · simp [h]
  · rw [retire_memories]
    exact modCtx_canonical _ _ h fun _ hcode hdata => ⟨hcode, memPutWord_wf _ _ _ hdata⟩

theorem execSpYield_canonical (x : Tenant) (d a b : Fin 16) (s : State) : NextCanonical s (execSpYield x d a b s) :=
  nextCanonical_issue fun r h => by simp [h]

theorem execSpHalt_canonical (x : Tenant) (d a b : Fin 16) (s : State) : NextCanonical s (execSpHalt x d a b s) :=
  nextCanonical_issue fun r h => by simp [h]

theorem execWaittRelease_canonical (x : Tenant) (now : Tick) (s : State) : NextCanonical s (execWaittRelease x now s) := by
  unfold execWaittRelease
  dsimp only
  (repeat' split) <;> simp +contextual

theorem execWaitdRelease_canonical (x : Tenant) (now : Tick) (s : State) : NextCanonical s (execWaitdRelease x now s) := by
  unfold execWaitdRelease
  dsimp only
  (repeat' split) <;> simp +contextual

theorem execWaiteRelease_canonical (x : Tenant) (now : Tick) (s : State) : NextCanonical s (execWaiteRelease x now s) := by
  unfold execWaiteRelease
  dsimp only
  (repeat' split) <;> simp +contextual

theorem execTmrRead_canonical (c : Cmd) (s : State) : NextCanonical s (execTmrRead c s) :=
  nextCanonical_keelRun fun r h => by split <;> simp [h]

theorem execTmrCmp_canonical (c : Cmd) (s : State) : NextCanonical s (execTmrCmp c s) :=
  nextCanonical_keelRun fun r h => by
    dsimp only
    (repeat' split) <;> simp [h]

theorem execTmrDc_canonical (c : Cmd) (s : State) : NextCanonical s (execTmrDc c s) :=
  nextCanonical_keelRun fun r h => by
    dsimp only
    (repeat' split) <;> simp [h]

theorem execTmrGo_canonical (c : Cmd) (s : State) : NextCanonical s (execTmrGo c s) :=
  nextCanonical_keelRun fun r h => by
    dsimp only
    split_ifs <;> simp [h]

theorem execTmrCap_canonical (c : Cmd) (s : State) : NextCanonical s (execTmrCap c s) :=
  nextCanonical_keelRun fun r h => by
    dsimp only
    (repeat' split) <;> simp [h]

theorem execTmrOut_canonical (c : Cmd) (s : State) : NextCanonical s (execTmrOut c s) :=
  nextCanonical_keelRun fun r h => by
    dsimp only
    (repeat' split) <;> simp [h]

theorem execCompareFire_canonical (k : Fin 12) (now : Tick) (s : State) : NextCanonical s (execCompareFire k now s) := by
  simp only [execCompareFire]
  split_ifs <;> simp +contextual

theorem execDcFire_canonical (n : Tenant) (now : Tick) (s : State) : NextCanonical s (execDcFire n now s) := by
  simp only [execDcFire]
  split <;> simp +contextual

theorem execCaptureEdge_canonical (n : Tenant) (rising : Bool) (now : Tick) (s : State) :
    NextCanonical s (execCaptureEdge n rising now s) := by
  simp only [execCaptureEdge]
  split_ifs <;> simp +contextual

theorem execToutPulseEnd_canonical (n : Tenant) (now : Tick) (s : State) : NextCanonical s (execToutPulseEnd n now s) := by
  simp [execToutPulseEnd]

theorem execSpTout_canonical (x : Tenant) (d : Fin 16) (act : Fin 5) (s : State) : NextCanonical s (execSpTout x d act s) :=
  nextCanonical_issue fun r h => by split <;> simp [h]

theorem execIntervalBoundary_canonical (now : Tick) (s : State) : NextCanonical s (execIntervalBoundary now s) := by
  simp only [execIntervalBoundary]
  split <;> simp +contextual

theorem execLedgerSealLanded_canonical (s : State) : NextCanonical s (execLedgerSealLanded s) := by
  unfold execLedgerSealLanded
  split <;> simp +contextual

theorem execLedgerConfig_canonical (c : Cmd) (s : State) : NextCanonical s (execLedgerConfig c s) :=
  nextCanonical_keelRun fun r h => by
    dsimp only
    split_ifs <;> simp [h]

theorem execLedgerOwner_canonical (c : Cmd) (s : State) : NextCanonical s (execLedgerOwner c s) := by
  grind [nextCanonical_next, execLedgerOwner, queueCommit_memories, refuse_memories, reply_memories, setLdg_memories,
    keelRun_canonical]

theorem execLedgerRead_canonical (c : Cmd) (s : State) : NextCanonical s (execLedgerRead c s) :=
  nextCanonical_keelRun fun r h => by
    dsimp only
    split_ifs <;> simp [h]

theorem execLedgerAck_canonical (c : Cmd) (s : State) : NextCanonical s (execLedgerAck c s) :=
  nextCanonical_keelRun fun r h => by
    dsimp only
    split_ifs <;> simp [h]

theorem execLedgerStatus_canonical (c : Cmd) (s : State) : NextCanonical s (execLedgerStatus c s) :=
  nextCanonical_keelRun fun r h => by split <;> simp [h]

theorem execClockSet_canonical (c : Cmd) (s : State) : NextCanonical s (execClockSet c s) :=
  nextCanonical_keelRun fun r h => by
    dsimp only
    (repeat' split) <;> simp [h]

theorem execCvuSet_canonical (c : Cmd) (s : State) : NextCanonical s (execCvuSet c s) := nextCanonical_keelRun fun r h => by
  dsimp only
  split_ifs <;> simp <;> exact h

theorem execCvuRun_canonical (c : Cmd) (s : State) : NextCanonical s (execCvuRun c s) :=
  nextCanonical_keelRun fun r h => by
    dsimp only
    split_ifs <;> simp [h]

/-- Mode 1 appends the value to the buffer. -/
theorem execSpCrc_canonical (x : Tenant) (d a b : Fin 16) (preset : Fin 5) (mode : Fin 3) (s : State) :
    NextCanonical s (execSpCrc x d a b preset mode s) :=
  nextCanonical_issue fun r h => by
  dsimp only
  split
  · simp [h]
  split
  · simp [h]
  split
  · simp [h]
  split
  · simp [h]
  · split
    · simp [h]
    · simpa using modBuf_canonical _ _ h fun _ => memPutAll_wf _ _ _
  · split <;> simp [h]

theorem execMbxBind_canonical (c : Cmd) (s : State) : NextCanonical s (execMbxBind c s) :=
  nextCanonical_keelRun fun r h => by
    dsimp only
    (repeat' split) <;> simp [h]

theorem execMbxLock_canonical (c : Cmd) (s : State) : NextCanonical s (execMbxLock c s) := nextCanonical_keelRun fun r h => by
  dsimp only
  split_ifs <;> simp <;> exact h

theorem execMbxWrite_canonical (c : Cmd) (s : State) : NextCanonical s (execMbxWrite c s) :=
  nextCanonical_keelRun fun r h => by
    dsimp only
    (repeat' split) <;> simp [h]

theorem execMbxRead_canonical (c : Cmd) (s : State) : NextCanonical s (execMbxRead c s) :=
  nextCanonical_keelRun fun r h => by
    dsimp only
    (repeat' split) <;> simp [h]

theorem execSemTake_canonical (c : Cmd) (s : State) : NextCanonical s (execSemTake c s) :=
  nextCanonical_keelRun fun r h => by
    dsimp only
    (repeat' split) <;> simp [h]

theorem execSemGive_canonical (c : Cmd) (s : State) : NextCanonical s (execSemGive c s) :=
  nextCanonical_keelRun fun r h => by
    dsimp only
    (repeat' split) <;> simp [h]

theorem execSpPost_canonical (x : Tenant) (d a b : Fin 16) (n : Fin 9) (hand : Bool) (s : State) :
    NextCanonical s (execSpPost x d a b n hand s) :=
  nextCanonical_issue fun r h => by
    dsimp only
    (repeat' split) <;> simp [h]

/-- MREAD writes the words of a message to the data RAM. -/
theorem execSpMread_canonical (x : Tenant) (d a b : Fin 16) (s : State) : NextCanonical s (execSpMread x d a b s) :=
  nextCanonical_issue fun r h => by
  dsimp only
  split
  · simp [h]
  split
  · simp [h]
  split
  · simp [h]
  rw [retire_memories]
  refine modCtx_canonical _ _ ?dropped fun k hcode _ => ?data
  case dropped => split <;> simp [h]
  case data =>
    obtain ⟨hctxs, -⟩ := (memoriesCanonical_iff r).mpr h
    simp only [wr_code, wr_data]
    exact ⟨hcode, foldl_memPutWord_wf _ _ _ (hctxs x).2⟩

theorem execKeyDerive_canonical (c : Cmd) (s : State) :
    NextCanonical s (execKeyDerive c s) := nextCanonical_keelRun fun r h => by
  dsimp only
  split
  · simp [h]
  split
  · simp [h]
  · simp [h]
  split
  · split <;> simp [h]
  split
  · simp [h]
  · simp [h]
  split
  · simp [h]
  · next u hu => simp [chargeKey_canonical h hu]

theorem execKeyUnwrap_canonical (c : Cmd) (s : State) :
    NextCanonical s (execKeyUnwrap c s) := nextCanonical_keelRun fun r h => by
  refine canonical_ite (by simp [h]) ?_
  split
  · simp [h]
  · simp [h]
  refine canonical_ite ?root ?parent
  case root =>
    split
    · simp [h]
    · dsimp only
      split <;> simp [h]
  case parent =>
    split
    · simp [h]
    · simp [h]
    split
    · next hu =>
      have hcharged := chargeKey_canonical h hu
      dsimp only
      refine (?_ : Memories.Canonical (memories (match kwUnwrap _ _ with | none => _ | some v => _)))
      split <;> simp [hcharged]
    · simp [h]
    · simp [h]

theorem execKeyErase_canonical (c : Cmd) (s : State) : NextCanonical s (execKeyErase c s) :=
  nextCanonical_keelRun fun r h => by
    dsimp only
    (repeat' split) <;> simp [h]

theorem execKeyInvalidate_canonical (c : Cmd) (s : State) : NextCanonical s (execKeyInvalidate c s) :=
  nextCanonical_keelRun fun r h => by
    dsimp only
    (repeat' split) <;> simp [h]

theorem execKeyInfo_canonical (c : Cmd) (s : State) : NextCanonical s (execKeyInfo c s) :=
  nextCanonical_keelRun fun r h => by
    dsimp only
    (repeat' split) <;> simp [h]

theorem execKeyTamper_canonical (c : Cmd) (pinHigh : Bool) (s : State) : NextCanonical s (execKeyTamper c pinHigh s) :=
  nextCanonical_keelRun fun r h => by
    dsimp only
    split_ifs <;> simp [h]

theorem execTamperAssertion_canonical (now : Tick) (s : State) : NextCanonical s (execTamperAssertion now s) := by
  unfold execTamperAssertion
  dsimp only
  (repeat' split) <;> simp +contextual

theorem execRngGet_canonical (c : Cmd) (s : State) : NextCanonical s (execRngGet c s) := nextCanonical_keelRun fun r h => by
  dsimp only
  split
  · simp [h]
  split
  · simp [h]
  · next hu => simpa using drbgTake_canonical (by simpa using h) hu

theorem execCryptoAes_canonical (c : Cmd) (s : State) :
    NextCanonical s (execCryptoAes c s) := nextCanonical_keelRun fun r h => by
  dsimp only
  split
  · simp [h]
  split
  · simp [h]
  · next hu => simpa using useKey_canonical h hu

theorem execCryptoCcm_canonical (c : Cmd) (s : State) :
    NextCanonical s (execCryptoCcm c s) := nextCanonical_keelRun fun r h => by
  dsimp only
  split
  · simp [h]
  split
  · simp [h]
  next hu =>
  have hkeyed := useKey_canonical h hu
  split
  · simp [hkeyed]
  · split <;> simp [hkeyed]

theorem execCryptoCmac_canonical (c : Cmd) (s : State) :
    NextCanonical s (execCryptoCmac c s) := nextCanonical_keelRun fun r h => by
  refine canonical_ite (by simp [h]) ?_
  split
  · simp [h]
  next hu =>
  have hkeyed := useKey_canonical h hu
  exact canonical_ite (by simp [hkeyed]) (canonical_ite (by simp [hkeyed]) (by simp [hkeyed]))

theorem execCryptoReset_canonical (c : Cmd) (s : State) : NextCanonical s (execCryptoReset c s) :=
  nextCanonical_keelRun fun r h => by
    dsimp only
    (repeat' split) <;> simp [h]

theorem execDrbgReseed_canonical (passed : Bool) (s : State) : NextCanonical s (execDrbgReseed passed s) := by
  simp only [execDrbgReseed]
  split_ifs <;> simp +contextual

theorem execEntropyRetry_canonical (passed : Bool) (s : State) : NextCanonical s (execEntropyRetry passed s) := by
  simp only [execEntropyRetry]
  split_ifs <;> simp +contextual

theorem execBlockReply_canonical (block : Fin 4) (x : Tenant) (epoch : BitVec 16) (s : State) :
    NextCanonical s (execBlockReply block x epoch s) := by
  unfold execBlockReply
  dsimp only
  (repeat' split) <;> simp +contextual

theorem execSpBufAlloc_canonical (x : Tenant) (d : Fin 16) (s : State) : NextCanonical s (execSpBufAlloc x d s) :=
  nextCanonical_issue fun r h => by split <;> simp [h]

theorem execSpBufFree_canonical (x : Tenant) (d a : Fin 16) (s : State) : NextCanonical s (execSpBufFree x d a s) :=
  nextCanonical_issue fun r h => by
    refine onBuf_canonical _ _ _ (fun b r h => ?_) h
    simp [h]

theorem execSpBufRdw_canonical (x : Tenant) (d a b : Fin 16) (s : State) : NextCanonical s (execSpBufRdw x d a b s) :=
  nextCanonical_issue fun r h => by
    refine onBuf_canonical _ _ _ (fun b r h => ?_) h
    dsimp only
    split <;> simp [h]

/-- BUF WRW writes a word to a buffer. -/
theorem execSpBufWrw_canonical (x : Tenant) (d a b : Fin 16) (s : State) : NextCanonical s (execSpBufWrw x d a b s) :=
  nextCanonical_issue fun r h => by
  refine onBuf_canonical _ _ _ (fun b r h => ?_) h
  dsimp only
  split
  · simp [h]
  · simpa using modBuf_canonical _ _ h fun _ => memPutAll_wf _ _ _

theorem execSpBufLen_canonical (x : Tenant) (d a : Fin 16) (s : State) : NextCanonical s (execSpBufLen x d a s) :=
  nextCanonical_issue fun r h => by
    refine onBuf_canonical _ _ _ (fun b r h => ?_) h
    simp [h]

theorem execSpBufSetlen_canonical (x : Tenant) (d a b : Fin 16) (s : State) : NextCanonical s (execSpBufSetlen x d a b s) :=
  nextCanonical_issue fun r h => by
    refine onBuf_canonical _ _ _ (fun b r h => ?_) h
    dsimp only
    split <;> simp [h]

theorem execSpKsel_canonical (x : Tenant) (d a b : Fin 16) (s : State) : NextCanonical s (execSpKsel x d a b s) :=
  nextCanonical_issue fun r h => by simp [h]

theorem execSpAesb_canonical (x : Tenant) (d a b : Fin 16) (decrypt : Bool) (s : State) :
    NextCanonical s (execSpAesb x d a b decrypt s) :=
  nextCanonical_issue fun r h => by
    refine onBuf_canonical _ _ _ (fun b r h => ?_) h
    dsimp only
    split_ifs <;> simp [h]

theorem execSpRng_canonical (x : Tenant) (d a b : Fin 16) (s : State) : NextCanonical s (execSpRng x d a b s) :=
  nextCanonical_issue fun r h => by split <;> simp [h]

theorem execKselComplete_canonical (x : Tenant) (now : Tick) (s : State) : NextCanonical s (execKselComplete x now s) := by
  unfold execKselComplete
  dsimp only
  (repeat' split) <;> simp +contextual

/-- AESB writes the block back to its buffer. -/
theorem execAesbComplete_canonical (x : Tenant) (now : Tick) (s : State) : NextCanonical s (execAesbComplete x now s) := by
  unfold execAesbComplete
  dsimp only
  split
  · simp
  split
  · split
    · simp
    split
    · simp
    · next hu =>
      simp only [nextCanonical_next]
      rw [endWait_memories _ _ _ _ (by simp)]
      exact fun h => modBuf_canonical _ _ (useKey_canonical (by simpa using h) hu) fun _ => memPutAll_wf _ _ _
  · simp

theorem execRngComplete_canonical (x : Tenant) (now : Tick) (s : State) : NextCanonical s (execRngComplete x now s) := by
  unfold execRngComplete
  dsimp only
  split
  · simp
  split
  · next hu =>
    simp only [nextCanonical_next]
    rw [endWait_memories _ _ _ _ (by simp)]
    intro h
    split at hu
    · cases hu
      simpa using h
    · exact drbgTake_canonical (by simpa using h) hu
  · simp

theorem execSpEvt_canonical (x : Tenant) (d a : Fin 16) (kind : Fin 3) (s : State) : NextCanonical s (execSpEvt x d a kind s) :=
  nextCanonical_issue fun r h => by
  dsimp only
  split
  · simp [h]
  · refine onBuf_canonical _ _ _ (fun b r h => ?_) h
    split <;> simp [h]
  · refine onBuf_canonical _ _ _ (fun b r h => ?_) h
    split <;> simp [h]

theorem execRoundEnd_canonical (x : Tenant) (now : Tick) (s : State) : NextCanonical s (execRoundEnd x now s) := by
  unfold execRoundEnd
  dsimp only
  (repeat' split) <;> simp +contextual

theorem execInventoryDurExpiry_canonical (x : Tenant) (now : Tick) (s : State) :
    NextCanonical s (execInventoryDurExpiry x now s) := by
  unfold execInventoryDurExpiry
  dsimp only
  (repeat' split) <;> simp +contextual

theorem execFccBudgetWaitEnd_canonical (x : Tenant) (now : Tick) (s : State) :
    NextCanonical s (execFccBudgetWaitEnd x now s) := by
  simp [execFccBudgetWaitEnd]

theorem execEtsiReturnWaitEnd_canonical (x : Tenant) (now : Tick) (s : State) :
    NextCanonical s (execEtsiReturnWaitEnd x now s) := by
  simp [execEtsiReturnWaitEnd]

theorem execSpHop_canonical (x : Tenant) (d a : Fin 16) (noWait : Bool) (s : State) :
    NextCanonical s (execSpHop x d a noWait s) :=
  nextCanonical_issue fun r h => by
    refine airIssue_canonical _ _ _ _ _ _ (fun r h => ?_) h
    dsimp only
    split_ifs <;> simp [h]

theorem execSpPwr_canonical (x : Tenant) (d a : Fin 16) (noWait : Bool) (s : State) :
    NextCanonical s (execSpPwr x d a noWait s) :=
  nextCanonical_issue fun r h => by
    refine airIssue_canonical _ _ _ _ _ _ (fun r h => airFirst_canonical _ _ _ _ _ (fun r h => ?_) h) h
    dsimp only
    split <;> simp [h]

theorem execSpAsel_canonical (x : Tenant) (d a : Fin 16) (noWait : Bool) (s : State) :
    NextCanonical s (execSpAsel x d a noWait s) :=
  nextCanonical_issue fun r h => by
  refine airIssue_canonical _ _ _ _ _ _ (fun r h => airFirst_canonical _ _ _ _ _ (fun r h => ?_) h) h
  split <;> simp [h]

theorem execSpTxcw_canonical (x : Tenant) (d : Fin 16) (on noWait : Bool) (s : State) :
    NextCanonical s (execSpTxcw x d on noWait s) :=
  nextCanonical_issue fun r h => by
  refine airIssue_canonical _ _ _ _ _ _ (fun r h => canonical_ite ?on ?off) h
  case on => split_ifs <;> simp [h]
  case off =>
    refine airFirst_canonical _ _ _ _ _ (fun r h => ?_) h
    split <;> simp [h]

theorem execSpTxsym_canonical (x : Tenant) (d a b : Fin 16) (src : Fin 3) (pre qry noWait : Bool) (s : State) :
    NextCanonical s (execSpTxsym x d a b src pre qry noWait s) :=
  nextCanonical_issue fun r h => by
  dsimp only
  split
  · simp [h]
  refine airIssue_canonical _ _ _ _ _ _ (fun r h => airFirst_canonical _ _ _ _ _ (fun r h => ?_) h) h
  split_ifs <;> simp [h]

theorem execSpRxwin_canonical (x : Tenant) (d a b : Fin 16) (count : BitVec 10) (pclen crc noWait : Bool) (s : State) :
    NextCanonical s (execSpRxwin x d a b count pclen crc noWait s) :=
  nextCanonical_issue fun r h => by
  refine canonical_ite (by simp [h]) (onBuf_canonical _ _ _ (fun b r h => ?_) h)
  refine airIssue_canonical _ _ _ _ _ _ (fun r h => ?_) h
  dsimp only
  split_ifs <;> simp [h]

theorem execSpRssi_canonical (x : Tenant) (d : Fin 16) (noWait : Bool) (s : State) :
    NextCanonical s (execSpRssi x d noWait s) :=
  nextCanonical_issue fun r h => by
    refine airIssue_canonical _ _ _ _ _ _ (fun r h => airFirst_canonical _ _ _ _ _ (fun r h => ?_) h) h
    simp [h]

theorem execSpSniff_canonical (x : Tenant) (d : Fin 16) (noWait : Bool) (s : State) :
    NextCanonical s (execSpSniff x d noWait s) :=
  nextCanonical_issue fun r h => by
    refine airIssue_canonical _ _ _ _ _ _ (fun r h => ?_) h
    dsimp only
    split_ifs <;> simp [h]

theorem execSpRfoff_canonical (x : Tenant) (d : Fin 16) (noWait : Bool) (s : State) :
    NextCanonical s (execSpRfoff x d noWait s) :=
  nextCanonical_issue fun r h => by
    refine airIssue_canonical _ _ _ _ _ _ (fun r h => airFirst_canonical _ _ _ _ _ (fun r h => ?_) h) h
    simp [h]

theorem execSpLch_canonical (x : Tenant) (d a : Fin 16) (txi noWait : Bool) (s : State) :
    NextCanonical s (execSpLch x d a txi noWait s) :=
  nextCanonical_issue fun r h => by
    refine airIssue_canonical _ _ _ _ _ _ (fun r h => ?_) h
    dsimp only
    split <;> simp [h]

theorem execSpLtx_canonical (x : Tenant) (d a : Fin 16) (sf : Fin 5) (smode ack fcs noWait : Bool) (s : State) :
    NextCanonical s (execSpLtx x d a sf smode ack fcs noWait s) :=
  nextCanonical_issue fun r h => by
  refine canonical_ite (by simp [h]) (onBuf_canonical _ _ _ (fun b r h => ?_) h)
  refine airIssue_canonical _ _ _ _ _ _ (fun r h => ?_) h
  dsimp only
  split_ifs <;> simp [h]

theorem execSpLrx_canonical (x : Tenant) (d a b : Fin 16) (lanes : BitVec 6) (noWait : Bool) (s : State) :
    NextCanonical s (execSpLrx x d a b lanes noWait s) :=
  nextCanonical_issue fun r h => by
  refine onBuf_canonical _ _ _ (fun b r h => ?_) h
  refine airIssue_canonical _ _ _ _ _ _ (fun r h => ?_) h
  dsimp only
  split_ifs <;> simp [h]

theorem execSpLcca_canonical (x : Tenant) (d : Fin 16) (txi noWait : Bool) (s : State) :
    NextCanonical s (execSpLcca x d txi noWait s) :=
  nextCanonical_issue fun r h => by
  refine airIssue_canonical _ _ _ _ _ _ (fun r h => ?_) h
  split_ifs <;> simp [h]

theorem execSpLoff_canonical (x : Tenant) (d : Fin 16) (noWait : Bool) (s : State) :
    NextCanonical s (execSpLoff x d noWait s) :=
  nextCanonical_issue fun r h => by
    refine airIssue_canonical _ _ _ _ _ _ (fun r h => airFirst_canonical _ _ _ _ _ (fun r h => ?_) h) h
    simp [h]

theorem execHopComplete_canonical (x : Tenant) (now : Tick) (cal : Cal) (s : State) :
    NextCanonical s (execHopComplete x now cal s) := by
  unfold execHopComplete
  dsimp only
  (repeat' split) <;> simp +contextual

theorem execTxcwComplete_canonical (x : Tenant) (now : Tick) (pafb : Int) (pacur : Nat) (s : State) :
    NextCanonical s (execTxcwComplete x now pafb pacur s) := by
  unfold execTxcwComplete
  dsimp only
  (repeat' split) <;> simp +contextual

theorem execTxsymComplete_canonical (x : Tenant) (now : Tick) (s : State) : NextCanonical s (execTxsymComplete x now s) := by
  unfold execTxsymComplete
  dsimp only
  (repeat' split) <;> simp +contextual

theorem execRxwinComplete_canonical (x : Tenant) (now : Tick) (reply : Option Reply) (s : State) :
    NextCanonical s (execRxwinComplete x now reply s) := by
  unfold execRxwinComplete
  dsimp only
  (repeat' split) <;> simp +contextual

theorem execSniffComplete_canonical (x : Option Tenant) (now : Tick) (g : Gamma) (s : State) :
    NextCanonical s (execSniffComplete x now g s) := by
  unfold execSniffComplete
  dsimp only
  (repeat' split) <;> simp +contextual

theorem execRfoffComplete_canonical (x : Tenant) (now : Tick) (s : State) : NextCanonical s (execRfoffComplete x now s) := by
  unfold execRfoffComplete
  dsimp only
  (repeat' split) <;> simp +contextual

theorem execLchComplete_canonical (x : Tenant) (now : Tick) (cal : Cal) (s : State) :
    NextCanonical s (execLchComplete x now cal s) := by
  unfold execLchComplete
  dsimp only
  (repeat' split) <;> simp +contextual

theorem execLtxComplete_canonical (x : Tenant) (now : Tick) (s : State) : NextCanonical s (execLtxComplete x now s) := by
  unfold execLtxComplete
  dsimp only
  (repeat' split) <;> simp +contextual

/-- The frame's bytes go into the buffer. -/
theorem execLrxComplete_canonical (x : Tenant) (now : Tick) (frame : Option RxFrame) (s : State) :
    NextCanonical s (execLrxComplete x now frame s) := by
  unfold execLrxComplete
  dsimp only
  split
  · simp
  split
  · simp +contextual
  split
  · split <;> simp +contextual
  split
  · split
    · simp +contextual
    · refine nextCanonical_next.mpr fun h => stopIfDue_canonical _ ?_
      rw [endWait_memories _ _ _ _ (by simp)]
      split
      · exact modBuf_canonical _ _ (by simpa using h) fun _ => memPutAll_wf _ _ _
      · simpa using h
  · simp

theorem execLccaComplete_canonical (x : Tenant) (now : Tick) (dbm : Int) (s : State) :
    NextCanonical s (execLccaComplete x now dbm s) := by
  unfold execLccaComplete
  dsimp only
  (repeat' split) <;> simp +contextual

theorem execLoffComplete_canonical (x : Tenant) (now : Tick) (s : State) : NextCanonical s (execLoffComplete x now s) := by
  unfold execLoffComplete
  dsimp only
  (repeat' split) <;> simp +contextual

theorem execSurveySample_canonical (now : Tick) (smp : Sample) (s : State) : NextCanonical s (execSurveySample now smp s) := by
  simp only [execSurveySample]
  split <;> simp +contextual

theorem execTelemetrySnapshot_canonical (now : Tick) (smp : Sample) (s : State) :
    NextCanonical s (execTelemetrySnapshot now smp s) := by
  have told := fun code d s => forTenants_memories (fun t s => if s.svy.subs[t] = 0 then s else raise t code d s) s
    fun t s => by split <;> simp
  simp only [execTelemetrySnapshot]
  split
  · rw [nextCanonical_next, told]
    simp
  · simp

theorem execMeasSnapshot_canonical (c : Cmd) (smp : Sample) (s : State) : NextCanonical s (execMeasSnapshot c smp s) :=
  nextCanonical_keelRun fun r h => by split <;> simp [h]

theorem execMeasSubscribe_canonical (c : Cmd) (s : State) : NextCanonical s (execMeasSubscribe c s) :=
  nextCanonical_keelRun fun r h => by
    dsimp only
    split <;> simp [h]

theorem execMeasPartners_canonical (c : Cmd) (s : State) : NextCanonical s (execMeasPartners c s) :=
  nextCanonical_keelRun fun r h => by split <;> simp [h]

theorem execSweepPointDone_canonical (now : Tick) (g : Option Gamma) (s : State) :
    NextCanonical s (execSweepPointDone now g s) := by
  unfold execSweepPointDone
  dsimp only
  (repeat' split) <;> simp +contextual

theorem execSweepComplete_canonical (now : Tick) (s : State) : NextCanonical s (execSweepComplete now s) := by
  unfold execSweepComplete
  dsimp only
  (repeat' split) <;> simp +contextual

theorem execSweepTimeout_canonical (now : Tick) (s : State) : NextCanonical s (execSweepTimeout now s) := by
  unfold execSweepTimeout
  dsimp only
  (repeat' split) <;> simp +contextual

theorem execScheduledSweep_canonical (now : Tick) (s : State) : NextCanonical s (execScheduledSweep now s) := by
  unfold execScheduledSweep
  dsimp only
  (repeat' split) <;> simp +contextual

theorem execMeasSweep_canonical (c : Cmd) (s : State) : NextCanonical s (execMeasSweep c s) := by
  grind [nextCanonical_next, execMeasSweep, refuse_memories, reply_memories, sweepBegin_memories, keelRun_canonical]

theorem execRdrInventory_canonical (c : Cmd) (s : State) : NextCanonical s (execRdrInventory c s) :=
  nextCanonical_keelRun fun r h => by
    dsimp only
    (repeat' split) <;> simp [h]

theorem execRdrStop_canonical (c : Cmd) (s : State) : NextCanonical s (execRdrStop c s) := by
  grind [nextCanonical_next, execRdrStop, refuse_memories, setInv_memories, invDone_canonical, keelRun_canonical]

theorem execRdrAccess_canonical (c : Cmd) (s : State) : NextCanonical s (execRdrAccess c s) :=
  nextCanonical_keelRun fun r h => by
    dsimp only
    (repeat' split) <;> simp [h]

theorem execRdrSniff_canonical (c : Cmd) (s : State) : NextCanonical s (execRdrSniff c s) :=
  nextCanonical_keelRun fun r h => by
    dsimp only
    (repeat' split) <;> simp [h]

theorem execRdrBaseline_canonical (c : Cmd) (bursts : List Gamma) (s : State) : NextCanonical s (execRdrBaseline c bursts s) :=
  nextCanonical_keelRun fun r h => by
    dsimp only
    (repeat' split) <;> simp [h]

theorem execRdrReset_canonical (c : Cmd) (s : State) : NextCanonical s (execRdrReset c s) :=
  nextCanonical_keelRun fun r h => by
    dsimp only
    (repeat' split) <;> simp [h]

theorem execSniffBurstDue_canonical (now : Tick) (s : State) : NextCanonical s (execSniffBurstDue now s) := by
  unfold execSniffBurstDue
  dsimp only
  (repeat' split) <;> simp +contextual

theorem execPaIlimTrip_canonical (now : Tick) (s : State) : NextCanonical s (execPaIlimTrip now s) := by
  simp only [execPaIlimTrip]
  split <;> simp +contextual

theorem execCompensationRecompute_canonical (smp : Sample) (s : State) : NextCanonical s (execCompensationRecompute smp s) := by
  unfold execCompensationRecompute
  split <;> simp +contextual

theorem execLinkCompensation_canonical (smp : Sample) (s : State) : NextCanonical s (execLinkCompensation smp s) := by
  unfold execLinkCompensation
  split <;> simp +contextual

theorem execCancellerConverged_canonical (tapL : Bool) (jammerDbm : Int) (suppHalfDb : BitVec 8) (s : State) :
    NextCanonical s (execCancellerConverged tapL jammerDbm suppHalfDb s) := by
  unfold execCancellerConverged
  dsimp only
  (repeat' split) <;> simp +contextual

theorem execTapLSaturation_canonical (s : State) : NextCanonical s (execTapLSaturation s) := by
  unfold execTapLSaturation
  split <;> simp +contextual

theorem execRxGainStep_canonical (now : Tick) (levelDbm : Int) (s : State) :
    NextCanonical s (execRxGainStep now levelDbm s) := by
  simp only [execRxGainStep]
  split_ifs <;> simp +contextual

theorem execAdcClip_canonical (now : Tick) (s : State) : NextCanonical s (execAdcClip now s) := by
  simp only [execAdcClip]
  split <;> simp +contextual

theorem execTagEnable_canonical (c : Cmd) (s : State) : NextCanonical s (execTagEnable c s) :=
  nextCanonical_keelRun fun r h => by
    dsimp only
    (repeat' split) <;> simp [h]

theorem execTagDisable_canonical (c : Cmd) (s : State) : NextCanonical s (execTagDisable c s) := by
  grind [nextCanonical_next, execTagDisable, refuse_memories, reply_memories, keelRun_canonical, tagOff_canonical]

/-- TAG.PUBLISH writes the readout area, unless a session holds the write back. -/
theorem execTagPublish_canonical (c : Cmd) (s : State) : NextCanonical s (execTagPublish c s) :=
  nextCanonical_keelRun fun r h => by
  dsimp only
  split_ifs
  · simp [h]
  · simp [h]
  · simp [h]
  rw [reply_memories]
  refine setTag_canonical _ h fun hreadout => ?_
  split
  · exact hreadout
  · exact memPutAll_wf _ _ _ hreadout

theorem execFieldQualified_canonical (now : Tick) (levelDbm : BitVec 8) (s : State) :
    NextCanonical s (execFieldQualified now levelDbm s) := by
  simp only [execFieldQualified]
  split_ifs <;> simp +contextual

theorem execFieldDrop_canonical (now : Tick) (s : State) : NextCanonical s (execFieldDrop now s) := by
  simp only [execFieldDrop]
  split_ifs <;> simp +contextual

theorem execTagSelect_canonical (target action : BitVec 3) (bank : BitVec 2) (ptr : Nat) (mask : List Bool) (s : State) :
    NextCanonical s (execTagSelect target action bank ptr mask s) := by
  unfold execTagSelect
  dsimp only
  (repeat' split) <;> simp +contextual

theorem execTagQuery_canonical (sel sess : BitVec 2) (targetB : Bool) (dr : Bool) (m : BitVec 2) (trext : Bool)
    (trcal : Nat) (s : State) :
    NextCanonical s (execTagQuery sel sess targetB dr m trext trcal s) := by
  simp only [execTagQuery]
  split_ifs
  · exact nextCanonical_next.mpr id
  · exact nextCanonical_next.mpr id

theorem execTagAck_canonical (rn16 : BitVec 16) (s : State) : NextCanonical s (execTagAck rn16 s) := by
  simp only [execTagAck]
  split_ifs
  · exact nextCanonical_next.mpr id
  · exact nextCanonical_next.mpr id

theorem execTagRead_canonical (handle : BitVec 16) (bank : BitVec 2) (ptr : Nat) (count : Nat) (s : State) :
    NextCanonical s (execTagRead handle bank ptr count s) := by
  simp only [execTagRead]
  split_ifs <;> simp +contextual

theorem execFz1Received_canonical (handle : BitVec 16) (msg : Bytes) (now : Tick) (s : State) :
    NextCanonical s (execFz1Received handle msg now s) := by
  simp only [execFz1Received]
  split
  · simp
  split
  · simp +contextual
  split
  · simp +contextual
  split
  · simp +contextual
  next hu =>
  have hclosed := fun h => closeTagSession_canonical 0 (chargeSession_canonical h hu)
  split
  · next hv =>
    refine nextCanonical_next.mpr fun h => tagAnswer_canonical _ ?_
    simpa using drbgTake_canonical (by simpa using hclosed (by simpa using h)) hv
  · exact nextCanonical_next.mpr fun h => by simpa using hclosed (by simpa using h)

theorem execFz3Received_canonical (handle : BitVec 16) (msg : Bytes) (now : Tick) (s : State) :
    NextCanonical s (execFz3Received handle msg now s) := by
  grind [nextCanonical_next, execFz3Received, advanceTo_memories, chargeSession_memories, logAuthFail_memories, raise_memories,
    setTag_memories, tagAnswer_canonical, tagErr_canonical]

theorem execTam1Received_canonical (handle : BitVec 16) (msg : Bytes) (s : State) :
    NextCanonical s (execTam1Received handle msg s) := by
  simp only [execTam1Received]
  split
  · simp
  split
  · simp
  split
  · next hu =>
    split
    · next hv =>
      exact nextCanonical_next.mpr fun h => by simpa using chargeKey_canonical (drbgTake_canonical h hu) hv
    · exact nextCanonical_next.mpr fun h => drbgTake_canonical h hu
  · simp

theorem execSessionMessage_canonical (handle : BitVec 16) (msg : Bytes) (s : State) :
    NextCanonical s (execSessionMessage handle msg s) := by
  simp only [execSessionMessage]
  split
  · simp
  split
  · split
    · simp +contextual
    split
    · simp +contextual
    split
    · simp +contextual
    split
    · simp +contextual
    next u hu =>
    have hpublished : (memories s).Canonical →
        (memories (publishNow (setTag (fun g => { g with ctrRx := fld msg 1 4 }) u))).Canonical :=
      fun h => publishNow_canonical (by simpa using chargeSession_canonical h hu)
    generalize publishNow (setTag (fun g => { g with ctrRx := fld msg 1 4 }) u) = v at hpublished ⊢
    have counted := fun part h => tagCounted_canonical (s := setTag (fun g => { g with part := part }) v)
      (by simpa using hpublished h)
    split
    · exact nextCanonical_next.mpr fun h => tagSend_canonical _ _ (counted _ h)
    split
    · exact nextCanonical_next.mpr fun h => counted _ h
    split <;> exact nextCanonical_next.mpr fun h => by simp [counted [] h]
  · simp +contextual

theorem execReadoutRead_canonical (off : BitVec 16) (len : BitVec 8) (s : State) :
    NextCanonical s (execReadoutRead off len s) := by
  simp only [execReadoutRead]
  split_ifs <;> simp +contextual

theorem execReadoutInfo_canonical (now : Tick) (s : State) : NextCanonical s (execReadoutInfo now s) := by
  simp only [execReadoutInfo]
  split <;> simp +contextual

theorem execReadoutClose_canonical (s : State) : NextCanonical s (execReadoutClose s) := by
  unfold execReadoutClose
  split <;> simp +contextual

theorem execAuthBackoffExpiry_canonical (now : Tick) (s : State) : NextCanonical s (execAuthBackoffExpiry now s) := by
  simp only [execAuthBackoffExpiry]
  split <;> simp +contextual

theorem execSecTam1_canonical (c : Cmd) (s : State) : NextCanonical s (execSecTam1 c s) :=
  nextCanonical_keelRun fun r h => by
    dsimp only
    split <;> simp [h]

theorem execSecFarzOpen_canonical (c : Cmd) (s : State) : NextCanonical s (execSecFarzOpen c s) :=
  nextCanonical_keelRun fun r h => by
    dsimp only
    split <;> simp [h]

theorem execSecFarzSend_canonical (c : Cmd) (s : State) : NextCanonical s (execSecFarzSend c s) :=
  nextCanonical_keelRun fun r h => by
    dsimp only
    split_ifs <;> simp [h]

theorem execSecClose_canonical (c : Cmd) (s : State) : NextCanonical s (execSecClose c s) :=
  nextCanonical_keelRun fun r h => by split <;> simp [h]

theorem execFz2Reply_canonical (x : Tenant) (msg : Bytes) (hz : Nat) (now : Tick) (s : State) :
    NextCanonical s (execFz2Reply x msg hz now s) := by
  simp only [execFz2Reply]
  split
  · next hu => exact nextCanonical_next.mpr fun h => exchangeHeard_heard (by simpa using h) hu
  next a u hu =>
  have heard : (memories s).Canonical → (memories u).Canonical := fun h => exchangeHeard_heard (by simpa using h) hu
  split
  · split
    · exact nextCanonical_next.mpr fun h => by simp [heard h]
    split
    · exact nextCanonical_next.mpr fun h => by simp [heard h]
    split
    · exact nextCanonical_next.mpr fun h => by simp [heard h]
    next v hv =>
    have charged := fun h => chargeSession_canonical (heard h) hv
    split
    · exact nextCanonical_next.mpr fun h => by simp [charged h]
    split
    · exact nextCanonical_next.mpr fun h => by simp [charged h]
    · next hw => exact nextCanonical_next.mpr fun h => by simpa using chargeSession_canonical (by simp [charged h]) hw
  · simpa using heard

theorem execFz3Reply_canonical (x : Tenant) (msg : Bytes) (hz : Nat) (now : Tick) (s : State) :
    NextCanonical s (execFz3Reply x msg hz now s) := by
  simp only [execFz3Reply]
  split
  · next hu => exact nextCanonical_next.mpr fun h => exchangeHeard_heard (by simpa using h) hu
  next a u hu =>
  have heard : (memories s).Canonical → (memories u).Canonical := fun h => exchangeHeard_heard (by simpa using h) hu
  split
  · split
    · exact nextCanonical_next.mpr fun h => by simp [heard h]
    split
    · exact nextCanonical_next.mpr fun h => by simp [heard h]
    · next hv =>
      have charged := fun h => chargeSession_canonical (heard h) hv
      exact nextCanonical_next.mpr fun h => by simp [charged h]
  · simpa using heard

theorem execTam1Response_canonical (x : Tenant) (msg : Bytes) (hz : Nat) (now : Tick) (s : State) :
    NextCanonical s (execTam1Response x msg hz now s) := by
  grind [nextCanonical_next, execTam1Response, advanceTo_memories, logAuthFail_memories, setSvy_memories, endAcc_canonical,
    exchangeHeard_canonical]

theorem execSessionReply_canonical (x : Tenant) (msg : Bytes) (hz : Nat) (now : Tick) (s : State) :
    NextCanonical s (execSessionReply x msg hz now s) := by
  simp only [execSessionReply]
  refine nextCanonical_ite (by simp) (nextCanonical_ite (by simp) ?_)
  split
  · split
    · simp
    refine nextCanonical_ite (by simp) ?_
    split
    · simp
    next u hu =>
    have charged : (memories s).Canonical → (memories u).Canonical := fun h => chargeSession_canonical (by simpa using h) hu
    (repeat' split) <;> exact nextCanonical_next.mpr fun h => by simp [charged h]
  · simp

theorem execTagReplyTimeout_canonical (x : Tenant) (now : Tick) (s : State) :
    NextCanonical s (execTagReplyTimeout x now s) := by
  unfold execTagReplyTimeout
  dsimp only
  (repeat' split) <;> simp +contextual

theorem execSessionIdleTimeout_canonical (x : Tenant) (now : Tick) (s : State) :
    NextCanonical s (execSessionIdleTimeout x now s) := by
  simp only [execSessionIdleTimeout]
  split <;> simp +contextual

theorem execSessionDwellHop_canonical (x : Tenant) (now : Tick) (cal : Cal) (s : State) :
    NextCanonical s (execSessionDwellHop x now cal s) := by
  simp only [execSessionDwellHop]
  split
  · split
    · next f u r hu _ =>
      have tuned : (memories s).Canonical → (memories u).Canonical := fun h => nextChannel_canonical (by simpa using h) hu
      split
      · exact nextCanonical_next.mpr fun h => by simp [tuned h]
      · split <;> exact nextCanonical_next.mpr fun h => by simp [tuned h]
    · simp
  · simp

theorem execSendTimeDue_canonical (now : Tick) (s : State) : NextCanonical s (execSendTimeDue now s) := by
  unfold execSendTimeDue
  dsimp only
  (repeat' split) <;> simp +contextual

theorem execCsmaBackoffEnd_canonical (now : Tick) (s : State) : NextCanonical s (execCsmaBackoffEnd now s) := by
  simp only [execCsmaBackoffEnd]
  split
  · refine nextCanonical_ite ?_ (by simp)
    cases hu : drbgTake 1 (advanceTo now s) with
    | none =>
      dsimp only
      split_ifs <;> simp +contextual
    | some d =>
      have drawn : (memories s).Canonical → (memories d.2).Canonical := fun h => drbgTake_canonical (by simpa using h) hu
      dsimp only
      split_ifs <;> exact nextCanonical_next.mpr fun h => by simp [drawn h]
  · simp

theorem execCcaResult_canonical (now : Tick) (dbm : Int) (s : State) : NextCanonical s (execCcaResult now dbm s) := by
  unfold execCcaResult
  dsimp only
  (repeat' split) <;> simp +contextual

theorem execLinkTxEnd_canonical (now : Tick) (s : State) : NextCanonical s (execLinkTxEnd now s) := by
  unfold execLinkTxEnd
  dsimp only
  (repeat' split) <;> simp +contextual

theorem execAckWindowExpiry_canonical (now : Tick) (s : State) : NextCanonical s (execAckWindowExpiry now s) := by
  unfold execAckWindowExpiry
  dsimp only
  (repeat' split) <;> simp +contextual

theorem execAckTransmit_canonical (now : Tick) (s : State) : NextCanonical s (execAckTransmit now s) := by
  unfold execAckTransmit
  dsimp only
  (repeat' split) <;> simp +contextual

theorem execBeaconDue_canonical (now : Tick) (s : State) : NextCanonical s (execBeaconDue now s) := by
  simp only [execBeaconDue]
  split
  · simp
  split
  · simp
  split
  · simp
  split
  · simp
  split
  · next hu => exact nextCanonical_next.mpr fun h => by simpa using beaconKey_canonical (by simpa using h) hu
  · simp

theorem execNbrAgeing_canonical (now : Tick) (s : State) : NextCanonical s (execNbrAgeing now s) := by
  have lost := fun (l : List Nbr) s => foldl_memories (fun s n => nbrLost n.addr 0 s) l s fun s n => nbrLost_memories ..
  simp only [execNbrAgeing]
  split
  · rw [nextCanonical_next, lost]
    simp
  · simp

theorem execListenDurExpiry_canonical (x : Tenant) (now : Tick) (s : State) :
    NextCanonical s (execListenDurExpiry x now s) := by
  unfold execListenDurExpiry
  dsimp only
  (repeat' split) <;> simp +contextual

theorem execLaneDetection_canonical (found : List (Fin 6 × Nat)) (now : Tick) (s : State) :
    NextCanonical s (execLaneDetection found now s) := by
  have told := fun st s => forTenants_memories (fun x => listenEnd x st) s fun t s => listenEnd_memories ..
  simp only [execLaneDetection]
  split
  · split
    · simp
    · split <;> simp [told]
  · simp

theorem execDiversityDecision_canonical (here there : Nat) (s : State) :
    NextCanonical s (execDiversityDecision here there s) := by
  simp only [execDiversityDecision]
  split_ifs <;> simp +contextual

theorem execSfdTimeout_canonical (now : Tick) (s : State) : NextCanonical s (execSfdTimeout now s) := by
  simp only [execSfdTimeout]
  split <;> simp +contextual

theorem execPhrReceived_canonical (len hcs : Byte) (asksAck : Bool) (s : State) :
    NextCanonical s (execPhrReceived len hcs asksAck s) := by
  simp only [execPhrReceived]
  split_ifs <;> simp +contextual

theorem execLinkFrameReceived_canonical (f : RxFrame) (now : Tick) (s : State) :
    NextCanonical s (execLinkFrameReceived f now s) := by
  unfold execLinkFrameReceived
  dsimp only
  (repeat' split) <;> simp +contextual

theorem execAckReceived_canonical (now : Tick) (f : RxFrame) (s : State) : NextCanonical s (execAckReceived now f s) := by
  unfold execAckReceived
  dsimp only
  (repeat' split) <;> simp +contextual

theorem execLnkNode_canonical (c : Cmd) (s : State) : NextCanonical s (execLnkNode c s) :=
  nextCanonical_keelRun fun r h => by
    dsimp only
    split_ifs <;> simp [h]

/-- The frame that LNK.SEND makes goes into a buffer of its tenant. -/
theorem execLnkSend_canonical (c : Cmd) (s : State) : NextCanonical s (execLnkSend c s) :=
  nextCanonical_keelRun fun r h => by
  refine canonical_ite (by simp [h]) ?_
  split
  · simp [h]
  refine canonical_ite (by simp [h]) (canonical_ite (by simp [h]) ?_)
  cases hu : sendKey c.t (fld c.args 4 1) r with
  | error st =>
    dsimp only
    rw [refuse_memories]
    split <;> simp [h]
  | ok q =>
    obtain ⟨kv, u⟩ := q
    cases findBuf (posOf c.t) r with
    | none => simp [h]
    | some b =>
      have served : (memories (takeMseq (serveBuf (posOf c.t) false b u)).2).Canonical := by simp [sendKey_canonical h hu]
      have filled := fun (psdu : Bytes) => modBuf_canonical b
        (fun q => { q with bytes := memPutAll [] 0 psdu, len := psdu.length }) served fun _ _ => memPutAll_wf _ _ _ rfl
      dsimp only
      refine canonical_ite ?_ ?_ <;> simpa using filled _

theorem execLnkListen_canonical (c : Cmd) (s : State) : NextCanonical s (execLnkListen c s) :=
  nextCanonical_keelRun fun r h => by
    dsimp only
    (repeat' split) <;> simp [h]

theorem execLnkCancel_canonical (c : Cmd) (s : State) : NextCanonical s (execLnkCancel c s) :=
  nextCanonical_keelRun fun r h => by
    dsimp only
    (repeat' split) <;> simp [h]

theorem execLnkReset_canonical (c : Cmd) (s : State) : NextCanonical s (execLnkReset c s) := nextCanonical_keelRun fun r h => by
  refine canonical_ite (by simp [h]) (canonical_ite (by simp [h]) ?_)
  dsimp only
  split
  all_goals
    simp only [apply_ite memories, sweepEnd_memories, setSvy_memories, sweepRelease_memories, setLink_memories, ite_self]
    refine ctxAirGone_canonical _ _ ?_
    simp [apply_ite memories]
    refine foldl_canonical _ _ (fun s e h => sendStop_canonical _ _ h) (by simpa using h)

theorem execNbrList_canonical (c : Cmd) (s : State) : NextCanonical s (execNbrList c s) :=
  nextCanonical_keelRun fun r h => by
    dsimp only
    split <;> simp [h]

theorem execNbrForget_canonical (c : Cmd) (s : State) : NextCanonical s (execNbrForget c s) :=
  nextCanonical_keelRun fun r h => by
    dsimp only
    split <;> simp [h]

theorem execRadioStatus_canonical (c : Cmd) (s : State) : NextCanonical s (execRadioStatus c s) :=
  nextCanonical_keelRun fun r h => by split <;> simp [h]

theorem execCoexConfig_canonical (c : Cmd) (s : State) : NextCanonical s (execCoexConfig c s) :=
  nextCanonical_keelRun fun r h => by split <;> simp [h]

theorem execRadioHoptable_canonical (c : Cmd) (s : State) : NextCanonical s (execRadioHoptable c s) :=
  nextCanonical_keelRun fun r h => by
    dsimp only
    split_ifs <;> simp [h]

theorem execDeepCalibration_canonical (core : CoreId) (now : Tick) (temp : Int) (s : State) :
    NextCanonical s (execDeepCalibration core now temp s) := by
  simp only [execDeepCalibration]
  split <;> simp +contextual

theorem execCoexGntChange_canonical (now : Tick) (ns : Nat) (level : Bool) (s : State) :
    NextCanonical s (execCoexGntChange now ns level s) := by
  have latched := fun b s => forTenants_memories (fun t => modCtx t fun k => { k with latch := k.latch ||| b }) s
    fun t s => modCtx_memories _ _ _ fun _ => rfl
  simp only [execCoexGntChange]
  split_ifs
  · simp
  · simp [latched]
  · exact nextCanonical_next.mpr fun h => linkWithdrawn_canonical (readerWithdrawn_canonical (by simpa [latched] using h))

theorem execCoexLeadElapsed_canonical (now : Tick) (s : State) : NextCanonical s (execCoexLeadElapsed now s) := by
  unfold execCoexLeadElapsed
  dsimp only
  (repeat' split) <;> simp +contextual

theorem execCoexWaitExpiry_canonical (now : Tick) (s : State) : NextCanonical s (execCoexWaitExpiry now s) := by
  unfold execCoexWaitExpiry
  dsimp only
  (repeat' split) <;> simp +contextual

theorem execNvmRead_canonical (c : Cmd) (s : State) : NextCanonical s (execNvmRead c s) :=
  nextCanonical_keelRun fun r h => by
    dsimp only
    split_ifs <;> simp [h]

theorem execNvmWrite_canonical (c : Cmd) (s : State) : NextCanonical s (execNvmWrite c s) :=
  nextCanonical_keelRun fun r h => by
    dsimp only
    (repeat' split) <;> simp [h]

theorem execNvmBallast_canonical (c : Cmd) (s : State) : NextCanonical s (execNvmBallast c s) :=
  nextCanonical_keelRun fun r h => by
    dsimp only
    split_ifs <;> simp [h]

theorem execNvmStatus_canonical (c : Cmd) (s : State) : NextCanonical s (execNvmStatus c s) :=
  nextCanonical_keelRun fun r h => by split <;> simp [h]

theorem execStoreCommit_canonical (vhu badWrites : Nat) (s : State) : NextCanonical s (execStoreCommit vhu badWrites s) := by
  unfold execStoreCommit
  dsimp only
  (repeat' split) <;> simp +contextual

theorem execBallastRecheck_canonical (now : Tick) (vhu badWrites : Nat) (s : State) :
    NextCanonical s (execBallastRecheck now vhu badWrites s) := by
  unfold execBallastRecheck
  dsimp only
  (repeat' split) <;> simp +contextual

theorem execWearMoveStep_canonical (s : State) : NextCanonical s (execWearMoveStep s) := by
  unfold execWearMoveStep
  dsimp only
  (repeat' split) <;> simp +contextual

theorem execColdSectorMove_canonical (sector : Nat) (s : State) : NextCanonical s (execColdSectorMove sector s) := by
  unfold execColdSectorMove
  dsimp only
  (repeat' split) <;> simp +contextual

theorem execDaylightWindowOpen_canonical (now : Tick) (s : State) : NextCanonical s (execDaylightWindowOpen now s) := by
  simp only [execDaylightWindowOpen]
  split_ifs <;> simp +contextual

theorem execDaylightWindowEnd_canonical (s : State) :
    NextCanonical s (execDaylightWindowEnd s) := by simp [execDaylightWindowEnd]

theorem execMendStep_canonical (now : Tick) (found : Option MendRes) (s : State) :
    NextCanonical s (execMendStep now found s) := by
  simp only [execMendStep]
  split_ifs <;> simp +contextual

theorem execSramCorrection_canonical (bank : Fin 16) (row : BitVec 8) (now : Tick) (s : State) :
    NextCanonical s (execSramCorrection bank row now s) := by
  simp only [execSramCorrection]
  split_ifs <;> simp +contextual

theorem execSynthCheckCalibration_canonical (core : CoreId) (passed : Bool) (s : State) :
    NextCanonical s (execSynthCheckCalibration core passed s) := by
  simp only [execSynthCheckCalibration]
  split_ifs <;> simp +contextual

theorem execMendResourceSwitch_canonical (r : MendRes) (s : State) : NextCanonical s (execMendResourceSwitch r s) := by
  unfold execMendResourceSwitch
  split <;> simp +contextual

theorem execMendStatus_canonical (c : Cmd) (s : State) : NextCanonical s (execMendStatus c s) :=
  nextCanonical_keelRun fun r h => by split <;> simp [h]

theorem execMendWindow_canonical (c : Cmd) (s : State) : NextCanonical s (execMendWindow c s) :=
  nextCanonical_keelRun fun r h => by
    dsimp only
    split_ifs <;> simp [h]

theorem execSysInfo_canonical (c : Cmd) (s : State) : NextCanonical s (execSysInfo c s) := nextCanonical_keelRun fun r h => by
  split <;> simp [h]

theorem execSysSleep_canonical (c : Cmd) (s : State) : NextCanonical s (execSysSleep c s) := nextCanonical_keelRun fun r h => by
  split <;> simp [h]

theorem execSysPatch_canonical (c : Cmd) (s : State) : NextCanonical s (execSysPatch c s) := by
  grind [nextCanonical_next, execSysPatch, queueCommit_memories, refuse_memories, keelRun_canonical]

theorem execTenLock_canonical (c : Cmd) (s : State) : NextCanonical s (execTenLock c s) := nextCanonical_keelRun fun r h => by
  dsimp only
  split_ifs <;> simp <;> exact h

theorem execTenShare_canonical (c : Cmd) (s : State) : NextCanonical s (execTenShare c s) := nextCanonical_keelRun fun r h => by
  dsimp only
  split_ifs <;> simp <;> exact h

theorem execUnassignedOpcode_canonical (c : Cmd) (op : BitVec 16) (s : State) :
    NextCanonical s (execUnassignedOpcode c op s) := by
  grind [nextCanonical_next, execUnassignedOpcode, refuse_memories, keelRun_canonical]

theorem execRegRead_canonical (c : Cmd) (s : State) : NextCanonical s (execRegRead c s) :=
  nextCanonical_keelRun fun r h => by simp [h]

theorem execRegWrite_canonical (c : Cmd) (s : State) : NextCanonical s (execRegWrite c s) :=
  nextCanonical_keelRun fun r h => by simp [h]

theorem execHostFrame_canonical (p : Port) (bus : Bus) (data : List Bool) (lag : Nat) (s : State) :
    NextCanonical s (execHostFrame p bus data lag s) := by
  unfold execHostFrame
  split <;> simp +contextual

theorem execSpiInvalidTransaction_canonical (p : Port) (first : Byte) (s : State) :
    NextCanonical s (execSpiInvalidTransaction p first s) := by
  unfold execSpiInvalidTransaction
  split <;> simp +contextual

theorem execFrameAbort_canonical (p : Port) (s : State) : NextCanonical s (execFrameAbort p s) := by
  unfold execFrameAbort
  split <;> simp +contextual

theorem execUartGapTimeout_canonical (s : State) : NextCanonical s (execUartGapTimeout s) := by
  unfold execUartGapTimeout
  split <;> simp +contextual

theorem execUartFramingError_canonical (s : State) : NextCanonical s (execUartFramingError s) := by
  unfold execUartFramingError
  split <;> simp +contextual

theorem execOutgoingFrameDelivered_canonical (p : Port) (bus : Bus) (s : State) :
    NextCanonical s (execOutgoingFrameDelivered p bus s) := by
  unfold execOutgoingFrameDelivered
  split <;> simp +contextual

theorem execPartialDelivery_canonical (p : Port) (bus : Bus) (n : Nat) (s : State) :
    NextCanonical s (execPartialDelivery p bus n s) := by
  unfold execPartialDelivery
  dsimp only
  (repeat' split) <;> simp +contextual

theorem execUartHdxReply_canonical (n : Nat) (s : State) : NextCanonical s (execUartHdxReply n s) := by
  unfold execUartHdxReply
  split <;> simp +contextual

theorem execSpiPortResetSequence_canonical (p : Port) (s : State) : NextCanonical s (execSpiPortResetSequence p s) := by
  unfold execSpiPortResetSequence
  split <;> simp +contextual

theorem execI2cStuckBus_canonical (s : State) : NextCanonical s (execI2cStuckBus s) := by
  unfold execI2cStuckBus
  split <;> simp +contextual

theorem execUartBreak_canonical (s : State) : NextCanonical s (execUartBreak s) := by
  unfold execUartBreak
  split <;> simp +contextual

theorem execVioLoss_canonical (s : State) : NextCanonical s (execVioLoss s) := by
  unfold execVioLoss
  split <;> simp +contextual

theorem execVioReturn_canonical (s : State) : NextCanonical s (execVioReturn s) := by
  simp only [execVioReturn]
  split
  · exact nextCanonical_next.mpr fun h =>
      portReset_canonical 3 (portReset_canonical 2 (portReset_canonical 1 (portReset_canonical 0 h)))
  · simp

theorem execPresenceTimeout_canonical (p : Port) (now : Tick) (s : State) : NextCanonical s (execPresenceTimeout p now s) := by
  simp only [execPresenceTimeout]
  split <;> simp +contextual

theorem execResetRelease_canonical (spaSdo addr1 addr0 test : Bool) (f : StartFinds) (s : State) :
    NextCanonical s (execResetRelease spaSdo addr1 addr0 test f s) := by
  simp only [execResetRelease]
  split_ifs <;> simp +contextual

theorem execStartComplete_canonical (s : State) : NextCanonical s (execStartComplete s) := by
  unfold execStartComplete
  split <;> simp +contextual

theorem execKeelWatchdogExpiry_canonical (f : StartFinds) (s : State) : NextCanonical s (execKeelWatchdogExpiry f s) := by
  unfold execKeelWatchdogExpiry
  split <;> simp +contextual

theorem execSysReset_canonical (c : Cmd) (vhu : Nat) (f : StartFinds) (s : State) : NextCanonical s (execSysReset c vhu f s) :=
  nextCanonical_keelRun fun r h => by
    dsimp only
    split_ifs <;> simp [h]

theorem execUncorrectableSramError_canonical (bank : Fin 16) (row : BitVec 8) (vhu : Nat) (f : StartFinds) (s : State) :
    NextCanonical s (execUncorrectableSramError bank row vhu f s) := by
  unfold execUncorrectableSramError
  split <;> simp +contextual

theorem execXo32Timeout_canonical (s : State) : NextCanonical s (execXo32Timeout s) := by
  unfold execXo32Timeout
  split <;> simp +contextual

theorem execXo32Stop_canonical (s : State) : NextCanonical s (execXo32Stop s) := by
  unfold execXo32Stop
  split <;> simp +contextual

theorem execXo32Ready_canonical (s : State) : NextCanonical s (execXo32Ready s) := by
  unfold execXo32Ready
  split <;> simp +contextual

theorem execXo24Timeout_canonical (s : State) : NextCanonical s (execXo24Timeout s) := by
  simp only [execXo24Timeout]
  split
  · split
    · simp
    · exact nextCanonical_next.mpr fun h => limpEntry_canonical h
  · split
    · simp
    · exact nextCanonical_next.mpr fun h => limpEntry_canonical (by simpa using h)
  · simp

theorem execSleepEntry_canonical (now : Tick) (vhu : Nat) (s : State) : NextCanonical s (execSleepEntry now vhu s) := by
  simp only [execSleepEntry]
  split_ifs <;> simp +contextual

theorem execWakePin_canonical (s : State) : NextCanonical s (execWakePin s) := by
  unfold execWakePin
  split <;> simp +contextual

theorem execPortWakeEdge_canonical (e : Edge) (addr : BitVec 7) (s : State) : NextCanonical s (execPortWakeEdge e addr s) := by
  unfold execPortWakeEdge
  split <;> simp +contextual

theorem execCompareWakeLead_canonical (aonCycles : Nat) (s : State) : NextCanonical s (execCompareWakeLead aonCycles s) := by
  simp only [execCompareWakeLead]
  split_ifs <;> simp +contextual

theorem execWakeComplete_canonical (aonCycles : Nat) (s : State) : NextCanonical s (execWakeComplete aonCycles s) := by
  simp only [execWakeComplete]
  split_ifs <;> simp +contextual

theorem execRegulatorTimeout_canonical (s : State) : NextCanonical s (execRegulatorTimeout s) := by
  simp only [execRegulatorTimeout]
  split
  · refine nextCanonical_next.mpr fun h => ?_
    rw [untrust_memories, setPower_memories]
    split <;> exact h
  · simp

theorem execPwrfail_canonical (now : Tick) (ns vhu : Nat) (headerLanded : Bool) (s : State) :
    NextCanonical s (execPwrfail now ns vhu headerLanded s) := by
  have aborted := fun s => forTenants_memories abortCommands s fun t s => abortCommands_memories ..
  simp only [execPwrfail]
  split
  · simp
  split
  iterate 2
    · refine nextCanonical_next.mpr fun h => ?_
      rw [logEntry_memories, raiseAll_memories]
      exact emergencySet_canonical _ (by simpa using rfOff_canonical (by simpa [aborted] using h))
  all_goals simp

theorem execHoldEntry_canonical (s : State) : NextCanonical s (execHoldEntry s) := by
  simp only [execHoldEntry]
  split
  · refine nextCanonical_next.mpr fun h => ?_
    rw [untrust_memories, coresTo_memories]
    exact h
  · simp

theorem execPwrfailClear_canonical (s : State) : NextCanonical s (execPwrfailClear s) := by
  simp only [execPwrfailClear]
  split_ifs <;> simp +contextual

theorem execCmpRegisterWrite_canonical (c : Cmd) (s : State) : NextCanonical s (execCmpRegisterWrite c s) := by
  simp +contextual [execCmpRegisterWrite]

theorem execReelGoWrite_canonical (c : Cmd) (s : State) : NextCanonical s (execReelGoWrite c s) := by
  simp +contextual [execReelGoWrite]

theorem execDcCfgWrite_canonical (c : Cmd) (s : State) : NextCanonical s (execDcCfgWrite c s) := by
  simp +contextual [execDcCfgWrite]

theorem execDcRldWrite_canonical (c : Cmd) (s : State) : NextCanonical s (execDcRldWrite c s) := by
  simp +contextual [execDcRldWrite]

theorem execDcSleptClear_canonical (c : Cmd) (s : State) : NextCanonical s (execDcSleptClear c s) := by
  simp +contextual [execDcSleptClear]

theorem execCapOvrClear_canonical (c : Cmd) (s : State) : NextCanonical s (execCapOvrClear c s) := by
  simp +contextual [execCapOvrClear]

theorem execToutCtlActWrite_canonical (c : Cmd) (s : State) : NextCanonical s (execToutCtlActWrite c s) := by
  simp +contextual [execToutCtlActWrite]

theorem execCapV2Read_canonical (c : Cmd) (s : State) :
    NextCanonical s (execCapV2Read c s) := by simp +contextual [execCapV2Read]

theorem execDcCnt0Read_canonical (c : Cmd) (s : State) : NextCanonical s (execDcCnt0Read c s) := by
  simp +contextual [execDcCnt0Read]

theorem execKslotLinkRead_canonical (c : Cmd) (s : State) : NextCanonical s (execKslotLinkRead c s) := by
  simp +contextual [execKslotLinkRead]

theorem execGdlCollClear_canonical (c : Cmd) (s : State) : NextCanonical s (execGdlCollClear c s) := by
  simp +contextual [execGdlCollClear]

theorem execPort3DivWrite_canonical (c : Cmd) (s : State) : NextCanonical s (execPort3DivWrite c s) := by
  simp +contextual [execPort3DivWrite]

theorem execCoexCfgWrite_canonical (c : Cmd) (s : State) : NextCanonical s (execCoexCfgWrite c s) := by
  simp +contextual [execCoexCfgWrite]

theorem execSplDataAccess_canonical (c : Cmd) (write : Bool) (s : State) : NextCanonical s (execSplDataAccess c write s) := by
  unfold execSplDataAccess
  split <;> simp +contextual

/-- R223: the slot is emptied as a load begins, filled with a checked image, and emptied where it is bad. -/
theorem execSpoolLoad_canonical (c : Cmd) (s : State) : NextCanonical s (execSpoolLoad c s) :=
  nextCanonical_keelRun fun r h => by
  refine canonical_ite (by simp [h]) (canonical_ite (by simp [h]) (canonical_ite (by simp [h]) ?_))
  refine canonical_ite ?part (canonical_ite ?whole ?bad)
  case part =>
    rw [reply_memories]
    refine modCtx_canonical _ _ h fun k hcode hdata => ?_
    dsimp only
    split
    · exact ⟨rfl, rfl⟩
    · exact ⟨hcode, hdata⟩
  case whole =>
    rw [reply_memories]
    exact modCtx_canonical _ _ h fun _ _ _ => ⟨memPutAll_wf _ _ _ rfl, memPutAll_wf _ _ _ rfl⟩
  case bad =>
    rw [refuse_memories]
    exact modCtx_canonical _ _ h fun _ _ _ => ⟨rfl, rfl⟩

theorem execSpoolStart_canonical (c : Cmd) (s : State) : NextCanonical s (execSpoolStart c s) :=
  nextCanonical_keelRun fun r h => by simp [h]

theorem execRdrRunSpool_canonical (c : Cmd) (s : State) : NextCanonical s (execRdrRunSpool c s) :=
  nextCanonical_keelRun fun r h => by simp [h]

theorem execLnkRunSpool_canonical (c : Cmd) (s : State) : NextCanonical s (execLnkRunSpool c s) :=
  nextCanonical_keelRun fun r h => by simp [h]

theorem execSpoolStop_canonical (c : Cmd) (s : State) : NextCanonical s (execSpoolStop c s) :=
  nextCanonical_keelRun fun r h => by split <;> simp [h]

theorem execSpoolStatus_canonical (c : Cmd) (s : State) : NextCanonical s (execSpoolStatus c s) :=
  nextCanonical_keelRun fun r h => by split <;> simp [h]

/-- R220: SPOOL.RESET zeroes the data RAM, at once where no run holds it. -/
theorem execSpoolReset_canonical (c : Cmd) (s : State) : NextCanonical s (execSpoolReset c s) :=
  nextCanonical_keelRun fun r h => by
  refine canonical_ite (by simp [h]) ?_
  refine canonical_ite (stopProgram_canonical _ _ ?wiped) (canonical_ite (builtinReset_canonical _ ?wiped) ?wiped)
  refine modCtx_canonical _ _ (by simpa using h) fun k hcode hdata => ⟨hcode, ?_⟩
  dsimp only
  split
  · exact hdata
  · rfl

theorem execV1Transaction_canonical (sdi : Bytes) (s : State) : NextCanonical s (execV1Transaction sdi s) := by
  unfold execV1Transaction
  dsimp only
  (repeat' split) <;> simp +contextual

theorem execV1Start_canonical (s : State) : NextCanonical s (execV1Start s) := by
  unfold execV1Start
  split <;> simp +contextual

theorem execV1Stop_canonical (s : State) : NextCanonical s (execV1Stop s) := by
  unfold execV1Stop
  split <;> simp +contextual

theorem execV1Single_canonical (s : State) : NextCanonical s (execV1Single s) := by
  unfold execV1Single
  split <;> simp +contextual

theorem execV1FifoRead_canonical (s : State) : NextCanonical s (execV1FifoRead s) := by
  unfold execV1FifoRead
  split <;> simp +contextual

theorem execV1IrqflgClear_canonical (mask : Byte) (s : State) : NextCanonical s (execV1IrqflgClear mask s) := by
  unfold execV1IrqflgClear
  split <;> simp +contextual

theorem execV1RegionWrite_canonical (v : Byte) (s : State) : NextCanonical s (execV1RegionWrite v s) := by
  unfold execV1RegionWrite
  split <;> simp +contextual

theorem execV1LinkWrite_canonical (v : Byte) (s : State) : NextCanonical s (execV1LinkWrite v s) := by
  unfold execV1LinkWrite
  split <;> simp +contextual

theorem execV1PowerWrite_canonical (v : Byte) (s : State) : NextCanonical s (execV1PowerWrite v s) := by
  unfold execV1PowerWrite
  split <;> simp +contextual

theorem execV1DwellExpiry_canonical (now : Tick) (s : State) : NextCanonical s (execV1DwellExpiry now s) := by
  unfold execV1DwellExpiry
  dsimp only
  (repeat' split) <;> simp +contextual

theorem execTenBind_canonical (c : Cmd) (s : State) : NextCanonical s (execTenBind c s) :=
  nextCanonical_keelRun fun r h => by
    dsimp only
    split_ifs <;> simp [h, rebind_memories]

theorem execPowerOnReset_canonical (s : State) : NextCanonical s (execPowerOnReset s) :=
  nextCanonical_next.mpr (clearFor_canonical 1 false)

theorem execNreset_canonical (ns : Nat) (s : State) : NextCanonical s (execNreset ns s) := by
  refine nextCanonical_ite (by simp) (nextCanonical_ite (nextCanonical_next.mpr (clearFor_canonical 2 false)) ?_)
  refine nextCanonical_next.mpr fun h => canonical_ite (clearFor_canonical 2 false h) h

end Sys2Proof.Machine
end

section
/-!
PROOFS. A step, and the memories through it.
-/
namespace Sys2Proof.Machine

/-- One line per row of the dispatch. -/
theorem exec_canonical (i : Instr) (s : State) : NextCanonical s (exec i s) :=
  match i with
  | .sysInfo c => execSysInfo_canonical c s
  | .sysSleep c => execSysSleep_canonical c s
  | .sysReset c vhu f => execSysReset_canonical c vhu f s
  | .sysPatch c => execSysPatch_canonical c s
  | .regRead c => execRegRead_canonical c s
  | .regWrite c => execRegWrite_canonical c s
  | .tenBind c => execTenBind_canonical c s
  | .tenLock c => execTenLock_canonical c s
  | .tenShare c => execTenShare_canonical c s
  | .rdrInventory c => execRdrInventory_canonical c s
  | .rdrStop c => execRdrStop_canonical c s
  | .rdrAccess c => execRdrAccess_canonical c s
  | .rdrSniff c => execRdrSniff_canonical c s
  | .rdrBaseline c bursts => execRdrBaseline_canonical c bursts s
  | .rdrRunSpool c => execRdrRunSpool_canonical c s
  | .rdrReset c => execRdrReset_canonical c s
  | .tagEnable c => execTagEnable_canonical c s
  | .tagDisable c => execTagDisable_canonical c s
  | .tagPublish c => execTagPublish_canonical c s
  | .secTam1 c => execSecTam1_canonical c s
  | .secFarzOpen c => execSecFarzOpen_canonical c s
  | .secFarzSend c => execSecFarzSend_canonical c s
  | .secClose c => execSecClose_canonical c s
  | .lnkNode c => execLnkNode_canonical c s
  | .lnkSend c => execLnkSend_canonical c s
  | .lnkListen c => execLnkListen_canonical c s
  | .lnkCancel c => execLnkCancel_canonical c s
  | .lnkRunSpool c => execLnkRunSpool_canonical c s
  | .lnkReset c => execLnkReset_canonical c s
  | .nbrList c => execNbrList_canonical c s
  | .nbrForget c => execNbrForget_canonical c s
  | .radioStatus c => execRadioStatus_canonical c s
  | .coexConfig c => execCoexConfig_canonical c s
  | .radioHoptable c => execRadioHoptable_canonical c s
  | .tmrRead c => execTmrRead_canonical c s
  | .tmrCmp c => execTmrCmp_canonical c s
  | .tmrDc c => execTmrDc_canonical c s
  | .tmrGo c => execTmrGo_canonical c s
  | .tmrCap c => execTmrCap_canonical c s
  | .tmrOut c => execTmrOut_canonical c s
  | .keyDerive c => execKeyDerive_canonical c s
  | .keyUnwrap c => execKeyUnwrap_canonical c s
  | .keyErase c => execKeyErase_canonical c s
  | .keyInvalidate c => execKeyInvalidate_canonical c s
  | .keyInfo c => execKeyInfo_canonical c s
  | .keyTamper c pinHigh => execKeyTamper_canonical c pinHigh s
  | .rngGet c => execRngGet_canonical c s
  | .cryptoAes c => execCryptoAes_canonical c s
  | .cryptoCcm c => execCryptoCcm_canonical c s
  | .cryptoCmac c => execCryptoCmac_canonical c s
  | .cryptoReset c => execCryptoReset_canonical c s
  | .mbxBind c => execMbxBind_canonical c s
  | .mbxLock c => execMbxLock_canonical c s
  | .mbxWrite c => execMbxWrite_canonical c s
  | .mbxRead c => execMbxRead_canonical c s
  | .semTake c => execSemTake_canonical c s
  | .semGive c => execSemGive_canonical c s
  | .cvuSet c => execCvuSet_canonical c s
  | .cvuRun c => execCvuRun_canonical c s
  | .nvmRead c => execNvmRead_canonical c s
  | .nvmWrite c => execNvmWrite_canonical c s
  | .nvmBallast c => execNvmBallast_canonical c s
  | .nvmStatus c => execNvmStatus_canonical c s
  | .ledgerConfig c => execLedgerConfig_canonical c s
  | .ledgerOwner c => execLedgerOwner_canonical c s
  | .ledgerRead c => execLedgerRead_canonical c s
  | .ledgerAck c => execLedgerAck_canonical c s
  | .ledgerStatus c => execLedgerStatus_canonical c s
  | .clockSet c => execClockSet_canonical c s
  | .measSnapshot c smp => execMeasSnapshot_canonical c smp s
  | .measSweep c => execMeasSweep_canonical c s
  | .measSubscribe c => execMeasSubscribe_canonical c s
  | .measPartners c => execMeasPartners_canonical c s
  | .mendStatus c => execMendStatus_canonical c s
  | .mendWindow c => execMendWindow_canonical c s
  | .spoolLoad c => execSpoolLoad_canonical c s
  | .spoolStart c => execSpoolStart_canonical c s
  | .spoolStop c => execSpoolStop_canonical c s
  | .spoolStatus c => execSpoolStatus_canonical c s
  | .spoolReset c => execSpoolReset_canonical c s
  | .cmpRegisterWrite c => execCmpRegisterWrite_canonical c s
  | .reelGoWrite c => execReelGoWrite_canonical c s
  | .dcCfgWrite c => execDcCfgWrite_canonical c s
  | .dcRldWrite c => execDcRldWrite_canonical c s
  | .dcSleptClear c => execDcSleptClear_canonical c s
  | .capOvrClear c => execCapOvrClear_canonical c s
  | .toutCtlActWrite c => execToutCtlActWrite_canonical c s
  | .capV2Read c => execCapV2Read_canonical c s
  | .dcCnt0Read c => execDcCnt0Read_canonical c s
  | .kslotLinkRead c => execKslotLinkRead_canonical c s
  | .gdlCollClear c => execGdlCollClear_canonical c s
  | .port3DivWrite c => execPort3DivWrite_canonical c s
  | .coexCfgWrite c => execCoexCfgWrite_canonical c s
  | .splDataAccess c write => execSplDataAccess_canonical c write s
  | .v1Transaction sdi => execV1Transaction_canonical sdi s
  | .v1Start => execV1Start_canonical s
  | .v1Stop => execV1Stop_canonical s
  | .v1Single => execV1Single_canonical s
  | .v1FifoRead => execV1FifoRead_canonical s
  | .v1IrqflgClear mask => execV1IrqflgClear_canonical mask s
  | .v1RegionWrite v => execV1RegionWrite_canonical v s
  | .v1LinkWrite v => execV1LinkWrite_canonical v s
  | .v1PowerWrite v => execV1PowerWrite_canonical v s
  | .v1DwellExpiry now => execV1DwellExpiry_canonical now s
  | .spAdd x d a b => execSpAdd_canonical x d a b s
  | .spSub x d a b => execSpSub_canonical x d a b s
  | .spAnd x d a b => execSpAnd_canonical x d a b s
  | .spOr x d a b => execSpOr_canonical x d a b s
  | .spXor x d a b => execSpXor_canonical x d a b s
  | .spShl x d a b => execSpShl_canonical x d a b s
  | .spShr x d a b => execSpShr_canonical x d a b s
  | .spAsr x d a b => execSpAsr_canonical x d a b s
  | .spMul x d a b => execSpMul_canonical x d a b s
  | .spCmp x a b => execSpCmp_canonical x a b s
  | .spAddi x d a imm => execSpAddi_canonical x d a imm s
  | .spAndi x d a imm => execSpAndi_canonical x d a imm s
  | .spOri x d a imm => execSpOri_canonical x d a imm s
  | .spXori x d a imm => execSpXori_canonical x d a imm s
  | .spCmpi x a imm => execSpCmpi_canonical x a imm s
  | .spLui x d imm => execSpLui_canonical x d imm s
  | .spJ x cond target => execSpJ_canonical x cond target s
  | .spCall x cond target => execSpCall_canonical x cond target s
  | .spRet x cond => execSpRet_canonical x cond s
  | .spJr x a => execSpJr_canonical x a s
  | .spDjnz x d imm => execSpDjnz_canonical x d imm s
  | .spWaitt x d a b off => execSpWaitt_canonical x d a b off s
  | .spWaitd x a imm => execSpWaitd_canonical x a imm s
  | .spWaite x d a b src => execSpWaite_canonical x d a b src s
  | .spGett x d a b part => execSpGett_canonical x d a b part s
  | .spHop x d a noWait => execSpHop_canonical x d a noWait s
  | .spPwr x d a noWait => execSpPwr_canonical x d a noWait s
  | .spAsel x d a noWait => execSpAsel_canonical x d a noWait s
  | .spTxcw x d on noWait => execSpTxcw_canonical x d on noWait s
  | .spTxsym x d a b src pre qry noWait => execSpTxsym_canonical x d a b src pre qry noWait s
  | .spRxwin x d a b count pclen crc noWait => execSpRxwin_canonical x d a b count pclen crc noWait s
  | .spRssi x d noWait => execSpRssi_canonical x d noWait s
  | .spSniff x d noWait => execSpSniff_canonical x d noWait s
  | .spRfoff x d noWait => execSpRfoff_canonical x d noWait s
  | .spLch x d a txi noWait => execSpLch_canonical x d a txi noWait s
  | .spLtx x d a sf smode ack fcs noWait => execSpLtx_canonical x d a sf smode ack fcs noWait s
  | .spLrx x d a b lanes noWait => execSpLrx_canonical x d a b lanes noWait s
  | .spLcca x d txi noWait => execSpLcca_canonical x d txi noWait s
  | .spLoff x d noWait => execSpLoff_canonical x d noWait s
  | .spLd x d a imm => execSpLd_canonical x d a imm s
  | .spSt x d a imm => execSpSt_canonical x d a imm s
  | .spBufAlloc x d => execSpBufAlloc_canonical x d s
  | .spBufFree x d a => execSpBufFree_canonical x d a s
  | .spBufRdw x d a b => execSpBufRdw_canonical x d a b s
  | .spBufWrw x d a b => execSpBufWrw_canonical x d a b s
  | .spBufLen x d a => execSpBufLen_canonical x d a s
  | .spBufSetlen x d a b => execSpBufSetlen_canonical x d a b s
  | .spKsel x d a b => execSpKsel_canonical x d a b s
  | .spAesb x d a b decrypt => execSpAesb_canonical x d a b decrypt s
  | .spCrc x d a b preset mode => execSpCrc_canonical x d a b preset mode s
  | .spRng x d a b => execSpRng_canonical x d a b s
  | .spPost x d a b n hand => execSpPost_canonical x d a b n hand s
  | .spEvt x d a kind => execSpEvt_canonical x d a kind s
  | .spTout x d act => execSpTout_canonical x d act s
  | .spYield x d a b => execSpYield_canonical x d a b s
  | .spHalt x d a b => execSpHalt_canonical x d a b s
  | .spMread x d a b => execSpMread_canonical x d a b s
  | .spIllegal x word => execSpIllegal_canonical x word s
  | .waittRelease x now => execWaittRelease_canonical x now s
  | .waitdRelease x now => execWaitdRelease_canonical x now s
  | .waiteRelease x now => execWaiteRelease_canonical x now s
  | .hopComplete x now cal => execHopComplete_canonical x now cal s
  | .txcwComplete x now pafb pacur => execTxcwComplete_canonical x now pafb pacur s
  | .txsymComplete x now => execTxsymComplete_canonical x now s
  | .rxwinComplete x now reply => execRxwinComplete_canonical x now reply s
  | .sniffComplete x now g => execSniffComplete_canonical x now g s
  | .rfoffComplete x now => execRfoffComplete_canonical x now s
  | .lchComplete x now cal => execLchComplete_canonical x now cal s
  | .ltxComplete x now => execLtxComplete_canonical x now s
  | .lrxComplete x now frame => execLrxComplete_canonical x now frame s
  | .lccaComplete x now dbm => execLccaComplete_canonical x now dbm s
  | .loffComplete x now => execLoffComplete_canonical x now s
  | .kselComplete x now => execKselComplete_canonical x now s
  | .aesbComplete x now => execAesbComplete_canonical x now s
  | .rngComplete x now => execRngComplete_canonical x now s
  | .airGrant now => execAirGrant_canonical now s
  | .noWaitAirDenied x now => execNoWaitAirDenied_canonical x now s
  | .budgetWatchdog x => execBudgetWatchdog_canonical x s
  | .hostFrame p bus data lag => execHostFrame_canonical p bus data lag s
  | .spiInvalidTransaction p first => execSpiInvalidTransaction_canonical p first s
  | .frameAbort p => execFrameAbort_canonical p s
  | .uartGapTimeout => execUartGapTimeout_canonical s
  | .uartFramingError => execUartFramingError_canonical s
  | .outgoingFrameDelivered p bus => execOutgoingFrameDelivered_canonical p bus s
  | .uartHdxReply n => execUartHdxReply_canonical n s
  | .spiPortResetSequence p => execSpiPortResetSequence_canonical p s
  | .i2cStuckBus => execI2cStuckBus_canonical s
  | .uartBreak => execUartBreak_canonical s
  | .vioReturn => execVioReturn_canonical s
  | .presenceTimeout p now => execPresenceTimeout_canonical p now s
  | .powerOnReset => execPowerOnReset_canonical s
  | .nreset ns => execNreset_canonical ns s
  | .resetRelease spaSdo addr1 addr0 test f => execResetRelease_canonical spaSdo addr1 addr0 test f s
  | .startComplete => execStartComplete_canonical s
  | .keelWatchdogExpiry f => execKeelWatchdogExpiry_canonical f s
  | .xo24Timeout => execXo24Timeout_canonical s
  | .xo32Timeout => execXo32Timeout_canonical s
  | .xo32Stop => execXo32Stop_canonical s
  | .wakePin => execWakePin_canonical s
  | .portWakeEdge e addr => execPortWakeEdge_canonical e addr s
  | .wakeComplete aonCycles => execWakeComplete_canonical aonCycles s
  | .regulatorTimeout => execRegulatorTimeout_canonical s
  | .sleepEntry now vhu => execSleepEntry_canonical now vhu s
  | .pwrfail now ns vhu headerLanded => execPwrfail_canonical now ns vhu headerLanded s
  | .holdEntry => execHoldEntry_canonical s
  | .pwrfailClear => execPwrfailClear_canonical s
  | .deepCalibration core now temp => execDeepCalibration_canonical core now temp s
  | .coexGntChange now ns level => execCoexGntChange_canonical now ns level s
  | .coexLeadElapsed now => execCoexLeadElapsed_canonical now s
  | .coexWaitExpiry now => execCoexWaitExpiry_canonical now s
  | .roundEnd x now => execRoundEnd_canonical x now s
  | .inventoryDurExpiry x now => execInventoryDurExpiry_canonical x now s
  | .fccBudgetWaitEnd x now => execFccBudgetWaitEnd_canonical x now s
  | .etsiReturnWaitEnd x now => execEtsiReturnWaitEnd_canonical x now s
  | .sniffBurstDue now => execSniffBurstDue_canonical now s
  | .paIlimTrip now => execPaIlimTrip_canonical now s
  | .compensationRecompute smp => execCompensationRecompute_canonical smp s
  | .linkCompensation smp => execLinkCompensation_canonical smp s
  | .cancellerConverged tapL jammerDbm suppHalfDb => execCancellerConverged_canonical tapL jammerDbm suppHalfDb s
  | .tapLSaturation => execTapLSaturation_canonical s
  | .rxGainStep now levelDbm => execRxGainStep_canonical now levelDbm s
  | .adcClip now => execAdcClip_canonical now s
  | .fieldQualified now levelDbm => execFieldQualified_canonical now levelDbm s
  | .fieldDrop now => execFieldDrop_canonical now s
  | .tagSelect target action bank ptr mask => execTagSelect_canonical target action bank ptr mask s
  | .tagQuery sel sess targetB dr m trext trcal => execTagQuery_canonical sel sess targetB dr m trext trcal s
  | .tagAck rn16 => execTagAck_canonical rn16 s
  | .tagRead handle bank ptr count => execTagRead_canonical handle bank ptr count s
  | .fz1Received handle msg now => execFz1Received_canonical handle msg now s
  | .fz3Received handle msg now => execFz3Received_canonical handle msg now s
  | .tam1Received handle msg => execTam1Received_canonical handle msg s
  | .sessionMessage handle msg => execSessionMessage_canonical handle msg s
  | .readoutRead off len => execReadoutRead_canonical off len s
  | .readoutInfo now => execReadoutInfo_canonical now s
  | .readoutClose => execReadoutClose_canonical s
  | .authBackoffExpiry now => execAuthBackoffExpiry_canonical now s
  | .fz2Reply x msg rateHz now => execFz2Reply_canonical x msg rateHz now s
  | .fz3Reply x msg rateHz now => execFz3Reply_canonical x msg rateHz now s
  | .sessionReply x msg rateHz now => execSessionReply_canonical x msg rateHz now s
  | .tam1Response x msg rateHz now => execTam1Response_canonical x msg rateHz now s
  | .tagReplyTimeout x now => execTagReplyTimeout_canonical x now s
  | .sessionIdleTimeout x now => execSessionIdleTimeout_canonical x now s
  | .sessionDwellHop x now cal => execSessionDwellHop_canonical x now cal s
  | .laneDetection found now => execLaneDetection_canonical found now s
  | .diversityDecision here there => execDiversityDecision_canonical here there s
  | .sfdTimeout now => execSfdTimeout_canonical now s
  | .phrReceived len hcs asksAck => execPhrReceived_canonical len hcs asksAck s
  | .linkFrameReceived f now => execLinkFrameReceived_canonical f now s
  | .ackTransmit now => execAckTransmit_canonical now s
  | .beaconDue now => execBeaconDue_canonical now s
  | .sendTimeDue now => execSendTimeDue_canonical now s
  | .csmaBackoffEnd now => execCsmaBackoffEnd_canonical now s
  | .ccaResult now dbm => execCcaResult_canonical now dbm s
  | .linkTxEnd now => execLinkTxEnd_canonical now s
  | .ackReceived now f => execAckReceived_canonical now f s
  | .ackWindowExpiry now => execAckWindowExpiry_canonical now s
  | .nbrAgeing now => execNbrAgeing_canonical now s
  | .listenDurExpiry x now => execListenDurExpiry_canonical x now s
  | .compareFire k now => execCompareFire_canonical k now s
  | .compareWakeLead aonCycles => execCompareWakeLead_canonical aonCycles s
  | .dcFire n now => execDcFire_canonical n now s
  | .captureEdge n rising now => execCaptureEdge_canonical n rising now s
  | .toutPulseEnd n now => execToutPulseEnd_canonical n now s
  | .tamperAssertion now => execTamperAssertion_canonical now s
  | .drbgReseed passed => execDrbgReseed_canonical passed s
  | .entropyRetry passed => execEntropyRetry_canonical passed s
  | .blockReply block x epoch => execBlockReply_canonical block x epoch s
  | .storeCommit vhu badWrites => execStoreCommit_canonical vhu badWrites s
  | .ballastRecheck now vhu badWrites => execBallastRecheck_canonical now vhu badWrites s
  | .wearMoveStep => execWearMoveStep_canonical s
  | .coldSectorMove sector => execColdSectorMove_canonical sector s
  | .intervalBoundary now => execIntervalBoundary_canonical now s
  | .ledgerSealLanded => execLedgerSealLanded_canonical s
  | .surveySample now smp => execSurveySample_canonical now smp s
  | .scheduledSweep now => execScheduledSweep_canonical now s
  | .sweepTimeout now => execSweepTimeout_canonical now s
  | .sweepComplete now => execSweepComplete_canonical now s
  | .telemetrySnapshot now smp => execTelemetrySnapshot_canonical now smp s
  | .daylightWindowOpen now => execDaylightWindowOpen_canonical now s
  | .mendStep now found => execMendStep_canonical now found s
  | .daylightWindowEnd => execDaylightWindowEnd_canonical s
  | .sramCorrection bank row now => execSramCorrection_canonical bank row now s
  | .uncorrectableSramError bank row vhu f => execUncorrectableSramError_canonical bank row vhu f s
  | .synthCheckCalibration core passed => execSynthCheckCalibration_canonical core passed s
  | .mendResourceSwitch r => execMendResourceSwitch_canonical r s
  | .unassignedOpcode c op => execUnassignedOpcode_canonical c op s
  | .xo32Ready => execXo32Ready_canonical s
  | .vioLoss => execVioLoss_canonical s
  | .partialDelivery p bus n => execPartialDelivery_canonical p bus n s
  | .sweepPointDone now g => execSweepPointDone_canonical now g s

theorem step_canonical (s : State) : NextCanonical s (step s) := by
  rw [step]
  split
  · simp
  · exact exec_canonical _ { s with pending := _ }

/-- Settles O51: the memories of a step's next state are canonical where those before it are. -/
theorem memoriesStayCanonical : Obligations.MemoriesStayCanonical := by
  unfold Obligations.MemoriesStayCanonical
  intro s t hs h
  rw [memoriesCanonical_iff] at hs ⊢
  obtain ⟨u, hu, kept⟩ := step_canonical s
  rw [h] at hu
  cases hu
  exact kept hs

/-- Settles O48: the step by its definition, the next state from the row of the dispatch. -/
theorem stepRunsFront : Obligations.StepRunsFront := by
  unfold Obligations.StepRunsFront
  refine ⟨⟨fun c rest s hp => ?front, fun s hp => ?idle⟩, fun s => ?next⟩
  case front => rw [step, hp]
  case idle =>
    rw [step, hp]
    rfl
  case next =>
    obtain ⟨t, ht, -⟩ := step_canonical s
    exact ⟨t, ht⟩

end Sys2Proof.Machine
end

section
/-!
PROOFS. Random bytes, the CRYPTO commands and Bridle's own events (6.11, 16.9).
-/
namespace Sys2Proof.Machine

section Command
variable {c : Cmd} {s u v : State}

/-- R486, R488: the RNGs that wait take their bytes first. -/
theorem execRngGet_gives {out : Bytes} (h : Taken 0x4800 c s u) (hlen : c.args.length = 2) (hlow : 1 ≤ fld c.args 0 2)
    (hhigh : fld c.args 0 2 ≤ 512) (hdrbg : drbgTake (fld c.args 0 2) (serveRng u) = some (out, v)) :
    execRngGet c s = .next (reply c.t stOk out v) := by
  rw [execRngGet, keelRun_some _ _ _ _ _ h]
  dsimp only
  rw [if_neg (by omega), hdrbg]

/-- The three modes of CRYPTO.AES, by number. -/
theorem aesMode_match {α : Type} (m : Nat) (ecbOut cbcOut ctrOut : α) :
    (match m with | 0 => ecbOut | 1 => cbcOut | _ => ctrOut) = if m = 0 then ecbOut else if m = 1 then cbcOut else ctrOut := by
  match m with
  | 0 => rfl
  | 1 => rfl
  | _ + 2 => rfl

theorem execCryptoAes_gives {key : Bytes} {mode len : Nat} (h : Taken 0x4801 c s u) (hmode : mode = fld c.args 0 1)
    (hfield : len = fld c.args 18 2) (hlen : c.args.length = 20 + len) (hlow : 1 ≤ len) (hhigh : len ≤ 512)
    (hknown : mode % 128 ≤ 2) (hblocks : mode % 128 < 2 → len % 16 = 0)
    (hkey : useKey c.t (fld c.args 1 1) (if 128 ≤ mode then isDec else isEnc) u = .ok (key, v)) :
    execCryptoAes c s = .next (reply c.t stOk
      (if mode % 128 = 0 then ecb (decide (128 ≤ mode)) key (c.args.drop 20)
       else if mode % 128 = 1 then
         (if 128 ≤ mode then cbcDec key ((c.args.drop 2).take 16) (c.args.drop 20)
          else cbcEnc key ((c.args.drop 2).take 16) (c.args.drop 20))
       else ctrMode key ((c.args.drop 2).take 16) (c.args.drop 20)) v) := by
  rw [execCryptoAes, keelRun_some _ _ _ _ _ h]
  simp only [← hmode, ← hfield, decide_eq_true_eq]
  rw [if_neg (by omega), hkey]
  exact congrArg (fun out => Host.Outcome.next (reply c.t stOk out v)) (aesMode_match _ _ _ _)

section Ccm
variable {key : Bytes} {nl tl al pl : Nat} (h : Taken 0x4802 c s u) (hnl : nl = fld c.args 2 1) (htl : tl = fld c.args (3 + nl) 1)
  (hal : al = fld c.args (4 + nl) 2) (hpl : pl = fld c.args (6 + nl + al) 2) (hlen : c.args.length = 8 + nl + al + pl)
  (hdir : fld c.args 0 1 ≤ 1) (hlow : 7 ≤ nl) (hhigh : nl ≤ 13) (htag : tl = 4 ∨ tl = 8 ∨ tl = 16)
  (hroom : fld c.args 0 1 = 1 → tl ≤ pl)
  (hkey : useKey c.t (fld c.args 1 1) (if fld c.args 0 1 = 1 then isDec else isEnc) u = .ok (key, v))
include h hnl htl hal hpl hlen hdir hlow hhigh htag hroom hkey

/-- CRYPTO.CCM with arguments and a key that pass their checks comes to its direction. -/
theorem execCryptoCcm_turns : execCryptoCcm c s = .next (
    if fld c.args 0 1 = 0 then
      reply c.t stOk (ccmEnc key ((c.args.drop 3).take nl) ((c.args.drop (6 + nl)).take al) (c.args.drop (8 + nl + al)) tl) v
    else (ccmDec key ((c.args.drop 3).take nl) ((c.args.drop (6 + nl)).take al) (c.args.drop (8 + nl + al)) tl).elim
      (refuse c.t stAuthFail v) fun p => reply c.t stOk p v) := by
  have sized : (!(tl == 4 || tl == 8 || tl == 16)) = false := by
    obtain rfl | rfl | rfl := htag <;> rfl
  rw [execCryptoCcm, keelRun_some _ _ _ _ _ h]
  simp only [← hnl, ← htl, ← hal, ← hpl, sized, Bool.false_eq_true, false_or]
  rw [if_neg (by omega), hkey]
  dsimp only
  cases ccmDec key _ _ _ tl <;> rfl

theorem execCryptoCcm_encrypts (hseal : fld c.args 0 1 = 0) : execCryptoCcm c s = .next (reply c.t stOk
    (ccmEnc key ((c.args.drop 3).take nl) ((c.args.drop (6 + nl)).take al) (c.args.drop (8 + nl + al)) tl) v) := by
  rw [execCryptoCcm_turns h hnl htl hal hpl hlen hdir hlow hhigh htag hroom hkey, if_pos hseal]

theorem execCryptoCcm_decrypts (hopen : fld c.args 0 1 = 1) {p : Bytes} (hp : ccmDec key ((c.args.drop 3).take nl)
    ((c.args.drop (6 + nl)).take al) (c.args.drop (8 + nl + al)) tl = some p) :
    execCryptoCcm c s = .next (reply c.t stOk p v) := by
  rw [execCryptoCcm_turns h hnl htl hal hpl hlen hdir hlow hhigh htag hroom hkey, if_neg (by omega), hp]
  rfl

/-- R634: nothing is given out. -/
theorem execCryptoCcm_rejects (hopen : fld c.args 0 1 = 1) (hp : ccmDec key ((c.args.drop 3).take nl)
    ((c.args.drop (6 + nl)).take al) (c.args.drop (8 + nl + al)) tl = none) :
    execCryptoCcm c s = .next (refuse c.t stAuthFail v) := by
  rw [execCryptoCcm_turns h hnl htl hal hpl hlen hdir hlow hhigh htag hroom hkey, if_neg (by omega), hp]
  rfl

end Ccm

section Cmac
variable {key : Bytes} {tl len : Nat} (h : Taken 0x4803 c s u) (htl : tl = fld c.args 2 1) (hfield : len = fld c.args 3 2)
  (hdir : fld c.args 0 1 ≤ 1) (hlow : 4 ≤ tl) (hhigh : tl ≤ 16) (hmax : len ≤ 960)
  (hlen : c.args.length = 5 + len + (if fld c.args 0 1 = 1 then tl else 0))
  (hkey : useKey c.t (fld c.args 1 1) (if fld c.args 0 1 = 1 then isDec else isEnc) u = .ok (key, v))
include h htl hfield hdir hlow hhigh hmax hlen hkey

/-- CRYPTO.CMAC with arguments and a key that pass their checks comes to its direction. -/
theorem execCryptoCmac_turns : execCryptoCmac c s = .next (
    if fld c.args 0 1 = 0 then reply c.t stOk ((cmac key ((c.args.drop 5).take len)).take tl) v
    else if (cmac key ((c.args.drop 5).take len)).take tl = c.args.drop (5 + len) then reply c.t stOk [] v
    else refuse c.t stAuthFail v) := by
  rw [execCryptoCmac, keelRun_some _ _ _ _ _ h]
  simp only [← htl, ← hfield]
  rw [if_neg (by omega), hkey]

theorem execCryptoCmac_generates (hgen : fld c.args 0 1 = 0) :
    execCryptoCmac c s = .next (reply c.t stOk ((cmac key ((c.args.drop 5).take len)).take tl) v) := by
  rw [execCryptoCmac_turns h htl hfield hdir hlow hhigh hmax hlen hkey, if_pos hgen]

theorem execCryptoCmac_verifies (hver : fld c.args 0 1 = 1)
    (htag : (cmac key ((c.args.drop 5).take len)).take tl = c.args.drop (5 + len)) :
    execCryptoCmac c s = .next (reply c.t stOk [] v) := by
  rw [execCryptoCmac_turns h htl hfield hdir hlow hhigh hmax hlen hkey, if_neg (by omega), if_pos htag]

theorem execCryptoCmac_rejects (hver : fld c.args 0 1 = 1)
    (htag : (cmac key ((c.args.drop 5).take len)).take tl ≠ c.args.drop (5 + len)) :
    execCryptoCmac c s = .next (refuse c.t stAuthFail v) := by
  rw [execCryptoCmac_turns h htl hfield hdir hlow hhigh hmax hlen hkey, if_neg (by omega), if_neg htag]

end Cmac

end Command

/-- Settles O27, one command after the other. -/
theorem cryptoCommandsComplete : Obligations.CryptoCommandsComplete := by
  unfold Obligations.CryptoCommandsComplete
  refine ⟨fun c s u v out h => execRngGet_gives h, fun c s u v key mode len h => execCryptoAes_gives h,
    fun c s u v key nl tl al pl h hnl htl hal hpl hlen hdir hlow hhigh htag hroom hkey => ⟨?encrypt, ?decrypt, ?unsealed⟩,
    fun c s u v key tl len h htl hfield hdir hlow hhigh hmax hlen hkey => ⟨?generate, ?verify, ?mismatch⟩⟩
  case encrypt => exact execCryptoCcm_encrypts h hnl htl hal hpl hlen hdir hlow hhigh htag hroom hkey
  case decrypt =>
    exact fun hopen p => execCryptoCcm_decrypts h hnl htl hal hpl hlen hdir hlow hhigh htag hroom hkey hopen
  case unsealed => exact execCryptoCcm_rejects h hnl htl hal hpl hlen hdir hlow hhigh htag hroom hkey
  case generate => exact execCryptoCmac_generates h htl hfield hdir hlow hhigh hmax hlen hkey
  case verify => exact execCryptoCmac_verifies h htl hfield hdir hlow hhigh hmax hlen hkey
  case mismatch => exact execCryptoCmac_rejects h htl hfield hdir hlow hhigh hmax hlen hkey

-- ------------------------------------------------------------------ Bridle's own events

section Event
variable {s : State}

theorem execDrbgReseed_passed (hsource : s.bri.entLost = false) :
    execDrbgReseed true s = .next (if s.bri.drbgOk = true then drbgFresh (setBri (fun b => { b with entRun := 0 }) s)
      else drbgStart (setBri (fun b => { b with entRun := 0 }) s)) := by
  rw [execDrbgReseed, hsource, if_neg Bool.false_ne_true, if_pos rfl]
  rfl

theorem execEntropyRetry_counts (hlost : s.bri.entLost = true) (hfew : s.bri.entPass < 2) :
    execEntropyRetry true s = .next (setBri (fun b => { b with entPass := b.entPass + 1 }) s) := by
  rw [execEntropyRetry, hlost, if_neg (by decide), if_pos rfl, if_pos (by omega)]

/-- R489: the source is back, and the DRBG is instantiated from it. -/
theorem execEntropyRetry_restores (hlost : s.bri.entLost = true) (hthird : 2 ≤ s.bri.entPass) :
    execEntropyRetry true s = .next (drbgStart (setMend (fun m => { m with lost := m.lost &&& ~~~0x200 })
      (setBri (fun b => { b with entLost := false, entPass := 0, entRun := 0 }) s))) := by
  rw [execEntropyRetry, hlost, if_neg (by decide), if_pos rfl, if_neg (by omega)]

/-- R587: the reply of the engine's one request takes it out, and counts it where its tenant reset the block. -/
theorem execBlockReply_engine (e : EngineReq) (hengine : s.bri.engine = [e]) :
    execBlockReply 2 e.who e.epoch s = .next
      (if e.stale then countStale (setBri (fun b => { b with engine := [] }) s) else setBri (fun b => { b with engine := [] }) s) := by
  simp [execBlockReply, hengine, dropFirst, setBri]

end Event

/-- Settles O28, one event after the other. -/
theorem bridleEventsComplete : Obligations.BridleEventsComplete := by
  unfold Obligations.BridleEventsComplete
  refine ⟨fun s hsource => ⟨fun hdrbg => ?begun, fun hdrbg => ?renewed⟩, fun s hlost => ⟨?counted, fun hthird => ?back⟩,
    fun x epoch s => ⟨rfl, rfl, rfl, fun e hengine hwho hepoch => ?engine⟩⟩
  case begun => exact (execDrbgReseed_passed hsource).trans (by rw [hdrbg, if_neg Bool.false_ne_true])
  case renewed => exact (execDrbgReseed_passed hsource).trans (by rw [hdrbg, if_pos rfl])
  case counted => exact execEntropyRetry_counts hlost
  case back => exact ⟨_, execEntropyRetry_restores hlost hthird, rfl, rfl, rfl⟩
  case engine =>
    subst hwho hepoch
    refine ⟨_, execBlockReply_engine e hengine, ?_⟩
    cases e.stale <;> exact ⟨rfl, rfl⟩

end Sys2Proof.Machine
end

section
/-!
PROOFS. The NVM commands, and the events of the store and the ledger (chapters 19 and 20).
-/
namespace Sys2Proof.Machine

section Command
variable {c : Cmd} {s u : State}

/-- R517: no page that the read touches is lost. -/
theorem execNvmRead_reads (h : Taken 0x7000 c s u) (hlen : c.args.length = 4) (hlow : 1 ≤ fld c.args 2 2)
    (hhigh : fld c.args 2 2 ≤ 1000) (hinside : fld c.args 0 2 + fld c.args 2 2 ≤ 16384) (hmap : bit u.mend.lost 10 = false)
    (hpages : ∀ e ∈ u.store.badPages, e.1 = c.t → e.2 ∉ pagesOf (fld c.args 0 2) (fld c.args 2 2)) :
    execNvmRead c s = .next (reply c.t stOk (memGetAll u.store.areas[c.t] (fld c.args 0 2) (fld c.args 2 2)) u) := by
  have readable : (u.store.badPages.any fun e => e.1 == c.t && (pagesOf (fld c.args 0 2) (fld c.args 2 2)).contains e.2) = false := by
    simpa [List.any_eq_false] using hpages
  rw [execNvmRead, keelRun_some _ _ _ _ _ h]
  dsimp only
  rw [if_neg (by omega), hmap, if_neg Bool.false_ne_true, readable, if_neg Bool.false_ne_true]

/-- R517, R519: the command waits for its commit. -/
theorem execNvmWrite_queues {job : Job} (h : Taken 0x7001 c s u) (hlen : c.args.length = 4 + fld c.args 2 2)
    (hlow : 1 ≤ fld c.args 2 2) (hhigh : fld c.args 2 2 ≤ 512)
    (hinside : fld c.args 0 2 + fld c.args 2 2 ≤ 16384) (hmap : bit u.mend.lost 10 = false)
    (hpages : ∀ e ∈ u.store.badPages, e.1 ≠ c.t) (hjob : u.tens[c.t].exec = some job) :
    execNvmWrite c s = .next (queueCommit (.nvmWrite c.t job (fld c.args 0 2) (c.args.drop 4))
      (2 * (pagesOf (fld c.args 0 2) (fld c.args 2 2)).length + 1) u) := by
  have whole (p : Tenant × Nat → Bool) : (u.store.badPages.any fun e => e.1 == c.t && p e) = false := by
    simp only [List.any_eq_false, Bool.and_eq_true, beq_iff_eq]
    exact fun e he hbad => hpages e he hbad.1
  rw [execNvmWrite, keelRun_some _ _ _ _ _ h]
  dsimp only
  rw [if_neg (by omega), hmap, if_neg Bool.false_ne_true, whole, if_neg Bool.false_ne_true, hjob]

/-- R521, R635: in force before its commit lands. -/
theorem execNvmBallast_sets (h : Taken 0x7002 c s u) (ht : c.t = 0) (hlen : c.args.length = 6) (hcap : fld c.args 0 4 ≤ 100000000)
    (hvmin : 0 < fld c.args 0 4 → 1000 ≤ fld c.args 4 2 ∧ fld c.args 4 2 ≤ 5500) :
    execNvmBallast c s = .next (reply c.t stOk [] (queueCommit (.ballast (fld c.args 0 4) (fld c.args 4 2)) 1
      (setStore (fun w => { w with balC := fld c.args 0 4, vmin := fld c.args 4 2 }) u))) := by
  rw [execNvmBallast, keelRun_some _ _ _ _ _ h]
  dsimp only
  rw [if_neg (not_not_intro hlen), isT0_of_t0 ht, if_neg Bool.false_ne_true, if_neg (by omega)]

theorem execNvmStatus_reads (h : Taken 0x7003 c s u) (hargs : c.args = []) :
    execNvmStatus c s = .next (reply c.t stOk (BitVec.ofNat 8 (8 - u.store.retired.length) :: (leBytes 2 u.store.defer ++
      leBytes 4 u.store.commits ++ leBytes 4 (min 0xFFFFFFFF (maxWear u.store)))) u) := by
  rw [execNvmStatus, keelRun_some _ _ _ _ _ h, if_neg (by simp [hargs])]

end Command

/-- Settles O30, one command after the other. -/
theorem storeCommandsComplete : Obligations.StoreCommandsComplete := by
  unfold Obligations.StoreCommandsComplete
  exact ⟨fun c s u h => execNvmRead_reads h, fun c s u job h _ => execNvmWrite_queues h, fun c s u h => execNvmBallast_sets h,
    fun c s u h => execNvmStatus_reads h⟩

-- ------------------------------------------------------------------ the store's events

section Store
variable {s : State}

theorem execStoreCommit_checks (vhu bad : Nat) {c : Commit} {rest : List Commit} (hlive : live s = true)
    (hqueue : s.store.queue = c :: rest) :
    execStoreCommit vhu bad s = .next (if ballastOk s.store vhu (queuedPages s.store) = true then
        runCommit c bad (setStore (fun w => { w with queue := rest }) (ballastSample vhu s))
      else deferCommit c (setStore (fun w => { w with queue := rest }) (ballastSample vhu s))) := by
  rw [execStoreCommit, hlive, if_neg (by decide), hqueue]

theorem execBallastRecheck_checks {now : Tick} {u : State} (hu : advanceTo now s = u) (vhu bad : Nat) {c : Commit}
    {rest : List Commit} (hlive : live u = true) (hdeferred : u.store.deferred = c :: rest) :
    execBallastRecheck now vhu bad s = .next (if ballastOk u.store vhu (queuedPages u.store) = true then
        runCommit c bad (setStore (fun w => { w with deferred := rest }) (ballastSample vhu u))
      else ballastSample vhu u) := by
  simp only [execBallastRecheck, hu]
  rw [hlive, if_neg (by decide), hdeferred]

/-- R531: two steps of 8 pages, and the map after the second. -/
theorem execWearMoveStep_copies {m : Move} (hlive : live s = true)
    (hqueue : s.store.queue.any (fun c => ofCommand c.kind) = false) (hmap : bit s.mend.lost 10 = false)
    (hmove : (s.store.moving.orElse fun _ => wearMove s.store) = some m) (hsteps : m.steps < 2) :
    execWearMoveStep s = .next (
      if m.steps = 1 then
        queueMap false (countWrites m.target 8 (setStore (fun w => { w with moving := some { m with steps := m.steps + 1 } }) s))
      else countWrites m.target 8 (setStore (fun w => { w with moving := some { m with steps := m.steps + 1 } }) s)) := by
  rw [execWearMoveStep, hlive, hqueue, hmap, if_neg (by decide), hmove]
  exact if_neg (by omega)

/-- A spare drawn by any number is one of the spares. -/
theorem draw_mem {α : Type} {l : List α} (hl : l ≠ []) (v : Nat) : ∃ p ∈ l, l[v % l.length]? = some p :=
  have inside := Nat.mod_lt v (List.length_pos_iff.mpr hl)
  ⟨_, List.getElem_mem inside, List.getElem?_eq_getElem inside⟩

/-- R532 (log entry 12): a cold sector's move begins, to one of the spares. -/
theorem execColdSectorMove_begins {n : Nat} (hlive : live s = true) (hidle : s.store.moving = none) (hlow : 3 ≤ n)
    (hhigh : n ≤ 127) (hmap : bit s.mend.lost 10 = false) (hcold : coldSector (physOf s.store n) s = true)
    (hspare : spareSectors s.store ≠ []) :
    ∃ p ∈ spareSectors s.store, execColdSectorMove n s =
      .next (setStore (fun w => { w with moving := some { logical := n, target := p, steps := 0 } }) (drawNat s).2) := by
  obtain ⟨p, hp, hdraw⟩ := draw_mem hspare (drawNat s).1
  refine ⟨p, hp, ?_⟩
  rw [execColdSectorMove]
  dsimp only
  rw [if_neg (by simp [hlive, hidle, hmap, hcold]; omega), hdraw]

theorem execColdSectorMove_stays {n : Nat} (hwarm : coldSector (physOf s.store n) s = false) :
    execColdSectorMove n s = .next s := by
  rw [execColdSectorMove]
  dsimp only
  rw [if_pos (by simp [hwarm])]

/-- R533: the interval is sealed at its boundary, however late Reel has come to it. -/
theorem boundaryIfDue_reached {iv : Interval} (hopen : s.ldg.cur = some iv) (hdue : reached s.reel.cnt iv.endsAt = true) :
    boundaryIfDue s = openInterval iv.endsAt (sealOpen 0 (ledgerMs s iv.endsAt) s) := by
  rw [boundaryIfDue, hopen]
  exact if_pos hdue

theorem execIntervalBoundary_live (now : Tick) (hmode : s.power.mode = .run ∨ s.power.mode = .limp) :
    execIntervalBoundary now s = .next (boundaryIfDue (advanceTo now s)) := by
  rw [execIntervalBoundary, if_pos (by simpa using hmode)]

theorem execLedgerSealLanded_tells {e : Nat × BitVec 16} {rest : List (Nat × BitVec 16)} (htell : s.ldg.toTell = e :: rest) :
    execLedgerSealLanded s = .next (raise s.ldg.owner evLedgerSealed (leBytes 4 e.1 ++ leBytes 2 e.2.toNat)
      (setLdg (fun l => { l with toTell := rest }) s)) := by
  rw [execLedgerSealLanded, htell]

end Store

/-- Settles O34, one event after the other. -/
theorem storeAndLedgerEvents : Obligations.StoreAndLedgerEvents := by
  unfold Obligations.StoreAndLedgerEvents
  refine ⟨⟨fun vhu bad s c rest hlive hqueue => ⟨fun hok => ?runs, fun hlow => ?deferred⟩,
    fun now vhu bad s c rest hlive hdeferred => ⟨fun hok => ?runsNext, fun hlow => ?waits⟩,
    fun s m => execWearMoveStep_copies,
    fun n s hlive hidle hlow hhigh hmap => ⟨fun hold hspare => ?cold, fun hwarm => ?warm⟩⟩,
    fun now s iv hmode hopen hdue => ?boundary, fun s e rest => execLedgerSealLanded_tells⟩
  case runs => exact (execStoreCommit_checks vhu bad hlive hqueue).trans (by rw [if_pos hok])
  case deferred => exact (execStoreCommit_checks vhu bad hlive hqueue).trans (by rw [hlow, if_neg Bool.false_ne_true])
  case runsNext => exact (execBallastRecheck_checks rfl vhu bad hlive hdeferred).trans (by rw [if_pos hok])
  case waits => exact (execBallastRecheck_checks rfl vhu bad hlive hdeferred).trans (by rw [hlow, if_neg Bool.false_ne_true])
  case cold =>
    obtain ⟨p, hp, hnext⟩ := execColdSectorMove_begins hlive hidle hlow hhigh hmap (by simpa [coldSector] using hold) hspare
    exact ⟨_, _, hnext, rfl, rfl, hp, rfl⟩
  case warm => exact execColdSectorMove_stays (by simpa [coldSector] using hwarm)
  case boundary => exact (execIntervalBoundary_live now hmode).trans (by rw [boundaryIfDue_reached hopen hdue])

end Sys2Proof.Machine
end

section
/-!
PROOFS. Mend's events (chapter 22).
-/
namespace Sys2Proof.Machine

section Event
variable {s : State}

/-- What the opening of a window does (R570, R573; log entry 52). -/
def windowOpened (s : State) : State :=
  setMend (fun m => { m with
    winOpen := true
    openedAt := some s.reel.cnt
    days := satInc 0xFFFF m.days
    overdue := m.overdue || decide (3 ≤ satInc 0xFFFF m.days) }) s

section Now
variable {now : Tick} {u : State} (hu : advanceTo now s = u)
include hu

theorem execDaylightWindowOpen_wakes (hsleep : u.power.mode = .sleep) :
    execDaylightWindowOpen now s = .next (startWake .keel u) := by
  simp only [execDaylightWindowOpen, hu]
  rw [if_pos (by simp [hsleep])]

/-- R570: once a window, so not where the last opening is less than a window's length ago. -/
theorem execDaylightWindowOpen_opens (hrun : u.power.mode = .run) (hin : inWindow u = true) (hclosed : u.mend.winOpen = false)
    (hnew : ∀ t, u.mend.openedAt = some t → u.mend.winLen * minTicks ≤ ticksBetween t u.reel.cnt) :
    execDaylightWindowOpen now s = .next (windowOpened u) := by
  simp only [execDaylightWindowOpen, hu]
  rw [if_neg (by simp [hrun]), if_pos]
  · rfl
  · cases hat : u.mend.openedAt with
    | none => simp [hrun, hin, hclosed]
    | some t => simpa [hrun, hin, hclosed] using hnew t hat

theorem execMendStep_advances (found : Option MendRes) (hrun : u.power.mode = .run) (hopen : u.mend.winOpen = true)
    (hidle : stepIdle u.mend.step u = true) {v : State}
    (hv : stepRepair u.mend.step found (keyTested u.mend.step
      (setMend (fun m => { m with running := true, step := m.step + 1 }) u)) = v) :
    execMendStep now found s = .next (if v.mend.step < 586 then v else testDone v) := by
  simp only [execMendStep, hu, hv]
  rw [if_pos (by simp [hrun, hopen, hidle])]
  rfl

end Now

section Row
variable (bank : Fin 16) (row : BitVec 8)

/-- An entry of the list of corrections is of this row. -/
def ofRow (e : Nat × Nat × Tick) : Bool := e.1 == bank.val && e.2.1 == row.toNat

/-- An entry of the list of corrections is of this row, and no more than 24 h old (R579). -/
def recentOf (cnt : Tick) (e : Nat × Nat × Tick) : Bool :=
  ofRow bank row e && decide (ticksBetween e.2.2 cnt ≤ 1440 * minTicks)

theorem any_recentOf (cnt : Tick) (l : List (Nat × Nat × Tick)) :
    l.any (recentOf bank row cnt) = true ↔
      ∃ at_ : Tick, (bank.val, row.toNat, at_) ∈ l ∧ ticksBetween at_ cnt ≤ 1440 * minTicks := by
  simp only [List.any_eq_true, recentOf, ofRow, Bool.and_eq_true, beq_iff_eq, decide_eq_true_eq]
  constructor
  · rintro ⟨⟨b, r, t⟩, hmem, ⟨rfl, rfl⟩, hrecent⟩
    exact ⟨t, hmem, hrecent⟩
  · rintro ⟨t, hmem, hrecent⟩
    exact ⟨_, hmem, ⟨rfl, rfl⟩, hrecent⟩

theorem execSramCorrection_live {now : Tick} {u : State} (hu : advanceTo now s = u) (hlive : live u = true)
    {rest : List (Nat × Nat × Tick)} (hrest : u.mend.scrub.filter (fun e => !ofRow bank row e) = rest) :
    execSramCorrection bank row now s = .next (if u.mend.scrub.any (recentOf bank row u.reel.cnt) = true then
        mendRepair (.row bank row) (setMend (fun m => { m with scrub := rest }) u)
      else setMend (fun m => { m with scrub := rest ++ [(bank.val, row.toNat, u.reel.cnt)] }) u) := by
  subst hrest
  simp only [execSramCorrection, hu]
  rw [hlive, if_neg (by decide), apply_ite Host.Outcome.next]
  rfl

end Row

/-- Three failed channel changes have called for a check of the core's synthesizer (R583). -/
def checkDue (core : CoreId) (s : State) : Bool :=
  match core with
  | .reader => s.mend.checkR
  | .link => s.mend.checkL

/-- The check has been made. -/
def checkMade (core : CoreId) (s : State) : State :=
  setMend (fun m => match core with
    | .reader => { m with checkR := false }
    | .link => { m with checkL := false }) s

theorem execSynthCheckCalibration_eq (core : CoreId) (passed : Bool) (s : State) :
    execSynthCheckCalibration core passed s = .next (
      if (s.power.mode == .run && checkDue core s && coreIdle core s && !s.radio.waiters.any fun r => r.core == core) = true then
        if passed = true then checkMade core s
        else if resIdle (.syn core) (checkMade core s) = true then mendRepair (.syn core) (checkMade core s)
        else setMend (fun m => { m with owed := m.owed ++ [.syn core] }) (checkMade core s)
      else s) := by
  simp only [execSynthCheckCalibration, ← apply_ite Host.Outcome.next]
  cases core <;> rfl

section Check
variable {core : CoreId} (hrun : s.power.mode = .run) (hdue : checkDue core s = true) (hidle : coreIdle core s = true)
  (hfree : s.radio.waiters.any (fun r => r.core == core) = false)
include hrun hdue hidle hfree

theorem execSynthCheckCalibration_passes : execSynthCheckCalibration core true s = .next (checkMade core s) := by
  rw [execSynthCheckCalibration_eq, if_pos (by simp [hrun, hdue, hidle, hfree]), if_pos rfl]

theorem execSynthCheckCalibration_loses (hnow : resIdle (.syn core) (checkMade core s) = true) :
    execSynthCheckCalibration core false s = .next (mendRepair (.syn core) (checkMade core s)) := by
  rw [execSynthCheckCalibration_eq, if_pos (by simp [hrun, hdue, hidle, hfree]), if_neg Bool.false_ne_true, if_pos hnow]

/-- R583 (log entry 52): a synthesizer in use is lost once it is idle. -/
theorem execSynthCheckCalibration_owes (hlater : resIdle (.syn core) (checkMade core s) = false) :
    execSynthCheckCalibration core false s =
      .next (setMend (fun m => { m with owed := m.owed ++ [.syn core] }) (checkMade core s)) := by
  rw [execSynthCheckCalibration_eq, if_pos (by simp [hrun, hdue, hidle, hfree]), if_neg Bool.false_ne_true, hlater,
    if_neg Bool.false_ne_true]

end Check

theorem execMendResourceSwitch_idle (r : MendRes) (hrun : s.power.mode = .run) (hdue : switchDue r s = true)
    (hidle : resIdle r s = true) :
    execMendResourceSwitch r s = .next (mendRepair r (setMend (fun m => { m with owed := m.owed.filter (· != r) }) s)) := by
  rw [execMendResourceSwitch, if_pos (by simp [hrun, hdue, hidle])]

end Event

/-- Settles O37, one event after the other. -/
theorem mendEventsComplete : Obligations.MendEventsComplete := by
  unfold Obligations.MendEventsComplete
  refine ⟨fun now s => ⟨execDaylightWindowOpen_wakes rfl, fun hrun hin hclosed hnew => ?opens⟩, fun s => rfl,
    fun now found s hrun hopen hidle => execMendStep_advances rfl found hrun hopen hidle rfl,
    fun bank row now s hlive => ⟨fun hrecent => ?spared, fun hold => ?kept⟩,
    fun core s hrun hdue hidle hfree => ⟨?passed, ?lost, ?owed⟩, fun r s => execMendResourceSwitch_idle r⟩
  case opens => exact ⟨_, execDaylightWindowOpen_opens rfl hrun hin hclosed hnew, rfl, rfl, rfl, rfl⟩
  case spared =>
    exact (execSramCorrection_live bank row rfl hlive rfl).trans (congrArg _ (if_pos ((any_recentOf bank row _ _).mpr hrecent)))
  case kept =>
    refine (execSramCorrection_live bank row rfl hlive rfl).trans (congrArg _ (if_neg fun hrecent => ?_))
    obtain ⟨t, hmem, hnear⟩ := (any_recentOf bank row _ _).mp hrecent
    exact absurd hnear (Nat.not_le.mpr (hold t hmem))
  case passed => exact execSynthCheckCalibration_passes hrun hdue hidle hfree
  case lost => exact execSynthCheckCalibration_loses hrun hdue hidle hfree
  case owed => exact execSynthCheckCalibration_owes hrun hdue hidle hfree

end Sys2Proof.Machine
end
